-- ==== Sys2Proof/Word.lean ====
section
/-!
DEFINITION. The machine's words: registers of 32 bits, bytes, and the numbers of ports, channels and
sequencer registers (R4, R216, R426).
-/

namespace Sys2Proof

/-- A register of the device is 32 bits wide (R4). -/
abbrev Word := BitVec 32

/-- A byte of a frame, of the SRAM or of the flash. -/
abbrev Byte := BitVec 8

/-- A host port, H0 to H3. -/
abbrev Port := Fin 4

/-- A field channel, CH0 to CH7. -/
abbrev Ch := Fin 8

/-- A general register of a sequencer, g0 to g7 (R216). -/
abbrev GReg := Fin 8

end Sys2Proof
end

