-- ==== Sys2Proof/Syntax.lean ====
section
/-!
DEFINITION. The commands of the device: one constructor of `Instr` for each row of the table of operations
and events. A host frame carries the frame itself; a register command carries the port and the fields that
the port writes; a sequencer instruction carries the channel and its operand fields; an event carries the
channel it happens on and what the outside world contributes to it (a measured value, a received frame,
the network time at which it falls).
-/

namespace Sys2Proof

/-- A host frame as clocked on HnSDI (R429), the opcode apart, which the row names. -/
structure Frame where
  /-- The port on which the frame is clocked. -/
  port : Port
  /-- The TAG byte (R430). -/
  tag : BitVec 8
  /-- The LEN field. -/
  len : BitVec 16
  /-- The ARG field. -/
  arg : Word
  /-- The payload bytes clocked. -/
  payload : List Byte
  /-- The CRC clocked (R433). -/
  crc : Word
  /-- Bytes after which HnCS_N rose; none when it rose after the bytes that the other fields give (R429). A field not yet
  clocked then stands for what the port took in its place. -/
  rise : Option Nat
  /-- HnSCK was high when HnCS_N fell: clock mode 3 (R427). -/
  mode3 : Bool
  deriving DecidableEq, Repr

/-- One bit period of a received frame. -/
inductive RxBit where
  /-- A Manchester bit: the energies, in dB relative to the reference level, of the half that stands for 0
  and of the half that stands for 1 (R88). -/
  | man (eZero eOne : Int)
  /-- A bit of a BPSK mode (R90); in a Manchester mode it is a coding violation (R86). -/
  | hard (b : Bool)
  /-- A coding violation of a BPSK mode. -/
  | bad
  deriving DecidableEq, Repr

/-- What the air delivers as one response frame. -/
structure RxFrame where
  /-- Bit periods after the SOF; in the ISO/IEC 14443 A modes each whole byte is followed by its parity bit. -/
  bits : List RxBit
  /-- The SOF and the EOF (where the mode has one) have their form. -/
  framing : Bool
  /-- The subcarrier was lost before the frame's end (R100). -/
  cut : Bool
  /-- Channels on whose chain an ADC sample clipped after the gain froze (R81). -/
  clip : BitVec 8
  deriving DecidableEq, Repr

/-- What one receive chain measures over the SOF of a response (R81, R91, R202). -/
structure SofMeas where
  /-- Channel that measures. -/
  ch : Ch
  /-- Level of the SOF in 0.25 dBµV (R91). -/
  rssi : Nat
  /-- In-band level before the SOF in 0.25 dBµV (R91). -/
  noise : Nat
  /-- In-phase part of the upper sideband, as the I path gives it before the image correction of R83. -/
  vecI : Int
  /-- Quadrature part of the upper sideband, as the Q path gives it before the image correction of R83. -/
  vecQ : Int
  /-- ADC samples above 70 % of full scale between SOF detection and the end of the SOF (R81). -/
  overs : Nat
  deriving DecidableEq, Repr

/-- What discovery reads from the external flash (R467). -/
structure FlashDisc where
  /-- JEDEC ID read with 0x9F. -/
  jedec : BitVec 24
  /-- The SFDP header has the signature "SFDP". -/
  sfdp : Bool
  /-- The table requires 4-byte addresses. -/
  addr4 : Bool
  /-- log2 of the density the table gives. -/
  densLog2 : Nat
  /-- log2 of the page size; `none` when the table gives none. -/
  pageLog2 : Option Nat
  /-- Erase opcode for 4 KiB; `none` when the table has none. -/
  erase4k : Option (BitVec 8)
  /-- The table declares software reset. -/
  srst : Bool
  deriving DecidableEq, Repr

/-- A transaction of the rail controller (R416). -/
inductive PmbTrans where
  | clearFaults | voutMode | voutCommand | statusWord | readVout
  deriving DecidableEq, Repr

/-- A bus error of a PMBus transaction (R421). -/
inductive BusErr where
  | nack | pec | timeout
  deriving DecidableEq, Repr

/-- An attempt of a transaction that failed, and how (R421). -/
structure BusFail where
  err : BusErr
  trans : PmbTrans
  deriving DecidableEq, Repr

/-- The three ways a reset by the supply can come: not a command field, but the kinds of R458 that a cold
reset records. -/
inductive ColdKind where
  | por | offexit | pin | system
  deriving DecidableEq, Repr

/-- The commands of the device, one constructor per row of the table of operations and events. -/
inductive Instr where
  -- host frames (R429 to R441)
  | nop (f : Frame)
  | nopResync (f : Frame)
  | lastReply (f : Frame)
  | regRead (f : Frame)
  | regWrite (f : Frame)
  | memRead (f : Frame)
  | memWrite (f : Frame)
  | submitSingle (f : Frame)
  | submitOpen (f : Frame)
  | submitCont (f : Frame)
  | submitFinal (f : Frame)
  | queueFlush (f : Frame)
  | queueFlushAbort (f : Frame)
  | resRead (f : Frame)
  | resMark (f : Frame)
  | resRewind (f : Frame)
  | resRelease (f : Frame)
  | noticeRead (f : Frame)
  | noticeAck (f : Frame)
  | timeSetNow (f : Frame)
  | timeSetAtSynci (f : Frame)
  | timeSetOffset (f : Frame)
  | timeSetDisarm (f : Frame)
  | powerIdle (f : Frame)
  | powerSleep (f : Frame)
  | powerWatch (f : Frame)
  | powerDeep (f : Frame)
  | powerOff (f : Frame)
  | resetWarm (f : Frame)
  | resetSystem (f : Frame)
  | flInfo (f : Frame)
  | flErase (f : Frame)
  | flProgram (f : Frame)
  | flCrc (f : Frame)
  | imgCheck (f : Frame)
  | flAbort (f : Frame)
  | flSleep (f : Frame)
  | flReset (f : Frame)
  /-- The reply to the previous frame of the port is built (R439). -/
  | replyBuildDone (p : Port)
  -- writes of one register word by a port, each whole (R442)
  | protWrite (p : Port) (ofs : BitVec 8) (w : Word)
  | protCommit (p : Port)
  | beatUsWrite (p : Port) (us : BitVec 12)
  | timeRateWrite (p : Port) (rate : Word)
  | chnAntWrite (p : Port) (n : Ch) (pos : BitVec 3) (en : Bool)
  /-- An access to CHn_WSDATA: a write of the word, or a read when there is none (R48). -/
  | chnWsdataAccess (p : Port) (n : Ch) (w : Option Word)
  | recal (p : Port)
  | iqcal (p : Port) (n : Ch)
  | find (p : Port)
  | free (p : Port) (index : BitVec 14)
  | lock (p : Port) (index : BitVec 14)
  | unlock (p : Port) (index : BitVec 14)
  | clear (p : Port)
  | clearAll (p : Port)
  | validate (p : Port) (key : BitVec 5)
  | invalidate (p : Port) (key : BitVec 5)
  | validateAll (p : Port)
  | zeroAes (p : Port)
  | measure (p : Port) (group : BitVec 2) (slot : BitVec 3) (mw : BitVec 12)
  /-- A write of CSQ_QID (0), CSQ_QPW0 (1) or CSQ_QPW1 (2 and above) (R259). -/
  | declarationQuery (p : Port) (which : BitVec 2) (w : Word)
  | cacheInvalidate (p : Port)
  | wmHitClear (p : Port) (q : BitVec 6)
  /-- A write of BUDG_QUOTA of port `who` (R310). -/
  | quotaWrite (p : Port) (who : Port) (quota : BitVec 31)
  | swap (p : Port)
  | cancel (p : Port)
  | emuEnableWrite (p : Port) (en : Bool)
  | mbOpen (p : Port)
  | mbCommit (p : Port)
  | mbDiscard (p : Port)
  | rejournal (p : Port)
  | capture (p : Port) (one : Bool) (step : BitVec 6)
  | watchClear (p : Port) (one : Bool) (step : BitVec 6)
  | sbaseWrite (p : Port) (w : Word)
  | recover (p : Port)
  | readByte (p : Port) (code : Byte)
  | readWord (p : Port) (code : Byte)
  | writeByte (p : Port) (code : Byte) (data : BitVec 16)
  | writeWord (p : Port) (code : Byte) (data : BitVec 16)
  | sendByte (p : Port) (code : Byte)
  /-- The raw transaction ends with the data read, or fails (R422). -/
  | pmbRawDone (data : BitVec 16) (failed : Bool)
  | romtest (p : Port)
  | chtest (p : Port) (mask : BitVec 8)
  /-- A self-test ends: the ROM test, or the channel test of the mask; `failed` names the failing channels,
  any bit for the ROM (R484). -/
  | diagTestDone (rom : Bool) (failed : BitVec 8)
  -- the scheduler (R10, R73)
  /-- The boundary at network time `nt`; `steps` is how many of the eight bookkeeping steps ended before the
  next boundary came: 8 when none was cut (R13). -/
  | beatBoundary (nt : BitVec 64) (steps : Nat)
  | holdSweep (nt : BitVec 64)
  -- sequencer instructions (R219 to R241)
  | seqNop (n : Ch)
  | yield (n : Ch)
  | ret (n : Ch)
  | seqFault (n : Ch)
  | wait (n : Ch) (ra : GReg)
  | waitExpiry (n : Ch)
  | time (n : Ch) (ra : GReg)
  | jr (n : Ch) (ra : GReg)
  | movi (n : Ch) (rd : GReg) (imm : BitVec 9)
  | movx (n : Ch) (rd : GReg) (imm : BitVec 9)
  | mov (n : Ch) (rd rs : GReg)
  | add (n : Ch) (rd rs : GReg)
  | sub (n : Ch) (rd rs : GReg)
  | and (n : Ch) (rd rs : GReg)
  | or (n : Ch) (rd rs : GReg)
  | xor (n : Ch) (rd rs : GReg)
  | shl (n : Ch) (rd rs : GReg)
  | shr (n : Ch) (rd rs : GReg)
  | asr (n : Ch) (rd rs : GReg)
  | mul (n : Ch) (rd rs : GReg)
  | cmp (n : Ch) (rd rs : GReg)
  | tst (n : Ch) (rd rs : GReg)
  | not (n : Ch) (rd rs : GReg)
  | addi (n : Ch) (rd : GReg) (imm : BitVec 6)
  | subi (n : Ch) (rd : GReg) (imm : BitVec 6)
  | shli (n : Ch) (rd : GReg) (imm : BitVec 5)
  | shri (n : Ch) (rd : GReg) (imm : BitVec 5)
  | btst (n : Ch) (rd : GReg) (bit : BitVec 5)
  | bset (n : Ch) (rd : GReg) (bit : BitVec 5)
  | bclr (n : Ch) (rd : GReg) (bit : BitVec 5)
  | cmpi (n : Ch) (rd : GReg) (imm : BitVec 6)
  | beq (n : Ch) (ofs : BitVec 8)
  | bne (n : Ch) (ofs : BitVec 8)
  | blo (n : Ch) (ofs : BitVec 8)
  | bhs (n : Ch) (ofs : BitVec 8)
  | blt (n : Ch) (ofs : BitVec 8)
  | bge (n : Ch) (ofs : BitVec 8)
  | bmi (n : Ch) (ofs : BitVec 8)
  | bpl (n : Ch) (ofs : BitVec 8)
  | jmp (n : Ch) (ofs : BitVec 12)
  | call (n : Ch) (ofs : BitVec 12)
  /-- Load: `size` is 0 byte, 1 half, 2 word (R219). -/
  | ld (n : Ch) (rd rs : GReg) (size : Fin 3) (off : BitVec 4)
  | st (n : Ch) (r rs : GReg) (size : Fin 3) (off : BitVec 4)
  | pushb (n : Ch) (r : GReg)
  | pushw (n : Ch) (r : GReg)
  | popb (n : Ch) (r : GReg)
  | popw (n : Ch) (r : GReg)
  | poph (n : Ch) (r : GReg)
  | peek (n : Ch) (r : GReg) (imm : BitVec 6)
  /-- FCTL operations: `rx` selects the RX FIFO (R222). -/
  | fctlMark (n : Ch) (rx : Bool)
  | fctlRewind (n : Ch) (rx : Bool)
  | fctlRelease (n : Ch) (rx : Bool)
  | fctlDrop (n : Ch) (rx : Bool)
  | avail (n : Ch) (r : GReg) (rx : Bool)
  | pushi (n : Ch) (imm : Byte)
  | outi (n : Ch) (imm : Byte)
  | waitus (n : Ch) (imm : Byte)
  | airt (n : Ch) (imm : Byte)
  | airr (n : Ch) (imm : Byte)
  | endJob (n : Ch) (rc : Byte)
  | deti (n : Ch) (imm : Byte)
  | pati (n : Ch) (imm : Byte)
  | fon (n : Ch)
  | foff (n : Ch)
  | ant (n : Ch) (rs : GReg)
  | pwr (n : Ch) (rs : GReg)
  | tx (n : Ch) (rs : GReg)
  | rx (n : Ch) (rd : GReg)
  | xch (n : Ch) (rd rs : GReg)
  | rxto (n : Ch) (rs : GReg)
  | rawb (n : Ch) (rs : GReg)
  | pat (n : Ch) (rs : GReg)
  | txst (n : Ch) (rd : GReg)
  | invo (n : Ch) (ra rb : GReg)
  | invs (n : Ch) (rd : GReg)
  | inve (n : Ch) (rd : GReg)
  | sigq (n : Ch) (ra rb : GReg)
  | resq (n : Ch) (ra : GReg)
  | cryw (n : Ch)
  | cryr (n : Ch) (rd rs : GReg)
  | outb (n : Ch) (r : GReg)
  | outh (n : Ch) (r : GReg)
  | outw (n : Ch) (r : GReg)
  | outrec (n : Ch) (r : GReg)
  | outsum (n : Ch)
  | post (n : Ch) (r : GReg)
  | det (n : Ch) (r : GReg)
  | endr (n : Ch) (r : GReg)
  | olen (n : Ch) (r : GReg)
  | yieldMissed (n : Ch)
  | windupExpiry (n : Ch)
  /-- The window of every channel of the job on channel n fits again at network time `nt` (R355). -/
  | waitingResume (n : Ch) (nt : BitVec 64)
  | finalEntryWrite (n : Ch)
  -- field and synthesiser events (R49 to R74)
  | settleEnd (n : Ch)
  | rampEnd (n : Ch)
  /-- Calibration of channel n ends with I, Q and the achieved cancellation in 0.25 dB, `us` µs after its start. -/
  | calibrationEnd (n : Ch) (i q : BitVec 12) (resDb us : BitVec 8)
  /-- The check finds `iMa` mA RMS of antenna current (R51). -/
  | openAntennaCheck (n : Ch) (iMa : Nat)
  | modEnd (n : Ch)
  | sofDetect (n : Ch) (meas : List SofMeas) (fdt : Nat)
  | frameEnd (n : Ch) (r : RxFrame)
  | responseTimeout (n : Ch)
  | windowClose (n : Ch)
  | downEnd (n : Ch)
  /-- A loop tick of channel n with the power and antenna current measured, VTX at the pin, and the signs of
  the residual that tracking lowers (R38, R42, R56). -/
  | loopTick (n : Ch) (pMw iMa vtxMv : Nat) (dI dQ : Int)
  | overcurrent (n : Ch)
  /-- VTX of the pair k (channels 2k and 2k + 1) is below 90 % of VTX_SET for 10 µs. -/
  | vtxlow (pair : Fin 4)
  | synLock (us : BitVec 16)
  | phaseStepRelock (us : BitVec 16)
  /-- The image calibration of channel n ends with its corrections and the two rejections in 0.25 dB (R84). -/
  | imageCalibrationEnd (n : Ch) (g p : BitVec 12) (irrA irrB : BitVec 8)
  -- inventory, CRY, swarm, cache
  | agerVisit (index : BitVec 14)
  /-- The ECDSA unit delivers, with the latency of the request in µs. -/
  | ecdsaDone (latUs : Nat)
  /-- The AES unit ends a search, with the latency of the request in 0.1 µs. -/
  | privacySearchDone (lat : Nat)
  /-- The averages of the measurement in µV, one pair for each (member i, driver j) in ascending j, then i;
  `clipped` when an ADC sample clipped (R199 to R201). -/
  | couplingMeasurementDone (avg : List (Int × Int)) (clipped : Bool)
  | routineCacheFill (n : Ch)
  -- network time and gates
  /-- A SYNCI rising edge at the timestamp `ts` (ns); `ph` is the carrier phase error measured at the next
  grid instant (R70). -/
  | synciEdge (ts : BitVec 64) (ph : BitVec 10)
  | slewEnd (nt : BitVec 64)
  | holdoverTimeout (nt : BitVec 64)
  | uncUpdate (nt : BitVec 64)
  | syncoPulse (nt : BitVec 64)
  /-- A span of `ticks` LPO ticks ends; `rc` when it measured the internal RC, and `nt` is the NT at its end. -/
  | lpoSpan (rc : Bool) (ticks : Nat) (spanNs : Nat)
  | lpoFallback (ticks : Nat)
  | gateChange (nt : BitVec 64)
  -- listen mode (R360 to R377)
  | emuFieldDetect (n : Ch)
  | emuFieldLoss (n : Ch)
  | emuReqa (n : Ch)
  | emuWupa (n : Ch)
  /-- ANTICOLLISION of a cascade level (SEL 0x93 or 0x95) with its known bits (R365, R368). -/
  | emuAnticollision (n : Ch) (sel : Byte) (known : List Bool)
  | emuSelect (n : Ch) (sel : Byte) (uid : List Byte)
  /-- RATS with its parameter byte. -/
  | emuRats (n : Ch) (param : Byte)
  /-- PPS naming the receive and send divisors: 0 106, 1 212, 2 424, 3 848 kbit/s. -/
  | emuPps (n : Ch) (dri dsi : BitVec 2)
  | emuHlta (n : Ch)
  | sDeselect (n : Ch)
  | emuOtherFrame (n : Ch)
  | selectByName (n : Ch) (aid : List Byte)
  | selectByFileId (n : Ch) (fid : BitVec 16)
  | readBinary (n : Ch) (off : BitVec 16) (le : Nat)
  | updateBinary (n : Ch) (off : BitVec 16) (lc : Nat) (data : List Byte)
  | emuUnknownApdu (n : Ch) (cla ins : Byte)
  /-- The header program of the journal record ends; `good` when the read-back matches (R382). -/
  | journalCommit (good : Bool)
  -- power states (R387 to R425)
  /-- An edge on the WAKE pin. -/
  | wakePin (rising : Bool)
  | hostWake (p : Port)
  /-- NT resumes after `ticks` ticks of the LPO in use since the last change of source (R343, R344). -/
  | ntResume (ticks : Nat)
  /-- A Firefly round, with the vector measured for each step of the list (R410 to R412). -/
  | watchRound (meas : List (Int × Int))
  | pmbTonEnd (voutMode : Byte)
  | pmbVsettleEnd (mantissa : BitVec 16)
  | pmbBusError (e : BusFail)
  | pmalert (statusWord : BitVec 16)
  /-- The five sensors, signed, in 1/16 °C (R311). -/
  | thermalSample (s0 s1 s2 s3 s4 : BitVec 16)
  /-- The shunt voltage in µV and VIN in mV (R303). -/
  | supplySample (shuntUv vinMv : Nat)
  -- resets and start-up
  | flashPowerupWaitEnd (d : FlashDisc)
  /-- A read of the flash status register, `ms` after the command it waits for (R469). -/
  | flashStatusPoll (sr : Byte) (ms : Nat)
  | earlySubcarrier (n : Ch)
  | lpoCrystalStart (ticks : Nat)
  /-- A frame with the undefined opcode `opc` (R440). -/
  | badOpc (opc : Byte) (f : Frame)
  /-- The sequencer fetches the undefined halfword `w` (R219). -/
  | undefinedInstruction (n : Ch) (w : BitVec 16)
  | chainedIBlock (n : Ch) (data : List Byte)
  -- the events without an operand, of every family
  | invCommandDone
  | cryCommandDone
  | antShiftStart
  | antShiftComplete
  | bandFound
  | lockAttemptTimeout
  | lockLost
  | stepRelockTimeout
  | merge
  | pdCryPowerOff
  | locateDone
  | cacheFillDone
  | syncoPulseEnd
  | wireLockExpiry
  | journalWrite
  | autoEntry
  | entryAgentPoll
  | entryTimeout
  | timerWake
  | domainPowerUp
  | crystalStable
  | crystalStartTimeout
  | pingOscTrim
  | pmbRecoverEnd
  | thermalResetRelease
  | por
  | brownOut
  | offexit
  | pinReset
  | flashOpDone
  | maintDrainTimeout
  | drainForce
  | vddioGood
  | resetNRelease
  deriving DecidableEq, Repr

end Sys2Proof
end

