-- ==== Sys2Proof/Decode.lean ====
section
/-!
DEFINITION. Commands spelt by words. The table of operations gives none of its rows an encoding in bits: a host
frame is a byte string that its port takes whole, and every other row is an event.
-/

namespace Sys2Proof

/-- The command a word spells by the table's bits: none, as the table gives no row bits. -/
def decodeTableWord (_nbits _w : Nat) : Option Instr := none

end Sys2Proof
end

