-- ==== Sys2Proof/Machine/Bits.lean ====
section
/-!
DEFINITION. Bit fields of words, little-endian byte groups, two's complement, and sparse maps: lists of address
and value in strictly rising order, with no entry that equals what an unlisted address reads as.
-/

namespace Sys2Proof.Machine

/-- Bits `lo` to `lo + w - 1` of a natural number. -/
def bitsOf (x lo w : Nat) : Nat := (x >>> lo) % 2 ^ w

/-- Bit `i` of a natural number. -/
def bitOf (x i : Nat) : Bool := x.testBit i

/-- Field `[lo + w - 1 : lo]` of a word. -/
def getBits (x : Word) (lo w : Nat) : Nat := bitsOf x.toNat lo w

/-- Word with field `[lo + w - 1 : lo]` replaced by the low bits of `v`. -/
def setBits (x : Word) (lo w v : Nat) : Word :=
  let m : Word := BitVec.ofNat 32 ((2 ^ w - 1) <<< lo)
  (x &&& ~~~m) ||| (BitVec.ofNat 32 (v <<< lo) &&& m)

/-- A two's complement field of width `w` as an integer. -/
def toSigned (w v : Nat) : Int := if v % 2 ^ w < 2 ^ (w - 1) then (v % 2 ^ w : Int) else (v % 2 ^ w : Int) - 2 ^ w

/-- An integer as a two's complement field of width `w`. -/
def ofSigned (w : Nat) (v : Int) : Nat := (v % (2 ^ w : Int)).toNat

/-- An integer kept within `[lo, hi]`. -/
def clampInt (lo hi v : Int) : Int := if v < lo then lo else if hi < v then hi else v

/-- Quotient rounded to the nearest integer, a half away from zero upwards. -/
def divRound (a b : Nat) : Nat := (2 * a + b) / (2 * b)

/-- Quotient rounded up. -/
def ceilDiv (a b : Nat) : Nat := (a + b - 1) / b

/-- The bytes of a value, least significant first (R4). -/
def leBytes : Nat → Nat → List Byte
  | 0, _ => []
  | n + 1, v => BitVec.ofNat 8 v :: leBytes n (v / 256)

/-- The value of bytes, least significant first (R4). -/
def leNat : List Byte → Nat
  | [] => 0
  | b :: bs => b.toNat + 256 * leNat bs

/-- The value of bytes, most significant first. -/
def beNat (bs : List Byte) : Nat := bs.foldl (fun a b => 256 * a + b.toNat) 0

/-- The bytes of a value, most significant first. -/
def beBytes (n v : Nat) : List Byte := (leBytes n v).reverse

/-- The words of a byte string, least significant byte first; a rest below four bytes is padded with zeros. -/
def leWords : List Byte → List Word
  | [] => []
  | a :: [] => [BitVec.ofNat 32 (leNat [a])]
  | a :: b :: [] => [BitVec.ofNat 32 (leNat [a, b])]
  | a :: b :: c :: [] => [BitVec.ofNat 32 (leNat [a, b, c])]
  | a :: b :: c :: d :: rest => BitVec.ofNat 32 (leNat [a, b, c, d]) :: leWords rest

/-- The bytes of words, least significant byte first. -/
def wordBytes (ws : List Word) : List Byte := ws.flatMap fun w => leBytes 4 w.toNat

/-- Bits of a byte, bit 0 first. -/
def byteBits (b : Byte) : List Bool := (List.range 8).map fun i => bitOf b.toNat i

/-- The value of bits, first bit least significant. -/
def bitsNat : List Bool → Nat
  | [] => 0
  | b :: bs => b.toNat + 2 * bitsNat bs

/-- The first `n` bits of a value, bit 0 first. -/
def natBits (n v : Nat) : List Bool := (List.range n).map fun i => bitOf v i

/-- Bytes of a bit string, bit 0 of each byte first; a rest below eight bits fills the low bits of the last. -/
def bitsBytes : Nat → List Bool → List Byte
  | 0, _ => []
  | n + 1, l => if l.isEmpty then [] else BitVec.ofNat 8 (bitsNat (l.take 8)) :: bitsBytes n (l.drop 8)

/-- Number of set bits among bits 0 to 7. -/
def popcount8 (m : Nat) : Nat := ((List.range 8).filter fun i => bitOf m i).length

/-- The set bits of an 8-bit mask, ascending. -/
def maskList (m : BitVec 8) : List Ch := (List.finRange 8).filter fun i => bitOf m.toNat i.val

/-- `l` padded with zeros to `n` bytes, or cut to `n`. -/
def padTo (n : Nat) (l : List Byte) : List Byte := (l ++ List.replicate (n - l.length) 0).take n

/-! ## Sine and cosine series -/

/-- π in 2⁻⁴⁰. -/
def pi40 : Nat := 3454217652358

/-- Terms of the sine and cosine series of `x` from term `k` on, in 2⁻⁴⁰: `t` is the term before. -/
def trigTerms (x : Nat) : Nat → Nat → Nat → List Nat
  | 0, _, _ => []
  | n + 1, k, t => t :: trigTerms x n (k + 1) (t * x / (2 ^ 40 * (k + 1)))

/-- Alternating sum of a series. -/
def altSum : List Nat → Int
  | [] => 0
  | a :: l => a - altSum l

/-- Elements at even places of a list. -/
def evens : List Nat → List Nat
  | [] => []
  | [a] => [a]
  | a :: _ :: l => a :: evens l

/-- Cosine of up to half a turn, in 2⁻⁴⁰; the angle is `t` in 2⁻⁴⁰ of a turn. -/
def cosTurn (t : Nat) : Int :=
  let c := altSum (evens (trigTerms (min t (2 ^ 39 - t) * 2 * pi40 / 2 ^ 40) 30 0 (2 ^ 40)))
  if t ≤ 2 ^ 38 then c else -c

section Sparse

variable {α : Type} [DecidableEq α]

/-- Value at an address of a sparse map; `d` is what unlisted addresses read as. -/
def sget (d : Nat → α) : List (Nat × α) → Nat → α
  | [], a => d a
  | (k, v) :: m, a => if k = a then v else sget d m a

/-- Map with the entry of an address taken out. -/
def serase : List (Nat × α) → Nat → List (Nat × α)
  | [], _ => []
  | (k, v) :: m, a => if k = a then m else (k, v) :: serase m a

/-- Map with an entry put in its place. -/
def sinsert : List (Nat × α) → Nat → α → List (Nat × α)
  | [], a, x => [(a, x)]
  | (k, v) :: m, a, x =>
    if a < k then (a, x) :: (k, v) :: m else if a = k then (a, x) :: m else (k, v) :: sinsert m a x

/-- Write of a sparse map: writing the value that an unlisted address reads as takes the entry out. -/
def sput (d : Nat → α) (m : List (Nat × α)) (a : Nat) (x : α) : List (Nat × α) :=
  if x = d a then serase m a else sinsert m a x

/-- The canonical form: addresses strictly rising from `lo`, and no listed value that is the default. -/
def swfFrom (d : Nat → α) : Nat → List (Nat × α) → Bool
  | _, [] => true
  | lo, (k, v) :: m => decide (lo ≤ k) && decide (v ≠ d k) && swfFrom d (k + 1) m

/-- The canonical form of a sparse map. -/
def swf (d : Nat → α) (m : List (Nat × α)) : Bool := swfFrom d 0 m

end Sparse

end Sys2Proof.Machine
end

