-- ==== Sys2Proof/Machine/Crypto.lean ====
section
/-!
DEFINITION. The algorithms that the manual names: CRC-32C of host frames (R433), CRC-32 of images, the air CRCs
(R96), AES-128 decryption (R166), SHA-256 (R160) and ECDSA verification (R161).
-/

namespace Sys2Proof.Machine

/-! ## CRCs -/

/-- Shift `n` bits through a reflected CRC register. -/
def crcShift (poly : Nat) : Nat → Nat → Nat
  | 0, c => c
  | n + 1, c => crcShift poly n (if c % 2 = 1 then (c / 2) ^^^ poly else c / 2)

/-- A reflected CRC over bytes from an initial register value. -/
def crcBytes (poly : Nat) : Nat → List Byte → Nat
  | c, [] => c
  | c, b :: bs => crcBytes poly (crcShift poly 8 (c ^^^ b.toNat)) bs

/-- CRC-32C (R433): polynomial 0x1EDC_6F41, here reflected. -/
def crc32c (bs : List Byte) : Word := BitVec.ofNat 32 (crcBytes 0x82F63B78 0xFFFFFFFF bs ^^^ 0xFFFFFFFF)

/-- CRC-32 of flash images: polynomial 0x04C1_1DB7, here reflected. -/
def crc32 (bs : List Byte) : Word := BitVec.ofNat 32 (crcBytes 0xEDB88320 0xFFFFFFFF bs ^^^ 0xFFFFFFFF)

/-- CRC_A of ISO/IEC 14443-3 (R96). -/
def crcA (bs : List Byte) : Nat := crcBytes 0x8408 0x6363 bs

/-- CRC_B of ISO/IEC 14443-3 and the CRC of ISO/IEC 15693 (R96). -/
def crcB (bs : List Byte) : Nat := crcBytes 0x8408 0xFFFF bs ^^^ 0xFFFF

/-! ## AES-128 -/

/-- The AES S-box (FIPS 197). -/
def aesSbox : List Nat :=
  [0x63, 0x7C, 0x77, 0x7B, 0xF2, 0x6B, 0x6F, 0xC5, 0x30, 0x01, 0x67, 0x2B, 0xFE, 0xD7, 0xAB, 0x76]
  ++ [0xCA, 0x82, 0xC9, 0x7D, 0xFA, 0x59, 0x47, 0xF0, 0xAD, 0xD4, 0xA2, 0xAF, 0x9C, 0xA4, 0x72, 0xC0]
  ++ [0xB7, 0xFD, 0x93, 0x26, 0x36, 0x3F, 0xF7, 0xCC, 0x34, 0xA5, 0xE5, 0xF1, 0x71, 0xD8, 0x31, 0x15]
  ++ [0x04, 0xC7, 0x23, 0xC3, 0x18, 0x96, 0x05, 0x9A, 0x07, 0x12, 0x80, 0xE2, 0xEB, 0x27, 0xB2, 0x75]
  ++ [0x09, 0x83, 0x2C, 0x1A, 0x1B, 0x6E, 0x5A, 0xA0, 0x52, 0x3B, 0xD6, 0xB3, 0x29, 0xE3, 0x2F, 0x84]
  ++ [0x53, 0xD1, 0x00, 0xED, 0x20, 0xFC, 0xB1, 0x5B, 0x6A, 0xCB, 0xBE, 0x39, 0x4A, 0x4C, 0x58, 0xCF]
  ++ [0xD0, 0xEF, 0xAA, 0xFB, 0x43, 0x4D, 0x33, 0x85, 0x45, 0xF9, 0x02, 0x7F, 0x50, 0x3C, 0x9F, 0xA8]
  ++ [0x51, 0xA3, 0x40, 0x8F, 0x92, 0x9D, 0x38, 0xF5, 0xBC, 0xB6, 0xDA, 0x21, 0x10, 0xFF, 0xF3, 0xD2]
  ++ [0xCD, 0x0C, 0x13, 0xEC, 0x5F, 0x97, 0x44, 0x17, 0xC4, 0xA7, 0x7E, 0x3D, 0x64, 0x5D, 0x19, 0x73]
  ++ [0x60, 0x81, 0x4F, 0xDC, 0x22, 0x2A, 0x90, 0x88, 0x46, 0xEE, 0xB8, 0x14, 0xDE, 0x5E, 0x0B, 0xDB]
  ++ [0xE0, 0x32, 0x3A, 0x0A, 0x49, 0x06, 0x24, 0x5C, 0xC2, 0xD3, 0xAC, 0x62, 0x91, 0x95, 0xE4, 0x79]
  ++ [0xE7, 0xC8, 0x37, 0x6D, 0x8D, 0xD5, 0x4E, 0xA9, 0x6C, 0x56, 0xF4, 0xEA, 0x65, 0x7A, 0xAE, 0x08]
  ++ [0xBA, 0x78, 0x25, 0x2E, 0x1C, 0xA6, 0xB4, 0xC6, 0xE8, 0xDD, 0x74, 0x1F, 0x4B, 0xBD, 0x8B, 0x8A]
  ++ [0x70, 0x3E, 0xB5, 0x66, 0x48, 0x03, 0xF6, 0x0E, 0x61, 0x35, 0x57, 0xB9, 0x86, 0xC1, 0x1D, 0x9E]
  ++ [0xE1, 0xF8, 0x98, 0x11, 0x69, 0xD9, 0x8E, 0x94, 0x9B, 0x1E, 0x87, 0xE9, 0xCE, 0x55, 0x28, 0xDF]
  ++ [0x8C, 0xA1, 0x89, 0x0D, 0xBF, 0xE6, 0x42, 0x68, 0x41, 0x99, 0x2D, 0x0F, 0xB0, 0x54, 0xBB, 0x16]

/-- The inverse AES S-box (FIPS 197). -/
def aesInvSbox : List Nat :=
  [0x52, 0x09, 0x6A, 0xD5, 0x30, 0x36, 0xA5, 0x38, 0xBF, 0x40, 0xA3, 0x9E, 0x81, 0xF3, 0xD7, 0xFB]
  ++ [0x7C, 0xE3, 0x39, 0x82, 0x9B, 0x2F, 0xFF, 0x87, 0x34, 0x8E, 0x43, 0x44, 0xC4, 0xDE, 0xE9, 0xCB]
  ++ [0x54, 0x7B, 0x94, 0x32, 0xA6, 0xC2, 0x23, 0x3D, 0xEE, 0x4C, 0x95, 0x0B, 0x42, 0xFA, 0xC3, 0x4E]
  ++ [0x08, 0x2E, 0xA1, 0x66, 0x28, 0xD9, 0x24, 0xB2, 0x76, 0x5B, 0xA2, 0x49, 0x6D, 0x8B, 0xD1, 0x25]
  ++ [0x72, 0xF8, 0xF6, 0x64, 0x86, 0x68, 0x98, 0x16, 0xD4, 0xA4, 0x5C, 0xCC, 0x5D, 0x65, 0xB6, 0x92]
  ++ [0x6C, 0x70, 0x48, 0x50, 0xFD, 0xED, 0xB9, 0xDA, 0x5E, 0x15, 0x46, 0x57, 0xA7, 0x8D, 0x9D, 0x84]
  ++ [0x90, 0xD8, 0xAB, 0x00, 0x8C, 0xBC, 0xD3, 0x0A, 0xF7, 0xE4, 0x58, 0x05, 0xB8, 0xB3, 0x45, 0x06]
  ++ [0xD0, 0x2C, 0x1E, 0x8F, 0xCA, 0x3F, 0x0F, 0x02, 0xC1, 0xAF, 0xBD, 0x03, 0x01, 0x13, 0x8A, 0x6B]
  ++ [0x3A, 0x91, 0x11, 0x41, 0x4F, 0x67, 0xDC, 0xEA, 0x97, 0xF2, 0xCF, 0xCE, 0xF0, 0xB4, 0xE6, 0x73]
  ++ [0x96, 0xAC, 0x74, 0x22, 0xE7, 0xAD, 0x35, 0x85, 0xE2, 0xF9, 0x37, 0xE8, 0x1C, 0x75, 0xDF, 0x6E]
  ++ [0x47, 0xF1, 0x1A, 0x71, 0x1D, 0x29, 0xC5, 0x89, 0x6F, 0xB7, 0x62, 0x0E, 0xAA, 0x18, 0xBE, 0x1B]
  ++ [0xFC, 0x56, 0x3E, 0x4B, 0xC6, 0xD2, 0x79, 0x20, 0x9A, 0xDB, 0xC0, 0xFE, 0x78, 0xCD, 0x5A, 0xF4]
  ++ [0x1F, 0xDD, 0xA8, 0x33, 0x88, 0x07, 0xC7, 0x31, 0xB1, 0x12, 0x10, 0x59, 0x27, 0x80, 0xEC, 0x5F]
  ++ [0x60, 0x51, 0x7F, 0xA9, 0x19, 0xB5, 0x4A, 0x0D, 0x2D, 0xE5, 0x7A, 0x9F, 0x93, 0xC9, 0x9C, 0xEF]
  ++ [0xA0, 0xE0, 0x3B, 0x4D, 0xAE, 0x2A, 0xF5, 0xB0, 0xC8, 0xEB, 0xBB, 0x3C, 0x83, 0x53, 0x99, 0x61]
  ++ [0x17, 0x2B, 0x04, 0x7E, 0xBA, 0x77, 0xD6, 0x26, 0xE1, 0x69, 0x14, 0x63, 0x55, 0x21, 0x0C, 0x7D]

/-- Multiplication by x in GF(2⁸). -/
def xtime (a : Nat) : Nat := if a < 128 then 2 * a else (2 * a) ^^^ 0x11B

/-- Multiplication in GF(2⁸), for factors below 16. -/
def gmul (a b : Nat) : Nat :=
  let a2 := xtime a
  let a4 := xtime a2
  let a8 := xtime a4
  (if bitOf b 0 then a else 0) ^^^ (if bitOf b 1 then a2 else 0) ^^^ (if bitOf b 2 then a4 else 0)
    ^^^ (if bitOf b 3 then a8 else 0)

/-- S-box lookup. -/
def subByte (a : Nat) : Nat := aesSbox.getD a 0

/-- Exclusive or of two byte lists. -/
def xorBytes (a b : List Nat) : List Nat := List.zipWith (fun x y => x ^^^ y) a b

/-- The next round key of AES-128. -/
def nextKey (rcon : Nat) (k : List Nat) : List Nat :=
  let t := [subByte (k.getD 13 0) ^^^ rcon, subByte (k.getD 14 0), subByte (k.getD 15 0), subByte (k.getD 12 0)]
  let w0 := xorBytes (k.take 4) t
  let w1 := xorBytes ((k.drop 4).take 4) w0
  let w2 := xorBytes ((k.drop 8).take 4) w1
  let w3 := xorBytes ((k.drop 12).take 4) w2
  w0 ++ w1 ++ w2 ++ w3

/-- Round keys, the last first. -/
def roundKeys : List Nat → List Nat → List (List Nat) → List (List Nat)
  | [], _, acc => acc
  | r :: rs, k, acc => roundKeys rs (nextKey r k) (nextKey r k :: acc)

/-- Inverse ShiftRows. -/
def invShiftRows (s : List Nat) : List Nat :=
  [0, 13, 10, 7, 4, 1, 14, 11, 8, 5, 2, 15, 12, 9, 6, 3].map fun i => s.getD i 0

/-- Inverse MixColumns on one column. -/
def invMixCol (c : List Nat) : List Nat :=
  let a := c.getD 0 0
  let b := c.getD 1 0
  let d := c.getD 2 0
  let e := c.getD 3 0
  [gmul a 14 ^^^ gmul b 11 ^^^ gmul d 13 ^^^ gmul e 9, gmul a 9 ^^^ gmul b 14 ^^^ gmul d 11 ^^^ gmul e 13,
    gmul a 13 ^^^ gmul b 9 ^^^ gmul d 14 ^^^ gmul e 11, gmul a 11 ^^^ gmul b 13 ^^^ gmul d 9 ^^^ gmul e 14]

/-- Inverse MixColumns. -/
def invMixColumns (s : List Nat) : List Nat :=
  [0, 4, 8, 12].flatMap fun i => invMixCol ((s.drop i).take 4)

/-- Inverse rounds; the last round key is the cipher key and has no inverse MixColumns after it. -/
def aesRounds : List (List Nat) → List Nat → List Nat
  | [], s => s
  | [k], s => xorBytes ((invShiftRows s).map fun x => aesInvSbox.getD x 0) k
  | k :: ks, s => aesRounds ks (invMixColumns (xorBytes ((invShiftRows s).map fun x => aesInvSbox.getD x 0) k))

/-- AES-128 decryption of one block (FIPS 197). -/
def aesDecrypt (key block : List Byte) : List Byte :=
  let k := key.map BitVec.toNat
  match roundKeys [1, 2, 4, 8, 16, 32, 64, 128, 27, 54] k [k] with
  | [] => block
  | last :: rest => (aesRounds rest (xorBytes (block.map BitVec.toNat) last)).map (BitVec.ofNat 8)

/-! ## SHA-256 -/

/-- Round constants of SHA-256 (FIPS 180-4). -/
def shaK : List Word :=
  [0x428A2F98, 0x71374491, 0xB5C0FBCF, 0xE9B5DBA5, 0x3956C25B, 0x59F111F1, 0x923F82A4, 0xAB1C5ED5]
  ++ [0xD807AA98, 0x12835B01, 0x243185BE, 0x550C7DC3, 0x72BE5D74, 0x80DEB1FE, 0x9BDC06A7, 0xC19BF174]
  ++ [0xE49B69C1, 0xEFBE4786, 0x0FC19DC6, 0x240CA1CC, 0x2DE92C6F, 0x4A7484AA, 0x5CB0A9DC, 0x76F988DA]
  ++ [0x983E5152, 0xA831C66D, 0xB00327C8, 0xBF597FC7, 0xC6E00BF3, 0xD5A79147, 0x06CA6351, 0x14292967]
  ++ [0x27B70A85, 0x2E1B2138, 0x4D2C6DFC, 0x53380D13, 0x650A7354, 0x766A0ABB, 0x81C2C92E, 0x92722C85]
  ++ [0xA2BFE8A1, 0xA81A664B, 0xC24B8B70, 0xC76C51A3, 0xD192E819, 0xD6990624, 0xF40E3585, 0x106AA070]
  ++ [0x19A4C116, 0x1E376C08, 0x2748774C, 0x34B0BCB5, 0x391C0CB3, 0x4ED8AA4A, 0x5B9CCA4F, 0x682E6FF3]
  ++ [0x748F82EE, 0x78A5636F, 0x84C87814, 0x8CC70208, 0x90BEFFFA, 0xA4506CEB, 0xBEF9A3F7, 0xC67178F2]

/-- Initial hash value of SHA-256. -/
def shaH0 : List Word :=
  [0x6A09E667, 0xBB67AE85, 0x3C6EF372, 0xA54FF53A, 0x510E527F, 0x9B05688C, 0x1F83D9AB, 0x5BE0CD19]

/-- Message schedule: sixteen words extended by `n` more, latest first. -/
def shaSchedule : Nat → List Word → List Word
  | 0, w => w
  | n + 1, w =>
    let w15 := w.getD 14 0
    let w2 := w.getD 1 0
    let s0 := w15.rotateRight 7 ^^^ w15.rotateRight 18 ^^^ (w15 >>> 3)
    let s1 := w2.rotateRight 17 ^^^ w2.rotateRight 19 ^^^ (w2 >>> 10)
    shaSchedule n ((w.getD 15 0 + s0 + w.getD 6 0 + s1) :: w)

/-- Working variables a to h of SHA-256. -/
structure ShaVars where
  a : Word
  b : Word
  c : Word
  d : Word
  e : Word
  f : Word
  g : Word
  h : Word
  deriving DecidableEq, Repr

/-- One round of SHA-256. -/
def shaRound (v : ShaVars) (kw : Word) : ShaVars :=
  let s1 := v.e.rotateRight 6 ^^^ v.e.rotateRight 11 ^^^ v.e.rotateRight 25
  let chv := (v.e &&& v.f) ^^^ (~~~v.e &&& v.g)
  let t1 := v.h + s1 + chv + kw
  let s0 := v.a.rotateRight 2 ^^^ v.a.rotateRight 13 ^^^ v.a.rotateRight 22
  let maj := (v.a &&& v.b) ^^^ (v.a &&& v.c) ^^^ (v.b &&& v.c)
  ⟨t1 + (s0 + maj), v.a, v.b, v.c, v.d + t1, v.e, v.f, v.g⟩

/-- One 64-byte block of SHA-256. -/
def shaBlock (hs : List Word) (block : List Byte) : List Word :=
  let ws := [0, 4, 8, 12, 16, 20, 24, 28, 32, 36, 40, 44, 48, 52, 56, 60].map fun i =>
    (BitVec.ofNat 32 (beNat ((block.drop i).take 4)) : Word)
  let w := (shaSchedule 48 ws.reverse).reverse
  let x i := hs.getD i 0
  let v := (List.zipWith (fun k y => k + y) shaK w).foldl shaRound ⟨x 0, x 1, x 2, x 3, x 4, x 5, x 6, x 7⟩
  List.zipWith (fun p q => p + q) hs [v.a, v.b, v.c, v.d, v.e, v.f, v.g, v.h]

/-- `n` blocks of SHA-256. -/
def shaBlocks : Nat → List Word → List Byte → List Word
  | 0, hs, _ => hs
  | n + 1, hs, bs => shaBlocks n (shaBlock hs bs) (bs.drop 64)

/-- SHA-256 (FIPS 180-4). -/
def sha256 (m : List Byte) : List Byte :=
  let z := (119 - m.length % 64) % 64
  let p := m ++ (0x80 :: List.replicate z 0) ++ beBytes 8 (8 * m.length)
  (shaBlocks (p.length / 64) shaH0 p).flatMap fun w => beBytes 4 w.toNat

/-! ## ECDSA -/

/-- A curve y² = x³ − 3x + b over the field of p elements, its base point and order. -/
structure Curve where
  p : Nat
  b : Nat
  gx : Nat
  gy : Nat
  n : Nat
  /-- Bytes of a coordinate, and of r and of s (R159). -/
  len : Nat
  /-- Bit length of n. -/
  bits : Nat
  deriving DecidableEq, Repr

/-- secp128r1 (SEC 2). -/
def secp128r1 : Curve :=
  { p := 0xFFFFFFFDFFFFFFFFFFFFFFFFFFFFFFFF, b := 0xE87579C11079F43DD824993C2CEE5ED3
    gx := 0x161FF7528B899B2D0C28607CA52C5B86, gy := 0xCF5AC8395BAFEB13C02DA292DDED7A83
    n := 0xFFFFFFFE0000000075A30D1B9038A115, len := 16, bits := 128 }

/-- secp224r1 (SEC 2). -/
def secp224r1 : Curve :=
  { p := 2 ^ 224 - 2 ^ 96 + 1, b := 0xB4050A850C04B3ABF54132565044B0B7D7BFD8BA270B39432355FFB4
    gx := 0xB70E0CBD6BB4BF7F321390B94A03C1D356C21122343280D6115C1D21
    gy := 0xBD376388B5F723FB4C22DFE6CD4375A05A07476444D5819985007E34
    n := 0xFFFFFFFFFFFFFFFFFFFFFFFFFFFF16A2E0B8F03E13DD29455C5C2A3D, len := 28, bits := 224 }

/-- P-256 (FIPS 186-4). -/
def p256 : Curve :=
  { p := 2 ^ 256 - 2 ^ 224 + 2 ^ 192 + 2 ^ 96 - 1
    b := 0x5AC635D8AA3A93E7B3EBBD55769886BC651D06B0CC53B0F63BCE3C3E27D2604B
    gx := 0x6B17D1F2E12C4247F8BCE6E563A440F277037D812DEB33A0F4A13945D898C296
    gy := 0x4FE342E2FE1A7F9B8EE7EB4A7C0F9E162BCE33576B315ECECBB6406837BF51F5
    n := 0xFFFFFFFF00000000FFFFFFFFFFFFFFFFBCE6FAADA7179E84F3B9CAC2FC632551, len := 32, bits := 256 }

/-- The curve a descriptor names (R154). -/
def curveOf (k : Nat) : Curve := if k = 0 then secp128r1 else if k = 1 then secp224r1 else p256

/-- Power modulo `m` by repeated squaring over `n` bits of the exponent. -/
def powMod (m : Nat) : Nat → Nat → Nat → Nat → Nat
  | 0, _, _, acc => acc
  | n + 1, x, e, acc => powMod m n (x * x % m) (e / 2) (if e % 2 = 1 then acc * x % m else acc)

/-- Inverse modulo a prime. -/
def modInv (m x : Nat) : Nat := powMod m 256 (x % m) (m - 2) 1

/-- Difference modulo `m`. -/
def subMod (m a b : Nat) : Nat := (a % m + m - b % m) % m

/-- Sum of two points; none is the point at infinity. -/
def ecAdd (c : Curve) : Option (Nat × Nat) → Option (Nat × Nat) → Option (Nat × Nat)
  | none, q => q
  | p, none => p
  | some (x1, y1), some (x2, y2) =>
    if x1 = x2 ∧ (y1 + y2) % c.p = 0 then none
    else
      let l :=
        if x1 = x2 then subMod c.p (3 * x1 * x1) 3 * modInv c.p (2 * y1) % c.p
        else subMod c.p y2 y1 * modInv c.p (subMod c.p x2 x1) % c.p
      let x3 := subMod c.p (l * l) (x1 + x2)
      some (x3, subMod c.p (l * subMod c.p x1 x3) y1)

/-- Multiple of a point, over `n` bits of the factor. -/
def ecMul (c : Curve) : Nat → Nat → Option (Nat × Nat) → Option (Nat × Nat) → Option (Nat × Nat)
  | 0, _, _, acc => acc
  | n + 1, k, p, acc => ecMul c n (k / 2) (ecAdd c p p) (if k % 2 = 1 then ecAdd c acc p else acc)

/-- The point lies on the curve (R155). -/
def onCurve (c : Curve) (x y : Nat) : Bool :=
  (y * y) % c.p == (x * x * x + (c.p - 3) * x + c.b) % c.p

/-- ECDSA verification (R161). -/
def ecdsaVerify (c : Curve) (qx qy e r s : Nat) : Bool :=
  decide (1 ≤ r) && decide (r < c.n) && decide (1 ≤ s) && decide (s < c.n) &&
    let w := modInv c.n s
    let u1 := e * w % c.n
    let u2 := r * w % c.n
    match ecAdd c (ecMul c 256 u1 (some (c.gx, c.gy)) none) (ecMul c 256 u2 (some (qx, qy)) none) with
    | none => false
    | some (x, _) => x % c.n == r

end Sys2Proof.Machine
end

