-- ==== Sys2Proof/Config.lean ====
section
/-!
DEFINITION. What the manual leaves to the device: free values. Each is an opaque constant applied to the counter
`State.fresh` (a new value each time) or to the operands that the value may depend on, so nothing can be proved of
what it is. The assumption log says of each where the manual leaves
it open (entries 8, 9, 10, 11, 12, 13, 14, 98 and 119).
-/

namespace Sys2Proof.Config

/-- Slot of the descriptor pool that a SUBMIT takes (R266), before it is made a free one. -/
opaque descSlot : Nat → Nat

/-- First payload unit that a SUBMIT takes (R261), before it is made a free run. -/
opaque payloadUnit : Nat → Nat

/-- DETAIL of a job before its first DET or DETI, and of a job that a fault of its own never set (R217). -/
opaque initialDetail : Nat → BitVec 16

/-- DETAIL of a receipt entry (R25). -/
opaque receiptDetail : Nat → BitVec 16

/-- A byte of the ring storage as MEM_READ shows it once an entry has been posted (R287). -/
opaque ringByte : Nat → Nat → Byte

/-- Coupling S, in 1/16,384, of a coil whose geometry entry gives the radius 0, at a distance in 0.1 mm: the range of
RAD starts at 1 (R205). -/
opaque zeroRadius : Nat → Int

/-- Refinement of a locate, in 0.1 mm, where the correlation has no curvature to divide by (R208). -/
opaque flatRefine : Nat → Int

/-- Value stored for a bit whose two halves are equally strong while COLL_EN is 0 (R88), by frame and bit. -/
opaque tieBit : Nat → Nat → Bool

/-- Error of the amplitude, in 1/1024 of full width, that a loop tick finds for a target and a measured power in mW
(R38): the spec gives the gain that it is multiplied by, not how the error is formed. -/
opaque ampError : Nat → Nat → Int

/-- Direction, in steps of 360°/1024, of a response vector that measures as zero (R91), by free counter and channel. -/
opaque zeroAngle : Nat → Nat → Nat

/-- The minimum guard time TR0 of ISO/IEC 14443-2 in carrier cycles, by receive mode 4 to 7 (R92). -/
opaque tr0 : Nat → Nat

/-- Amplitude that a channel enters ON with while its loop is closed (R49), by free counter. -/
opaque rampAmp : Nat → Nat

/-- The factory curve F(T) of R43 in 1/1024, by die temperature in 1/16 °C. -/
opaque factoryCurve : Int → Int

/-- Whether a ping whose measured vector is zero counts as out of phase: such a vector has no phase (R412). -/
opaque zeroPhase : Nat → Bool

/-- The three random bytes of a listen card's UID (R369). -/
opaque randomUid : Nat → BitVec 24

/-- Byte of a journal header that the flash holds after a header program that did not read back (R383). -/
opaque failedHeader : Nat → Nat → Byte

/-- Status word with which a listen card answers a C-APDU whose instruction it knows, but which R372 does not accept in
its state. -/
opaque apduRefusal : Nat → BitVec 16

/-- Entry of a coupling matrix, from an average in µV, of a driver whose antenna current was measured as 0 mA (R199). -/
opaque zeroCurrent : Int → Int

/-- A byte that an erase or program that did not end as it should leaves in the flash (R466, R469), by free counter and
offset. -/
opaque cutByte : Nat → Nat → Byte

/-- Whether an interrupted CLEAR or CLEAR_ALL has freed a table entry (R459), by free counter and index. -/
opaque clearReached : Nat → Nat → Bool

/-- WCX in µs of a ROM routine by its ID and the parameter that it follows (R258): the manual gives no numbers. -/
opaque romWcx : Nat → Nat → BitVec 32

/-- Declared maximum payload of a ROM routine by its ID and parameter words (R258). -/
opaque romPay : Nat → Nat → Nat → Nat

/-- Excess over 12 etu of the SOF of an ISO/IEC 14443 B command (R171): ISO/IEC 14443-3 allows 12 to 14. -/
opaque sofExtra : Nat → Nat

/-- Whether a wake event that comes before the first domain is up fell in the cycle of the event that started the wake
(R403), by free counter: a command does not say in which cycle it comes. -/
opaque sameCycle : Nat → Bool

/-- A wake event that follows an entry still falls before its completion (R399, R401). -/
opaque beforeClose : Nat → Bool

/-- The 16 bits of a VOUT_COMMAND whose mantissa, which this is a function of, needs more (R416). -/
opaque wideMantissa : Nat → BitVec 16

/-- Time for which a stalled frame held its port low, in µs (R438), by free counter: timing is outside the model. -/
opaque stallUs : Nat → BitVec 16

/-- Time from a wake event to WAKE_DONE in µs, as PWR_WTIME shows it (R407): timing is outside the model. -/
opaque wakeTime : Nat → BitVec 24

/-- Whether VDDIO stands above its threshold when VIN comes back or OFF ends (R492), by free counter: the supplies may be applied
and removed in any order. -/
opaque vddioHigh : Nat → Bool

/-- Length of start-up in µs, as SYS_BOOTT shows it: timing is outside the model. -/
opaque bootTime : Nat → BitVec 24

end Sys2Proof.Config
end

