-- ==== Sys2Proof/Machine/RegMap.lean ====
section
/-!
DEFINITION. The register map: one row per register (with its copies), written from the register tables of the
chapters, and one name per field. A row gives the reset value and, by access type (R6), the bits that a write
sets (`rw`), sets until the protection commit (`rwl`), clears with 1 (`w1c`), hands to an action (`wo`), and that a
read clears (`rc`); all other bits are read only or reserved (R5). `ranges` lists the stated range of each field
that has one.
-/

namespace Sys2Proof.Machine

/-- A field of a register: address, lowest bit and width. -/
structure Fld where
  addr : Nat
  lo : Nat
  w : Nat
  deriving DecidableEq, Repr

/-- A stated range of a field: lowest bit, width, least and greatest value. -/
structure FldRange where
  lo : Nat
  w : Nat
  min : Nat
  max : Nat
  deriving DecidableEq, Repr

/-- One register of the map: `n` copies `stride` apart, each of `m` consecutive words. -/
structure RegRow where
  name : String
  base : Nat
  n : Nat := 1
  stride : Nat := 0x10000
  m : Nat := 1
  reset : Word := 0
  rw : Word := 0
  rwl : Word := 0
  w1c : Word := 0
  wo : Word := 0
  rc : Word := 0
  ranges : List FldRange := []
  deriving DecidableEq, Repr

/-- The row covers the address. -/
def RegRow.has (r : RegRow) (a : Nat) : Bool :=
  Nat.ble r.base a && Nat.blt ((a - r.base) / r.stride) r.n && Nat.beq ((a - r.base) % r.stride % 4) 0
    && Nat.blt ((a - r.base) % r.stride / 4) r.m

/-- Register blocks, in the order of the access masks (R449); the eight channel blocks are one constructor. -/
inductive RegBlock where
  | sys | host | prot | pwr | syn | time | gate | sched | budg | res | ch (n : Nat) | inv | cry | swarm | csq
  | watch | emu | flash | pmb | diag
  deriving DecidableEq, Repr

/-- Mask bit of a block (R449). -/
def RegBlock.bit : RegBlock → Nat
  | .sys => 0 | .host => 1 | .prot => 2 | .pwr => 3 | .syn => 4 | .time => 5 | .gate => 6 | .sched => 7
  | .budg => 8 | .res => 9 | .ch n => 10 + n | .inv => 18 | .cry => 19 | .swarm => 20 | .csq => 21
  | .watch => 22 | .emu => 23 | .flash => 24 | .pmb => 25 | .diag => 26

/-- Registers of the SYS block (R485). -/
def rowsSys : List RegRow := [
  { name := "SYS_ID", base := 0x0, reset := 0x884000B0 },
  { name := "SYS_RSTCAUSE", base := 0x4, w1c := 0x3F },
  { name := "SYS_BOOT", base := 0x8 },
  { name := "SYS_BOOTSEQ", base := 0xC },
  { name := "SYS_BOOTERR", base := 0x10 },
  { name := "SYS_BOOTT", base := 0x14 },
  { name := "SYS_MAINT", base := 0x18, reset := 0x64, rw := 0xFFFF, ranges := [⟨0, 16, 1, 65535⟩] },
  { name := "SYS_RSTCNT", base := 0x1C }]

/-- Registers of the HOST block (R456). -/
def rowsHost : List RegRow := [
  { name := "HOSTn_STAT", base := 0x200, n := 4, stride := 0x80, reset := 0xF },
  { name := "HOSTn_NPEND", base := 0x204, n := 4, stride := 0x80, reset := 0x20000 },
  { name := "HOSTn_NMASK", base := 0x208, n := 4, stride := 0x80, reset := 0x7FFFF, rw := 0x7FFFF },
  { name := "HOSTn_CFG", base := 0x20C, n := 4, stride := 0x80, rw := 0x1 },
  { name := "HOSTn_CNT_0", base := 0x210, n := 4, stride := 0x80, rc := 0xFFFFFFFF },
  { name := "HOSTn_CNT_1", base := 0x214, n := 4, stride := 0x80, rc := 0xFFFFFFFF },
  { name := "HOSTn_CNT_2", base := 0x218, n := 4, stride := 0x80, rc := 0xFFFFFFFF },
  { name := "HOSTn_STALL", base := 0x21C, n := 4, stride := 0x80, rc := 0xFFFFFFFF }]

/-- Registers of the PROT block (R457). -/
def rowsProt : List RegRow := [
  { name := "PROT_CTL", base := 0x400, wo := 0x1 },
  { name := "PROT_STAT", base := 0x404 },
  { name := "PROT_DENY", base := 0x408 },
  { name := "PROT_PCFG_p", base := 0x410, reset := 0xF02, rw := 0xF03, ranges := [⟨0, 2, 0, 2⟩] },
  { name := "PROT_PCFG_p", base := 0x420, n := 3, stride := 0x10, rw := 0xF03, ranges := [⟨0, 2, 0, 2⟩] },
  { name := "PROT_RMASK_p", base := 0x414, n := 4, stride := 0x10, reset := 0x7FFFFFF, rw := 0x7FFFFFF },
  { name := "PROT_WMASK_p", base := 0x418, n := 4, stride := 0x10, rw := 0x7FFFFFF },
  { name := "PROT_MMASK_p", base := 0x41C, n := 4, stride := 0x10, reset := 0x3FF, rw := 0x3FF03FF },
  { name := "PROT_QOWN_j", base := 0x450, n := 8, stride := 0x4, reset := 0x44444444, rw := 0x77777777 },
  { name := "PROT_ROWN_j", base := 0x470, n := 4, stride := 0x4, reset := 0x44444444, rw := 0x77777777 }]

/-- Registers of the PWR block (R423). -/
def rowsPwr : List RegRow := [
  { name := "PWR_CTL", base := 0x600, reset := 0x640002, rw := 0xFFFF000F, ranges := [⟨1, 3, 1, 4⟩, ⟨16, 16, 1, 65535⟩] },
  { name := "PWR_STAT", base := 0x604, reset := 0xEFF0000 },
  { name := "PWR_WAKEEN", base := 0x608, reset := 0x1FD, rw := 0x1FF },
  { name := "PWR_TIMER", base := 0x60C, rw := 0xFFFFFFFF },
  { name := "PWR_LAST_WAKE", base := 0x610, reset := 0x56 },
  { name := "PWR_WTIME", base := 0x614 },
  { name := "PWR_DLY", base := 0x618, reset := 0xA0A28, rw := 0xFFFFFF, ranges := [⟨0, 8, 10, 255⟩, ⟨8, 8, 4, 63⟩, ⟨16, 8, 2, 63⟩] },
  { name := "PWR_LIM", base := 0x61C, reset := 0x1F405DC, rw := 0xFFFFFFFF, ranges := [⟨0, 16, 500, 10000⟩, ⟨16, 16, 1, 10000⟩] },
  { name := "PWR_CNT_0", base := 0x620, rc := 0xFFFFFFFF },
  { name := "PWR_CNT_1", base := 0x624, rc := 0xFFFFFFFF }]

/-- Registers of the SYN block (R75). -/
def rowsSyn : List RegRow := [
  { name := "SYN_CTL", base := 0x800, reset := 0x2, rw := 0x3, wo := 0x100 },
  { name := "SYN_STAT", base := 0x804, w1c := 0x300 },
  { name := "SYN_HOLD", base := 0x808, reset := 0x7D0, rw := 0xFFFF, ranges := [⟨0, 16, 500, 65535⟩] },
  { name := "SYN_PHOFS", base := 0x80C, rw := 0x3FF },
  { name := "SYN_DISC", base := 0x810, reset := 0x640040, rw := 0xFFF03FF, ranges := [⟨0, 10, 1, 511⟩, ⟨16, 12, 1, 4095⟩] },
  { name := "SYN_PHERR", base := 0x814 },
  { name := "SYN_FTRIM", base := 0x818 },
  { name := "SYN_LOCKT", base := 0x81C },
  { name := "SYN_ASCFG", base := 0x820, rw := 0x3 },
  { name := "SYN_ASWORD", base := 0x824 },
  { name := "SYN_TDRIFT", base := 0x828, reset := 0x28, rw := 0xFF, ranges := [⟨0, 8, 10, 100⟩] }]

/-- Registers of the TIME block (R358). -/
def rowsTime : List RegRow := [
  { name := "TIME_CTL", base := 0xA00, reset := 0x31, rw := 0xF3, ranges := [⟨4, 4, 0, 12⟩] },
  { name := "TIME_BEAT", base := 0xA04, reset := 0x3E8, rw := 0xFFF, ranges := [⟨0, 12, 125, 4000⟩] },
  { name := "TIME_MAXEX", base := 0xA08, reset := 0x7530, rw := 0xFFFFFF, ranges := [⟨0, 24, 500, 16777215⟩] },
  { name := "TIME_NT_LO", base := 0xA0C },
  { name := "TIME_NT_HI", base := 0xA10 },
  { name := "TIME_NT_FR", base := 0xA14 },
  { name := "TIME_RATE", base := 0xA18, rw := 0xFFFFFFFF },
  { name := "TIME_SYNC", base := 0xA1C, reset := 0x3E803E8, rw := 0xFFFF03FF, ranges := [⟨0, 10, 1, 1000⟩] },
  { name := "TIME_STEP", base := 0xA20, reset := 0xC350, rw := 0x7FFFFFFF, ranges := [⟨0, 31, 100, 200000⟩] },
  { name := "TIME_SYNCDLY", base := 0xA24, reset := 0x640000, rw := 0xFFFFFFFF, ranges := [⟨16, 16, 1, 1000⟩] },
  { name := "TIME_QACC", base := 0xA28, reset := 0x7D00064, rw := 0xFFFFFFFF },
  { name := "TIME_LPO", base := 0xA2C, reset := 0x14, rw := 0x3FF, w1c := 0x20000, ranges := [⟨0, 10, 1, 1000⟩] },
  { name := "TIME_LPORATIO", base := 0xA30, reset := 0x77359400 },
  { name := "TIME_RCRATIO", base := 0xA34, reset := 0x7A120000 },
  { name := "TIME_QUALITY", base := 0xA38, reset := 0xFFFFFFFF },
  { name := "TIME_UNCMAX", base := 0xA3C, reset := 0x2710, rw := 0xFFFFFFFF },
  { name := "TIME_STAT", base := 0xA40, w1c := 0x300 },
  { name := "TIME_PHERR", base := 0xA44 },
  { name := "TIME_SLPDUR", base := 0xA48 },
  { name := "TIME_SLPUNC", base := 0xA4C },
  { name := "TIME_CNT_0", base := 0xA50, rc := 0xFFFFFFFF },
  { name := "TIME_CNT_1", base := 0xA54, rc := 0xFFFFFFFF }]

/-- Registers of the GATE block (R359). -/
def rowsGate : List RegRow := [
  { name := "GATE_CTL", base := 0xC00, reset := 0x2, rw := 0x7, wo := 0x300 },
  { name := "GATE_GUARD", base := 0xC04, reset := 0x14, rw := 0xFFFF, ranges := [⟨0, 16, 0, 10000⟩] },
  { name := "GATE_ABASE_LO", base := 0xC08, rw := 0xFFFFFFFF },
  { name := "GATE_ABASE_HI", base := 0xC0C, rw := 0xFFFFFFFF },
  { name := "GATE_ACYCLE", base := 0xC10, rw := 0xFFFFFFFF, ranges := [⟨0, 32, 1000, 4294967295⟩] },
  { name := "GATE_ALEN", base := 0xC14, rw := 0x7F, ranges := [⟨0, 7, 1, 64⟩] },
  { name := "GATE_STAT", base := 0xC18, w1c := 0x2 },
  { name := "GATE_OPBASE_LO", base := 0xC1C },
  { name := "GATE_OPBASE_HI", base := 0xC20 },
  { name := "GATE_OPCYCLE", base := 0xC24 },
  { name := "GATE_CHG_LO", base := 0xC28 },
  { name := "GATE_CHG_HI", base := 0xC2C },
  { name := "GATE_OPIDX", base := 0xC30, rw := 0x3F },
  { name := "GATE_OPENT", base := 0xC34 },
  { name := "GATE_OPMASK", base := 0xC38 },
  { name := "GATE_OPEN", base := 0xC3C },
  { name := "GATE_CNT", base := 0xC40, rc := 0xFFFFFFFF },
  { name := "GATE_ENTRY_k", base := 0xE00, n := 64, stride := 0x4, rw := 0xFFFFFFFF },
  { name := "GATE_EMASK_k", base := 0xF00, n := 64, stride := 0x4, rw := 0xFFFFFFFF }]

/-- Registers of the SCHED block (R294). -/
def rowsSched : List RegRow := [
  { name := "SCHED_QCFG_q", base := 0x1000, n := 64, stride := 0x20, reset := 0x100FF06, rw := 0x3FFFFF0F, ranges := [⟨16, 14, 1, 8192⟩] },
  { name := "SCHED_QRATE_q", base := 0x1004, n := 64, stride := 0x20, rw := 0xFFFFFF },
  { name := "SCHED_QBURST_q", base := 0x1008, n := 64, stride := 0x20, rw := 0x7FFFFFFF },
  { name := "SCHED_QBAL_q", base := 0x100C, n := 64, stride := 0x20 },
  { name := "SCHED_QWM_q", base := 0x1010, n := 64, stride := 0x20, reset := 0x3FFF0000, rw := 0x3FFF3FFF, ranges := [⟨0, 14, 0, 8192⟩] },
  { name := "SCHED_QSTAT_q", base := 0x1014, n := 64, stride := 0x20, w1c := 0x4000 },
  { name := "SCHED_QDLY_q", base := 0x1018, n := 64, stride := 0x20, rc := 0xFFFF0000 },
  { name := "SCHED_QCNT_q", base := 0x101C, n := 64, stride := 0x20, rc := 0xFFFFFFFF }]

/-- Registers of the BUDG block (R328). -/
def rowsBudg : List RegRow := [
  { name := "BUDG_CTL", base := 0x1800, reset := 0x7, rw := 0x7 },
  { name := "BUDG_OVH", base := 0x1804, reset := 0x14, rw := 0xFFFF },
  { name := "BUDG_FLD", base := 0x1808, reset := 0x2EE0, rw := 0xFFFF, ranges := [⟨0, 16, 100, 20000⟩] },
  { name := "BUDG_HBURST", base := 0x180C, reset := 0x61A80, rw := 0x7FFFFFFF },
  { name := "BUDG_HRSV", base := 0x1810, rw := 0x7FFFFFFF },
  { name := "BUDG_HBAL", base := 0x1814, reset := 0x61A80 },
  { name := "BUDG_PIN", base := 0x1818, reset := 0x7530, rw := 0xFFFFFFFF, ranges := [⟨0, 16, 1000, 65535⟩] },
  { name := "BUDG_CLAIM", base := 0x181C, reset := 0x5A, rw := 0x7F, ranges := [⟨0, 7, 50, 100⟩] },
  { name := "BUDG_PBASE", base := 0x1820, reset := 0x3E8, rw := 0xFFFF },
  { name := "BUDG_PNOW", base := 0x1824 },
  { name := "BUDG_ISNS", base := 0x1828, reset := 0x2710, rw := 0xFFFF, ranges := [⟨0, 16, 1000, 50000⟩] },
  { name := "BUDG_VIN", base := 0x182C },
  { name := "BUDG_TLIM_0", base := 0x1830, reset := 0x7A006E0, rwl := 0xFFFFFFFF, ranges := [⟨0, 16, 960, 1968⟩, ⟨16, 16, 0, 2000⟩] },
  { name := "BUDG_TLIM_1", base := 0x1834, reset := 0x40508C0, rwl := 0xFFFFFFFF, ranges := [⟨0, 16, 2080, 2400⟩, ⟨16, 8, 1, 20⟩, ⟨24, 8, 0, 20⟩] },
  { name := "BUDG_TMOD_0", base := 0x1838, reset := 0x28012C, rw := 0xFFFFFFFF, ranges := [⟨0, 16, 1, 10000⟩, ⟨16, 16, 1, 1000⟩] },
  { name := "BUDG_TMOD_1", base := 0x183C, reset := 0xBB8076C, rw := 0xFFFFFFFF, ranges := [⟨0, 16, 1, 10000⟩, ⟨16, 16, 1, 60000⟩] },
  { name := "BUDG_THOR", base := 0x1840, reset := 0x1720032, rw := 0xFFFFFFFF, ranges := [⟨0, 16, 1, 1000⟩, ⟨16, 16, 0, 2000⟩] },
  { name := "BUDG_TSTAT", base := 0x1844, w1c := 0x700 },
  { name := "BUDG_TDIE", base := 0x1848 },
  { name := "BUDG_TSENS_0", base := 0x184C },
  { name := "BUDG_TSENS_1", base := 0x1850 },
  { name := "BUDG_TSENS_2", base := 0x1854 },
  { name := "BUDG_PDISS", base := 0x1858, rc := 0xFFFF0000 },
  { name := "BUDG_ADM", base := 0x185C },
  { name := "BUDG_ACNT_0", base := 0x1860, rc := 0xFFFFFFFF },
  { name := "BUDG_ACNT_1", base := 0x1864, rc := 0xFFFFFFFF },
  { name := "BUDG_PCFG_p", base := 0x1900, n := 4, stride := 0x40, reset := 0x3E800, rw := 0x7FF07, ranges := [⟨8, 11, 1, 1024⟩] },
  { name := "BUDG_CIR_p", base := 0x1904, n := 4, stride := 0x40, rw := 0xFFFFFF },
  { name := "BUDG_PIR_p", base := 0x1908, n := 4, stride := 0x40, rw := 0xFFFFFF },
  { name := "BUDG_CBS_p", base := 0x190C, n := 4, stride := 0x40, rw := 0x7FFFFFFF },
  { name := "BUDG_PBS_p", base := 0x1910, n := 4, stride := 0x40, rw := 0x7FFFFFFF },
  { name := "BUDG_TC_p", base := 0x1914, n := 4, stride := 0x40 },
  { name := "BUDG_TP_p", base := 0x1918, n := 4, stride := 0x40 },
  { name := "BUDG_QUOTA_p", base := 0x191C, n := 4, stride := 0x40, rw := 0x7FFFFFFF },
  { name := "BUDG_QUSE_p", base := 0x1920, n := 4, stride := 0x40 },
  { name := "BUDG_QSTAT_p", base := 0x1924, n := 4, stride := 0x40, w1c := 0x2 },
  { name := "BUDG_PCNT_p", base := 0x1928, n := 4, stride := 0x40, rc := 0xFFFFFFFF },
  { name := "BUDG_QCNT_p", base := 0x192C, n := 4, stride := 0x40, rc := 0xFFFF }]

/-- Registers of the RES block (R295). -/
def rowsRes : List RegRow := [
  { name := "RES_CFG_r", base := 0x1A00, n := 32, stride := 0x10, rw := 0xFFFF },
  { name := "RES_SPACE_r", base := 0x1A04, n := 32, stride := 0x10 },
  { name := "RES_ENT_r", base := 0x1A08, n := 32, stride := 0x10 },
  { name := "RES_CNT_r", base := 0x1A0C, n := 32, stride := 0x10, rc := 0xFFFFFFFF }]

/-- Registers of the CH block (R75, R109). -/
def rowsCh : List RegRow := [
  { name := "CHn_TXCTL", base := 0x2000, n := 8, stride := 0x100, reset := 0x1F, rw := 0x1F },
  { name := "CHn_TXPWR", base := 0x2004, n := 8, stride := 0x100, reset := 0x9C401F4, rw := 0xFFF, rwl := 0xFFF0000, ranges := [⟨0, 12, 0, 2500⟩, ⟨16, 12, 0, 2500⟩] },
  { name := "CHn_TXAMP", base := 0x2008, n := 8, stride := 0x100, rw := 0x3FF },
  { name := "CHn_TXTIME", base := 0x200C, n := 8, stride := 0x100, reset := 0x14141E, rw := 0xFFFFFF, ranges := [⟨0, 8, 10, 255⟩, ⟨16, 8, 5, 255⟩] },
  { name := "CHn_TXLOAD", base := 0x2010, n := 8, stride := 0x100, reset := 0x32000C8, rw := 0x3FF03FF, ranges := [⟨0, 10, 120, 500⟩, ⟨16, 10, 400, 1023⟩] },
  { name := "CHn_TXLOOP", base := 0x2014, n := 8, stride := 0x100, reset := 0xA780006, rw := 0xFFFF000F, ranges := [⟨0, 4, 1, 12⟩, ⟨16, 8, 20, 150⟩, ⟨24, 8, 1, 50⟩] },
  { name := "CHn_TCOMP_0", base := 0x2018, n := 8, stride := 0x100, rw := 0xFFFFFFFF },
  { name := "CHn_TCOMP_1", base := 0x201C, n := 8, stride := 0x100, rw := 0xFFFFFFFF },
  { name := "CHn_WSIDX", base := 0x2020, n := 8, stride := 0x100, rw := 0x7F },
  { name := "CHn_WSDATA", base := 0x2024, n := 8, stride := 0x100, rw := 0xFFFFFFFF },
  { name := "CHn_WSSTEP", base := 0x2028, n := 8, stride := 0x100, reset := 0x2211, rw := 0xFFFF, ranges := [⟨0, 4, 1, 15⟩, ⟨4, 4, 1, 15⟩, ⟨8, 4, 1, 15⟩, ⟨12, 4, 1, 15⟩] },
  { name := "CHn_PHASE", base := 0x202C, n := 8, stride := 0x100, rw := 0x3FF },
  { name := "CHn_ANT", base := 0x2030, n := 8, stride := 0x100, rw := 0xF },
  { name := "CHn_CCCTL", base := 0x2034, n := 8, stride := 0x100, reset := 0x128, rw := 0x13F, ranges := [⟨0, 6, 20, 60⟩] },
  { name := "CHn_CCIQ", base := 0x2038, n := 8, stride := 0x100, rw := 0xFFF0FFF },
  { name := "CHn_CCRES", base := 0x203C, n := 8, stride := 0x100 },
  { name := "CHn_CCPOS_k", base := 0x2040, n := 8, stride := 0x100, m := 8, rw := 0x8FFF0FFF },
  { name := "CHn_TXSTAT", base := 0x2060, n := 8, stride := 0x100, w1c := 0x3F00 },
  { name := "CHn_TXMEAS", base := 0x2064, n := 8, stride := 0x100 },
  { name := "CHn_TXENERGY", base := 0x2068, n := 8, stride := 0x100 },
  { name := "CHn_VTXNEED", base := 0x206C, n := 8, stride := 0x100 },
  { name := "CHn_RXCTL", base := 0x2080, n := 8, stride := 0x100, reset := 0x701, rw := 0x71F, ranges := [⟨1, 4, 0, 14⟩] },
  { name := "CHn_RXLO", base := 0x2084, n := 8, stride := 0x100, rw := 0x3FF },
  { name := "CHn_RXTHR", base := 0x2088, n := 8, stride := 0x100, reset := 0x1E080C, rw := 0xFF3F3F, ranges := [⟨0, 6, 6, 24⟩, ⟨8, 6, 8, 20⟩, ⟨16, 8, 10, 100⟩] },
  { name := "CHn_RXTIME", base := 0x208C, n := 8, stride := 0x100, reset := 0x216, rw := 0xFFFF, ranges := [⟨0, 8, 4, 255⟩, ⟨8, 8, 0, 20⟩] },
  { name := "CHn_RXIQ", base := 0x2090, n := 8, stride := 0x100, rw := 0xFFF0FFF },
  { name := "CHn_RXIQCAL", base := 0x2094, n := 8, stride := 0x100, reset := 0x280000, rw := 0xFF0000, w1c := 0x200, wo := 0x100, ranges := [⟨16, 8, 10, 100⟩] },
  { name := "CHn_RXSTAT", base := 0x2098, n := 8, stride := 0x100, w1c := 0xE0 },
  { name := "CHn_RXRSSI", base := 0x209C, n := 8, stride := 0x100 },
  { name := "CHn_RXVEC", base := 0x20A0, n := 8, stride := 0x100 },
  { name := "CHn_RXFDT", base := 0x20A4, n := 8, stride := 0x100 },
  { name := "CHn_RXCOLL", base := 0x20A8, n := 8, stride := 0x100, reset := 0xFFF },
  { name := "CHn_RXCMAP_0", base := 0x20AC, n := 8, stride := 0x100 },
  { name := "CHn_RXCMAP_1", base := 0x20B0, n := 8, stride := 0x100 },
  { name := "CHn_TXFIFO_A", base := 0x20B4, n := 8, stride := 0x100 },
  { name := "CHn_TXFIFO_B", base := 0x20B8, n := 8, stride := 0x100 },
  { name := "CHn_RXFIFO_A", base := 0x20BC, n := 8, stride := 0x100 },
  { name := "CHn_RXFIFO_B", base := 0x20C0, n := 8, stride := 0x100 },
  { name := "CHn_RXCNT_0", base := 0x20C4, n := 8, stride := 0x100, rc := 0xFFFFFFFF },
  { name := "CHn_RXCNT_1", base := 0x20C8, n := 8, stride := 0x100, rc := 0xFFFFFFFF },
  { name := "CHn_RXCNT_2", base := 0x20CC, n := 8, stride := 0x100, rc := 0xFFFFFFFF }]

/-- Registers of the INV block (R144). -/
def rowsInv : List RegRow := [
  { name := "INV_CTL", base := 0x2800, reset := 0x2229, rw := 0xF73F, ranges := [⟨8, 3, 0, 4⟩] },
  { name := "INV_AGE", base := 0x2804, reset := 0x140064, rw := 0xFFFFFFFF, ranges := [⟨0, 16, 1, 65535⟩, ⟨16, 16, 1, 65535⟩] },
  { name := "INV_CMD", base := 0x2808, wo := 0x3FFF000F, ranges := [⟨0, 4, 1, 6⟩] },
  { name := "INV_CMDSTAT", base := 0x280C },
  { name := "INV_KEY_0", base := 0x2810, rw := 0xFFFFFFFF },
  { name := "INV_KEY_1", base := 0x2814, rw := 0xFFFFFFFF },
  { name := "INV_KEY_2", base := 0x2818, rw := 0x3FFFFFFF },
  { name := "INV_STAT", base := 0x281C },
  { name := "INV_CNT_0", base := 0x2820, rc := 0xFFFFFFFF },
  { name := "INV_CNT_1", base := 0x2824, rc := 0xFFFFFFFF },
  { name := "INV_CNT_2", base := 0x2828, rc := 0xFFFFFFFF }]

/-- Registers of the CRY block (R181). -/
def rowsCry : List RegRow := [
  { name := "CRY_CTL", base := 0x2A00, reset := 0x1, rw := 0x1, rwl := 0x2 },
  { name := "CRY_PRIV", base := 0x2A04, rw := 0x7FF, ranges := [⟨0, 11, 0, 1024⟩] },
  { name := "CRY_PKVALID", base := 0x2A08 },
  { name := "CRY_CMD", base := 0x2A0C, wo := 0x1F0F, ranges := [⟨0, 4, 1, 4⟩] },
  { name := "CRY_CMDSTAT", base := 0x2A10 },
  { name := "CRY_STAT", base := 0x2A14 },
  { name := "CRY_LAT", base := 0x2A18, rc := 0xFFFFFFFF },
  { name := "CRY_CNT_0", base := 0x2A1C, rc := 0xFFFFFFFF },
  { name := "CRY_CNT_1", base := 0x2A20, rc := 0xFFFFFFFF },
  { name := "CRY_CNT_2", base := 0x2A24, rc := 0xFFFFFFFF }]

/-- Registers of the SWARM block (R214). -/
def rowsSwarm : List RegRow := [
  { name := "SWARM_CTL", base := 0x2C00, reset := 0x607, rw := 0x1F07, ranges := [⟨8, 5, 0, 30⟩] },
  { name := "SWARM_CMD", base := 0x2C04, wo := 0xFFF073F, ranges := [⟨0, 4, 1, 1⟩, ⟨16, 12, 10, 500⟩] },
  { name := "SWARM_CMDSTAT", base := 0x2C08 },
  { name := "SWARM_GCFG_g", base := 0x2C10, n := 4, stride := 0x4, rw := 0x3F01FF },
  { name := "SWARM_GPOS_g", base := 0x2C20, n := 4, stride := 0x4, rw := 0x77777777 },
  { name := "SWARM_LOCB_0", base := 0x2C30, rw := 0xFFFFFFFF },
  { name := "SWARM_LOCB_1", base := 0x2C34, rw := 0xFFFFFFFF },
  { name := "SWARM_LOCCFG", base := 0x2C38, reset := 0x280C4008, rw := 0xFFFFFF1F, ranges := [⟨0, 5, 2, 16⟩, ⟨16, 8, 0, 60⟩] },
  { name := "SWARM_STAT", base := 0x2C3C, w1c := 0x300 },
  { name := "SWARM_SNR_0", base := 0x2C40 },
  { name := "SWARM_SNR_1", base := 0x2C44 },
  { name := "SWARM_CSNR", base := 0x2C48 },
  { name := "SWARM_LOCX", base := 0x2C4C },
  { name := "SWARM_LOCQ", base := 0x2C50 },
  { name := "SWARM_CNT_0", base := 0x2C58, rc := 0xFFFFFFFF },
  { name := "SWARM_CNT_1", base := 0x2C5C, rc := 0xFFFFFFFF },
  { name := "SWARM_VEC_n", base := 0x2C60, n := 8, stride := 0x4 }]

/-- Registers of the CSQ block (R254). -/
def rowsCsq : List RegRow := [
  { name := "CSQn_STAT", base := 0x2E00, n := 8, stride := 0x20 },
  { name := "CSQn_PC", base := 0x2E04, n := 8, stride := 0x20 },
  { name := "CSQn_YCNT", base := 0x2E08, n := 8, stride := 0x20 },
  { name := "CSQn_FAULT", base := 0x2E0C, n := 8, stride := 0x20, w1c := 0x80000000 },
  { name := "CSQn_ICNT", base := 0x2E10, n := 8, stride := 0x20 },
  { name := "CSQn_CTL", base := 0x2E14, n := 8, stride := 0x20, reset := 0x1, rw := 0x1 },
  { name := "CSQn_YMAX", base := 0x2E18, n := 8, stride := 0x20, rc := 0xFFF },
  { name := "CSQn_CNT", base := 0x2E1C, n := 8, stride := 0x20, rc := 0xFFFFFFFF },
  { name := "CSQ_CACHE", base := 0x2F00, wo := 0x1 },
  { name := "CSQ_CCNT", base := 0x2F04, rc := 0xFFFFFFFF },
  { name := "CSQ_QID", base := 0x2F08, rw := 0x3FF },
  { name := "CSQ_QPW0", base := 0x2F0C, rw := 0xFFFFFFFF },
  { name := "CSQ_QPW1", base := 0x2F10, rw := 0xFFFFFFFF },
  { name := "CSQ_QWCX", base := 0x2F14, reset := 0xFFFFFFFF },
  { name := "CSQ_QRES", base := 0x2F18 }]

/-- Registers of the WATCH block (R424). -/
def rowsWatch : List RegRow := [
  { name := "WATCH_CTL", base := 0x3000, reset := 0x620000, rw := 0xF77F03, ranges := [⟨8, 7, 0, 64⟩, ⟨16, 3, 1, 7⟩, ⟨20, 4, 1, 15⟩] },
  { name := "WATCH_PER", base := 0x3004, reset := 0x1000FA, rw := 0xFFFFFF, ranges := [⟨0, 16, 10, 65535⟩, ⟨16, 8, 8, 64⟩] },
  { name := "WATCH_CMD", base := 0x3008, wo := 0x3F010F, ranges := [⟨0, 4, 1, 2⟩] },
  { name := "WATCH_SIDX", base := 0x300C, rw := 0x3F },
  { name := "WATCH_SCFG", base := 0x3010, rw := 0xFFFFFFFF },
  { name := "WATCH_SBASE", base := 0x3014, rw := 0xFFFFFFFF },
  { name := "WATCH_SMEAS", base := 0x3018 },
  { name := "WATCH_DET_0", base := 0x301C, w1c := 0xFFFFFFFF },
  { name := "WATCH_DET_1", base := 0x3020, w1c := 0xFFFFFFFF },
  { name := "WATCH_NOW_0", base := 0x3024 },
  { name := "WATCH_NOW_1", base := 0x3028 },
  { name := "WATCH_STAT", base := 0x302C },
  { name := "WATCH_CNT_0", base := 0x3030, rc := 0xFFFFFFFF },
  { name := "WATCH_CNT_1", base := 0x3034, rc := 0xFFFFFFFF }]

/-- Registers of the EMU block (R385). -/
def rowsEmu : List RegRow := [
  { name := "EMU_CTL", base := 0x3200, reset := 0x82, rw := 0xFFFF, ranges := [⟨2, 2, 0, 2⟩, ⟨6, 2, 0, 2⟩] },
  { name := "EMU_UID_0", base := 0x3204, rw := 0xFFFFFFFF },
  { name := "EMU_UID_1", base := 0x3208, rw := 0xFFFFFF },
  { name := "EMU_FID", base := 0x320C, reset := 0xE1A5E104, rw := 0xFFFFFFFF },
  { name := "EMU_LM", base := 0x3210, reset := 0x141410, rw := 0xFFFF3F, ranges := [⟨0, 6, 4, 63⟩, ⟨8, 8, 5, 255⟩, ⟨16, 8, 8, 255⟩] },
  { name := "EMU_WLOCK", base := 0x3214, reset := 0x1388, rw := 0xFFFF, ranges := [⟨0, 16, 100, 65535⟩] },
  { name := "EMU_STAT", base := 0x3218, w1c := 0x30000 },
  { name := "EMU_MBCMD", base := 0x321C, wo := 0xF, ranges := [⟨0, 4, 1, 4⟩] },
  { name := "EMU_MBSTAT", base := 0x3220 },
  { name := "EMU_JSEQ", base := 0x3224 },
  { name := "EMU_CNT_0", base := 0x3228, rc := 0xFFFFFFFF },
  { name := "EMU_CNT_1", base := 0x322C, rc := 0xFFFFFFFF }]

/-- Registers of the FLASH block (R486). -/
def rowsFlash : List RegRow := [
  { name := "FLASH_CFG", base := 0x3400, reset := 0xA00, rw := 0xFF03, ranges := [⟨8, 8, 1, 255⟩] },
  { name := "FLASH_TMO", base := 0x3404, reset := 0x1900005, rw := 0xFFFF00FF, ranges := [⟨0, 8, 1, 255⟩, ⟨16, 16, 10, 65535⟩] },
  { name := "FLASH_ID", base := 0x3408 },
  { name := "FLASH_GEOM", base := 0x340C },
  { name := "FLASH_STAT", base := 0x3410, w1c := 0x100 },
  { name := "FLASH_RES", base := 0x3414 },
  { name := "FLASH_IMG", base := 0x3418 },
  { name := "FLASH_SEQA", base := 0x341C },
  { name := "FLASH_SEQB", base := 0x3420 },
  { name := "FLASH_CNT", base := 0x3424, rc := 0xFFFFFFFF },
  { name := "FLASH_ECNT", base := 0x3428, rc := 0xFFFFFFFF }]

/-- Registers of the PMB block (R425). -/
def rowsPmb : List RegRow := [
  { name := "PMB_CTL", base := 0x3600, reset := 0x34006, rw := 0xF7F07 },
  { name := "PMB_VLIM", base := 0x3604, reset := 0x3E801388, rw := 0xFFFFFFFF, ranges := [⟨0, 16, 3000, 16000⟩, ⟨16, 16, 3000, 16000⟩] },
  { name := "PMB_VSTEP", base := 0x3608, reset := 0x60A0064, rw := 0xFFFF03FF, ranges := [⟨0, 10, 10, 1000⟩, ⟨16, 8, 1, 255⟩, ⟨24, 8, 1, 20⟩] },
  { name := "PMB_TIME", base := 0x360C, reset := 0x19007D0, rw := 0xFFFFFFFF, ranges := [⟨0, 16, 100, 65535⟩, ⟨16, 16, 50, 65535⟩] },
  { name := "PMB_VSET", base := 0x3610 },
  { name := "PMB_VREAD", base := 0x3614 },
  { name := "PMB_STAT", base := 0x3618, w1c := 0x100 },
  { name := "PMB_CMD", base := 0x361C, wo := 0xFFFFFF0F, ranges := [⟨0, 4, 1, 6⟩] },
  { name := "PMB_RAW", base := 0x3620 },
  { name := "PMB_CNT", base := 0x3624, rc := 0xFFFFFFFF }]

/-- Registers of the DIAG block (R487). -/
def rowsDiag : List RegRow := [
  { name := "DIAG_CMD", base := 0x3800, wo := 0xFF0F, ranges := [⟨0, 4, 1, 2⟩] },
  { name := "DIAG_STAT", base := 0x3804, w1c := 0x4 },
  { name := "DIAG_MAINT", base := 0x3808 },
  { name := "DIAG_CNT_0", base := 0x380C, rc := 0xFFFFFFFF },
  { name := "DIAG_CNT_1", base := 0x3810, rc := 0xFFFFFFFF },
  { name := "DIAG_CNT_2", base := 0x3814, rc := 0xFFFFFFFF },
  { name := "DIAG_CNT_3", base := 0x3818, rc := 0xFFFFFFFF },
  { name := "DIAG_CNT_4", base := 0x381C, rc := 0xFFFFFFFF }]

/-- The block of a register address; none in a hole (R442). -/
def blockOf (a : Nat) : Option RegBlock :=
  if Nat.blt a 0x200 then some .sys
  else if Nat.blt a 0x400 then some .host
  else if Nat.blt a 0x600 then some .prot
  else if Nat.blt a 0x800 then some .pwr
  else if Nat.blt a 0xA00 then some .syn
  else if Nat.blt a 0xC00 then some .time
  else if Nat.blt a 0x1000 then some .gate
  else if Nat.blt a 0x1800 then some .sched
  else if Nat.blt a 0x1A00 then some .budg
  else if Nat.blt a 0x1C00 then some .res
  else if Nat.blt a 0x2000 then none
  else if Nat.blt a 0x2800 then some (.ch ((a - 0x2000) / 0x100))
  else if Nat.blt a 0x2A00 then some .inv
  else if Nat.blt a 0x2C00 then some .cry
  else if Nat.blt a 0x2E00 then some .swarm
  else if Nat.blt a 0x3000 then some .csq
  else if Nat.blt a 0x3200 then some .watch
  else if Nat.blt a 0x3400 then some .emu
  else if Nat.blt a 0x3600 then some .flash
  else if Nat.blt a 0x3800 then some .pmb
  else if Nat.blt a 0x3A00 then some .diag
  else none

/-- The rows of a block. -/
def RegBlock.rows : RegBlock → List RegRow
  | .sys => rowsSys
  | .host => rowsHost
  | .prot => rowsProt
  | .pwr => rowsPwr
  | .syn => rowsSyn
  | .time => rowsTime
  | .gate => rowsGate
  | .sched => rowsSched
  | .budg => rowsBudg
  | .res => rowsRes
  | .ch _ => rowsCh
  | .inv => rowsInv
  | .cry => rowsCry
  | .swarm => rowsSwarm
  | .csq => rowsCsq
  | .watch => rowsWatch
  | .emu => rowsEmu
  | .flash => rowsFlash
  | .pmb => rowsPmb
  | .diag => rowsDiag

/-- The row of a register address, if the address holds a register. -/
def rowAt (a : Nat) : Option RegRow :=
  match blockOf a with
  | none => none
  | some b => b.rows.find? fun r => r.has a

/-- The reset value of the word at a register address. -/
def resetWord (a : Nat) : Word :=
  match rowAt a with
  | none => 0
  | some r => r.reset

/-! Names of the registers and of their fields: `CH_`, `HOST_` and `CSQ_` registers take the channel or port, arrays
take their index. -/

namespace R

def SYS_ID : Nat := 0x0
def SYS_ID_ID : Fld := ⟨SYS_ID, 0, 32⟩
def SYS_RSTCAUSE : Nat := 0x4
def SYS_RSTCAUSE_POR : Fld := ⟨SYS_RSTCAUSE, 0, 1⟩
def SYS_RSTCAUSE_OFFEXIT : Fld := ⟨SYS_RSTCAUSE, 1, 1⟩
def SYS_RSTCAUSE_PIN : Fld := ⟨SYS_RSTCAUSE, 2, 1⟩
def SYS_RSTCAUSE_SYSTEM : Fld := ⟨SYS_RSTCAUSE, 3, 1⟩
def SYS_RSTCAUSE_WARM : Fld := ⟨SYS_RSTCAUSE, 4, 1⟩
def SYS_RSTCAUSE_THERMAL : Fld := ⟨SYS_RSTCAUSE, 5, 1⟩
def SYS_RSTCAUSE_PORT : Fld := ⟨SYS_RSTCAUSE, 8, 2⟩
def SYS_BOOT : Nat := 0x8
def SYS_BOOT_READY : Fld := ⟨SYS_BOOT, 0, 1⟩
def SYS_BOOT_SLOT : Fld := ⟨SYS_BOOT, 1, 1⟩
def SYS_BOOT_NOIMG : Fld := ⟨SYS_BOOT, 2, 1⟩
def SYS_BOOT_ALT : Fld := ⟨SYS_BOOT, 3, 1⟩
def SYS_BOOT_RECERR : Fld := ⟨SYS_BOOT, 4, 1⟩
def SYS_BOOT_JLOAD : Fld := ⟨SYS_BOOT, 5, 1⟩
def SYS_BOOTSEQ : Nat := 0xC
def SYS_BOOTSEQ_SEQ : Fld := ⟨SYS_BOOTSEQ, 0, 32⟩
def SYS_BOOTERR : Nat := 0x10
def SYS_BOOTERR_INDEX : Fld := ⟨SYS_BOOTERR, 0, 16⟩
def SYS_BOOTERR_STATUS : Fld := ⟨SYS_BOOTERR, 16, 8⟩
def SYS_BOOTERR_TYPE : Fld := ⟨SYS_BOOTERR, 24, 8⟩
def SYS_BOOTT : Nat := 0x14
def SYS_BOOTT_BOOT_US : Fld := ⟨SYS_BOOTT, 0, 24⟩
def SYS_MAINT : Nat := 0x18
def SYS_MAINT_MAINT_DRAIN_MAX : Fld := ⟨SYS_MAINT, 0, 16⟩
def SYS_RSTCNT : Nat := 0x1C
def SYS_RSTCNT_N_WARM : Fld := ⟨SYS_RSTCNT, 0, 16⟩
def SYS_RSTCNT_N_THERM : Fld := ⟨SYS_RSTCNT, 16, 16⟩
def HOST_STAT (n : Nat) : Nat := 0x200 + 0x80 * n
def HOST_STAT_LAST_SEQ (n : Nat) : Fld := ⟨HOST_STAT n, 0, 4⟩
def HOST_STAT_MODE (n : Nat) : Fld := ⟨HOST_STAT n, 4, 1⟩
def HOST_STAT_INFRAME (n : Nat) : Fld := ⟨HOST_STAT n, 5, 1⟩
def HOST_STAT_OPEN (n : Nat) : Fld := ⟨HOST_STAT n, 6, 1⟩
def HOST_STAT_DISCARD (n : Nat) : Fld := ⟨HOST_STAT n, 7, 1⟩
def HOST_NPEND (n : Nat) : Nat := 0x204 + 0x80 * n
def HOST_NPEND_PEND (n : Nat) : Fld := ⟨HOST_NPEND n, 0, 19⟩
def HOST_NMASK (n : Nat) : Nat := 0x208 + 0x80 * n
def HOST_NMASK_MASK (n : Nat) : Fld := ⟨HOST_NMASK n, 0, 19⟩
def HOST_CFG (n : Nat) : Nat := 0x20C + 0x80 * n
def HOST_CFG_ATTN_OD (n : Nat) : Fld := ⟨HOST_CFG n, 0, 1⟩
def HOST_CNT_0 (n : Nat) : Nat := 0x210 + 0x80 * n
def HOST_CNT_0_N_FRAME (n : Nat) : Fld := ⟨HOST_CNT_0 n, 0, 16⟩
def HOST_CNT_0_N_CRCBAD (n : Nat) : Fld := ⟨HOST_CNT_0 n, 16, 16⟩
def HOST_CNT_1 (n : Nat) : Nat := 0x214 + 0x80 * n
def HOST_CNT_1_N_SEQBAD (n : Nat) : Fld := ⟨HOST_CNT_1 n, 0, 16⟩
def HOST_CNT_1_N_RETRY (n : Nat) : Fld := ⟨HOST_CNT_1 n, 16, 16⟩
def HOST_CNT_2 (n : Nat) : Nat := 0x218 + 0x80 * n
def HOST_CNT_2_N_TRUNC (n : Nat) : Fld := ⟨HOST_CNT_2 n, 0, 16⟩
def HOST_CNT_2_N_DENIED (n : Nat) : Fld := ⟨HOST_CNT_2 n, 16, 16⟩
def HOST_STALL (n : Nat) : Nat := 0x21C + 0x80 * n
def HOST_STALL_STALL_MAX (n : Nat) : Fld := ⟨HOST_STALL n, 0, 16⟩
def HOST_STALL_N_STALL (n : Nat) : Fld := ⟨HOST_STALL n, 16, 16⟩
def PROT_CTL : Nat := 0x400
def PROT_CTL_COMMIT : Fld := ⟨PROT_CTL, 0, 1⟩
def PROT_STAT : Nat := 0x404
def PROT_STAT_OWNER : Fld := ⟨PROT_STAT, 0, 2⟩
def PROT_STAT_COMMITTED : Fld := ⟨PROT_STAT, 2, 1⟩
def PROT_DENY : Nat := 0x408
def PROT_DENY_PORT : Fld := ⟨PROT_DENY, 0, 2⟩
def PROT_DENY_OPC : Fld := ⟨PROT_DENY, 8, 8⟩
def PROT_DENY_ADDR : Fld := ⟨PROT_DENY, 16, 14⟩
def PROT_PCFG (n : Nat) : Nat := 0x410 + 0x10 * n
def PROT_PCFG_PRIV (n : Nat) : Fld := ⟨PROT_PCFG n, 0, 2⟩
def PROT_PCFG_R_TIME (n : Nat) : Fld := ⟨PROT_PCFG n, 8, 1⟩
def PROT_PCFG_R_POWER (n : Nat) : Fld := ⟨PROT_PCFG n, 9, 1⟩
def PROT_PCFG_R_RESET (n : Nat) : Fld := ⟨PROT_PCFG n, 10, 1⟩
def PROT_PCFG_R_FLASH (n : Nat) : Fld := ⟨PROT_PCFG n, 11, 1⟩
def PROT_RMASK (n : Nat) : Nat := 0x414 + 0x10 * n
def PROT_RMASK_RMASK (n : Nat) : Fld := ⟨PROT_RMASK n, 0, 27⟩
def PROT_WMASK (n : Nat) : Nat := 0x418 + 0x10 * n
def PROT_WMASK_WMASK (n : Nat) : Fld := ⟨PROT_WMASK n, 0, 27⟩
def PROT_MMASK (n : Nat) : Nat := 0x41C + 0x10 * n
def PROT_MMASK_MREAD (n : Nat) : Fld := ⟨PROT_MMASK n, 0, 10⟩
def PROT_MMASK_MWRITE (n : Nat) : Fld := ⟨PROT_MMASK n, 16, 10⟩
def PROT_QOWN (n : Nat) : Nat := 0x450 + 0x4 * n
def PROT_QOWN_PORT_0 (n : Nat) : Fld := ⟨PROT_QOWN n, 0, 2⟩
def PROT_QOWN_PORT_1 (n : Nat) : Fld := ⟨PROT_QOWN n, 4, 2⟩
def PROT_QOWN_PORT_2 (n : Nat) : Fld := ⟨PROT_QOWN n, 8, 2⟩
def PROT_QOWN_PORT_3 (n : Nat) : Fld := ⟨PROT_QOWN n, 12, 2⟩
def PROT_QOWN_PORT_4 (n : Nat) : Fld := ⟨PROT_QOWN n, 16, 2⟩
def PROT_QOWN_PORT_5 (n : Nat) : Fld := ⟨PROT_QOWN n, 20, 2⟩
def PROT_QOWN_PORT_6 (n : Nat) : Fld := ⟨PROT_QOWN n, 24, 2⟩
def PROT_QOWN_PORT_7 (n : Nat) : Fld := ⟨PROT_QOWN n, 28, 2⟩
def PROT_QOWN_EN_0 (n : Nat) : Fld := ⟨PROT_QOWN n, 2, 1⟩
def PROT_QOWN_EN_1 (n : Nat) : Fld := ⟨PROT_QOWN n, 6, 1⟩
def PROT_QOWN_EN_2 (n : Nat) : Fld := ⟨PROT_QOWN n, 10, 1⟩
def PROT_QOWN_EN_3 (n : Nat) : Fld := ⟨PROT_QOWN n, 14, 1⟩
def PROT_QOWN_EN_4 (n : Nat) : Fld := ⟨PROT_QOWN n, 18, 1⟩
def PROT_QOWN_EN_5 (n : Nat) : Fld := ⟨PROT_QOWN n, 22, 1⟩
def PROT_QOWN_EN_6 (n : Nat) : Fld := ⟨PROT_QOWN n, 26, 1⟩
def PROT_QOWN_EN_7 (n : Nat) : Fld := ⟨PROT_QOWN n, 30, 1⟩
def PROT_ROWN (n : Nat) : Nat := 0x470 + 0x4 * n
def PROT_ROWN_PORT_0 (n : Nat) : Fld := ⟨PROT_ROWN n, 0, 2⟩
def PROT_ROWN_PORT_1 (n : Nat) : Fld := ⟨PROT_ROWN n, 4, 2⟩
def PROT_ROWN_PORT_2 (n : Nat) : Fld := ⟨PROT_ROWN n, 8, 2⟩
def PROT_ROWN_PORT_3 (n : Nat) : Fld := ⟨PROT_ROWN n, 12, 2⟩
def PROT_ROWN_PORT_4 (n : Nat) : Fld := ⟨PROT_ROWN n, 16, 2⟩
def PROT_ROWN_PORT_5 (n : Nat) : Fld := ⟨PROT_ROWN n, 20, 2⟩
def PROT_ROWN_PORT_6 (n : Nat) : Fld := ⟨PROT_ROWN n, 24, 2⟩
def PROT_ROWN_PORT_7 (n : Nat) : Fld := ⟨PROT_ROWN n, 28, 2⟩
def PROT_ROWN_EN_0 (n : Nat) : Fld := ⟨PROT_ROWN n, 2, 1⟩
def PROT_ROWN_EN_1 (n : Nat) : Fld := ⟨PROT_ROWN n, 6, 1⟩
def PROT_ROWN_EN_2 (n : Nat) : Fld := ⟨PROT_ROWN n, 10, 1⟩
def PROT_ROWN_EN_3 (n : Nat) : Fld := ⟨PROT_ROWN n, 14, 1⟩
def PROT_ROWN_EN_4 (n : Nat) : Fld := ⟨PROT_ROWN n, 18, 1⟩
def PROT_ROWN_EN_5 (n : Nat) : Fld := ⟨PROT_ROWN n, 22, 1⟩
def PROT_ROWN_EN_6 (n : Nat) : Fld := ⟨PROT_ROWN n, 26, 1⟩
def PROT_ROWN_EN_7 (n : Nat) : Fld := ⟨PROT_ROWN n, 30, 1⟩
def PWR_CTL : Nat := 0x600
def PWR_CTL_AUTO_EN : Fld := ⟨PWR_CTL, 0, 1⟩
def PWR_CTL_AUTO_STATE : Fld := ⟨PWR_CTL, 1, 3⟩
def PWR_CTL_AUTO_MS : Fld := ⟨PWR_CTL, 16, 16⟩
def PWR_STAT : Nat := 0x604
def PWR_STAT_TARGET : Fld := ⟨PWR_STAT, 0, 3⟩
def PWR_STAT_PHASE : Fld := ⟨PWR_STAT, 3, 2⟩
def PWR_STAT_XO_FAIL : Fld := ⟨PWR_STAT, 5, 1⟩
def PWR_STAT_REFUSE : Fld := ⟨PWR_STAT, 8, 4⟩
def PWR_STAT_RDOM : Fld := ⟨PWR_STAT, 12, 4⟩
def PWR_STAT_DOMON : Fld := ⟨PWR_STAT, 16, 12⟩
def PWR_WAKEEN : Nat := 0x608
def PWR_WAKEEN_PIN : Fld := ⟨PWR_WAKEEN, 0, 1⟩
def PWR_WAKEEN_PIN_POL : Fld := ⟨PWR_WAKEEN, 1, 1⟩
def PWR_WAKEEN_HOST : Fld := ⟨PWR_WAKEEN, 2, 4⟩
def PWR_WAKEEN_TIMER : Fld := ⟨PWR_WAKEEN, 6, 1⟩
def PWR_WAKEEN_WATCH : Fld := ⟨PWR_WAKEEN, 7, 1⟩
def PWR_WAKEEN_EMU : Fld := ⟨PWR_WAKEEN, 8, 1⟩
def PWR_TIMER : Nat := 0x60C
def PWR_TIMER_TIMER_MS : Fld := ⟨PWR_TIMER, 0, 32⟩
def PWR_LAST_WAKE : Nat := 0x610
def PWR_LAST_WAKE_SRC : Fld := ⟨PWR_LAST_WAKE, 0, 3⟩
def PWR_LAST_WAKE_EARLY : Fld := ⟨PWR_LAST_WAKE, 3, 1⟩
def PWR_LAST_WAKE_FROM : Fld := ⟨PWR_LAST_WAKE, 4, 3⟩
def PWR_LAST_WAKE_SRCMAP : Fld := ⟨PWR_LAST_WAKE, 8, 6⟩
def PWR_LAST_WAKE_PORT : Fld := ⟨PWR_LAST_WAKE, 16, 2⟩
def PWR_LAST_WAKE_STEP : Fld := ⟨PWR_LAST_WAKE, 18, 6⟩
def PWR_LAST_WAKE_CH : Fld := ⟨PWR_LAST_WAKE, 24, 3⟩
def PWR_WTIME : Nat := 0x614
def PWR_WTIME_WAKE_US : Fld := ⟨PWR_WTIME, 0, 24⟩
def PWR_DLY : Nat := 0x618
def PWR_DLY_VC_US : Fld := ⟨PWR_DLY, 0, 8⟩
def PWR_DLY_DOM_US : Fld := ⟨PWR_DLY, 8, 8⟩
def PWR_DLY_CH_US : Fld := ⟨PWR_DLY, 16, 8⟩
def PWR_LIM : Nat := 0x61C
def PWR_LIM_XO_MAX_US : Fld := ⟨PWR_LIM, 0, 16⟩
def PWR_LIM_ENTRY_MS : Fld := ⟨PWR_LIM, 16, 16⟩
def PWR_CNT_0 : Nat := 0x620
def PWR_CNT_0_N_ENTRY : Fld := ⟨PWR_CNT_0, 0, 16⟩
def PWR_CNT_0_N_REFUSE : Fld := ⟨PWR_CNT_0, 16, 16⟩
def PWR_CNT_1 : Nat := 0x624
def PWR_CNT_1_N_WAKE : Fld := ⟨PWR_CNT_1, 0, 16⟩
def PWR_CNT_1_N_EARLY : Fld := ⟨PWR_CNT_1, 16, 16⟩
def SYN_CTL : Nat := 0x800
def SYN_CTL_DISC : Fld := ⟨SYN_CTL, 0, 1⟩
def SYN_CTL_STEP_EN : Fld := ⟨SYN_CTL, 1, 1⟩
def SYN_CTL_RECAL : Fld := ⟨SYN_CTL, 8, 1⟩
def SYN_STAT : Nat := 0x804
def SYN_STAT_STATE : Fld := ⟨SYN_STAT, 0, 3⟩
def SYN_STAT_LOCK : Fld := ⟨SYN_STAT, 3, 1⟩
def SYN_STAT_UNLOCK_SEEN : Fld := ⟨SYN_STAT, 8, 1⟩
def SYN_STAT_LOCK_FAIL : Fld := ⟨SYN_STAT, 9, 1⟩
def SYN_STAT_CAL_TEMP : Fld := ⟨SYN_STAT, 16, 16⟩
def SYN_HOLD : Nat := 0x808
def SYN_HOLD_SYN_HOLD_MAX : Fld := ⟨SYN_HOLD, 0, 16⟩
def SYN_PHOFS : Nat := 0x80C
def SYN_PHOFS_PHOFS : Fld := ⟨SYN_PHOFS, 0, 10⟩
def SYN_DISC : Nat := 0x810
def SYN_DISC_STEP_THR : Fld := ⟨SYN_DISC, 0, 10⟩
def SYN_DISC_SLEW_MAX : Fld := ⟨SYN_DISC, 16, 12⟩
def SYN_PHERR : Nat := 0x814
def SYN_PHERR_ERR : Fld := ⟨SYN_PHERR, 0, 10⟩
def SYN_PHERR_VALID : Fld := ⟨SYN_PHERR, 31, 1⟩
def SYN_FTRIM : Nat := 0x818
def SYN_FTRIM_TRIM : Fld := ⟨SYN_FTRIM, 0, 24⟩
def SYN_LOCKT : Nat := 0x81C
def SYN_LOCKT_LOCK_US : Fld := ⟨SYN_LOCKT, 0, 16⟩
def SYN_LOCKT_LOSSES : Fld := ⟨SYN_LOCKT, 16, 16⟩
def SYN_ASCFG : Nat := 0x820
def SYN_ASCFG_DIV : Fld := ⟨SYN_ASCFG, 0, 2⟩
def SYN_ASWORD : Nat := 0x824
def SYN_ASWORD_WORD : Fld := ⟨SYN_ASWORD, 0, 32⟩
def SYN_TDRIFT : Nat := 0x828
def SYN_TDRIFT_RECAL_DT : Fld := ⟨SYN_TDRIFT, 0, 8⟩
def TIME_CTL : Nat := 0xA00
def TIME_CTL_SERVO : Fld := ⟨TIME_CTL, 0, 1⟩
def TIME_CTL_SYNCO_EN : Fld := ⟨TIME_CTL, 1, 1⟩
def TIME_CTL_KI_SH : Fld := ⟨TIME_CTL, 4, 4⟩
def TIME_BEAT : Nat := 0xA04
def TIME_BEAT_BEAT_US : Fld := ⟨TIME_BEAT, 0, 12⟩
def TIME_MAXEX : Nat := 0xA08
def TIME_MAXEX_MAX_EXCH_US : Fld := ⟨TIME_MAXEX, 0, 24⟩
def TIME_NT_LO : Nat := 0xA0C
def TIME_NT_LO_NT : Fld := ⟨TIME_NT_LO, 0, 32⟩
def TIME_NT_HI : Nat := 0xA10
def TIME_NT_HI_NT : Fld := ⟨TIME_NT_HI, 0, 32⟩
def TIME_NT_FR : Nat := 0xA14
def TIME_NT_FR_FRAC : Fld := ⟨TIME_NT_FR, 0, 16⟩
def TIME_RATE : Nat := 0xA18
def TIME_RATE_RATE : Fld := ⟨TIME_RATE, 0, 32⟩
def TIME_SYNC : Nat := 0xA1C
def TIME_SYNC_SYNC_PER_MS : Fld := ⟨TIME_SYNC, 0, 10⟩
def TIME_SYNC_CAPT_NS : Fld := ⟨TIME_SYNC, 16, 16⟩
def TIME_STEP : Nat := 0xA20
def TIME_STEP_STEP_NS : Fld := ⟨TIME_STEP, 0, 31⟩
def TIME_SYNCDLY : Nat := 0xA24
def TIME_SYNCDLY_SYNCI_DLY_NS : Fld := ⟨TIME_SYNCDLY, 0, 16⟩
def TIME_SYNCDLY_SYNCO_W_US : Fld := ⟨TIME_SYNCDLY, 16, 16⟩
def TIME_QACC : Nat := 0xA28
def TIME_QACC_SYNC_ACC_NS : Fld := ⟨TIME_QACC, 0, 16⟩
def TIME_QACC_HOLD_PPB : Fld := ⟨TIME_QACC, 16, 16⟩
def TIME_LPO : Nat := 0xA2C
def TIME_LPO_LPO_TOL_PPM : Fld := ⟨TIME_LPO, 0, 10⟩
def TIME_LPO_SRC : Fld := ⟨TIME_LPO, 16, 1⟩
def TIME_LPO_SWITCHED : Fld := ⟨TIME_LPO, 17, 1⟩
def TIME_LPORATIO : Nat := 0xA30
def TIME_LPORATIO_RATIO : Fld := ⟨TIME_LPORATIO, 0, 32⟩
def TIME_RCRATIO : Nat := 0xA34
def TIME_RCRATIO_RATIO : Fld := ⟨TIME_RCRATIO, 0, 32⟩
def TIME_QUALITY : Nat := 0xA38
def TIME_QUALITY_UNC : Fld := ⟨TIME_QUALITY, 0, 32⟩
def TIME_UNCMAX : Nat := 0xA3C
def TIME_UNCMAX_UNC_MAX : Fld := ⟨TIME_UNCMAX, 0, 32⟩
def TIME_STAT : Nat := 0xA40
def TIME_STAT_STATE : Fld := ⟨TIME_STAT, 0, 3⟩
def TIME_STAT_POOR : Fld := ⟨TIME_STAT, 3, 1⟩
def TIME_STAT_ARMED : Fld := ⟨TIME_STAT, 4, 1⟩
def TIME_STAT_AMBIG : Fld := ⟨TIME_STAT, 5, 1⟩
def TIME_STAT_STEPPED : Fld := ⟨TIME_STAT, 8, 1⟩
def TIME_STAT_REJ_SEEN : Fld := ⟨TIME_STAT, 9, 1⟩
def TIME_PHERR : Nat := 0xA44
def TIME_PHERR_E : Fld := ⟨TIME_PHERR, 0, 32⟩
def TIME_SLPDUR : Nat := 0xA48
def TIME_SLPDUR_DUR_MS : Fld := ⟨TIME_SLPDUR, 0, 32⟩
def TIME_SLPUNC : Nat := 0xA4C
def TIME_SLPUNC_UNC_ADD : Fld := ⟨TIME_SLPUNC, 0, 32⟩
def TIME_CNT_0 : Nat := 0xA50
def TIME_CNT_0_N_SYNC : Fld := ⟨TIME_CNT_0, 0, 16⟩
def TIME_CNT_0_N_REJ : Fld := ⟨TIME_CNT_0, 16, 16⟩
def TIME_CNT_1 : Nat := 0xA54
def TIME_CNT_1_N_STEP : Fld := ⟨TIME_CNT_1, 0, 16⟩
def TIME_CNT_1_N_HOLD : Fld := ⟨TIME_CNT_1, 16, 16⟩
def GATE_CTL : Nat := 0xC00
def GATE_CTL_EN : Fld := ⟨GATE_CTL, 0, 1⟩
def GATE_CTL_WIDEN : Fld := ⟨GATE_CTL, 1, 1⟩
def GATE_CTL_HOLD_POOR_TIME : Fld := ⟨GATE_CTL, 2, 1⟩
def GATE_CTL_SWAP : Fld := ⟨GATE_CTL, 8, 1⟩
def GATE_CTL_CANCEL : Fld := ⟨GATE_CTL, 9, 1⟩
def GATE_GUARD : Nat := 0xC04
def GATE_GUARD_GUARD_US : Fld := ⟨GATE_GUARD, 0, 16⟩
def GATE_ABASE_LO : Nat := 0xC08
def GATE_ABASE_LO_ABASE : Fld := ⟨GATE_ABASE_LO, 0, 32⟩
def GATE_ABASE_HI : Nat := 0xC0C
def GATE_ABASE_HI_ABASE : Fld := ⟨GATE_ABASE_HI, 0, 32⟩
def GATE_ACYCLE : Nat := 0xC10
def GATE_ACYCLE_ACYCLE : Fld := ⟨GATE_ACYCLE, 0, 32⟩
def GATE_ALEN : Nat := 0xC14
def GATE_ALEN_ALEN : Fld := ⟨GATE_ALEN, 0, 7⟩
def GATE_STAT : Nat := 0xC18
def GATE_STAT_PEND : Fld := ⟨GATE_STAT, 0, 1⟩
def GATE_STAT_LATE : Fld := ⟨GATE_STAT, 1, 1⟩
def GATE_STAT_HELD : Fld := ⟨GATE_STAT, 2, 1⟩
def GATE_STAT_OPLEN : Fld := ⟨GATE_STAT, 8, 7⟩
def GATE_STAT_CUR : Fld := ⟨GATE_STAT, 16, 6⟩
def GATE_OPBASE_LO : Nat := 0xC1C
def GATE_OPBASE_LO_OPBASE : Fld := ⟨GATE_OPBASE_LO, 0, 32⟩
def GATE_OPBASE_HI : Nat := 0xC20
def GATE_OPBASE_HI_OPBASE : Fld := ⟨GATE_OPBASE_HI, 0, 32⟩
def GATE_OPCYCLE : Nat := 0xC24
def GATE_OPCYCLE_OPCYCLE : Fld := ⟨GATE_OPCYCLE, 0, 32⟩
def GATE_CHG_LO : Nat := 0xC28
def GATE_CHG_LO_CHG : Fld := ⟨GATE_CHG_LO, 0, 32⟩
def GATE_CHG_HI : Nat := 0xC2C
def GATE_CHG_HI_CHG : Fld := ⟨GATE_CHG_HI, 0, 32⟩
def GATE_OPIDX : Nat := 0xC30
def GATE_OPIDX_IDX : Fld := ⟨GATE_OPIDX, 0, 6⟩
def GATE_OPENT : Nat := 0xC34
def GATE_OPENT_WORD0 : Fld := ⟨GATE_OPENT, 0, 32⟩
def GATE_OPMASK : Nat := 0xC38
def GATE_OPMASK_WORD1 : Fld := ⟨GATE_OPMASK, 0, 32⟩
def GATE_OPEN : Nat := 0xC3C
def GATE_OPEN_OPEN : Fld := ⟨GATE_OPEN, 0, 32⟩
def GATE_CNT : Nat := 0xC40
def GATE_CNT_N_SWAP : Fld := ⟨GATE_CNT, 0, 16⟩
def GATE_CNT_N_LATE : Fld := ⟨GATE_CNT, 16, 16⟩
def GATE_ENTRY (n : Nat) : Nat := 0xE00 + 0x4 * n
def GATE_ENTRY_WORD0 (n : Nat) : Fld := ⟨GATE_ENTRY n, 0, 32⟩
def GATE_EMASK (n : Nat) : Nat := 0xF00 + 0x4 * n
def GATE_EMASK_WORD1 (n : Nat) : Fld := ⟨GATE_EMASK n, 0, 32⟩
def SCHED_QCFG (n : Nat) : Nat := 0x1000 + 0x20 * n
def SCHED_QCFG_EN (n : Nat) : Fld := ⟨SCHED_QCFG n, 0, 1⟩
def SCHED_QCFG_CLASS (n : Nat) : Fld := ⟨SCHED_QCFG n, 1, 2⟩
def SCHED_QCFG_SHEN (n : Nat) : Fld := ⟨SCHED_QCFG n, 3, 1⟩
def SCHED_QCFG_ALLOW (n : Nat) : Fld := ⟨SCHED_QCFG n, 8, 8⟩
def SCHED_QCFG_MAXDEPTH (n : Nat) : Fld := ⟨SCHED_QCFG n, 16, 14⟩
def SCHED_QRATE (n : Nat) : Nat := 0x1004 + 0x20 * n
def SCHED_QRATE_RATE (n : Nat) : Fld := ⟨SCHED_QRATE n, 0, 24⟩
def SCHED_QBURST (n : Nat) : Nat := 0x1008 + 0x20 * n
def SCHED_QBURST_BURST (n : Nat) : Fld := ⟨SCHED_QBURST n, 0, 31⟩
def SCHED_QBAL (n : Nat) : Nat := 0x100C + 0x20 * n
def SCHED_QBAL_BAL (n : Nat) : Fld := ⟨SCHED_QBAL n, 0, 32⟩
def SCHED_QWM (n : Nat) : Nat := 0x1010 + 0x20 * n
def SCHED_QWM_WM (n : Nat) : Fld := ⟨SCHED_QWM n, 0, 14⟩
def SCHED_QWM_YDEPTH (n : Nat) : Fld := ⟨SCHED_QWM n, 16, 14⟩
def SCHED_QSTAT (n : Nat) : Nat := 0x1014 + 0x20 * n
def SCHED_QSTAT_DEPTH (n : Nat) : Fld := ⟨SCHED_QSTAT n, 0, 14⟩
def SCHED_QSTAT_WM_HIT (n : Nat) : Fld := ⟨SCHED_QSTAT n, 14, 1⟩
def SCHED_QSTAT_STUCK (n : Nat) : Fld := ⟨SCHED_QSTAT n, 15, 1⟩
def SCHED_QSTAT_WM_COUNT (n : Nat) : Fld := ⟨SCHED_QSTAT n, 16, 8⟩
def SCHED_QSTAT_ELIG (n : Nat) : Fld := ⟨SCHED_QSTAT n, 24, 1⟩
def SCHED_QSTAT_OPEN (n : Nat) : Fld := ⟨SCHED_QSTAT n, 25, 1⟩
def SCHED_QDLY (n : Nat) : Nat := 0x1018 + 0x20 * n
def SCHED_QDLY_HDLY (n : Nat) : Fld := ⟨SCHED_QDLY n, 0, 16⟩
def SCHED_QDLY_DMAX (n : Nat) : Fld := ⟨SCHED_QDLY n, 16, 16⟩
def SCHED_QCNT (n : Nat) : Nat := 0x101C + 0x20 * n
def SCHED_QCNT_N_ADMIT (n : Nat) : Fld := ⟨SCHED_QCNT n, 0, 16⟩
def SCHED_QCNT_N_REFUSE (n : Nat) : Fld := ⟨SCHED_QCNT n, 16, 16⟩
def BUDG_CTL : Nat := 0x1800
def BUDG_CTL_PWR_EN : Fld := ⟨BUDG_CTL, 0, 1⟩
def BUDG_CTL_THM_EN : Fld := ⟨BUDG_CTL, 1, 1⟩
def BUDG_CTL_GOLD_CLAIM : Fld := ⟨BUDG_CTL, 2, 1⟩
def BUDG_OVH : Nat := 0x1804
def BUDG_OVH_OVH_UJ : Fld := ⟨BUDG_OVH, 0, 16⟩
def BUDG_FLD : Nat := 0x1808
def BUDG_FLD_FLD_MAX : Fld := ⟨BUDG_FLD, 0, 16⟩
def BUDG_HBURST : Nat := 0x180C
def BUDG_HBURST_H_BURST : Fld := ⟨BUDG_HBURST, 0, 31⟩
def BUDG_HRSV : Nat := 0x1810
def BUDG_HRSV_RSV_UJ : Fld := ⟨BUDG_HRSV, 0, 31⟩
def BUDG_HBAL : Nat := 0x1814
def BUDG_HBAL_HB : Fld := ⟨BUDG_HBAL, 0, 32⟩
def BUDG_PIN : Nat := 0x1818
def BUDG_PIN_PIN_MAX : Fld := ⟨BUDG_PIN, 0, 16⟩
def BUDG_PIN_RSV_MW : Fld := ⟨BUDG_PIN, 16, 16⟩
def BUDG_CLAIM : Nat := 0x181C
def BUDG_CLAIM_VTX_EFF : Fld := ⟨BUDG_CLAIM, 0, 7⟩
def BUDG_PBASE : Nat := 0x1820
def BUDG_PBASE_PIN_BASE : Fld := ⟨BUDG_PBASE, 0, 16⟩
def BUDG_PNOW : Nat := 0x1824
def BUDG_PNOW_PIN_NOW : Fld := ⟨BUDG_PNOW, 0, 16⟩
def BUDG_PNOW_PCLAIM : Fld := ⟨BUDG_PNOW, 16, 16⟩
def BUDG_ISNS : Nat := 0x1828
def BUDG_ISNS_RSNS : Fld := ⟨BUDG_ISNS, 0, 16⟩
def BUDG_VIN : Nat := 0x182C
def BUDG_VIN_VIN : Fld := ⟨BUDG_VIN, 0, 16⟩
def BUDG_VIN_IIN : Fld := ⟨BUDG_VIN, 16, 16⟩
def BUDG_TLIM_0 : Nat := 0x1830
def BUDG_TLIM_0_TJ_SOFT : Fld := ⟨BUDG_TLIM_0, 0, 16⟩
def BUDG_TLIM_0_TJ_HARD : Fld := ⟨BUDG_TLIM_0, 16, 16⟩
def BUDG_TLIM_1 : Nat := 0x1834
def BUDG_TLIM_1_TJ_SHUT : Fld := ⟨BUDG_TLIM_1, 0, 16⟩
def BUDG_TLIM_1_HYST : Fld := ⟨BUDG_TLIM_1, 16, 8⟩
def BUDG_TLIM_1_GMARG : Fld := ⟨BUDG_TLIM_1, 24, 8⟩
def BUDG_TMOD_0 : Nat := 0x1838
def BUDG_TMOD_0_R1 : Fld := ⟨BUDG_TMOD_0, 0, 16⟩
def BUDG_TMOD_0_TAU1 : Fld := ⟨BUDG_TMOD_0, 16, 16⟩
def BUDG_TMOD_1 : Nat := 0x183C
def BUDG_TMOD_1_R2 : Fld := ⟨BUDG_TMOD_1, 0, 16⟩
def BUDG_TMOD_1_TAU2 : Fld := ⟨BUDG_TMOD_1, 16, 16⟩
def BUDG_THOR : Nat := 0x1840
def BUDG_THOR_H : Fld := ⟨BUDG_THOR, 0, 16⟩
def BUDG_THOR_PCORE : Fld := ⟨BUDG_THOR, 16, 16⟩
def BUDG_TSTAT : Nat := 0x1844
def BUDG_TSTAT_TSTATE : Fld := ⟨BUDG_TSTAT, 0, 2⟩
def BUDG_TSTAT_OVER : Fld := ⟨BUDG_TSTAT, 2, 1⟩
def BUDG_TSTAT_SOFT_SEEN : Fld := ⟨BUDG_TSTAT, 8, 1⟩
def BUDG_TSTAT_HARD_SEEN : Fld := ⟨BUDG_TSTAT, 9, 1⟩
def BUDG_TSTAT_OVER_SEEN : Fld := ⟨BUDG_TSTAT, 10, 1⟩
def BUDG_TDIE : Nat := 0x1848
def BUDG_TDIE_T_DIE : Fld := ⟨BUDG_TDIE, 0, 16⟩
def BUDG_TDIE_T_PRED : Fld := ⟨BUDG_TDIE, 16, 16⟩
def BUDG_TSENS_0 : Nat := 0x184C
def BUDG_TSENS_0_S0 : Fld := ⟨BUDG_TSENS_0, 0, 16⟩
def BUDG_TSENS_0_S1 : Fld := ⟨BUDG_TSENS_0, 16, 16⟩
def BUDG_TSENS_1 : Nat := 0x1850
def BUDG_TSENS_1_S2 : Fld := ⟨BUDG_TSENS_1, 0, 16⟩
def BUDG_TSENS_1_S3 : Fld := ⟨BUDG_TSENS_1, 16, 16⟩
def BUDG_TSENS_2 : Nat := 0x1854
def BUDG_TSENS_2_S4 : Fld := ⟨BUDG_TSENS_2, 0, 16⟩
def BUDG_TSENS_2_T_AMB_EST : Fld := ⟨BUDG_TSENS_2, 16, 16⟩
def BUDG_PDISS : Nat := 0x1858
def BUDG_PDISS_P_DISS : Fld := ⟨BUDG_PDISS, 0, 16⟩
def BUDG_PDISS_PD_MAX : Fld := ⟨BUDG_PDISS, 16, 16⟩
def BUDG_ADM : Nat := 0x185C
def BUDG_ADM_QUEUE : Fld := ⟨BUDG_ADM, 0, 6⟩
def BUDG_ADM_CHECK : Fld := ⟨BUDG_ADM, 8, 4⟩
def BUDG_ACNT_0 : Nat := 0x1860
def BUDG_ACNT_0_N_ACCT : Fld := ⟨BUDG_ACNT_0, 0, 16⟩
def BUDG_ACNT_0_N_PWR : Fld := ⟨BUDG_ACNT_0, 16, 16⟩
def BUDG_ACNT_1 : Nat := 0x1864
def BUDG_ACNT_1_N_THM : Fld := ⟨BUDG_ACNT_1, 0, 16⟩
def BUDG_ACNT_1_N_OVER : Fld := ⟨BUDG_ACNT_1, 16, 16⟩
def BUDG_PCFG (n : Nat) : Nat := 0x1900 + 0x40 * n
def BUDG_PCFG_PEN (n : Nat) : Fld := ⟨BUDG_PCFG n, 0, 1⟩
def BUDG_PCFG_CAWARE (n : Nat) : Fld := ⟨BUDG_PCFG n, 1, 1⟩
def BUDG_PCFG_QEN (n : Nat) : Fld := ⟨BUDG_PCFG n, 2, 1⟩
def BUDG_PCFG_QWIN (n : Nat) : Fld := ⟨BUDG_PCFG n, 8, 11⟩
def BUDG_CIR (n : Nat) : Nat := 0x1904 + 0x40 * n
def BUDG_CIR_CIR (n : Nat) : Fld := ⟨BUDG_CIR n, 0, 24⟩
def BUDG_PIR (n : Nat) : Nat := 0x1908 + 0x40 * n
def BUDG_PIR_PIR (n : Nat) : Fld := ⟨BUDG_PIR n, 0, 24⟩
def BUDG_CBS (n : Nat) : Nat := 0x190C + 0x40 * n
def BUDG_CBS_CBS (n : Nat) : Fld := ⟨BUDG_CBS n, 0, 31⟩
def BUDG_PBS (n : Nat) : Nat := 0x1910 + 0x40 * n
def BUDG_PBS_PBS (n : Nat) : Fld := ⟨BUDG_PBS n, 0, 31⟩
def BUDG_TC (n : Nat) : Nat := 0x1914 + 0x40 * n
def BUDG_TC_TC (n : Nat) : Fld := ⟨BUDG_TC n, 0, 31⟩
def BUDG_TP (n : Nat) : Nat := 0x1918 + 0x40 * n
def BUDG_TP_TP (n : Nat) : Fld := ⟨BUDG_TP n, 0, 31⟩
def BUDG_QUOTA (n : Nat) : Nat := 0x191C + 0x40 * n
def BUDG_QUOTA_QUOTA (n : Nat) : Fld := ⟨BUDG_QUOTA n, 0, 31⟩
def BUDG_QUSE (n : Nat) : Nat := 0x1920 + 0x40 * n
def BUDG_QUSE_U (n : Nat) : Fld := ⟨BUDG_QUSE n, 0, 31⟩
def BUDG_QSTAT (n : Nat) : Nat := 0x1924 + 0x40 * n
def BUDG_QSTAT_OVER (n : Nat) : Fld := ⟨BUDG_QSTAT n, 0, 1⟩
def BUDG_QSTAT_OVER_SEEN (n : Nat) : Fld := ⟨BUDG_QSTAT n, 1, 1⟩
def BUDG_PCNT (n : Nat) : Nat := 0x1928 + 0x40 * n
def BUDG_PCNT_N_YELLOW (n : Nat) : Fld := ⟨BUDG_PCNT n, 0, 16⟩
def BUDG_PCNT_N_RED (n : Nat) : Fld := ⟨BUDG_PCNT n, 16, 16⟩
def BUDG_QCNT (n : Nat) : Nat := 0x192C + 0x40 * n
def BUDG_QCNT_N_QDEFER (n : Nat) : Fld := ⟨BUDG_QCNT n, 0, 16⟩
def RES_CFG (n : Nat) : Nat := 0x1A00 + 0x10 * n
def RES_CFG_SIZE (n : Nat) : Fld := ⟨RES_CFG n, 0, 15⟩
def RES_CFG_EN (n : Nat) : Fld := ⟨RES_CFG n, 15, 1⟩
def RES_SPACE (n : Nat) : Nat := 0x1A04 + 0x10 * n
def RES_SPACE_FREE (n : Nat) : Fld := ⟨RES_SPACE n, 0, 15⟩
def RES_SPACE_RESV (n : Nat) : Fld := ⟨RES_SPACE n, 16, 15⟩
def RES_ENT (n : Nat) : Nat := 0x1A08 + 0x10 * n
def RES_ENT_UNREL (n : Nat) : Fld := ⟨RES_ENT n, 0, 15⟩
def RES_ENT_UNREAD (n : Nat) : Fld := ⟨RES_ENT n, 16, 15⟩
def RES_ENT_MVALID (n : Nat) : Fld := ⟨RES_ENT n, 31, 1⟩
def RES_CNT (n : Nat) : Nat := 0x1A0C + 0x10 * n
def RES_CNT_N_POST (n : Nat) : Fld := ⟨RES_CNT n, 0, 16⟩
def RES_CNT_N_FULL (n : Nat) : Fld := ⟨RES_CNT n, 16, 16⟩
def CH_TXCTL (n : Nat) : Nat := 0x2000 + 0x100 * n
def CH_TXCTL_LOOP (n : Nat) : Fld := ⟨CH_TXCTL n, 0, 1⟩
def CH_TXCTL_CC_AUTO (n : Nat) : Fld := ⟨CH_TXCTL n, 1, 1⟩
def CH_TXCTL_CC_TRACK (n : Nat) : Fld := ⟨CH_TXCTL n, 2, 1⟩
def CH_TXCTL_VFF (n : Nat) : Fld := ⟨CH_TXCTL n, 3, 1⟩
def CH_TXCTL_TCOMP_EN (n : Nat) : Fld := ⟨CH_TXCTL n, 4, 1⟩
def CH_TXPWR (n : Nat) : Nat := 0x2004 + 0x100 * n
def CH_TXPWR_TARGET (n : Nat) : Fld := ⟨CH_TXPWR n, 0, 12⟩
def CH_TXPWR_CAP (n : Nat) : Fld := ⟨CH_TXPWR n, 16, 12⟩
def CH_TXAMP (n : Nat) : Nat := 0x2008 + 0x100 * n
def CH_TXAMP_AMP (n : Nat) : Fld := ⟨CH_TXAMP n, 0, 10⟩
def CH_TXAMP_AMP_NOW (n : Nat) : Fld := ⟨CH_TXAMP n, 16, 10⟩
def CH_TXTIME (n : Nat) : Nat := 0x200C + 0x100 * n
def CH_TXTIME_RAMP_US (n : Nat) : Fld := ⟨CH_TXTIME n, 0, 8⟩
def CH_TXTIME_ANT_SETTLE_US (n : Nat) : Fld := ⟨CH_TXTIME n, 8, 8⟩
def CH_TXTIME_DOWN_US (n : Nat) : Fld := ⟨CH_TXTIME n, 16, 8⟩
def CH_TXLOAD (n : Nat) : Nat := 0x2010 + 0x100 * n
def CH_TXLOAD_RL (n : Nat) : Fld := ⟨CH_TXLOAD n, 0, 10⟩
def CH_TXLOAD_ROUT (n : Nat) : Fld := ⟨CH_TXLOAD n, 16, 10⟩
def CH_TXLOOP (n : Nat) : Nat := 0x2014 + 0x100 * n
def CH_TXLOOP_KI (n : Nat) : Fld := ⟨CH_TXLOOP n, 0, 4⟩
def CH_TXLOOP_ILIM (n : Nat) : Fld := ⟨CH_TXLOOP n, 16, 8⟩
def CH_TXLOOP_OPEN_PCT (n : Nat) : Fld := ⟨CH_TXLOOP n, 24, 8⟩
def CH_TCOMP_0 (n : Nat) : Nat := 0x2018 + 0x100 * n
def CH_TCOMP_0_U0 (n : Nat) : Fld := ⟨CH_TCOMP_0 n, 0, 8⟩
def CH_TCOMP_0_U1 (n : Nat) : Fld := ⟨CH_TCOMP_0 n, 8, 8⟩
def CH_TCOMP_0_U2 (n : Nat) : Fld := ⟨CH_TCOMP_0 n, 16, 8⟩
def CH_TCOMP_0_U3 (n : Nat) : Fld := ⟨CH_TCOMP_0 n, 24, 8⟩
def CH_TCOMP_1 (n : Nat) : Nat := 0x201C + 0x100 * n
def CH_TCOMP_1_U4 (n : Nat) : Fld := ⟨CH_TCOMP_1 n, 0, 8⟩
def CH_TCOMP_1_U5 (n : Nat) : Fld := ⟨CH_TCOMP_1 n, 8, 8⟩
def CH_TCOMP_1_U6 (n : Nat) : Fld := ⟨CH_TCOMP_1 n, 16, 8⟩
def CH_TCOMP_1_U7 (n : Nat) : Fld := ⟨CH_TCOMP_1 n, 24, 8⟩
def CH_WSIDX (n : Nat) : Nat := 0x2020 + 0x100 * n
def CH_WSIDX_IDX (n : Nat) : Fld := ⟨CH_WSIDX n, 0, 7⟩
def CH_WSDATA (n : Nat) : Nat := 0x2024 + 0x100 * n
def CH_WSDATA_DATA (n : Nat) : Fld := ⟨CH_WSDATA n, 0, 32⟩
def CH_WSSTEP (n : Nat) : Nat := 0x2028 + 0x100 * n
def CH_WSSTEP_STEP_P0 (n : Nat) : Fld := ⟨CH_WSSTEP n, 0, 4⟩
def CH_WSSTEP_STEP_P1 (n : Nat) : Fld := ⟨CH_WSSTEP n, 4, 4⟩
def CH_WSSTEP_STEP_P2 (n : Nat) : Fld := ⟨CH_WSSTEP n, 8, 4⟩
def CH_WSSTEP_STEP_P3 (n : Nat) : Fld := ⟨CH_WSSTEP n, 12, 4⟩
def CH_PHASE (n : Nat) : Nat := 0x202C + 0x100 * n
def CH_PHASE_PHASE (n : Nat) : Fld := ⟨CH_PHASE n, 0, 10⟩
def CH_PHASE_PH_NOW (n : Nat) : Fld := ⟨CH_PHASE n, 16, 10⟩
def CH_ANT (n : Nat) : Nat := 0x2030 + 0x100 * n
def CH_ANT_POS (n : Nat) : Fld := ⟨CH_ANT n, 0, 3⟩
def CH_ANT_EN (n : Nat) : Fld := ⟨CH_ANT n, 3, 1⟩
def CH_ANT_CUR_POS (n : Nat) : Fld := ⟨CH_ANT n, 4, 3⟩
def CH_ANT_CUR_EN (n : Nat) : Fld := ⟨CH_ANT n, 7, 1⟩
def CH_ANT_PEND (n : Nat) : Fld := ⟨CH_ANT n, 8, 1⟩
def CH_CCCTL (n : Nat) : Nat := 0x2034 + 0x100 * n
def CH_CCCTL_THRESH (n : Nat) : Fld := ⟨CH_CCCTL n, 0, 6⟩
def CH_CCCTL_CACHE (n : Nat) : Fld := ⟨CH_CCCTL n, 8, 1⟩
def CH_CCIQ (n : Nat) : Nat := 0x2038 + 0x100 * n
def CH_CCIQ_I (n : Nat) : Fld := ⟨CH_CCIQ n, 0, 12⟩
def CH_CCIQ_Q (n : Nat) : Fld := ⟨CH_CCIQ n, 16, 12⟩
def CH_CCRES (n : Nat) : Nat := 0x203C + 0x100 * n
def CH_CCRES_RES_DB (n : Nat) : Fld := ⟨CH_CCRES n, 0, 8⟩
def CH_CCRES_CAL_US (n : Nat) : Fld := ⟨CH_CCRES n, 8, 8⟩
def CH_CCPOS (n k : Nat) : Nat := 0x2040 + 0x100 * n + 4 * k
def CH_CCPOS_I (n k : Nat) : Fld := ⟨CH_CCPOS n k, 0, 12⟩
def CH_CCPOS_Q (n k : Nat) : Fld := ⟨CH_CCPOS n k, 16, 12⟩
def CH_CCPOS_VALID (n k : Nat) : Fld := ⟨CH_CCPOS n k, 31, 1⟩
def CH_TXSTAT (n : Nat) : Nat := 0x2060 + 0x100 * n
def CH_TXSTAT_STATE (n : Nat) : Fld := ⟨CH_TXSTAT n, 0, 3⟩
def CH_TXSTAT_OVC (n : Nat) : Fld := ⟨CH_TXSTAT n, 8, 1⟩
def CH_TXSTAT_OPEN (n : Nat) : Fld := ⟨CH_TXSTAT n, 9, 1⟩
def CH_TXSTAT_VTXLOW (n : Nat) : Fld := ⟨CH_TXSTAT n, 10, 1⟩
def CH_TXSTAT_CC_FAIL (n : Nat) : Fld := ⟨CH_TXSTAT n, 11, 1⟩
def CH_TXSTAT_SYN_CUT (n : Nat) : Fld := ⟨CH_TXSTAT n, 12, 1⟩
def CH_TXSTAT_SAT (n : Nat) : Fld := ⟨CH_TXSTAT n, 13, 1⟩
def CH_TXMEAS (n : Nat) : Nat := 0x2064 + 0x100 * n
def CH_TXMEAS_P_MEAS (n : Nat) : Fld := ⟨CH_TXMEAS n, 0, 12⟩
def CH_TXMEAS_I_MEAS (n : Nat) : Fld := ⟨CH_TXMEAS n, 16, 12⟩
def CH_TXENERGY (n : Nat) : Nat := 0x2068 + 0x100 * n
def CH_TXENERGY_ENERGY (n : Nat) : Fld := ⟨CH_TXENERGY n, 0, 32⟩
def CH_VTXNEED (n : Nat) : Nat := 0x206C + 0x100 * n
def CH_VTXNEED_VTX_NEED (n : Nat) : Fld := ⟨CH_VTXNEED n, 0, 16⟩
def CH_RXCTL (n : Nat) : Nat := 0x2080 + 0x100 * n
def CH_RXCTL_AGC (n : Nat) : Fld := ⟨CH_RXCTL n, 0, 1⟩
def CH_RXCTL_GAIN (n : Nat) : Fld := ⟨CH_RXCTL n, 1, 4⟩
def CH_RXCTL_IQ_EN (n : Nat) : Fld := ⟨CH_RXCTL n, 8, 1⟩
def CH_RXCTL_CAPT_EN (n : Nat) : Fld := ⟨CH_RXCTL n, 9, 1⟩
def CH_RXCTL_COLL_EN (n : Nat) : Fld := ⟨CH_RXCTL n, 10, 1⟩
def CH_RXLO (n : Nat) : Nat := 0x2084 + 0x100 * n
def CH_RXLO_LO_PH (n : Nat) : Fld := ⟨CH_RXLO n, 0, 10⟩
def CH_RXTHR (n : Nat) : Nat := 0x2088 + 0x100 * n
def CH_RXTHR_COLL_DB (n : Nat) : Fld := ⟨CH_RXTHR n, 0, 6⟩
def CH_RXTHR_CAPT_DB (n : Nat) : Fld := ⟨CH_RXTHR n, 8, 6⟩
def CH_RXTHR_MIN_DBUV (n : Nat) : Fld := ⟨CH_RXTHR n, 16, 8⟩
def CH_RXTIME (n : Nat) : Nat := 0x208C + 0x100 * n
def CH_RXTIME_MARGIN_US (n : Nat) : Fld := ⟨CH_RXTIME n, 0, 8⟩
def CH_RXTIME_EARLY_US (n : Nat) : Fld := ⟨CH_RXTIME n, 8, 8⟩
def CH_RXIQ (n : Nat) : Nat := 0x2090 + 0x100 * n
def CH_RXIQ_G_CORR (n : Nat) : Fld := ⟨CH_RXIQ n, 0, 12⟩
def CH_RXIQ_P_CORR (n : Nat) : Fld := ⟨CH_RXIQ n, 16, 12⟩
def CH_RXIQCAL (n : Nat) : Nat := 0x2094 + 0x100 * n
def CH_RXIQCAL_IRR_DB (n : Nat) : Fld := ⟨CH_RXIQCAL n, 0, 8⟩
def CH_RXIQCAL_IQCAL (n : Nat) : Fld := ⟨CH_RXIQCAL n, 8, 1⟩
def CH_RXIQCAL_IQ_FAIL (n : Nat) : Fld := ⟨CH_RXIQCAL n, 9, 1⟩
def CH_RXIQCAL_IQ_DT (n : Nat) : Fld := ⟨CH_RXIQCAL n, 16, 8⟩
def CH_RXSTAT (n : Nat) : Nat := 0x2098 + 0x100 * n
def CH_RXSTAT_LAST_FEV (n : Nat) : Fld := ⟨CH_RXSTAT n, 0, 4⟩
def CH_RXSTAT_WIN (n : Nat) : Fld := ⟨CH_RXSTAT n, 4, 1⟩
def CH_RXSTAT_GCAP (n : Nat) : Fld := ⟨CH_RXSTAT n, 5, 1⟩
def CH_RXSTAT_OVF (n : Nat) : Fld := ⟨CH_RXSTAT n, 6, 1⟩
def CH_RXSTAT_CLIP (n : Nat) : Fld := ⟨CH_RXSTAT n, 7, 1⟩
def CH_RXSTAT_GAIN_NOW (n : Nat) : Fld := ⟨CH_RXSTAT n, 8, 4⟩
def CH_RXRSSI (n : Nat) : Nat := 0x209C + 0x100 * n
def CH_RXRSSI_RSSI (n : Nat) : Fld := ⟨CH_RXRSSI n, 0, 16⟩
def CH_RXRSSI_NOISE (n : Nat) : Fld := ⟨CH_RXRSSI n, 16, 16⟩
def CH_RXVEC (n : Nat) : Nat := 0x20A0 + 0x100 * n
def CH_RXVEC_VEC_I (n : Nat) : Fld := ⟨CH_RXVEC n, 0, 16⟩
def CH_RXVEC_VEC_Q (n : Nat) : Fld := ⟨CH_RXVEC n, 16, 16⟩
def CH_RXFDT (n : Nat) : Nat := 0x20A4 + 0x100 * n
def CH_RXFDT_FDT (n : Nat) : Fld := ⟨CH_RXFDT n, 0, 15⟩
def CH_RXCOLL (n : Nat) : Nat := 0x20A8 + 0x100 * n
def CH_RXCOLL_CPOS (n : Nat) : Fld := ⟨CH_RXCOLL n, 0, 12⟩
def CH_RXCOLL_NCOLL (n : Nat) : Fld := ⟨CH_RXCOLL n, 12, 4⟩
def CH_RXCOLL_CAPT (n : Nat) : Fld := ⟨CH_RXCOLL n, 16, 1⟩
def CH_RXCMAP_0 (n : Nat) : Nat := 0x20AC + 0x100 * n
def CH_RXCMAP_0_CMAP_LO (n : Nat) : Fld := ⟨CH_RXCMAP_0 n, 0, 32⟩
def CH_RXCMAP_1 (n : Nat) : Nat := 0x20B0 + 0x100 * n
def CH_RXCMAP_1_CMAP_HI (n : Nat) : Fld := ⟨CH_RXCMAP_1 n, 0, 32⟩
def CH_TXFIFO_A (n : Nat) : Nat := 0x20B4 + 0x100 * n
def CH_TXFIFO_A_WR (n : Nat) : Fld := ⟨CH_TXFIFO_A n, 0, 11⟩
def CH_TXFIFO_A_RD (n : Nat) : Fld := ⟨CH_TXFIFO_A n, 16, 11⟩
def CH_TXFIFO_B (n : Nat) : Nat := 0x20B8 + 0x100 * n
def CH_TXFIFO_B_MARK (n : Nat) : Fld := ⟨CH_TXFIFO_B n, 0, 11⟩
def CH_TXFIFO_B_MVALID (n : Nat) : Fld := ⟨CH_TXFIFO_B n, 11, 1⟩
def CH_TXFIFO_B_REL (n : Nat) : Fld := ⟨CH_TXFIFO_B n, 16, 11⟩
def CH_RXFIFO_A (n : Nat) : Nat := 0x20BC + 0x100 * n
def CH_RXFIFO_A_COMMIT (n : Nat) : Fld := ⟨CH_RXFIFO_A n, 0, 12⟩
def CH_RXFIFO_A_RD (n : Nat) : Fld := ⟨CH_RXFIFO_A n, 16, 12⟩
def CH_RXFIFO_B (n : Nat) : Nat := 0x20C0 + 0x100 * n
def CH_RXFIFO_B_MARK (n : Nat) : Fld := ⟨CH_RXFIFO_B n, 0, 12⟩
def CH_RXFIFO_B_MVALID (n : Nat) : Fld := ⟨CH_RXFIFO_B n, 12, 1⟩
def CH_RXFIFO_B_REL (n : Nat) : Fld := ⟨CH_RXFIFO_B n, 16, 12⟩
def CH_RXCNT_0 (n : Nat) : Nat := 0x20C4 + 0x100 * n
def CH_RXCNT_0_N_OK (n : Nat) : Fld := ⟨CH_RXCNT_0 n, 0, 16⟩
def CH_RXCNT_0_N_CRC (n : Nat) : Fld := ⟨CH_RXCNT_0 n, 16, 16⟩
def CH_RXCNT_1 (n : Nat) : Nat := 0x20C8 + 0x100 * n
def CH_RXCNT_1_N_NORESP (n : Nat) : Fld := ⟨CH_RXCNT_1 n, 0, 16⟩
def CH_RXCNT_1_N_COLL (n : Nat) : Fld := ⟨CH_RXCNT_1 n, 16, 16⟩
def CH_RXCNT_2 (n : Nat) : Nat := 0x20CC + 0x100 * n
def CH_RXCNT_2_N_OVF (n : Nat) : Fld := ⟨CH_RXCNT_2 n, 0, 16⟩
def CH_RXCNT_2_N_EARLY (n : Nat) : Fld := ⟨CH_RXCNT_2 n, 16, 16⟩
def INV_CTL : Nat := 0x2800
def INV_CTL_SHORTCUT : Fld := ⟨INV_CTL, 0, 1⟩
def INV_CTL_BIT_PREF : Fld := ⟨INV_CTL, 1, 1⟩
def INV_CTL_A_MODE : Fld := ⟨INV_CTL, 2, 1⟩
def INV_CTL_CAPT_FIRST : Fld := ⟨INV_CTL, 3, 1⟩
def INV_CTL_V_STAYQ : Fld := ⟨INV_CTL, 4, 1⟩
def INV_CTL_B_PUPI_VOL : Fld := ⟨INV_CTL, 5, 1⟩
def INV_CTL_B_N0 : Fld := ⟨INV_CTL, 8, 3⟩
def INV_CTL_RETRY : Fld := ⟨INV_CTL, 12, 4⟩
def INV_AGE : Nat := 0x2804
def INV_AGE_AGE : Fld := ⟨INV_AGE, 0, 16⟩
def INV_AGE_VOL_AGE : Fld := ⟨INV_AGE, 16, 16⟩
def INV_CMD : Nat := 0x2808
def INV_CMD_OP : Fld := ⟨INV_CMD, 0, 4⟩
def INV_CMD_INDEX : Fld := ⟨INV_CMD, 16, 14⟩
def INV_CMDSTAT : Nat := 0x280C
def INV_CMDSTAT_BUSY : Fld := ⟨INV_CMDSTAT, 0, 1⟩
def INV_CMDSTAT_DONE : Fld := ⟨INV_CMDSTAT, 1, 1⟩
def INV_CMDSTAT_FOUND : Fld := ⟨INV_CMDSTAT, 2, 1⟩
def INV_CMDSTAT_INDEX : Fld := ⟨INV_CMDSTAT, 16, 14⟩
def INV_KEY_0 : Nat := 0x2810
def INV_KEY_0_KEY_LO : Fld := ⟨INV_KEY_0, 0, 32⟩
def INV_KEY_1 : Nat := 0x2814
def INV_KEY_1_KEY_MID : Fld := ⟨INV_KEY_1, 0, 32⟩
def INV_KEY_2 : Nat := 0x2818
def INV_KEY_2_KEY_HI : Fld := ⟨INV_KEY_2, 0, 16⟩
def INV_KEY_2_IDLEN : Fld := ⟨INV_KEY_2, 16, 4⟩
def INV_KEY_2_PROTO : Fld := ⟨INV_KEY_2, 20, 3⟩
def INV_KEY_2_VOL : Fld := ⟨INV_KEY_2, 23, 1⟩
def INV_KEY_2_CH : Fld := ⟨INV_KEY_2, 24, 3⟩
def INV_KEY_2_COIL : Fld := ⟨INV_KEY_2, 27, 3⟩
def INV_STAT : Nat := 0x281C
def INV_STAT_USED : Fld := ⟨INV_STAT, 0, 15⟩
def INV_STAT_FULL : Fld := ⟨INV_STAT, 15, 1⟩
def INV_STAT_MQ : Fld := ⟨INV_STAT, 16, 7⟩
def INV_CNT_0 : Nat := 0x2820
def INV_CNT_0_N_NEW : Fld := ⟨INV_CNT_0, 0, 16⟩
def INV_CNT_0_N_MERGE : Fld := ⟨INV_CNT_0, 16, 16⟩
def INV_CNT_1 : Nat := 0x2824
def INV_CNT_1_N_AGED : Fld := ⟨INV_CNT_1, 0, 16⟩
def INV_CNT_1_N_EVICT : Fld := ⟨INV_CNT_1, 16, 16⟩
def INV_CNT_2 : Nat := 0x2828
def INV_CNT_2_N_DROP : Fld := ⟨INV_CNT_2, 0, 16⟩
def INV_CNT_2_N_CRYLATE : Fld := ⟨INV_CNT_2, 16, 16⟩
def CRY_CTL : Nat := 0x2A00
def CRY_CTL_PRIO : Fld := ⟨CRY_CTL, 0, 1⟩
def CRY_CTL_KEY_LOCK : Fld := ⟨CRY_CTL, 1, 1⟩
def CRY_PRIV : Nat := 0x2A04
def CRY_PRIV_NKEYS : Fld := ⟨CRY_PRIV, 0, 11⟩
def CRY_PKVALID : Nat := 0x2A08
def CRY_PKVALID_VALID : Fld := ⟨CRY_PKVALID, 0, 32⟩
def CRY_CMD : Nat := 0x2A0C
def CRY_CMD_OP : Fld := ⟨CRY_CMD, 0, 4⟩
def CRY_CMD_KEY : Fld := ⟨CRY_CMD, 8, 5⟩
def CRY_CMDSTAT : Nat := 0x2A10
def CRY_CMDSTAT_BUSY : Fld := ⟨CRY_CMDSTAT, 0, 1⟩
def CRY_CMDSTAT_DONE : Fld := ⟨CRY_CMDSTAT, 1, 1⟩
def CRY_CMDSTAT_ERR : Fld := ⟨CRY_CMDSTAT, 2, 3⟩
def CRY_CMDSTAT_KEY : Fld := ⟨CRY_CMDSTAT, 8, 5⟩
def CRY_STAT : Nat := 0x2A14
def CRY_STAT_QDEPTH : Fld := ⟨CRY_STAT, 0, 6⟩
def CRY_STAT_ECC_BUSY : Fld := ⟨CRY_STAT, 8, 1⟩
def CRY_STAT_AES_BUSY : Fld := ⟨CRY_STAT, 9, 1⟩
def CRY_LAT : Nat := 0x2A18
def CRY_LAT_ECC_MAX : Fld := ⟨CRY_LAT, 0, 16⟩
def CRY_LAT_AES_MAX : Fld := ⟨CRY_LAT, 16, 16⟩
def CRY_CNT_0 : Nat := 0x2A1C
def CRY_CNT_0_N_SIGOK : Fld := ⟨CRY_CNT_0, 0, 16⟩
def CRY_CNT_0_N_SIGBAD : Fld := ⟨CRY_CNT_0, 16, 16⟩
def CRY_CNT_1 : Nat := 0x2A20
def CRY_CNT_1_N_RES : Fld := ⟨CRY_CNT_1, 0, 16⟩
def CRY_CNT_1_N_UNRES : Fld := ⟨CRY_CNT_1, 16, 16⟩
def CRY_CNT_2 : Nat := 0x2A24
def CRY_CNT_2_N_NOKEY : Fld := ⟨CRY_CNT_2, 0, 16⟩
def CRY_CNT_2_N_QWAIT : Fld := ⟨CRY_CNT_2, 16, 16⟩
def SWARM_CTL : Nat := 0x2C00
def SWARM_CTL_COMB_EN : Fld := ⟨SWARM_CTL, 0, 1⟩
def SWARM_CTL_LOC_EN : Fld := ⟨SWARM_CTL, 1, 1⟩
def SWARM_CTL_AUTO_EXCL : Fld := ⟨SWARM_CTL, 2, 1⟩
def SWARM_CTL_EXCL_DB : Fld := ⟨SWARM_CTL, 8, 5⟩
def SWARM_CMD : Nat := 0x2C04
def SWARM_CMD_OP : Fld := ⟨SWARM_CMD, 0, 4⟩
def SWARM_CMD_GROUP : Fld := ⟨SWARM_CMD, 4, 2⟩
def SWARM_CMD_SLOT : Fld := ⟨SWARM_CMD, 8, 3⟩
def SWARM_CMD_MEAS_MW : Fld := ⟨SWARM_CMD, 16, 12⟩
def SWARM_CMDSTAT : Nat := 0x2C08
def SWARM_CMDSTAT_BUSY : Fld := ⟨SWARM_CMDSTAT, 0, 1⟩
def SWARM_CMDSTAT_DONE : Fld := ⟨SWARM_CMDSTAT, 1, 1⟩
def SWARM_CMDSTAT_ERR : Fld := ⟨SWARM_CMDSTAT, 2, 2⟩
def SWARM_GCFG (n : Nat) : Nat := 0x2C10 + 0x4 * n
def SWARM_GCFG_MEMBERS (n : Nat) : Fld := ⟨SWARM_GCFG n, 0, 8⟩
def SWARM_GCFG_GEN (n : Nat) : Fld := ⟨SWARM_GCFG n, 8, 1⟩
def SWARM_GCFG_PAT_DEF (n : Nat) : Fld := ⟨SWARM_GCFG n, 16, 6⟩
def SWARM_GPOS (n : Nat) : Nat := 0x2C20 + 0x4 * n
def SWARM_GPOS_POS_0 (n : Nat) : Fld := ⟨SWARM_GPOS n, 0, 3⟩
def SWARM_GPOS_POS_1 (n : Nat) : Fld := ⟨SWARM_GPOS n, 4, 3⟩
def SWARM_GPOS_POS_2 (n : Nat) : Fld := ⟨SWARM_GPOS n, 8, 3⟩
def SWARM_GPOS_POS_3 (n : Nat) : Fld := ⟨SWARM_GPOS n, 12, 3⟩
def SWARM_GPOS_POS_4 (n : Nat) : Fld := ⟨SWARM_GPOS n, 16, 3⟩
def SWARM_GPOS_POS_5 (n : Nat) : Fld := ⟨SWARM_GPOS n, 20, 3⟩
def SWARM_GPOS_POS_6 (n : Nat) : Fld := ⟨SWARM_GPOS n, 24, 3⟩
def SWARM_GPOS_POS_7 (n : Nat) : Fld := ⟨SWARM_GPOS n, 28, 3⟩
def SWARM_LOCB_0 : Nat := 0x2C30
def SWARM_LOCB_0_XMIN : Fld := ⟨SWARM_LOCB_0, 0, 16⟩
def SWARM_LOCB_0_XMAX : Fld := ⟨SWARM_LOCB_0, 16, 16⟩
def SWARM_LOCB_1 : Nat := 0x2C34
def SWARM_LOCB_1_YMIN : Fld := ⟨SWARM_LOCB_1, 0, 16⟩
def SWARM_LOCB_1_YMAX : Fld := ⟨SWARM_LOCB_1, 16, 16⟩
def SWARM_LOCCFG : Nat := 0x2C38
def SWARM_LOCCFG_STEP_MM : Fld := ⟨SWARM_LOCCFG, 0, 5⟩
def SWARM_LOCCFG_CONF_MIN : Fld := ⟨SWARM_LOCCFG, 8, 8⟩
def SWARM_LOCCFG_SNR_MIN : Fld := ⟨SWARM_LOCCFG, 16, 8⟩
def SWARM_LOCCFG_EDGE_MM : Fld := ⟨SWARM_LOCCFG, 24, 8⟩
def SWARM_STAT : Nat := 0x2C3C
def SWARM_STAT_CLAIMED : Fld := ⟨SWARM_STAT, 0, 8⟩
def SWARM_STAT_PCLAMP : Fld := ⟨SWARM_STAT, 8, 1⟩
def SWARM_STAT_LCFG_ERR : Fld := ⟨SWARM_STAT, 9, 1⟩
def SWARM_STAT_LQ : Fld := ⟨SWARM_STAT, 10, 3⟩
def SWARM_SNR_0 : Nat := 0x2C40
def SWARM_SNR_0_SNR_0 : Fld := ⟨SWARM_SNR_0, 0, 8⟩
def SWARM_SNR_0_SNR_1 : Fld := ⟨SWARM_SNR_0, 8, 8⟩
def SWARM_SNR_0_SNR_2 : Fld := ⟨SWARM_SNR_0, 16, 8⟩
def SWARM_SNR_0_SNR_3 : Fld := ⟨SWARM_SNR_0, 24, 8⟩
def SWARM_SNR_1 : Nat := 0x2C44
def SWARM_SNR_1_SNR_4 : Fld := ⟨SWARM_SNR_1, 0, 8⟩
def SWARM_SNR_1_SNR_5 : Fld := ⟨SWARM_SNR_1, 8, 8⟩
def SWARM_SNR_1_SNR_6 : Fld := ⟨SWARM_SNR_1, 16, 8⟩
def SWARM_SNR_1_SNR_7 : Fld := ⟨SWARM_SNR_1, 24, 8⟩
def SWARM_CSNR : Nat := 0x2C48
def SWARM_CSNR_CSNR : Fld := ⟨SWARM_CSNR, 0, 8⟩
def SWARM_CSNR_INCL : Fld := ⟨SWARM_CSNR, 8, 8⟩
def SWARM_LOCX : Nat := 0x2C4C
def SWARM_LOCX_X : Fld := ⟨SWARM_LOCX, 0, 16⟩
def SWARM_LOCX_Y : Fld := ⟨SWARM_LOCX, 16, 16⟩
def SWARM_LOCQ : Nat := 0x2C50
def SWARM_LOCQ_CONF : Fld := ⟨SWARM_LOCQ, 0, 8⟩
def SWARM_LOCQ_EDGE : Fld := ⟨SWARM_LOCQ, 8, 1⟩
def SWARM_LOCQ_WRITTEN : Fld := ⟨SWARM_LOCQ, 9, 1⟩
def SWARM_LOCQ_INDEX : Fld := ⟨SWARM_LOCQ, 16, 14⟩
def SWARM_CNT_0 : Nat := 0x2C58
def SWARM_CNT_0_N_LOC : Fld := ⟨SWARM_CNT_0, 0, 16⟩
def SWARM_CNT_0_N_LOCFAIL : Fld := ⟨SWARM_CNT_0, 16, 16⟩
def SWARM_CNT_1 : Nat := 0x2C5C
def SWARM_CNT_1_N_LOCSKIP : Fld := ⟨SWARM_CNT_1, 0, 16⟩
def SWARM_CNT_1_N_CLAIM : Fld := ⟨SWARM_CNT_1, 16, 16⟩
def SWARM_VEC (n : Nat) : Nat := 0x2C60 + 0x4 * n
def SWARM_VEC_VEC_I (n : Nat) : Fld := ⟨SWARM_VEC n, 0, 16⟩
def SWARM_VEC_VEC_Q (n : Nat) : Fld := ⟨SWARM_VEC n, 16, 16⟩
def CSQ_STAT (n : Nat) : Nat := 0x2E00 + 0x20 * n
def CSQ_STAT_STATE (n : Nat) : Fld := ⟨CSQ_STAT n, 0, 2⟩
def CSQ_STAT_SRC (n : Nat) : Fld := ⟨CSQ_STAT n, 2, 2⟩
def CSQ_STAT_ROUTINE (n : Nat) : Fld := ⟨CSQ_STAT n, 8, 10⟩
def CSQ_PC (n : Nat) : Nat := 0x2E04 + 0x20 * n
def CSQ_PC_PC (n : Nat) : Fld := ⟨CSQ_PC n, 0, 16⟩
def CSQ_PC_SP (n : Nat) : Fld := ⟨CSQ_PC n, 16, 4⟩
def CSQ_PC_FLAGS (n : Nat) : Fld := ⟨CSQ_PC n, 20, 4⟩
def CSQ_YCNT (n : Nat) : Nat := 0x2E08 + 0x20 * n
def CSQ_YCNT_YCNT (n : Nat) : Fld := ⟨CSQ_YCNT n, 0, 12⟩
def CSQ_YCNT_YPEND (n : Nat) : Fld := ⟨CSQ_YCNT n, 12, 1⟩
def CSQ_FAULT (n : Nat) : Nat := 0x2E0C + 0x20 * n
def CSQ_FAULT_FCODE (n : Nat) : Fld := ⟨CSQ_FAULT n, 0, 8⟩
def CSQ_FAULT_FPC (n : Nat) : Fld := ⟨CSQ_FAULT n, 8, 16⟩
def CSQ_FAULT_FSEEN (n : Nat) : Fld := ⟨CSQ_FAULT n, 31, 1⟩
def CSQ_ICNT (n : Nat) : Nat := 0x2E10 + 0x20 * n
def CSQ_ICNT_ICNT (n : Nat) : Fld := ⟨CSQ_ICNT n, 0, 32⟩
def CSQ_CTL (n : Nat) : Nat := 0x2E14 + 0x20 * n
def CSQ_CTL_ZERO_LOCAL (n : Nat) : Fld := ⟨CSQ_CTL n, 0, 1⟩
def CSQ_YMAX (n : Nat) : Nat := 0x2E18 + 0x20 * n
def CSQ_YMAX_YMAX (n : Nat) : Fld := ⟨CSQ_YMAX n, 0, 12⟩
def CSQ_CNT (n : Nat) : Nat := 0x2E1C + 0x20 * n
def CSQ_CNT_N_FAULT (n : Nat) : Fld := ⟨CSQ_CNT n, 0, 16⟩
def CSQ_CNT_N_LATE (n : Nat) : Fld := ⟨CSQ_CNT n, 16, 16⟩
def CSQ_CACHE : Nat := 0x2F00
def CSQ_CACHE_INV : Fld := ⟨CSQ_CACHE, 0, 1⟩
def CSQ_CACHE_FILLING : Fld := ⟨CSQ_CACHE, 1, 1⟩
def CSQ_CCNT : Nat := 0x2F04
def CSQ_CCNT_N_MISS : Fld := ⟨CSQ_CCNT, 0, 16⟩
def CSQ_CCNT_N_FWAIT : Fld := ⟨CSQ_CCNT, 16, 16⟩
def CSQ_QID : Nat := 0x2F08
def CSQ_QID_ID : Fld := ⟨CSQ_QID, 0, 10⟩
def CSQ_QPW0 : Nat := 0x2F0C
def CSQ_QPW0_PW0 : Fld := ⟨CSQ_QPW0, 0, 32⟩
def CSQ_QPW1 : Nat := 0x2F10
def CSQ_QPW1_PW1 : Fld := ⟨CSQ_QPW1, 0, 32⟩
def CSQ_QWCX : Nat := 0x2F14
def CSQ_QWCX_WCX : Fld := ⟨CSQ_QWCX, 0, 32⟩
def CSQ_QRES : Nat := 0x2F18
def CSQ_QRES_MAXPAY : Fld := ⟨CSQ_QRES, 0, 10⟩
def CSQ_QRES_FOUND : Fld := ⟨CSQ_QRES, 16, 1⟩
def CSQ_QRES_SWARM_OK : Fld := ⟨CSQ_QRES, 17, 1⟩
def CSQ_QRES_OVER : Fld := ⟨CSQ_QRES, 18, 1⟩
def WATCH_CTL : Nat := 0x3000
def WATCH_CTL_EN : Fld := ⟨WATCH_CTL, 0, 1⟩
def WATCH_CTL_RUN_EN : Fld := ⟨WATCH_CTL, 1, 1⟩
def WATCH_CTL_NSTEP : Fld := ⟨WATCH_CTL, 8, 7⟩
def WATCH_CTL_CONFIRM : Fld := ⟨WATCH_CTL, 16, 3⟩
def WATCH_CTL_TRK_SH : Fld := ⟨WATCH_CTL, 20, 4⟩
def WATCH_PER : Nat := 0x3004
def WATCH_PER_PERIOD_MS : Fld := ⟨WATCH_PER, 0, 16⟩
def WATCH_PER_PING_CYC : Fld := ⟨WATCH_PER, 16, 8⟩
def WATCH_CMD : Nat := 0x3008
def WATCH_CMD_OP : Fld := ⟨WATCH_CMD, 0, 4⟩
def WATCH_CMD_ONE : Fld := ⟨WATCH_CMD, 8, 1⟩
def WATCH_CMD_STEP : Fld := ⟨WATCH_CMD, 16, 6⟩
def WATCH_SIDX : Nat := 0x300C
def WATCH_SIDX_IDX : Fld := ⟨WATCH_SIDX, 0, 6⟩
def WATCH_SCFG : Nat := 0x3010
def WATCH_SCFG_WORD : Fld := ⟨WATCH_SCFG, 0, 32⟩
def WATCH_SBASE : Nat := 0x3014
def WATCH_SBASE_WORD : Fld := ⟨WATCH_SBASE, 0, 32⟩
def WATCH_SMEAS : Nat := 0x3018
def WATCH_SMEAS_WORD : Fld := ⟨WATCH_SMEAS, 0, 32⟩
def WATCH_DET_0 : Nat := 0x301C
def WATCH_DET_0_DET : Fld := ⟨WATCH_DET_0, 0, 32⟩
def WATCH_DET_1 : Nat := 0x3020
def WATCH_DET_1_DET : Fld := ⟨WATCH_DET_1, 0, 32⟩
def WATCH_NOW_0 : Nat := 0x3024
def WATCH_NOW_0_NOW : Fld := ⟨WATCH_NOW_0, 0, 32⟩
def WATCH_NOW_1 : Nat := 0x3028
def WATCH_NOW_1_NOW : Fld := ⟨WATCH_NOW_1, 0, 32⟩
def WATCH_STAT : Nat := 0x302C
def WATCH_STAT_ACTIVE : Fld := ⟨WATCH_STAT, 0, 1⟩
def WATCH_STAT_CUR : Fld := ⟨WATCH_STAT, 8, 6⟩
def WATCH_STAT_LAST_DET : Fld := ⟨WATCH_STAT, 16, 6⟩
def WATCH_CNT_0 : Nat := 0x3030
def WATCH_CNT_0_N_PING : Fld := ⟨WATCH_CNT_0, 0, 16⟩
def WATCH_CNT_0_N_SKIP : Fld := ⟨WATCH_CNT_0, 16, 16⟩
def WATCH_CNT_1 : Nat := 0x3034
def WATCH_CNT_1_N_DET : Fld := ⟨WATCH_CNT_1, 0, 16⟩
def WATCH_CNT_1_N_WAKE : Fld := ⟨WATCH_CNT_1, 16, 16⟩
def EMU_CTL : Nat := 0x3200
def EMU_CTL_EN : Fld := ⟨EMU_CTL, 0, 1⟩
def EMU_CTL_JEN : Fld := ⟨EMU_CTL, 1, 1⟩
def EMU_CTL_UIDMODE : Fld := ⟨EMU_CTL, 2, 2⟩
def EMU_CTL_FWP : Fld := ⟨EMU_CTL, 4, 1⟩
def EMU_CTL_SIGF : Fld := ⟨EMU_CTL, 5, 1⟩
def EMU_CTL_MAXRATE : Fld := ⟨EMU_CTL, 6, 2⟩
def EMU_CTL_CHMASK : Fld := ⟨EMU_CTL, 8, 8⟩
def EMU_UID_0 : Nat := 0x3204
def EMU_UID_0_UID_LO : Fld := ⟨EMU_UID_0, 0, 32⟩
def EMU_UID_1 : Nat := 0x3208
def EMU_UID_1_UID_HI : Fld := ⟨EMU_UID_1, 0, 24⟩
def EMU_FID : Nat := 0x320C
def EMU_FID_NFID : Fld := ⟨EMU_FID, 0, 16⟩
def EMU_FID_SFID : Fld := ⟨EMU_FID, 16, 16⟩
def EMU_LM : Nat := 0x3210
def EMU_LM_LM_R : Fld := ⟨EMU_LM, 0, 6⟩
def EMU_LM_DET : Fld := ⟨EMU_LM, 8, 8⟩
def EMU_LM_FLOSS : Fld := ⟨EMU_LM, 16, 8⟩
def EMU_WLOCK : Nat := 0x3214
def EMU_WLOCK_WLOCK_MS : Fld := ⟨EMU_WLOCK, 0, 16⟩
def EMU_STAT : Nat := 0x3218
def EMU_STAT_CST_A : Fld := ⟨EMU_STAT, 0, 3⟩
def EMU_STAT_CST_B : Fld := ⟨EMU_STAT, 3, 3⟩
def EMU_STAT_FIELD_A : Fld := ⟨EMU_STAT, 6, 1⟩
def EMU_STAT_FIELD_B : Fld := ⟨EMU_STAT, 7, 1⟩
def EMU_STAT_RATE_A : Fld := ⟨EMU_STAT, 8, 2⟩
def EMU_STAT_RATE_B : Fld := ⟨EMU_STAT, 10, 2⟩
def EMU_STAT_FIELD_SEEN : Fld := ⟨EMU_STAT, 16, 1⟩
def EMU_STAT_JFAIL : Fld := ⟨EMU_STAT, 17, 1⟩
def EMU_MBCMD : Nat := 0x321C
def EMU_MBCMD_OP : Fld := ⟨EMU_MBCMD, 0, 4⟩
def EMU_MBSTAT : Nat := 0x3220
def EMU_MBSTAT_STATE : Fld := ⟨EMU_MBSTAT, 0, 2⟩
def EMU_MBSTAT_OWNCH : Fld := ⟨EMU_MBSTAT, 2, 3⟩
def EMU_MBSTAT_OWNPORT : Fld := ⟨EMU_MBSTAT, 5, 2⟩
def EMU_MBSTAT_JPEND : Fld := ⟨EMU_MBSTAT, 7, 1⟩
def EMU_MBSTAT_JBUSY : Fld := ⟨EMU_MBSTAT, 8, 1⟩
def EMU_MBSTAT_LAST_SRC : Fld := ⟨EMU_MBSTAT, 9, 1⟩
def EMU_MBSTAT_PUB_NLEN : Fld := ⟨EMU_MBSTAT, 16, 16⟩
def EMU_JSEQ : Nat := 0x3224
def EMU_JSEQ_SEQ : Fld := ⟨EMU_JSEQ, 0, 32⟩
def EMU_CNT_0 : Nat := 0x3228
def EMU_CNT_0_N_ACT : Fld := ⟨EMU_CNT_0, 0, 16⟩
def EMU_CNT_0_N_PROMOTE : Fld := ⟨EMU_CNT_0, 16, 16⟩
def EMU_CNT_1 : Nat := 0x322C
def EMU_CNT_1_N_DISCARD : Fld := ⟨EMU_CNT_1, 0, 16⟩
def EMU_CNT_1_N_JFAIL : Fld := ⟨EMU_CNT_1, 16, 16⟩
def FLASH_CFG : Nat := 0x3400
def FLASH_CFG_FREQ : Fld := ⟨FLASH_CFG, 0, 2⟩
def FLASH_CFG_POLL_US : Fld := ⟨FLASH_CFG, 8, 8⟩
def FLASH_TMO : Nat := 0x3404
def FLASH_TMO_PP_MAX_MS : Fld := ⟨FLASH_TMO, 0, 8⟩
def FLASH_TMO_SE_MAX_MS : Fld := ⟨FLASH_TMO, 16, 16⟩
def FLASH_ID : Nat := 0x3408
def FLASH_ID_JEDEC : Fld := ⟨FLASH_ID, 0, 24⟩
def FLASH_GEOM : Nat := 0x340C
def FLASH_GEOM_DENS_LOG2 : Fld := ⟨FLASH_GEOM, 0, 5⟩
def FLASH_GEOM_DISC_OK : Fld := ⟨FLASH_GEOM, 5, 1⟩
def FLASH_GEOM_SRST : Fld := ⟨FLASH_GEOM, 6, 1⟩
def FLASH_GEOM_PAGE_LOG2 : Fld := ⟨FLASH_GEOM, 8, 4⟩
def FLASH_GEOM_ERASE4K : Fld := ⟨FLASH_GEOM, 16, 8⟩
def FLASH_STAT : Nat := 0x3410
def FLASH_STAT_BUSY : Fld := ⟨FLASH_STAT, 0, 1⟩
def FLASH_STAT_OP : Fld := ⟨FLASH_STAT, 1, 3⟩
def FLASH_STAT_DONE : Fld := ⟨FLASH_STAT, 4, 1⟩
def FLASH_STAT_ERR : Fld := ⟨FLASH_STAT, 5, 3⟩
def FLASH_STAT_ERR_SEEN : Fld := ⟨FLASH_STAT, 8, 1⟩
def FLASH_STAT_SR : Fld := ⟨FLASH_STAT, 16, 8⟩
def FLASH_RES : Nat := 0x3414
def FLASH_RES_RES : Fld := ⟨FLASH_RES, 0, 32⟩
def FLASH_IMG : Nat := 0x3418
def FLASH_IMG_A_VALID : Fld := ⟨FLASH_IMG, 0, 1⟩
def FLASH_IMG_B_VALID : Fld := ⟨FLASH_IMG, 1, 1⟩
def FLASH_IMG_WHY_A : Fld := ⟨FLASH_IMG, 4, 3⟩
def FLASH_IMG_WHY_B : Fld := ⟨FLASH_IMG, 8, 3⟩
def FLASH_SEQA : Nat := 0x341C
def FLASH_SEQA_SEQ : Fld := ⟨FLASH_SEQA, 0, 32⟩
def FLASH_SEQB : Nat := 0x3420
def FLASH_SEQB_SEQ : Fld := ⟨FLASH_SEQB, 0, 32⟩
def FLASH_CNT : Nat := 0x3424
def FLASH_CNT_N_PAGE : Fld := ⟨FLASH_CNT, 0, 16⟩
def FLASH_CNT_N_SECTOR : Fld := ⟨FLASH_CNT, 16, 16⟩
def FLASH_ECNT : Nat := 0x3428
def FLASH_ECNT_N_ERR : Fld := ⟨FLASH_ECNT, 0, 16⟩
def FLASH_ECNT_N_WBUSY : Fld := ⟨FLASH_ECNT, 16, 16⟩
def PMB_CTL : Nat := 0x3600
def PMB_CTL_EN : Fld := ⟨PMB_CTL, 0, 1⟩
def PMB_CTL_PEC : Fld := ⟨PMB_CTL, 1, 1⟩
def PMB_CTL_FAST : Fld := ⟨PMB_CTL, 2, 1⟩
def PMB_CTL_ADDR : Fld := ⟨PMB_CTL, 8, 7⟩
def PMB_CTL_RETRY : Fld := ⟨PMB_CTL, 16, 4⟩
def PMB_VLIM : Nat := 0x3604
def PMB_VLIM_VMIN : Fld := ⟨PMB_VLIM, 0, 16⟩
def PMB_VLIM_VMAX : Fld := ⟨PMB_VLIM, 16, 16⟩
def PMB_VSTEP : Nat := 0x3608
def PMB_VSTEP_VSTEP : Fld := ⟨PMB_VSTEP, 0, 10⟩
def PMB_VSTEP_LOWER_BEATS : Fld := ⟨PMB_VSTEP, 16, 8⟩
def PMB_VSTEP_VTOL : Fld := ⟨PMB_VSTEP, 24, 8⟩
def PMB_TIME : Nat := 0x360C
def PMB_TIME_TON_US : Fld := ⟨PMB_TIME, 0, 16⟩
def PMB_TIME_VSETTLE_US : Fld := ⟨PMB_TIME, 16, 16⟩
def PMB_VSET : Nat := 0x3610
def PMB_VSET_CMD : Fld := ⟨PMB_VSET, 0, 16⟩
def PMB_VSET_OK : Fld := ⟨PMB_VSET, 16, 16⟩
def PMB_VREAD : Nat := 0x3614
def PMB_VREAD_VOUT : Fld := ⟨PMB_VREAD, 0, 16⟩
def PMB_VREAD_DEMAND : Fld := ⟨PMB_VREAD, 16, 16⟩
def PMB_STAT : Nat := 0x3618
def PMB_STAT_STATE : Fld := ⟨PMB_STAT, 0, 3⟩
def PMB_STAT_VTXEN : Fld := ⟨PMB_STAT, 3, 1⟩
def PMB_STAT_ERR : Fld := ⟨PMB_STAT, 4, 4⟩
def PMB_STAT_FAULT_SEEN : Fld := ⟨PMB_STAT, 8, 1⟩
def PMB_STAT_SW : Fld := ⟨PMB_STAT, 16, 16⟩
def PMB_CMD : Nat := 0x361C
def PMB_CMD_OP : Fld := ⟨PMB_CMD, 0, 4⟩
def PMB_CMD_CODE : Fld := ⟨PMB_CMD, 8, 8⟩
def PMB_CMD_DATA : Fld := ⟨PMB_CMD, 16, 16⟩
def PMB_RAW : Nat := 0x3620
def PMB_RAW_DATA : Fld := ⟨PMB_RAW, 0, 16⟩
def PMB_RAW_DONE : Fld := ⟨PMB_RAW, 16, 1⟩
def PMB_RAW_ERR : Fld := ⟨PMB_RAW, 17, 1⟩
def PMB_RAW_BUSY : Fld := ⟨PMB_RAW, 18, 1⟩
def PMB_CNT : Nat := 0x3624
def PMB_CNT_N_CHANGE : Fld := ⟨PMB_CNT, 0, 16⟩
def PMB_CNT_N_ERR : Fld := ⟨PMB_CNT, 16, 16⟩
def DIAG_CMD : Nat := 0x3800
def DIAG_CMD_OP : Fld := ⟨DIAG_CMD, 0, 4⟩
def DIAG_CMD_CHMASK : Fld := ⟨DIAG_CMD, 8, 8⟩
def DIAG_STAT : Nat := 0x3804
def DIAG_STAT_BUSY : Fld := ⟨DIAG_STAT, 0, 1⟩
def DIAG_STAT_ROM_OK : Fld := ⟨DIAG_STAT, 1, 1⟩
def DIAG_STAT_ROM_FAIL : Fld := ⟨DIAG_STAT, 2, 1⟩
def DIAG_STAT_CHT_DONE : Fld := ⟨DIAG_STAT, 8, 8⟩
def DIAG_STAT_CHT_FAIL : Fld := ⟨DIAG_STAT, 16, 8⟩
def DIAG_MAINT : Nat := 0x3808
def DIAG_MAINT_NPEND : Fld := ⟨DIAG_MAINT, 0, 5⟩
def DIAG_MAINT_DRAIN : Fld := ⟨DIAG_MAINT, 8, 1⟩
def DIAG_MAINT_SYNWAIT : Fld := ⟨DIAG_MAINT, 9, 1⟩
def DIAG_MAINT_CLAIMED : Fld := ⟨DIAG_MAINT, 16, 8⟩
def DIAG_CNT_0 : Nat := 0x380C
def DIAG_CNT_0_N_BKOVR : Fld := ⟨DIAG_CNT_0, 0, 16⟩
def DIAG_CNT_0_N_OVR : Fld := ⟨DIAG_CNT_0, 16, 16⟩
def DIAG_CNT_1 : Nat := 0x3810
def DIAG_CNT_1_N_OVC : Fld := ⟨DIAG_CNT_1, 0, 16⟩
def DIAG_CNT_1_N_OPEN : Fld := ⟨DIAG_CNT_1, 16, 16⟩
def DIAG_CNT_2 : Nat := 0x3814
def DIAG_CNT_2_N_VTXLOW : Fld := ⟨DIAG_CNT_2, 0, 16⟩
def DIAG_CNT_2_N_SYNCUT : Fld := ⟨DIAG_CNT_2, 16, 16⟩
def DIAG_CNT_3 : Nat := 0x3818
def DIAG_CNT_3_N_LOCKFAIL : Fld := ⟨DIAG_CNT_3, 0, 16⟩
def DIAG_CNT_3_N_DRAIN : Fld := ⟨DIAG_CNT_3, 16, 16⟩
def DIAG_CNT_4 : Nat := 0x381C
def DIAG_CNT_4_N_MAINT : Fld := ⟨DIAG_CNT_4, 0, 16⟩
def DIAG_CNT_4_N_ROMFAIL : Fld := ⟨DIAG_CNT_4, 16, 16⟩

end R

end Sys2Proof.Machine
end

