-- ==== Sys2Proof/Machine/State.lean ====
section
/-!
DEFINITION. The state of the device, all of it plain data, and the state right after a cold reset.

Register bits that software or the device stores live in one sparse register file (`State.regs`), keyed by
register address; an unlisted register holds its reset value. Register fields that only show structured state
(a field state, a FIFO pointer, a queue depth) are composed when the register is read. The default value of
each field below is its value after a cold reset (R459).
-/

namespace Sys2Proof.Machine

/-- No command of this device stops the machine: every command of the table has the effect the manual gives
it, and the manual names no event after which the device itself stops. Nobody raises a fault; safe. -/
inductive Fault where
  /-- Raised by nobody: kept so that the type has a member. Safe, since no step answers it. -/
  | none
  deriving DecidableEq, Repr

/-- Reasons for refusing a command. -/
inductive Refusal where
  /-- The command of this mnemonic has no meaning yet. Raised by `exec` only, in arms that are not written;
  safe, since nothing is then claimed of the command. -/
  | notModelled (mnemonic : String)
  deriving DecidableEq, Repr

/-- Sparse memory: strictly rising addresses, no entry that equals what an unlisted address reads as. -/
abbrev Memory := List Host.Cell

/-- Sparse register file, keyed by register address. -/
abbrev RegFile := List (Nat × Word)

/-- Field states (R49). -/
inductive FieldState where
  | off | settle | ramp | on | mod | rxw | down | fault
  deriving DecidableEq, Repr

/-- Synthesiser states (R65). -/
inductive SynState where
  | off | cal | acq | locked | step | lost
  deriving DecidableEq, Repr

/-- Job states up to RELEASED, in which a job is no longer held (R19). -/
inductive JobState where
  | arriving | queued | granted | running | waiting | finishing | posted
  deriving DecidableEq, Repr

/-- A job class (R260), GOLD highest. -/
inductive JobClass where
  | gold | silver | bronze | iron
  deriving DecidableEq, Repr

/-- States of the time base (R338). -/
inductive TimeQ where
  | free | set | track | holdover | slept
  deriving DecidableEq, Repr

/-- Thermal states (R315). -/
inductive TState where
  | normal | soft | hard
  deriving DecidableEq, Repr

/-- Power states (R387). -/
inductive PwrState where
  | run | idle | sleep | watch | deep | off
  deriving DecidableEq, Repr

/-- Card states of a listen channel (R368). -/
inductive CardState where
  | off | idle | ready | active | halt | protocol | suspended
  deriving DecidableEq, Repr

/-- Files of the Type 4 Tag application (R372). -/
inductive T4File where
  | cc | ndef | sig
  deriving DecidableEq, Repr

/-- Mailbox arbiter (R375). -/
inductive Arbiter where
  | free | fieldOpen | wireOpen
  deriving DecidableEq, Repr

/-- States of the rail controller (R421). -/
inductive PmbState where
  | off | ton | setup | ready | change | fault
  deriving DecidableEq, Repr

/-- Where a cold start stands (R464): held in reset, waiting for the crystal, for the lock, for the image
calibration, for the flash wait, or started. -/
inductive BootPhase where
  | held | crystal | lock | imageCal | flashWait | started
  deriving DecidableEq, Repr

/-- A reply (R432); its LEN is the length of its payload and its CRC is computed when it is sent. -/
structure Reply where
  status : Byte := 0
  tag : Byte := 0x0F
  info : Word := 0
  payload : List Byte := []
  /-- Opcode of the answered frame; it is no part of the reply. -/
  opc : Byte := 0
  deriving DecidableEq, Repr

/-- One host port. -/
structure PortSt where
  /-- SEQ of the last executed frame (R435, R437). -/
  lastSeq : BitVec 4 := 15
  mode3 : Bool := false
  /-- Reply to the last executed frame. -/
  cached : Reply := {}
  /-- Reply that the next frame carries. -/
  carried : Reply := {}
  /-- Reply that the window of the last frame was assigned (R436). -/
  assigned : Reply := {}
  /-- What HnSDO carried during the last frame: preamble, then the window (R431). -/
  sdo : List Byte := []
  /-- The reply to the last frame is not yet built (R439). -/
  building : Bool := false
  /-- Frames that wait at their first boundary, with their opcodes, first first (R402, R438). -/
  held : List (Byte × Frame) := []
  /-- An executed write of AES keys that a privacy search holds in the frame buffer (R151), with its opcode. -/
  heldWrite : Option (Byte × Frame) := none
  /-- Latches of TIME_NT_HI and TIME_NT_FR (R446). -/
  ntHi : Word := 0
  ntFr : Word := 0
  /-- Identifier of the job of the port's open item (R263). -/
  openItem : Option Nat := none
  /-- Status recorded by the discard state (R269). -/
  discard : Option Byte := none
  /-- Policer buckets in µJ (R270). -/
  tc : Nat := 0
  tp : Nat := 0
  /-- Charges booked in the last 1,024 beats, latest first (R308). -/
  slots : List Nat := []
  /-- Charges booked for the beat just ended and not yet in `slots`. -/
  slotNow : Nat := 0
  /-- Usage exceeds the quota (R310), and OVER has set since the last step 4 (R329). -/
  isOver : Bool := false
  overNew : Bool := false
  /-- QWIN in force (R308). -/
  qwin : Nat := 1000
  deriving DecidableEq, Repr

/-- A directory entry as latched at admission (R250), or the declarations of a ROM routine. -/
structure Decl where
  /-- Worst case in µs (R248). -/
  wcx : Nat := 0
  /-- Declared maximum payload in bytes. -/
  maxpay : Nat := 0
  swarmOk : Bool := false
  /-- Code source: 0 ROM, 1 store, 2 flash. -/
  src : BitVec 2 := 0
  ninst : Nat := 0
  entry : BitVec 16 := 0
  /-- Byte offset of the code, from the store or from the flash window. -/
  addr : Nat := 0
  /-- The routine is present and VALID. -/
  found : Bool := false
  deriving DecidableEq, Repr

/-- Contents of the result buffer: bytes, a record of the entry with this index or handle that is filled when its
pending work is done, a filled image, or the summary that is filled when the entry is written (R238). -/
inductive OutItem where
  | byte (b : Byte)
  | record (index : Nat)
  | image (bytes : List Byte)
  | summary
  deriving DecidableEq, Repr

/-- How a job ended, kept until its final entry is written (R22). -/
structure EndRec where
  rc : Byte
  /-- FLAGS.PARTIAL. -/
  part : Bool
  /-- FLAGS.RECEIPT. -/
  receipt : Bool
  /-- FLAGS.CUT, known when the buffer was taken. -/
  cut : Bool
  detail : BitVec 16
  payload : List OutItem
  deriving DecidableEq, Repr

/-- A sighting (R112). -/
structure Sighting where
  proto : BitVec 3
  id : List Byte
  /-- INFO, and whether its SAK is unknown. -/
  info : BitVec 16
  infoPart : Bool
  volatile : Bool
  ch : Ch
  coil : BitVec 3
  rssi : Nat
  /-- Job that made it. -/
  job : Nat
  /-- Resolved by this AES key (R168). -/
  key : Option Nat := none
  /-- CRY hands it over: the token is resolved, or unresolved. -/
  cry : Option Bool := none
  /-- Handle under which it was held (R235). -/
  handle : Option Nat := none
  /-- Serial number of the locate of its frame (R207). -/
  loc : Option Nat := none
  /-- An INVS waits to report it (R114, R234). -/
  asked : Bool := false
  deriving DecidableEq, Repr

/-- Requests to CRY (R146). -/
structure CryReq where
  /-- A signature request; otherwise a token request. -/
  sig : Bool
  job : Nat
  cls : JobClass
  /-- Table entry the request names, or the handle of a held sighting. -/
  entry : Nat
  /-- The held sighting of a token request. -/
  held : Option Sighting
  data : List Byte
  /-- Handle of the held sighting that the routine named (R235, R236). -/
  handle : Option Nat := none
  /-- The entry has been freed: the result is discarded (R141, R149). -/
  dead : Bool := false
  /-- Key latched when the unit started (R148): its index, the point and the descriptor. -/
  keyIdx : Option Nat := none
  key : List Byte := []
  descr : List Byte := []
  deriving DecidableEq, Repr

/-- What the read or write command in progress is to a ROM write routine. -/
inductive WriteFrame where
  | none
  /-- W1 of a write. -/
  | w1
  /-- The request of a Type 4 write for its answer again, R(NAK), and the answer to an S(WTX) (R173). -/
  | again
  | wtx
  /-- The single EOF of an option-flag-1 write. -/
  | eof
  /-- The pre-read, W4, or a probe of the retry window. -/
  | read
  deriving DecidableEq, Repr

/-- How far a ROM write routine has come (R170 to R179); the steps are those of the block at hand. -/
structure WriteCtx where
  /-- Last step reached, 0 to 4. -/
  step : Nat := 0
  cur : WriteFrame := .none
  /-- The EOF of an option-flag-1 write is still to be sent (R170). -/
  eofDue : Bool := false
  /-- NT of the final instant of W1 (R171), and of the end of W1. -/
  finalNt : Nat := 0
  endNt : Nat := 0
  /-- The W3 window has closed, and the NT of it: the retry window is measured from it (R175). -/
  closed : Bool := false
  closeNt : Nat := 0
  /-- NT of the latest probe, and how far its activation has come: 1 after WUPA, 2 after SELECT (R175). -/
  probeNt : Nat := 0
  woken : Nat := 0
  fcut : Bool := false
  recovered : Bool := false
  /-- Outcome fixed so far by R172 or R175. -/
  rc : Option Byte := none
  tagErr : Byte := 0
  vfy : Nat := 0
  /-- R(NAK) sent, and W4 commands sent (R172, R173). -/
  naks : Nat := 0
  reads : Nat := 0
  /-- The pre-read has run in the job, and for the block at hand, and what it read there (R174). -/
  preRan : Bool := false
  preHere : Bool := false
  pre : Option (List Byte) := none
  /-- The block or offset of the latest command, and the data that W1 carries. -/
  block : Nat := 0
  data : List Byte := []
  /-- Blocks begun and blocks completed with DONE before the one at hand (R176, R179). -/
  index : Nat := 0
  blocksDone : Nat := 0
  /-- NDEF write: 0 nothing written, 1 the length is 0, 2 the new length is written; and the block of the length (R177). -/
  ndef : Nat := 0
  lenBlock : Nat := 0
  /-- The block after the latest one written or skipped, or for Type 4 the offset after its data. -/
  endAt : Nat := 0
  /-- The last valid read-back (R179). -/
  readback : List Byte := []
  deriving DecidableEq, Repr

/-- An identity as a job counts it (R135, R142): PROTO, identifier and, for a volatile one, channel and coil. -/
abbrev TagIdent := BitVec 3 × List Byte × Option (Ch × BitVec 3)

/-- What the command of a ROM routine that is on the air asks of the tag. -/
inductive RomSend where
  | other
  /-- A signature read or a token read (R256). -/
  | sig
  | token
  /-- A read of blocks, pages or a file (R258). -/
  | read
  /-- The SELECT that ends the tag's identifier; the SELECT of a Type 4 file, the job's or another (R257). -/
  | pick
  | file
  | otherFile
  deriving DecidableEq, Repr

/-- The signature and the token of the tag at hand (R158, R163, R164, R256): the latest one sighted, or that of a single-tag
routine. -/
structure TagCheck where
  id : List Byte := []
  /-- The token has been read for, what a good read gave, and RESQ has been made over it. -/
  tokTried : Bool := false
  tok : Option (List Byte) := none
  resq : Bool := false
  /-- The same of the signature and SIGQ. -/
  sigTried : Bool := false
  sig : Option (List Byte) := none
  sigq : Bool := false
  deriving DecidableEq, Repr

/-- How far a ROM routine has come (R101, R253 to R258). -/
structure RomCtx where
  /-- Event of the last exchange of the routine's own, and whether the addressed tag has answered in the job (R101). -/
  lastEv : Option Nat := none
  answered : Bool := false
  /-- The frame on the air is addressed to the tag of the job, which has been selected since it was last woken, and what it asks. -/
  toTag : Bool := false
  selected : Bool := false
  send : RomSend := .other
  /-- The last answer was a clean one with an error of the tag's. -/
  refused : Bool := false
  /-- Last command byte; flags byte of the last response, and the data of the blocks read (R258). -/
  cmd : Byte := 0
  flags : Byte := 0
  data : List Byte := []
  /-- FWI of the card's ATS, and the multiplier of an S(WTX) (R95). -/
  fwi : Option Nat := none
  wtxm : Nat := 1
  /-- NT of the first command (R255). -/
  firstNt : Option (BitVec 64) := none
  /-- ROUND events, and that a limit was reached at one (R257). -/
  rounds : Nat := 0
  limit : Bool := false
  /-- Coil positions requested by a sweep, the number of them at the latest command, and inventories opened (R253 to R255). -/
  visits : Nat := 0
  cmdVisit : Nat := 0
  opened : Nat := 0
  /-- The tag at hand, and the identifiers of those before it. -/
  check : TagCheck := {}
  checked : List (List Byte) := []
  /-- First block, page or offset of the read on the air, and its blocks; attempts since the last good read; blocks read (R258). -/
  readAt : Nat := 0
  readN : Nat := 0
  tries : Nat := 0
  nread : Nat := 0
  /-- Bytes of a block as read, and the tag's memory as far as it has been read. -/
  blockLen : Nat := 0
  mem : List (Nat × Byte) := []
  /-- The job's Type 4 file is selected (R257). -/
  filed : Bool := false
  /-- Identities whose record the job has emitted (R142). -/
  recorded : List TagIdent := []
  /-- POST attempts that have failed in a row, and whether one failed in this beat (R257). -/
  postFails : Nat := 0
  postTried : Bool := false
  deriving DecidableEq, Repr

/-- One job (R19, R260). -/
structure Job where
  /-- Serial number of the job; the model's own. -/
  id : Nat
  port : Port
  queue : Nat
  state : JobState := .queued
  /-- The eight descriptor words, PPTR filled in. -/
  desc : List Word
  /-- Slot of the descriptor pool. -/
  slot : Nat := 0
  /-- Payload bytes received so far. -/
  got : Nat := 0
  /-- Cost and overhead fixed at SUBMIT (R297). -/
  cost : Nat := 0
  ovh : Nat := 0
  /-- Units reserved in the ring: the receipt unit, later the slot. -/
  units : Nat := 1
  /-- Colour the policer gave: 0 green, 1 yellow (R271). -/
  colour : Nat := 0
  /-- NT when the job became QUEUED. -/
  queuedNt : BitVec 64 := 0
  /-- Hold time in ns (R72). -/
  holdNs : Nat := 0
  /-- Channels held. -/
  mask : BitVec 8 := 0
  /-- Swarm group the job runs on (R186). -/
  group : Option (Fin 4) := none
  decl : Decl := {}
  /-- NT in µs at the granting boundary. -/
  ntStart : Word := 0
  /-- Power claim in mW (R305) and thermal increment in units of 0.05 mW (R314). -/
  claim : Nat := 0
  /-- The shaper was enabled when the job was granted (R277). -/
  shaped : Bool := false
  /-- Reservation not yet charged, in µJ. -/
  remain : Nat := 0
  /-- Field energy measured and overheads owed since the grant. -/
  fieldUj : Nat := 0
  /-- Charge beyond the reservation, in µJ, not yet settled. -/
  debt : Nat := 0
  /-- Exchanges that ended since the last boundary, and since the grant. -/
  exchBeat : Nat := 0
  exchAll : Nat := 0
  /-- The job has started an exchange (R228). -/
  started : Bool := false
  /-- The final entry is still to be written after this end. -/
  ended : Option EndRec := none
  /-- A marked job ends with this code after its exchange (R284, R316). -/
  marked : Option Byte := none
  waited : Bool := false
  /-- Coil position at the first exchange. -/
  coil0 : BitVec 3 := 0
  /-- Per-job power target in mW (R39). -/
  target : Option Nat := none
  write : WriteCtx := {}
  /-- Outcomes of CRYR, latest first: the entry, or the handle of a held sighting, and the word (R236). -/
  cryLog : List (Nat × Word) := []
  /-- Sightings that have yet to enter the merge queue, oldest first (R114, R133, R235). -/
  late : List Sighting := []
  rom : RomCtx := {}
  deriving DecidableEq, Repr

/-- One posted entry of a ring: its units as bytes, header first (R25). -/
abbrev EntryBytes := List Byte

/-- One result ring (R287, R289). `entries` are the unreleased entries, oldest first; `rd` counts those read;
`mark` is a position in `entries`. -/
structure RingSt where
  entries : List EntryBytes := []
  rd : Nat := 0
  mark : Option Nat := none
  resv : Nat := 0
  deriving DecidableEq, Repr

/-- Reader-side coding (R45). -/
inductive AirCoding where
  | modifiedMiller | nrzl | oneOf4 | oneOf256
  deriving DecidableEq, Repr

/-- Reader-side modulation of a protocol and rate (R45): the coding, the profile of the shaping table, the carrier cycles
from the start of the fall to the start of the rise, and the level in 1/255 of the unmodulated amplitude. -/
structure Wave where
  coding : AirCoding
  profile : Fin 4
  pause : Nat
  level : Nat
  deriving DecidableEq, Repr

/-- A slew of the carrier phase (R70): the error it removes, in phase steps, its rate in 0.01 ppm, and the NT at which it
began. -/
structure PhaseSlew where
  err : Int
  rate : Nat
  since : BitVec 64
  deriving DecidableEq, Repr

/-- A FIFO (R103): the bytes from REL on, and its pointers. -/
structure Fifo where
  /-- Bytes from REL to the write position. -/
  data : List Byte := []
  rel : Nat := 0
  rd : Nat := 0
  mark : Nat := 0
  mvalid : Bool := false
  deriving DecidableEq, Repr

/-- What a blocked sequencer waits for. -/
inductive Block where
  | wait
  | fon
  | foff
  | ant
  /-- TX or XCH in progress; XCH names the register of its RX. -/
  | tx (rd : Option GReg)
  | rx (rd : GReg)
  | invs (rd : GReg)
  /-- SIGQ or RESQ waits for space in the request queue (R147). -/
  | sigq (r : CryReq)
  | resq (r : CryReq)
  | cryw
  | pattern (p : BitVec 6)
  | post (r : GReg)
  | ending (rc : Byte)
  | fetch
  deriving DecidableEq, Repr

/-- A frame that waits to be sent, or is being sent (R227). -/
structure TxReq where
  /-- Bytes to modulate, CRC included, and their number of bits. -/
  bytes : List Byte
  bits : Nat
  /-- Bits taken from the TX FIFO. -/
  fifo : Nat
  engine : Bool
  /-- It continues the last exchange (R228). -/
  cont : Bool
  /-- The job waits for the gate window (R16). -/
  gate : Bool := false
  /-- Air configuration of the frame and of the window it opens (R224, R229). -/
  txMode : Nat := 0
  rxMode : Nat := 0
  rxCrc : Nat := 0
  /-- RXTO and RAWB in force. -/
  rxto : Nat := 0
  rawb : Nat := 0
  deriving DecidableEq, Repr

/-- Run state of a sequencer (CSQn_STAT.STATE). -/
inductive SeqRun where
  | idle | run | blocked (b : Block)
  deriving DecidableEq, Repr

/-- One sequencer (R216). -/
structure Seq where
  g : Vector Word 8 := .replicate 8 0
  pc : BitVec 16 := 0
  fn : Bool := false
  fz : Bool := false
  fc : Bool := false
  fv : Bool := false
  stack : List (BitVec 16) := []
  /-- Local scratch, 256 bytes, unlisted bytes 0. -/
  scratch : Memory := []
  out : List OutItem := []
  /-- Bytes beyond the buffer were dropped (R240). -/
  cut : Bool := false
  detail : BitVec 16 := 0
  txMode : BitVec 4 := 0
  rxMode : BitVec 4 := 0
  txCrc : BitVec 2 := 0
  rxCrc : BitVec 2 := 0
  cont : Bool := false
  rxto : BitVec 24 := 0
  rawb : BitVec 7 := 0
  ycnt : Nat := 0
  ypend : Bool := false
  icnt : Word := 0
  run : SeqRun := .idle
  /-- Wind-up after a channel fault (R230), and instructions executed in it. -/
  windup : Bool := false
  windN : Nat := 0
  /-- A fault that the first instruction takes (R245). -/
  firstFault : Option Byte := none
  deriving DecidableEq, Repr

/-- What a swarm SOF fixed for the frame: response vectors of the members, by coil position 8n + POS, and the combined SNR in
0.25 dB (R202, R203). -/
structure SwarmSof where
  meas : List (Nat × Int × Int) := []
  csnr : Int := 0
  deriving DecidableEq, Repr

/-- The response window of a channel (R92 to R95). -/
structure Window where
  mode : Nat
  crc : Nat
  /-- TO in µs after the command's end (R93). -/
  toUs : Nat
  /-- Earliest nominal SOF start in carrier cycles after the command's end (R92). -/
  earliest : Nat := 0
  /-- The inventory engine runs the exchange. -/
  engine : Bool
  /-- An SOF was detected; FDT and RSSI of the frame record. -/
  sof : Bool := false
  fdt : Nat := 0
  rssi : Nat := 0
  swarm : SwarmSof := {}
  /-- The record had space in the RX FIFO when the SOF was detected (R105). -/
  room : Bool := true
  /-- The frame or the timeout has delivered its event. -/
  done : Bool := false
  /-- An RX has collected an event since the window opened (R229). -/
  taken : Bool := false
  deriving DecidableEq, Repr

/-- An exchange in progress on a lead channel. -/
structure Exch where
  startNt : BitVec 64
  engine : Bool
  /-- It has been counted already: it continues after the close of an earlier window (R228). -/
  counted : Bool := false
  /-- It has been counted as outlasting its declared worst case (R249). -/
  late : Bool := false
  /-- A frame with CONT has continued it: its busy beats run to its close (R228). -/
  contd : Bool := false
  /-- NT at which its last window closed, when a continuation is to follow (R228, R249). -/
  closeNt : Option (BitVec 64) := none
  deriving DecidableEq, Repr

/-- A pending node of a tree walk (R116): complete identifier bytes of lower levels, and the known bits of
this level or the mask. -/
structure Node where
  lower : List Byte := []
  bits : List Bool := []
  tries : Nat := 0
  deriving DecidableEq, Repr

/-- What the engine has sent last in an inventory, or what it does next. -/
inductive InvPhase where
  | closed
  /-- Opened; nothing sent. -/
  | start
  /-- ISO/IEC 14443 A: REQA or WUPA; SELECT of a complete lower level; ANTICOLLISION; confirming query; SELECT;
  a sighting to report; HLTA; the REQA or WUPA before an empty stack in IDENT mode. -/
  | aReq (opening : Bool) | aReselect (k : Nat) | aAc | aConfirm | aSelect | aSighted | aHlta | aLast
  /-- ISO/IEC 14443 B: slot s of a round (1 is REQB or WUPB); HLTB; a sighting to report. -/
  | bSlot (s : Nat) | bHltb (s : Nat) | bSighted (s : Nat)
  /-- ISO/IEC 15693: slot k of a round; sightings of the round to report; Stay Quiet. -/
  | vSlot (k : Nat) | vReport | vQuiet
  /-- A round ended and its event is to be reported. -/
  | round
  | ended
  deriving DecidableEq, Repr

/-- A sighting held for token resolution (R235): its handle, whether RESQ was made, and how it ended (resolved, and the
index of the entry that received it). The handle is 0x4000 plus the number of sightings held before it by the job: the
model tells a sighting that CRY still works on from the one that is held after it. -/
structure Held where
  sight : Sighting
  handle : Nat
  asked : Bool := false
  result : Option (Bool × Option Nat) := none
  deriving DecidableEq, Repr

/-- Inventory context of a channel (R111). -/
structure InvCtx where
  phase : InvPhase := .closed
  /-- INVO configuration word (R232). -/
  cfg : Word := 0
  /-- INV_CTL [15:0] latched at dispatch, and as overridden by the INVO (R115). -/
  ctl0 : BitVec 16 := 0
  ctl : BitVec 16 := 0
  /-- Air configuration at INVO: TXMODE and RXMODE. -/
  txMode : BitVec 4 := 0
  rxMode : BitVec 4 := 0
  cur : Node := {}
  stack : List Node := []
  /-- Sighted map: entries sighted by the job; entries it created; entries that have held its unresolved pseudonyms. -/
  sighted : List Nat := []
  news : List Nat := []
  unres : List Nat := []
  /-- The identities of those pseudonyms, whether or not an entry holds them (R142, R168). -/
  unresIds : List TagIdent := []
  /-- Distinct identities sighted by the job: PROTO, identifier and, for a volatile one, channel and coil. -/
  ids : List TagIdent := []
  nExch : Nat := 0
  nCollx : Nat := 0
  nNew : Nat := 0
  nDropx : Nat := 0
  stackLeft : Nat := 0
  tagErr : Bool := false
  sofSeen : Bool := false
  /-- First ATQA byte of the current pass (R122). -/
  atqa : Byte := 0
  /-- SELECT-mode handling of one leaf of an IDENT walk (R125). -/
  asSelect : Bool := false
  /-- ISO/IEC 14443 B round: slots, good, collided and empty slots; the tag being halted. -/
  bN : Nat := 1
  good : Nat := 0
  coll : Nat := 0
  empty : Nat := 0
  cand : Option Sighting := none
  /-- Sightings still to report; nodes of an ISO/IEC 15693 round to push at its end, with whether the node is queried
  next rather than pushed; tags to quiet (R129 to R131). -/
  found : List Sighting := []
  pushes : List (Node × Bool) := []
  quiet : List (List Byte) := []
  /-- The sighting in the merge queue that INVS waits to report. -/
  waiting : Bool := false
  /-- INVS waits until the sightings that come before its own have entered the merge queue (R114). -/
  goDue : Bool := false
  held : Option Held := none
  nHeld : Nat := 0
  endRc : Byte := 0
  deriving DecidableEq, Repr

/-- One channel. -/
structure Chan where
  field : FieldState := .off
  /-- A field-on request waits for SETTLE to end. -/
  wantOn : Bool := false
  /-- A field-off, end of job, abort or thermal request waits for the exchange to end. -/
  wantOff : Bool := false
  /-- Cancellation calibration running. -/
  calib : Bool := false
  /-- A position request waits for the switch bus, or is in the word being shifted (R60, R61). -/
  antWait : Bool := false
  antShift : Bool := false
  /-- The integral path of the loop (R38), in 1/4096 of a step of AMP. -/
  amp : Nat := 0
  /-- I and Q that the running calibration starts from, when it starts from the cache (R55). -/
  calBase : Option (BitVec 12 × BitVec 12) := none
  /-- I and Q as the last calibration left them: they cancel all but the residual that it measured (R80). -/
  calIQ : BitVec 12 × BitVec 12 := (0, 0)
  /-- NT at which the ramp in progress began, and the amplitude at its upper end (R49). -/
  rampNt : BitVec 64 := 0
  rampTo : Nat := 0
  /-- Loop ticks that a transmit still waits, at most, for the power after a pattern was selected in ON (R198). -/
  settleTicks : Nat := 0
  /-- Loop ticks for which a coupling measurement still holds the field ON: its 20 µs and its averages (R199). -/
  holdTicks : Nat := 0
  /-- Latched position and enable (R58). -/
  curPos : BitVec 3 := 0
  curEn : Bool := false
  /-- Shaping table (R46); `none` is the ROM default. -/
  shape : Option (List Byte) := none
  /-- Fraction of TXENERGY, in mW times carrier cycles, below one µJ. -/
  eFrac : Nat := 0
  /-- TXENERGY at the last settlement. -/
  eMark : Word := 0
  /-- Time of this beat not OFF, and with the receive chain active, in ns (R312). -/
  onNs : Nat := 0
  actNs : Nat := 0
  /-- Swarm phase weight W (R63) and swarm target in mW (R195). -/
  w : BitVec 10 := 0
  phNow : BitVec 10 := 0
  swTarget : Option Nat := none
  /-- The member's amplitude weight is 0 (R193). -/
  muted : Bool := false
  txf : Fifo := {}
  rxf : Fifo := {}
  win : Option Window := none
  /-- Event not yet collected by RX, and whether its frame was delivered (R101). -/
  ev : Option (BitVec 4) := none
  evGood : Bool := false
  exch : Option Exch := none
  /-- The last exchange that ended; a frame with CONT continues it (R228). -/
  lastExch : Option Exch := none
  txReq : Option TxReq := none
  /-- The frame being modulated. -/
  txNow : Option TxReq := none
  /-- What the channel modulated last, its number of bits, the parity bits of its whole bytes (R99), its waveform (R45)
  and the level in each carrier cycle of one of its pauses (R46). -/
  airOut : List Byte := []
  airBits : Nat := 0
  airPar : List Bool := []
  wave : Option Wave := none
  airShape : List Nat := []
  seq : Seq := {}
  inv : InvCtx := {}
  /-- Gain code in force and steps lowered by the AGC. -/
  gain : BitVec 4 := 0
  /-- Phase of the local oscillator in the window (R77). -/
  loNow : BitVec 10 := 0
  /-- NT in ns up to which whole beats are reserved for exchanges, and the number of busy beats so far (R17). -/
  busyTo : Nat := 0
  busyBeats : Nat := 0
  /-- Latest end in ns that those beats are reserved for: the declared end of an exchange, or its close (R17). -/
  busyEnd : Nat := 0
  /-- NT at which the field entered ON (R253). -/
  onNt : Option (BitVec 64) := none
  /-- The last bit sent (R92). -/
  lastBit : Bool := false
  /-- Die temperature at the last image calibration, in 1/16 °C (R85). -/
  iqTemp : Int := 0
  deriving DecidableEq, Repr

/-- A claim on a channel (R188, R320, R482). -/
structure Claim where
  /-- Claiming job; `none` for maintenance. -/
  job : Option Nat
  cls : JobClass
  /-- A GOLD claim of R320, or one that acts as one. -/
  gold : Bool
  deriving DecidableEq, Repr

/-- CRY (R146). -/
structure Cry where
  queue : List CryReq := []
  ecc : Option CryReq := none
  aes : Option CryReq := none
  /-- AES keys latched by the search in progress (R148). -/
  aesKeys : List (List Byte) := []
  /-- Command running: operation and key (R181). -/
  cmd : Option (BitVec 4 × BitVec 5) := none
  deriving DecidableEq, Repr

/-- A locate request (R209): its serial number, its group and job, what the members measured (coil position 8n + POS
and response vector v), the combined SNR in 0.25 dB, and the entry of its sighting once that is merged; an inner `none` when no entry
holds it. -/
structure LocReq where
  serial : Nat
  group : Fin 4
  job : Nat
  meas : List (Nat × Int × Int)
  entry : Option (Option Nat) := none
  /-- SWARM_LOCB_0, SWARM_LOCB_1 and SWARM_LOCCFG as the locate took them when it started (R214). -/
  cfg : Option (Word × Word × Word) := none
  deriving DecidableEq, Repr

/-- Kinds of maintenance work (R480). -/
inductive MaintKind where
  | imageCal | chTest | coupling (group : Fin 4) (slot : BitVec 3) (mw : BitVec 12) | recal
  | phaseStep (e : BitVec 10)
  deriving DecidableEq, Repr

/-- A maintenance job (R480). -/
structure Maint where
  kind : MaintKind
  mask : BitVec 8
  since : BitVec 64
  running : Bool := false
  /-- It has waited MAINT_DRAIN_MAX and claims (R482). -/
  claims : Bool := false
  /-- Members that a running coupling measurement has still to drive, ascending (R199). -/
  left : List Nat := []
  /-- Antenna current in mA of each member that it has driven, as measured over the averages of its column (R199). -/
  amps : List (Nat × Nat) := []
  deriving DecidableEq, Repr

/-- Network time (R330 to R345). -/
structure TimeSt where
  nt : BitVec 64 := 0
  /-- Fraction in 2⁻⁴⁰ ns (R330). -/
  frac : Nat := 0
  q : TimeQ := .free
  unc : Nat := 0xFFFFFFFF
  poor : Bool := false
  ambig : Bool := false
  armed : Option (BitVec 64 × Word) := none
  freq : Int := 0
  slew : Int := 0
  /-- NT at which SLEW was set (R336). -/
  slewNt : BitVec 64 := 0
  rejects : Nat := 0
  pLast : BitVec 64 := 0
  /-- Beat period in force, in µs (R9). -/
  beatUs : Nat := 1000
  /-- No boundary is run below this NT (R341). -/
  minNt : BitVec 64 := 0
  /-- NT of the last 1 ms update, the part of UNC below 1 ns in 10⁻⁹ ns, and UNC_MAX in force (R339, R358). -/
  uncNt : BitVec 64 := 0
  uncFrac : Nat := 0
  uncMax : Nat := 10000
  /-- W in µs (R353). -/
  w : Nat := 0
  /-- NT at which SYNCO rose, while its pulse lasts (R337). -/
  synco : Option (BitVec 64) := none
  /-- The internal RC ran during the sleep. -/
  rcUsed : Bool := false
  /-- NT at which the last span of the LPO crystal and of the internal RC ended (R342). -/
  spanX : Option (BitVec 64) := none
  spanR : Option (BitVec 64) := none
  /-- SYNC_PER_MS as the last SYNCI edge took it, and LPO_TOL_PPM as the sleep took it (R358). -/
  syncMs : Nat := 1000
  lpoTol : Nat := 20
  /-- Latest ratio of the LPO crystal, in 2⁻¹⁶ ns per tick (R342, R343). -/
  xtalRatio : Nat := 0x77359400
  /-- Time of the sleep already converted, in 2⁻¹⁶ ns (R343). -/
  slept : Nat := 0
  frozen : Bool := false
  deriving DecidableEq, Repr

/-- Gate unit (R346 to R356). -/
structure GateSt where
  en : Bool := false
  base : BitVec 64 := 0
  cycle : Nat := 0
  list : List (Word × Word) := []
  /-- The lists that changes have cut, latest first: start, cycle and entries (a window may run across changes, R352). -/
  prev : List (BitVec 64 × Nat × List (Word × Word)) := []
  /-- Change time of a pending swap. -/
  chg : Option (BitVec 64) := none
  /-- EN sets when the pending change takes effect (R475). -/
  chgEn : Bool := false
  /-- The record of the last step 3 (R354, R359). -/
  openRec : Word := 0
  deriving DecidableEq, Repr

/-- Budgets and thermal model (R298 to R317). -/
structure BudgSt where
  /-- HB, and the part of the refills below 1 µJ in 1/1,000 µJ. -/
  hb : Int := 400000
  hbFrac : Nat := 0
  /-- BUDG registers as the last step 4 took them (R328). -/
  lim : RegFile := []
  /-- Latest samples of S0 to S4, in 1/16 °C (R311). -/
  sens : List Int := [0, 0, 0, 0, 0]
  /-- P_DISS in mW (R312). -/
  pdiss : Nat := 0
  /-- Node rises in 2⁻³² °C (R313). -/
  t1 : Int := 0
  t2 : Int := 0
  tstate : TState := .normal
  isOver : Bool := false
  /-- Sums of the samples of this beat: mV times µV, mV, µV, and their number. -/
  sumP : Nat := 0
  sumV : Nat := 0
  sumI : Nat := 0
  nSamp : Nat := 0
  /-- No maintenance job has held a channel in this beat (R304). -/
  quiet : Bool := true
  /-- No maintenance job held a channel in the beat just ended (R304). -/
  beatQuiet : Bool := true
  /-- What step 1 took of the beat just ended: its length in ns; energy in µJ; the times of R312 summed over channels, in
  ns; mean input power in mW, VIN in mV and IIN in mA. -/
  beatNs : Nat := 1000000
  beatUj : Nat := 0
  beatOn : Nat := 0
  beatAct : Nat := 0
  beatP : Nat := 0
  beatV : Nat := 0
  beatI : Nat := 0
  /-- Heads deferred at G, H and I since the last step 4 (R329). -/
  nAcct : Nat := 0
  nPwr : Nat := 0
  nThm : Nat := 0
  /-- T1 and T2 restart at the next boundary (R313). -/
  restart : Bool := true
  deriving DecidableEq, Repr

/-- How a listen card modulates its load: Manchester OOK at 106 kbit/s, BPSK at 212 and 424 kbit/s (R365). -/
inductive LoadCoding where
  | manchesterOok | bpsk
  deriving DecidableEq, Repr

/-- The load modulation of an answer: coding, rate as in RATE, and the carrier cycles of one period of the subcarrier (R365). -/
structure LoadMod where
  coding : LoadCoding
  rate : BitVec 2
  subcarrier : Nat := 16
  deriving DecidableEq, Repr

/-- A listen card (R368). -/
structure Card where
  state : CardState := .off
  field : Bool := false
  fromHalt : Bool := false
  uid : List Byte := []
  cid : BitVec 4 := 0
  rate : BitVec 2 := 0
  app : Bool := false
  file : Option T4File := none
  /-- The signature file as it was built when it was selected (R371). -/
  sigf : List Byte := []
  /-- Bytes of a chained C-APDU so far (R374), and the block number of ISO/IEC 14443-4. -/
  chain : List Byte := []
  blk : Bool := true
  /-- Last answer sent: an ATS with its CRC_A (R366), every other frame without one, and an R-APDU without its block. -/
  ans : List Byte := []
  /-- How it is sent (R365); `none` when there is none. -/
  load : Option LoadMod := none
  deriving DecidableEq, Repr

/-- Journal record being written (R382). -/
structure JWrite where
  slot : Nat
  seq : Word
  data : List Byte
  src : Bool
  ntMs : Word
  /-- Flash commands of the record that have ended: its sectors first, then its pages (R382). -/
  step : Nat := 0
  deriving DecidableEq, Repr

/-- Listen mode and mailbox (R360 to R385). -/
structure EmuSt where
  bank0 : Memory := []
  bank1 : Memory := []
  /-- Bank 1 is published. -/
  pub1 : Bool := false
  arb : Arbiter := .free
  ownCh : Ch := 0
  ownPort : Port := 0
  jpend : Bool := false
  jwrite : Option JWrite := none
  jfails : Nat := 0
  /-- Slot after the last one tried. -/
  jnext : Option Nat := none
  jstop : Bool := false
  lastSrc : Bool := false
  pubNt : Word := 0
  deriving DecidableEq, Repr

/-- A wake source with what the record keeps of it (R403). -/
inductive WakeEv where
  | pin | host (p : Port) | timer | watch (step : BitVec 6) | emu (n : Ch)
  deriving DecidableEq, Repr

/-- An entry window (R397). -/
structure Entry where
  target : PwrState
  drain : Bool
  /-- Next agent to ask: 0 to 7 PD_CHn, 8 PD_CRY, 9 PD_SYN, 10 PD_ENG, 11 PD_MEM. -/
  agent : Nat
  latched : List WakeEv := []
  deriving DecidableEq, Repr

/-- Power controller (R387 to R408). -/
structure PwrSt where
  state : PwrState := .run
  entry : Option Entry := none
  /-- Waking: domains still to power up, in order, and the NT unknown until the crystal. -/
  waking : Bool := false
  todo : List Nat := []
  /-- The first boundary after a wake is still to come (R73). -/
  preBoundary : Bool := true
  domOn : BitVec 12 := 0xEFF
  /-- The main crystal runs stable. -/
  xtal : Bool := false
  /-- WAKE_DONE is still to be raised at LOCK (R407). -/
  lockDue : Bool := false
  /-- Events of the last wake, the state it left, and whether they were latched in an entry window (R403). -/
  wakeEvs : List WakeEv := []
  wakeFrom : PwrState := .run
  wakeEarly : Bool := false
  /-- The commit point has passed, and no command has shown that the entry completed (R399). -/
  closing : Bool := false
  deriving DecidableEq, Repr

/-- One Firefly step (R409). -/
structure WStep where
  scfg : Word := 0
  sbase : Word := 0
  smeas : Word := 0
  exceed : Nat := 0
  within : Nat := 0
  now : Bool := false
  /-- CAPTURE waits for the step's next ping, and the last ping is the one that it takes (R413). -/
  capture : Bool := false
  capPing : Bool := false
  /-- A ping run in RUN waits for step 5 (R414). -/
  pinged : Bool := false
  /-- Words written and not yet in force: the next round takes them (R424). -/
  nextCfg : Option Word := none
  nextBase : Option Word := none
  deriving DecidableEq, Repr

/-- Firefly (R409 to R415): the listed steps by index. -/
structure WatchSt where
  steps : List (Nat × WStep) := []
  cur : BitVec 6 := 0
  lastDet : BitVec 6 := 0
  /-- WATCH_CTL as the last round took it (R424). -/
  ctl : Word := 0x00620000
  deriving DecidableEq, Repr

/-- A PMBus transaction: its kind as PMB_CMD codes it, its command code and data, and whether it carries PEC (R416, R422). -/
structure PmbTxn where
  op : Nat
  code : Byte
  data : BitVec 16 := 0
  pec : Bool
  deriving DecidableEq, Repr

/-- Rail controller (R416 to R422). -/
structure PmbSt where
  state : PmbState := .off
  cmd : Nat := 0
  ok : Nat := 0
  vtxen : Bool := false
  lower : Nat := 0
  reads : Nat := 0
  /-- Failed attempts of the transaction at hand, and which it is (R421). -/
  attempts : Nat := 0
  trans : PmbTrans := .clearFaults
  /-- Signed exponent of VOUT_MODE. -/
  expN : Int := 0
  /-- What the regulator answers to VOUT_MODE, while SETUP waits for PD_ENG (R421). -/
  mode : Option Byte := none
  /-- The demand as the controller last computed it (R418, R425). -/
  demand : Nat := 0
  /-- The last transaction of the controller's own (R416). -/
  sent : Option PmbTxn := none
  /-- Raw transaction running (R422). -/
  raw : Option PmbTxn := none
  /-- VTXEN held low after RECOVER or a reset, before TON. -/
  holdLow : Bool := false
  /-- Channels under a rail hold (R419). -/
  rail : BitVec 8 := 0
  /-- PMB_VLIM and PMB_VSTEP in force (R425). -/
  vlim : Word := 0x3E801388
  vstep : Word := 0x060A0064
  deriving DecidableEq, Repr

/-- A flash operation (R471). -/
structure FlashOp where
  opc : BitVec 3
  /-- Port that issued it. -/
  port : Port
  off : Nat
  /-- Sectors or bytes still to do. -/
  left : Nat
  data : List Byte := []
  /-- Sectors erased or pages programmed. -/
  done : Nat := 0
  /-- Its erase or program command is in progress. -/
  busy : Bool := false
  /-- ERR of an operation that stops early: 1 timeout, 2 WEL not set, 3 aborted (R471); otherwise 0. -/
  err : Nat := 0
  deriving DecidableEq, Repr

/-- A run of a window write within one page: its first word in the frame, flash offset and bytes (R469). -/
structure WinRun where
  idx : Nat
  off : Nat
  data : List Byte
  deriving DecidableEq, Repr

/-- A MEM_WRITE into the flash window that is being programmed; the reply of its port waits for it (R439, R469). -/
structure WinWrite where
  port : Port
  runs : List WinRun
  /-- The lowest-addressed refused word so far: index and status. -/
  ref : Option (Nat × Byte)
  /-- Its program command is in progress. -/
  busy : Bool := false
  deriving DecidableEq, Repr

/-- A line of the routine cache (R251): its number, counted in 32 bytes from the start of the flash, and its bytes. -/
structure CacheLine where
  line : Nat
  data : List Byte
  deriving DecidableEq, Repr

/-- Flash port, external flash and routine cache (R251, R466 to R472). -/
structure FlashSt where
  mem : Memory := []
  op : Option FlashOp := none
  win : Option WinWrite := none
  /-- Offset and bytes of the erase or program that runs inside the flash: it reports write-in-progress. -/
  cmd : Option (Nat × Nat) := none
  asleep : Bool := false
  /-- Lines held, most recently used first. -/
  cache : List CacheLine := []
  /-- Fills that wait, by sequencer and line, and the one in progress. -/
  fills : List (Ch × Nat) := []
  filling : Option (Ch × Nat) := none
  invPend : Bool := false
  deriving DecidableEq, Repr

/-- SYN state beyond the registers (R65). -/
structure SynSt where
  state : SynState := .off
  /-- Switch word being shifted (R60). -/
  shift : Option Word := none
  /-- The slew of the carrier phase (R70). -/
  slew : Option PhaseSlew := none
  deriving DecidableEq, Repr

/-- The queue's numbers that are not register bits (R275 to R281). -/
structure QueueSt where
  bal : Int := 0
  /-- SHEN and BURST in force (R278). -/
  shen : Bool := false
  burst : Nat := 0
  hdly : Nat := 0
  elig : Bool := false
  /-- WM_COUNT. -/
  wmCount : Nat := 0
  deriving DecidableEq, Repr

/-- The device. -/
structure State where
  regs : RegFile := []
  sram : Memory := []
  ports : Vector PortSt 4 := .replicate 4 {}
  chans : Vector Chan 8 := .replicate 8 {}
  jobs : List Job := []
  /-- Serial number of the next job. -/
  nextJob : Nat := 0
  queues : Vector QueueSt 64 := .replicate 64 {}
  /-- RR of each class (R273). -/
  rr : Vector Nat 4 := .replicate 4 0
  rings : Vector RingSt 32 := .replicate 32 {}
  claims : Vector (Option Claim) 8 := .replicate 8 none
  syn : SynSt := {}
  time : TimeSt := {}
  gate : GateSt := {}
  budg : BudgSt := {}
  /-- Merge queue (R114) and INV_CMD in progress (R144). -/
  mergeQ : List Sighting := []
  invCmd : Option (BitVec 4 × BitVec 14) := none
  cry : Cry := {}
  locQ : List LocReq := []
  /-- Serial number of the next locate request; the model's own. -/
  nextLoc : Nat := 0
  cards : Vector Card 8 := .replicate 8 {}
  emu : EmuSt := {}
  pwr : PwrSt := {}
  watch : WatchSt := {}
  pmb : PmbSt := {}
  flash : FlashSt := {}
  maint : List Maint := []
  /-- A drain is in force since this NT (R483). -/
  drain : Option (BitVec 64) := none
  /-- ROM test queued (R484). -/
  romTest : Bool := false
  committed : Bool := false
  boot : BootPhase := .crystal
  /-- Channels whose image calibration of start-up is still to end. -/
  bootCal : BitVec 8 := 0
  /-- The flash power-up wait has ended, and discovery waits for write-in-progress to clear (R460): what it will find. -/
  bootDisc : Option FlashDisc := none
  /-- Supply and reset pins. -/
  vinOk : Bool := true
  vddioOk : Bool := true
  resetN : Bool := true
  /-- Thermal shutdown holds the device in reset (R462). -/
  thermHold : Bool := false
  /-- An entry has been posted since the cold reset: the ring storage is no longer zero. -/
  ringsUsed : Bool := false
  /-- Counter that the free values of `Config` are applied to. The model's own. -/
  fresh : Nat := 0
  /-- Commands that wait, first in, first out. -/
  pending : List Instr := []
  deriving DecidableEq, Repr

/-- The device right after power-up (R458, R459): POR with both supplies good, every register at its reset
value, the SRAM zero, nothing queued, waiting for the crystal. -/
def State.reset : State := { regs := [(4, 1)] }

end Sys2Proof.Machine
end

