-- ==== Sys2Proof/Machine/Ops.lean ====
section
/-!
DEFINITION. The named operations over the state: register fields, counters, notices, memory, channels, ports and
jobs. Every access of the device to its own registers goes through these.
-/

namespace Sys2Proof.Machine

/-! ## Registers -/

/-- The stored word of a register. -/
def State.rdWord (s : State) (a : Nat) : Word := sget resetWord s.regs a

/-- Store a register word. -/
def State.wrWord (s : State) (a : Nat) (w : Word) : State := { s with regs := sput resetWord s.regs a w }

/-- Value of a register field. -/
def State.rd (s : State) (f : Fld) : Nat := getBits (s.rdWord f.addr) f.lo f.w

/-- Value of a two's complement register field. -/
def State.rdS (s : State) (f : Fld) : Int := toSigned f.w (s.rd f)

/-- A one-bit field is 1. -/
def State.isOn (s : State) (f : Fld) : Bool := decide (s.rd f ≠ 0)

/-- Set a register field. -/
def State.wr (s : State) (f : Fld) (v : Nat) : State := s.wrWord f.addr (setBits (s.rdWord f.addr) f.lo f.w v)

/-- Set a two's complement register field. -/
def State.wrS (s : State) (f : Fld) (v : Int) : State := s.wr f (ofSigned f.w v)

/-- Set a field to the value, or to its greatest value when that is smaller. -/
def State.wrSat (s : State) (f : Fld) (v : Nat) : State := s.wr f (min v (2 ^ f.w - 1))

/-- Count `n` events in a saturating counter (R295, R423 and the like). -/
def State.bump (s : State) (f : Fld) (n : Nat := 1) : State := s.wrSat f (s.rd f + n)

/-- Set a status bit. -/
def State.setFlag (s : State) (f : Fld) : State := s.wr f 1

/-- Keep the largest value seen in a field. -/
def State.keepMax (s : State) (f : Fld) (v : Nat) : State := if s.rd f < v then s.wrSat f v else s

/-! ## Fields in force (R328) -/

/-- A BUDG field as the last step 4 took it. -/
def State.lim (s : State) (f : Fld) : Nat := getBits (sget resetWord s.budg.lim f.addr) f.lo f.w

/-- A two's complement BUDG field in force. -/
def State.limS (s : State) (f : Fld) : Int := toSigned f.w (s.lim f)

/-! ## Vectors of parts -/

/-- A channel. -/
def State.ch (s : State) (n : Nat) : Chan := s.chans.toList.getD n {}

/-- Change a channel. -/
def State.modCh (s : State) (n : Nat) (g : Chan → Chan) : State :=
  { s with chans := s.chans.setIfInBounds n (g (s.ch n)) }

/-- A port. -/
def State.pt (s : State) (p : Nat) : PortSt := s.ports.toList.getD p {}

/-- Change a port. -/
def State.modPt (s : State) (p : Nat) (g : PortSt → PortSt) : State :=
  { s with ports := s.ports.setIfInBounds p (g (s.pt p)) }

/-- A queue's numbers. -/
def State.qu (s : State) (q : Nat) : QueueSt := s.queues.toList.getD q {}

/-- Change a queue. -/
def State.modQu (s : State) (q : Nat) (g : QueueSt → QueueSt) : State :=
  { s with queues := s.queues.setIfInBounds q (g (s.qu q)) }

/-- A result ring. -/
def State.ring (s : State) (r : Nat) : RingSt := s.rings.toList.getD r {}

/-- Change a result ring. -/
def State.modRing (s : State) (r : Nat) (g : RingSt → RingSt) : State :=
  { s with rings := s.rings.setIfInBounds r (g (s.ring r)) }

/-- A listen card. -/
def State.card (s : State) (n : Nat) : Card := s.cards.toList.getD n {}

/-- Change a listen card. -/
def State.modCard (s : State) (n : Nat) (g : Card → Card) : State :=
  { s with cards := s.cards.setIfInBounds n (g (s.card n)) }

/-- The claim on a channel. -/
def State.claimOf (s : State) (n : Nat) : Option Claim := s.claims.toList.getD n none

/-- Place or release the claim on a channel. -/
def State.setClaim (s : State) (n : Nat) (c : Option Claim) : State :=
  { s with claims := s.claims.setIfInBounds n c }

/-- Change the sequencer of a channel. -/
def State.modSeq (s : State) (n : Nat) (g : Seq → Seq) : State := s.modCh n fun c => { c with seq := g c.seq }

/-- Change the inventory context of a channel. -/
def State.modInv (s : State) (n : Nat) (g : InvCtx → InvCtx) : State := s.modCh n fun c => { c with inv := g c.inv }

/-- Apply an operation for each channel of a list, in order. -/
def State.each {α : Type} (s : State) (l : List α) (g : State → α → State) : State := l.foldl g s

/-- The claims of a job end (R189, R320). -/
def State.unclaim (s : State) (id : Nat) : State :=
  s.each (List.range 8) fun s n => if (s.claimOf n).bind (fun c => c.job) == some id then s.setClaim n none else s

/-! ## Memory -/

/-- SRAM reads zero where nothing has been written since the cold reset (R459). -/
def sramDefault (_ : Nat) : Byte := 0

/-- External flash reads 0xFF where nothing has been programmed. DESIGN CHOICE, log entry 7. -/
def flashDefault (_ : Nat) : Byte := 0xFF

/-- Byte of a memory with default 0. -/
def Memory.byte (m : Memory) (a : Nat) : Byte := sget sramDefault m a

/-- The canonical form of a memory whose unlisted bytes are 0. -/
def Memory.wf (m : Memory) : Bool := swf sramDefault m

/-- Memory with one byte written. -/
def Memory.set (m : Memory) (a : Nat) (b : Byte) : Memory := sput sramDefault m a b

/-- Memory with consecutive bytes written, in ascending address order. -/
def Memory.setBytes : Memory → Nat → List Byte → Memory
  | m, _, [] => m
  | m, a, b :: bs => Memory.setBytes (Memory.set m a b) (a + 1) bs

/-- Consecutive bytes of a memory. -/
def Memory.bytes (m : Memory) (a n : Nat) : List Byte := (List.range n).map fun i => Memory.byte m (a + i)

/-- A byte of SRAM. -/
def State.sb (s : State) (a : Nat) : Byte := Memory.byte s.sram a

/-- Consecutive bytes of SRAM. -/
def State.sbytes (s : State) (a n : Nat) : List Byte := Memory.bytes s.sram a n

/-- A little-endian number of `n` bytes in SRAM. -/
def State.snat (s : State) (a n : Nat) : Nat := leNat (s.sbytes a n)

/-- Write consecutive bytes of SRAM. -/
def State.swrite (s : State) (a : Nat) (bs : List Byte) : State := { s with sram := Memory.setBytes s.sram a bs }

/-- Write a little-endian number of `n` bytes to SRAM. -/
def State.swriteNat (s : State) (a n v : Nat) : State := s.swrite a (leBytes n v)

/-- A byte of the external flash. -/
def State.fb (s : State) (a : Nat) : Byte := sget flashDefault s.flash.mem a

/-- Consecutive bytes of the external flash. -/
def State.fbytes (s : State) (a n : Nat) : List Byte := (List.range n).map fun i => s.fb (a + i)

/-- Write one byte of the external flash, whatever it held. -/
def State.fset (s : State) (a : Nat) (b : Byte) : State :=
  { s with flash := { s.flash with mem := sput flashDefault s.flash.mem a b } }

/-- The flash reports write-in-progress: a command of an operation, a window write or a journal record runs inside it (R468). -/
def FlashSt.wip (f : FlashSt) : Bool := f.cmd.isSome

/-- The first fill that waits starts once the flash does not report write-in-progress (R251, R252). -/
def State.startFill (s : State) : State :=
  match s.flash.filling, s.flash.fills with
  | none, f :: rest =>
    if s.flash.wip then s
    else ({ s with flash := { s.flash with filling := some f, fills := rest, asleep := false } }).bump R.CSQ_CCNT_N_MISS
  | _, _ => s

/-- Density of the flash in bytes: none before discovery (R467). -/
def State.density (s : State) : Nat := if s.rd R.FLASH_GEOM_DENS_LOG2 = 0 then 0 else 2 ^ s.rd R.FLASH_GEOM_DENS_LOG2

/-- Page size in bytes. -/
def State.pageSize (s : State) : Nat := max 1 (2 ^ s.rd R.FLASH_GEOM_PAGE_LOG2)

/-- Pages that `n` bytes from an offset lie in. -/
def State.pagesOf (s : State) (off n : Nat) : Nat :=
  if n = 0 then 0 else (off + n - 1) / s.pageSize - off / s.pageSize + 1

/-- Change the flash and its port. -/
def State.modFlash (s : State) (g : FlashSt → FlashSt) : State := { s with flash := g s.flash }

/-! ## Notices (R31 to R34) -/

/-- Bits of the pending set (R31). -/
def noticeBit (k : Nat) : Nat := 1 <<< k

/-- Pending set of a port. -/
def State.pend (s : State) (p : Nat) : Nat := s.rd (R.HOST_NPEND_PEND p)

/-- Raise notice `k` to port `p` (R31, R32). -/
def State.notify (s : State) (p k : Nat) : State := s.wr (R.HOST_NPEND_PEND p) (s.pend p ||| noticeBit k)

/-- Raise notice `k` to every port. -/
def State.notifyAll (s : State) (k : Nat) : State := s.each [0, 1, 2, 3] fun s p => s.notify p k

/-! ## Network time and free values -/

/-- Network time in ns. -/
def State.nt (s : State) : Nat := s.time.nt.toNat

/-- Network time in µs, its low 32 bits, as result entries carry it (R25). -/
def State.ntUs (s : State) : Word := BitVec.ofNat 32 (s.nt / 1000)

/-- Take the next free value of a function of `Config`. -/
def State.takeFresh {α : Type} (s : State) (g : Nat → α) : α × State := (g s.fresh, { s with fresh := s.fresh + 1 })

/-- A key command that validates waits for the ECDSA unit or uses it (R181). -/
def Cry.validates (c : Cry) : Bool := (c.cmd.map fun x => x.1 == 1 || x.1 == 3) == some true

/-- ZERO_AES waits for the search in progress (R181). -/
def Cry.zeroes (c : Cry) : Bool := (c.cmd.map fun x => x.1 == 4) == some true

/-- The ECDSA unit serves a request or a validation. -/
def Cry.eccBusy (c : Cry) : Bool := c.ecc.isSome || c.validates

/-! ## Leaving IDLE and wake events -/

/-- Start-up has ended, and no thermal shutdown holds the device in reset (R462, R464). -/
def State.up (s : State) : Bool := s.boot == .started && !s.thermHold

/-- The engine runs: RUN, and PD_ENG is on (R387, R391). Below IDLE its SRAM is kept as it is, and in IDLE its clock
stands. -/
def State.engRuns (s : State) : Bool := s.pwr.state == .run && bitOf s.pwr.domOn.toNat 10

/-- The device leaves IDLE for RUN (R389); in any other state nothing happens. -/
def State.leaveIdle (s : State) : State :=
  if s.pwr.state = .idle then { s with pwr := { s.pwr with state := .run }, budg := { s.budg with restart := true } } else s

/-- A maintenance job falls due; it ends IDLE (R389, R480). -/
def State.addMaint (s : State) (m : Maint) : State := { s with maint := s.maint ++ [m] }.leaveIdle

/-- An enabled wake event is latched while an entry window is open (R397, R401). -/
def State.latchWake (s : State) (ev : WakeEv) : State :=
  match s.pwr.entry with
  | none => s
  | some e => { s with pwr := { s.pwr with entry := some { e with latched := e.latched ++ [ev] } } }

/-! ## Jobs -/

/-- A job by its serial number. -/
def State.job? (s : State) (id : Nat) : Option Job := s.jobs.find? fun j => j.id == id

/-- Change a job. -/
def State.modJob (s : State) (id : Nat) (g : Job → Job) : State :=
  { s with jobs := s.jobs.map fun j => if j.id = id then g j else j }

/-- Take a job out. -/
def State.dropJob (s : State) (id : Nat) : State := { s with jobs := s.jobs.filter fun j => j.id != id }

/-- The job is past admission and its final entry is not yet written: it holds its channels (R19, R21). -/
def JobState.holds : JobState → Bool
  | .granted | .running | .waiting | .finishing => true
  | .arriving | .queued | .posted => false

/-- The job that holds channel `n`. -/
def State.jobOn (s : State) (n : Nat) : Option Job :=
  s.jobs.find? fun j => j.state.holds && bitOf j.mask.toNat n

/-- Lead channel of a mask: the lowest (R16, R184). -/
def leadOf (m : BitVec 8) : Nat := ((List.range 8).find? fun i => bitOf m.toNat i).getD 0

/-- The job whose lead channel is `n`: the one that the sequencer of `n` runs. -/
def State.jobLead (s : State) (n : Nat) : Option Job :=
  s.jobs.find? fun j => j.state.holds && bitOf j.mask.toNat n && leadOf j.mask == n

end Sys2Proof.Machine
end

