-- ==== Sys2Proof/Machine/Time.lean ====
section
/-!
DEFINITION. Network time and gate lists (chapter 10): the counter, setting and steps, the SYNCI servo, time
quality, and the gate unit's windows.
-/

namespace Sys2Proof.Machine

/-! ## The beat -/

/-- Beat period in force, in ns (R8, R9). -/
def State.beatNs (s : State) : Nat := s.time.beatUs * 1000

/-- First multiple of `b` that is at least `x`. -/
def nextMultiple (x b : Nat) : Nat := ceilDiv x b * b

/-- Sync period P in ns (chapter 10), as the last SYNCI edge took it (R358). -/
def State.syncNs (s : State) : Nat := s.time.syncMs * 1000000

/-! ## Gate lists (R346 to R357) -/

/-- A list with its start and cycle. -/
structure GateList where
  base : Nat
  cycle : Nat
  entries : List (Word × Word)
  deriving DecidableEq, Repr

/-- Parts of the cycle by entry: first ns, end ns, and the entry (R347). The last entry lasts to the cycle's end. -/
def gateSegments (cyc : Nat) : Nat → List (Word × Word) → List (Nat × Nat × Word × Word)
  | _, [] => []
  | a, [(w0, w1)] => if a < cyc then [(a, cyc, w0, w1)] else []
  | a, (w0, w1) :: rest =>
    if a < cyc then
      (a, min cyc (a + getBits w0 0 24 * 1000), w0, w1) :: gateSegments cyc (a + getBits w0 0 24 * 1000) rest
    else []

/-- Cycle of a list in ns. -/
def GateList.ns (g : GateList) : Nat := g.cycle * 1000

/-- Phase of NT `t` in the list (R347). -/
def GateList.phase (g : GateList) (t : Nat) : Nat := (((t : Int) - g.base) % (g.ns : Int)).toNat

/-- Index of the entry in force at NT `t`. -/
def GateList.cur (g : GateList) (t : Nat) : Nat :=
  ((gateSegments g.ns 0 g.entries).takeWhile fun x => x.2.1 ≤ g.phase t).length

/-- Least of the distances that a list gives, if any. -/
def minDist (l : List Nat) : Option Nat := l.foldl (fun m d => some (min (m.getD d) d)) none

/-- Distance from `t` to the first instant at or after it at which `sel` fails; none when it never does. -/
def GateList.ahead (g : GateList) (sel : Word → Word → Bool) (t : Nat) : Option Nat :=
  let ph := g.phase t
  minDist (((gateSegments g.ns 0 g.entries).filter fun x => !sel x.2.2.1 x.2.2.2).map fun x =>
    if ph < x.1 then x.1 - ph else if ph < x.2.1 then 0 else x.1 + g.ns - ph)

/-- Distance back from `t` to the start of the run of entries that `sel` takes; none when it has no start. -/
def GateList.behind (g : GateList) (sel : Word → Word → Bool) (t : Nat) : Option Nat :=
  let ph := g.phase t
  minDist (((gateSegments g.ns 0 g.entries).filter fun x => !sel x.2.2.1 x.2.2.2).map fun x =>
    if x.2.1 ≤ ph then ph - x.2.1 else if x.1 ≤ ph then 0 else ph + g.ns - x.2.1)

/-- `behind` for the instant just before `t`: an entry that ends at `t` is still in force (R352). -/
def GateList.behindBefore (g : GateList) (sel : Word → Word → Bool) (t : Nat) : Option Nat :=
  let ph := if g.phase t = 0 then g.ns else g.phase t
  minDist (((gateSegments g.ns 0 g.entries).filter fun x => !sel x.2.2.1 x.2.2.2).map fun x =>
    if x.2.1 < ph then ph - x.2.1 else if x.1 < ph then 0 else ph + g.ns - x.2.1)

/-- The operational list. -/
def State.opList (s : State) : GateList := ⟨s.gate.base.toNat, s.gate.cycle, s.gate.list⟩

/-- The administrative list as its registers hold it. -/
def State.adminEntries (s : State) : List (Word × Word) :=
  (List.range (s.rd R.GATE_ALEN_ALEN)).map fun k => (s.rdWord (R.GATE_ENTRY k), s.rdWord (R.GATE_EMASK k))

/-- Administrative base time. -/
def State.abase (s : State) : Nat := (s.rdWord R.GATE_ABASE_LO).toNat + 2 ^ 32 * (s.rdWord R.GATE_ABASE_HI).toNat

/-- The list that a pending change brings, with its change time. -/
def State.nextList (s : State) : Option (Nat × GateList) :=
  s.gate.chg.map fun c => (c.toNat, ⟨c.toNat, s.rd R.GATE_ACYCLE_ACYCLE, s.adminEntries⟩)

/-- Distance from `t` to the end of the window that `sel` makes, across a pending change (R352). -/
def State.windowAhead (s : State) (sel : Word → Word → Bool) (t : Nat) : Option Nat :=
  let d := s.opList.ahead sel t
  match s.nextList with
  | none => d
  | some (c, g) =>
    if t < c && (d.isNone || decide (c - t ≤ d.getD 0)) then (g.ahead sel c).map fun e => c - t + e else d

/-- Distance back from the instant `b`, at which a list was cut, to the start of the window that runs up to it: through the
lists that were in force before, latest first, and no further back than the first of them began (R352). -/
def behindCut (sel : Word → Word → Bool) : Nat → List (BitVec 64 × Nat × List (Word × Word)) → Nat
  | _, [] => 0
  | b, (pb, pc, pl) :: rest =>
    let d := (GateList.behindBefore ⟨pb.toNat, pc, pl⟩ sel b).getD (b - pb.toNat)
    if b - pb.toNat ≤ d then b - pb.toNat + behindCut sel pb.toNat rest else d

/-- Distance back to the window's start, across the changes that brought the operational list (R352). -/
def State.windowBehind (s : State) (sel : Word → Word → Bool) (t : Nat) : Option Nat :=
  let d := s.opList.behind sel t
  let b := s.gate.base.toNat
  if b ≤ t && decide (t - b ≤ d.getD (t - b)) then some (t - b + behindCut sel b s.gate.prev) else d

/-- Entries with EXCL are held (R352). -/
def State.gateHeld (s : State) : Bool := s.isOn R.GATE_CTL_HOLD_POOR_TIME && s.time.poor

/-- Bit (c, n) of an entry, as R352 counts it. -/
def gateSel (held : Bool) (cls n : Nat) (w0 w1 : Word) : Bool :=
  !(held && bitOf w0.toNat 24) && bitOf w1.toNat (8 * cls + n)

/-- WATCH of an entry, as R352 counts it. -/
def watchSel (held : Bool) (w0 _w1 : Word) : Bool := !(held && bitOf w0.toNat 24) && bitOf w0.toNat 26

/-- Guard G_D in ns (R353). -/
def State.guardNs (s : State) : Nat := (s.rd R.GATE_GUARD_GUARD_US + s.time.w) * 1000

/-- The gate list governs: EN is in force and a list is operational (R348). -/
def State.gateOn (s : State) : Bool := s.gate.en && !s.gate.list.isEmpty

/-- Remaining window at NT `t` for the entries that `sel` takes: none is unlimited, `some 0` outside (R353). -/
def State.remainingOf (s : State) (sel : Word → Word → Bool) (t : Nat) : Option Nat :=
  if !s.gateOn then none
  else
    match s.windowAhead sel t with
    | none => if s.guardNs ≤ (s.windowBehind sel t).getD s.guardNs then none else some 0
    | some a =>
      if s.guardNs < a && decide (s.guardNs ≤ (s.windowBehind sel t).getD s.guardNs) then some (a - s.guardNs)
      else some 0

/-- Remaining window of channel `n` for a class at NT `t`, in ns. -/
def State.remaining (s : State) (cls n t : Nat) : Option Nat := s.remainingOf (gateSel s.gateHeld cls n) t

/-- A remaining window covers a duration in ns. -/
def fitsWindow (w : Option Nat) (ns : Nat) : Bool :=
  match w with
  | none => true
  | some r => decide (ns ≤ r)

/-- NT `t` lies within an open part of channel `n` for the class (R354). -/
def State.inOpenPart (s : State) (cls n t : Nat) : Bool := s.remaining cls n t != some 0

/-- Record of step 3: bit 8c + n is set while channel n lies in an open part for class c (R354). -/
def State.openRecord (s : State) (t : Nat) : Word :=
  BitVec.ofNat 32 (bitsNat ((List.range 32).map fun i => s.inOpenPart (i / 8) (i % 8) t))

/-- The entry in force at the present NT. -/
def State.gateEntry (s : State) : Option (Word × Word) :=
  if s.gate.list.isEmpty then none else s.gate.list[s.opList.cur s.nt]?

/-- LISTEN as R348 and R357 count it. -/
def State.listenOpen (s : State) : Bool :=
  !s.gateOn || (match s.gateEntry with | none => true | some (w0, _) => bitOf w0.toNat 25)

/-- Firefly pings may run in RUN and IDLE now (R357). -/
def State.watchOpen (s : State) : Bool := s.remainingOf (watchSel s.gateHeld) s.nt != some 0

/-- Carry out a pending change whose time NT has reached (R350, R475). -/
def State.settleGate (s : State) : State :=
  match s.gate.chg with
  | none => s
  | some c =>
    if s.time.nt.toNat < c.toNat then s
    else
      let s1 := { s with gate := { s.gate with
        prev := if s.gate.list.isEmpty then [] else (s.gate.base, s.gate.cycle, s.gate.list) :: s.gate.prev
        base := c, cycle := s.rd R.GATE_ACYCLE_ACYCLE, list := s.adminEntries, chg := none, chgEn := false } }
      let s2 := s1.bump R.GATE_CNT_N_SWAP
      if s.gate.chgEn then s2.setFlag R.GATE_CTL_EN else s2

/-- The administrative list passes the check of SWAP (R349). -/
def State.adminOk (s : State) : Bool :=
  let n := s.rd R.GATE_ALEN_ALEN
  decide (1 ≤ n) && decide (n ≤ 64) && decide (1000 ≤ s.rd R.GATE_ACYCLE_ACYCLE)
    && s.adminEntries.all fun e => getBits e.1 0 24 != 0 && getBits e.1 27 5 == 0

/-- Change time counted from NT `t`, and whether k is above 0 (R349). -/
def State.changeTime (s : State) (t : Nat) : Nat × Bool :=
  let least := t + 2 * s.beatNs
  let cyc := s.rd R.GATE_ACYCLE_ACYCLE * 1000
  if least ≤ s.abase then (s.abase, false)
  else
    let k := ceilDiv (least - s.abase) cyc
    (s.abase + k * cyc, true)

/-- Start a list change; `loader` is the loader's SWAP of start-up (R349, R351). -/
def State.startSwap (s : State) (loader : Bool) : State :=
  let (c, late) := s.changeTime s.nt
  let s1 := { s with gate := { s.gate with chg := some (BitVec.ofNat 64 c) } }
  if late && !loader then ((s1.setFlag R.GATE_STAT_LATE).bump R.GATE_CNT_N_LATE).notifyAll 7 else s1

/-! ## Time that passes -/

/-- The job at the head of queue `q`: its first QUEUED job. -/
def State.headOf (s : State) (q : Nat) : Option Job := s.jobs.find? fun j => j.queue == q && j.state == .queued

/-- The job is at the head of its queue. -/
def State.isHead (s : State) (j : Job) : Bool := (s.headOf j.queue).map (fun h => h.id) == some j.id

/-- LOCK (R65). -/
def State.locked (s : State) : Bool := s.syn.state == .locked

/-- The field states in which the receive chain of the channel is active and the field is metered (R79, R44). -/
def FieldState.live : FieldState → Bool
  | .ramp | .on | .mod | .rxw | .down => true
  | .off | .settle | .fault => false

/-- Maintenance that keeps the receive chain active: image calibration and coupling measurement (R79, R199). -/
def MaintKind.usesRx : MaintKind → Bool
  | .imageCal | .coupling _ _ _ => true
  | .chTest | .recal | .phaseStep _ => false

/-- A maintenance job keeps the receive chain of channel `n` active. -/
def State.maintRx (s : State) (n : Nat) : Bool :=
  s.maint.any fun m => m.running && m.kind.usesRx && bitOf m.mask.toNat n

/-- Times of the beat of one channel grow by `ns` (R312). -/
def Chan.timePasses (c : Chan) (ns : Nat) (maint : Bool) : Chan :=
  { c with
    onNs := if c.field = .off then c.onNs else c.onNs + ns
    actNs := if c.field.live || maint then c.actNs + ns else c.actNs }

/-- `ns` nanoseconds pass: the field and receive times of the beat, the hold times of R72, and a lost lock is acquired
again (R65). -/
def State.elapse (s : State) (ns : Nat) : State :=
  let counts := s.syn.state != .off && !s.locked
  let syn := if s.syn.state = .lost then SynState.acq else s.syn.state
  let s1 : State := { s with
    syn := { s.syn with state := syn }
    jobs := s.jobs.map fun j =>
      if counts && j.state == .queued && s.isHead j then { j with holdNs := j.holdNs + ns } else j }
  s1.each (List.range 8) fun s n => s.modCh n fun c => c.timePasses ns (s1.maintRx n)

/-- NT counts: in RUN and IDLE with the crystal running (R330). -/
def State.ntRuns (s : State) : Bool :=
  s.pwr.xtal && !s.time.frozen && (s.pwr.state == .run || s.pwr.state == .idle)

/-- NT reaches `t`, and the carried fraction stays (log entry 94); NT never goes back by the passing of time, and where it
does not count it stays (R330). -/
def State.advanceTo (s : State) (t : BitVec 64) : State :=
  if !s.ntRuns || decide (t.toNat ≤ s.nt) then s
  else
    let s1 := s.elapse (t.toNat - s.nt)
    { s1 with time := { s1.time with nt := t } }.settleGate

/-- Increment of NT per crystal cycle in 2⁻⁴⁰ ns (R330): 36.873156 ns × (1 + RATE × 2⁻³²). -/
def State.cycleInc (s : State) : Nat :=
  ((2 ^ 40 * 36873156 * (2 ^ 32 + s.rdS R.TIME_RATE_RATE)) / (10 ^ 6 * 2 ^ 32)).toNat

/-- One cycle of the crystal (R330). NT wraps modulo 2⁶⁴. -/
def State.crystalCycle (s : State) : State :=
  let total := s.time.frac + s.cycleInc
  let ns := total / 2 ^ 40
  let s1 := s.elapse ns
  { s1 with time := { s1.time with nt := s1.time.nt + BitVec.ofNat 64 ns, frac := total % 2 ^ 40 } }.settleGate

/-- What an empty queue does: the device runs on by one crystal cycle. DESIGN CHOICE, log entry 3. -/
def idleTick (s : State) : State := if s.ntRuns then s.crystalCycle else s

/-! ## Steps and quality -/

/-- POOR as R340 gives, after UNC or STATE changed. -/
def State.evalPoor (s : State) : State :=
  if s.time.q != .free && decide (s.time.uncMax < s.time.unc) then
    if s.time.poor then s else { s with time := { s.time with poor := true } }.notifyAll 8
  else if (s.time.q == .track || s.time.q == .set) && decide (s.time.unc ≤ s.time.uncMax) then
    { s with time := { s.time with poor := false } }
  else s

/-- The instants that an exchange remembers, moved by a step of `d` (R341). -/
def Exch.moved (e : Exch) (d : BitVec 64) : Exch :=
  { e with startNt := e.startNt + d, closeNt := e.closeNt.map fun t => t + d }

/-- A number that is an NT in ns, moved by a step from `nt` to `t`. -/
def movedNs (nt t x : Nat) : Nat := x + t - nt

/-- The beats that an interval of NT touches are busy beats of the channels of lead `n`'s job: each counts once (R17). An end that
falls on a boundary touches the beat that begins there: DESIGN CHOICE, log entry 124. -/
def Chan.reserve (c : Chan) (beatNs start stop : Nat) : Chan :=
  let first := max c.busyTo (start / beatNs * beatNs)
  let last := (stop / beatNs + 1) * beatNs
  let c1 : Chan := { c with busyEnd := max c.busyEnd stop }
  if first < last then { c1 with busyTo := last, busyBeats := c.busyBeats + (last - first) / beatNs } else c1

/-- The grid of beats changes at NT `now`, which is `t` from then on: the reserved beats that have not begun are counted anew, of
period `new` and up to the NT `stop` in place of `busyEnd` (R9, R17, R341). -/
def Chan.regrid (c : Chan) (now t old new stop : Nat) : Chan :=
  if c.busyTo ≤ now then { c with busyTo := 0, busyEnd := 0 }
  else
    let begun := ceilDiv now old * old
    let next := ceilDiv t new * new
    ({ c with busyTo := next, busyEnd := 0, busyBeats := c.busyBeats - (c.busyTo - begun) / old } : Chan).reserve new next stop

/-- The instants that a channel remembers, moved by a step from `nt` to `t`; the beats that an exchange in progress is to keep
busy are those of the new NT (R17, R341). -/
def Chan.moved (c : Chan) (nt t : BitVec 64) (beatNs : Nat) : Chan :=
  { c.regrid nt.toNat t.toNat beatNs beatNs (movedNs nt.toNat t.toNat c.busyEnd) with
    exch := c.exch.map fun e : Exch => e.moved (t - nt), lastExch := c.lastExch.map fun e : Exch => e.moved (t - nt)
    onNt := c.onNt.map fun x => x + (t - nt), rampNt := c.rampNt + (t - nt) }

/-- The instants that a job remembers, moved by a step from `nt` to `t`. -/
def Job.moved (j : Job) (nt t : BitVec 64) : Job :=
  let m := movedNs nt.toNat t.toNat
  { j with
    queuedNt := j.queuedNt + (t - nt)
    write := { j.write with
      finalNt := m j.write.finalNt, endNt := m j.write.endNt, closeNt := m j.write.closeNt, probeNt := m j.write.probeNt }
    rom := { j.rom with firstNt := j.rom.firstNt.map fun x => x + (t - nt) } }

/-- A step of NT to `t` moves every instant that the device measures a duration from, since no time passes (R341): of
exchanges, jobs, maintenance, slews and spans. -/
def State.moveInstants (s : State) (t : BitVec 64) : State :=
  let d := t - s.time.nt
  let s1 : State := { s with
    time := { s.time with
      slewNt := s.time.slewNt + d, synco := s.time.synco.map fun x => x + d
      spanX := s.time.spanX.map fun x => x + d, spanR := s.time.spanR.map fun x => x + d }
    syn := { s.syn with slew := s.syn.slew.map fun x => { x with since := x.since + d } }
    maint := s.maint.map fun m => { m with since := m.since + d }
    drain := s.drain.map fun x => x + d
    jobs := s.jobs.map fun j => j.moved s.time.nt t }
  s1.each (List.range 8) fun s1 n => s1.modCh n fun c => c.moved s.time.nt t s.beatNs

/-- NT is stepped to `t` (R341). -/
def State.stepNt (s : State) (t : BitVec 64) (frac : Nat) : State :=
  let s0 := s.moveInstants t
  let s1 := { s0 with time := { s0.time with
    nt := t, frac := frac, uncNt := t, uncFrac := 0, minNt := t + BitVec.ofNat 64 (s.beatNs / 2) } }
  ((s1.setFlag R.TIME_STAT_STEPPED).bump R.TIME_CNT_1_N_STEP).settleGate

/-- UNC saturates at 0xFFFF_FFFF (R339). -/
def satUnc (u : Nat) : Nat := min u 0xFFFFFFFF

/-- TIME_SET NOW and OFFSET end in SET (R338). -/
def State.setTime (s : State) (t : BitVec 64) (frac unc : Nat) : State :=
  let s1 := s.stepNt t frac
  { s1 with time := { s1.time with q := .set, unc := satUnc unc, ambig := false } }.evalPoor

/-- RATE = clamp(FREQ + SLEW) (R336). -/
def State.putRate (s : State) : State :=
  s.wrS R.TIME_RATE_RATE (clampInt (-858993) 858993 (s.time.freq + s.time.slew))

/-- An armed AT_SYNCI is applied at a SYNCI edge (R333, R338). -/
def State.applyArmed (s : State) (v : BitVec 64) (unc : Word) : State :=
  let t := v + BitVec.ofInt 64 (s.rdS R.TIME_SYNCDLY_SYNCI_DLY_NS)
  let s1 := s.stepNt t 0
  { s1 with time := { s1.time with
    armed := none, q := .track, ambig := false, rejects := 0, pLast := t
    unc := satUnc (unc.toNat + s.rd R.TIME_QACC_SYNC_ACC_NS) } }.evalPoor

/-- An accepted edge with error `e` in 2⁻⁴⁰ ns; `third` is a third rejection (R335, R336, R338). -/
def State.acceptEdge (s : State) (e : Int) (third : Bool) : State :=
  let p : Int := s.syncNs
  let acc := s.rd R.TIME_QACC_SYNC_ACC_NS
  let steps := third || decide (s.rd R.TIME_STEP_STEP_NS * 2 ^ 40 ≤ e.natAbs)
  let s1 := s.bump R.TIME_CNT_0_N_SYNC
  let s2 :=
    if steps then
      let x : Int := s1.time.nt.toNat * 2 ^ 40 + s1.time.frac - e
      let a := s1.stepNt (BitVec.ofInt 64 (x / 2 ^ 40)) (x % 2 ^ 40).toNat
      { a with time := { a.time with unc := satUnc acc } }
    else
      { s1 with time := { s1.time with
        freq := s1.time.freq + (-e).tdiv (p * 2 ^ 8 * 2 ^ s.rd R.TIME_CTL_KI_SH)
        slew := (-e).tdiv (p * 2 ^ 8), slewNt := s1.time.nt
        unc := satUnc (acc + ceilDiv e.natAbs (2 ^ 40)) } }
  { s2 with time := { s2.time with q := .track, rejects := 0, pLast := s2.time.nt } }.putRate.evalPoor

/-- Time in ns that a slew takes to remove its error: a phase step is 1/1,024 of a carrier cycle (R63, R70). -/
def PhaseSlew.ns (x : PhaseSlew) : Nat := ceilDiv (x.err.natAbs * 10 ^ 17) (13560000 * 1024 * x.rate)

/-- Offset of the carrier frequency in 0.01 ppm that a slew makes at the present NT (R70). The device slews at SLEW_MAX, and a
positive error is removed by a lower frequency: DESIGN CHOICE, log entry 83. -/
def State.carrierSlew (s : State) : Int :=
  match s.syn.slew with
  | none => 0
  | some x => if (s.time.nt - x.since).toNat < x.ns then (if 0 ≤ x.err then -(x.rate : Int) else x.rate) else 0

/-- Phase error at the next grid instant after a SYNCI update (R70, R71): measured while DISC is 1. A small error, or any
error while STEP_EN is 0, starts a slew, which leaves LOCK at 1. -/
def State.phaseUpdate (s : State) (ph : BitVec 10) : State :=
  if !s.isOn R.SYN_CTL_DISC then s
  else
    let s1 := (s.wr R.SYN_PHERR_ERR ph.toNat).setFlag R.SYN_PHERR_VALID
    let e := toSigned 10 ph.toNat
    if e.natAbs ≤ s.rd R.SYN_DISC_STEP_THR || !s.isOn R.SYN_CTL_STEP_EN then
      { s1 with syn := { s1.syn with
          slew := if e = 0 then none else some { err := e, rate := s.rd R.SYN_DISC_SLEW_MAX, since := s.time.nt } } }
    else if s1.maint.any fun m => match m.kind with | .phaseStep _ => true | _ => false then
      { s1 with maint := s1.maint.map fun m =>
        match m.kind with | .phaseStep _ => { m with kind := .phaseStep ph } | _ => m }
    else s1.addMaint { kind := .phaseStep ph, mask := 0, since := s1.time.nt }

/-- e of an edge at the timestamp `ts` with the fraction that NT carries, in 2⁻⁴⁰ ns (R335). -/
def State.edgeError (s : State) (ts : BitVec 64) : Int :=
  let p : Int := s.syncNs * 2 ^ 40
  let c : Int := (ts.toNat - s.rdS R.TIME_SYNCDLY_SYNCI_DLY_NS) * 2 ^ 40 + s.time.frac
  c - (c + p / 2) / p * p

/-- A SYNCI edge that goes to the servo (R335, R336). -/
def State.servoEdge (s : State) (ts : BitVec 64) (ph : BitVec 10) : State :=
  let e := s.edgeError ts
  let s0 := s.wrS R.TIME_PHERR_E (clampInt (-(2 ^ 31)) (2 ^ 31 - 1) (e.tdiv (2 ^ 40)))
  let win := s.rd R.TIME_SYNC_CAPT_NS + s.time.unc
  if s.syncNs ≤ 2 * win then { s0 with time := { s0.time with ambig := true } }
  else if e.natAbs ≤ win * 2 ^ 40 then (s0.acceptEdge e false).phaseUpdate ph
  else
    let s1 := (s0.setFlag R.TIME_STAT_REJ_SEEN).bump R.TIME_CNT_0_N_REJ
    if 2 ≤ s.time.rejects then (s1.acceptEdge e true).phaseUpdate ph
    else { s1 with time := { s1.time with rejects := s1.time.rejects + 1 } }

/-! ## Commands -/

/-- SYNC_PER_MS applies from the next SYNCI edge (R358). -/
def State.takePeriod (s : State) : State := { s with time := { s.time with syncMs := s.rd R.TIME_SYNC_SYNC_PER_MS } }

/-- A SYNCI rising edge (R334). -/
def execSynciEdge (ts : BitVec 64) (ph : BitVec 10) (s : State) : Host.Outcome State Fault Refusal :=
  if !s.ntRuns then .next s
  else
    let s1 := (s.advanceTo ts).takePeriod
    match s1.time.armed with
    | some (v, unc) => .next (s1.applyArmed v unc)
    | none =>
      if s1.isOn R.TIME_CTL_SERVO && s1.time.q != .free then .next (s1.servoEdge ts ph) else .next s1

/-- One period has passed since SLEW was set (R336). -/
def State.slewOver (s : State) : Bool := decide (s.syncNs ≤ (s.time.nt - s.time.slewNt).toNat)

/-- SLEW returns to 0 one period after the update (R336). -/
def execSlewEnd (nt : BitVec 64) (s : State) : Host.Outcome State Fault Refusal :=
  let s1 := s.advanceTo nt
  if !s.ntRuns ∨ s1.time.slew = 0 ∨ !s1.slewOver then .next s1
  else
    let s2 : State := { s1 with time := { s1.time with slew := 0 } }
    .next (if s2.isOn R.TIME_CTL_SERVO then s2.putRate else s2)

/-- TRACK without an accepted edge by P_last + 2 × P (R338). -/
def execHoldoverTimeout (nt : BitVec 64) (s : State) : Host.Outcome State Fault Refusal :=
  let s1 := s.advanceTo nt
  if s.ntRuns && s1.time.q == .track && decide (s1.time.pLast.toNat + 2 * s1.syncNs ≤ s1.nt) then
    .next ({ s1 with time := { s1.time with q := .holdover, uncNt := s1.time.nt, uncFrac := 0 } }.bump
      R.TIME_CNT_1_N_HOLD)
  else .next s1

/-- W of R353. -/
def State.widen (s : State) : Nat :=
  if s.isOn R.GATE_CTL_WIDEN && s.time.q != .free then ceilDiv s.time.unc 1000 else 0

/-- The 1 ms update of UNC, POOR and W (R339, R340, R353); while NT does not count there is none. -/
def execUncUpdate (nt : BitVec 64) (s : State) : Host.Outcome State Fault Refusal :=
  if !s.ntRuns then .next s
  else
    let s1 := s.advanceTo nt
    let grows := s1.time.q == .set || s1.time.q == .holdover || s1.time.q == .slept
    let total := s1.time.uncFrac + s1.rd R.TIME_QACC_HOLD_PPB * (s1.nt - s1.time.uncNt.toNat)
    let s2 :=
      if grows then { s1 with time := { s1.time with
        unc := satUnc (s1.time.unc + total / 10 ^ 9), uncFrac := total % 10 ^ 9 } }
      else s1
    let s3 := { s2 with time := { s2.time with uncNt := s2.time.nt, uncMax := s2.rd R.TIME_UNCMAX_UNC_MAX } }.evalPoor
    .next { s3 with time := { s3.time with w := s3.widen } }

/-- SYNCO may be high (R337). -/
def State.syncoAllowed (s : State) : Bool := s.isOn R.TIME_CTL_SYNCO_EN && s.time.q != .free && s.ntRuns

/-- Level of SYNCO (R337). -/
def State.syncoHigh (s : State) : Bool := s.time.synco.isSome && s.syncoAllowed

/-- SYNCO is low: its pulse is over (R337). -/
def State.endSynco (s : State) : State := { s with time := { s.time with synco := none } }

/-- SYNCO rises at an NT multiple of P (R337). -/
def execSyncoPulse (nt : BitVec 64) (s : State) : Host.Outcome State Fault Refusal :=
  let s1 := s.advanceTo nt
  .next (if s1.syncoAllowed && s1.nt % s1.syncNs == 0 then { s1 with time := { s1.time with synco := some s1.time.nt } } else s1)

/-- SYNCO falls SYNCO_W_US after its rise (R337): NT has reached that instant. -/
def execSyncoPulseEnd (s : State) : Host.Outcome State Fault Refusal :=
  match s.time.synco with
  | none => .next s
  | some t => .next (s.advanceTo (t + BitVec.ofNat 64 (s.rd R.TIME_SYNCDLY_SYNCO_W_US * 1000))).endSynco

/-- A pending list change reaches its change time (R350). -/
def execGateChange (nt : BitVec 64) (s : State) : Host.Outcome State Fault Refusal :=
  .next (s.advanceTo nt)

end Sys2Proof.Machine
end

