-- ==== Sys2Proof/Machine/Table.lean ====
section
/-!
DEFINITION. The inventory table (chapter 4): entries in SRAM, lookup, merge, ageing, eviction, and the records and
summary that routines report.
-/

namespace Sys2Proof.Machine

/-- Entries of the table (R134). -/
def tableSize : Nat := 16384

/-- A table entry, field by field (R134). -/
structure TabEntry where
  id : List Byte := []
  proto : Nat := 0
  infoPart : Bool := false
  valid : Bool := false
  volatile : Bool := false
  sigOk : Bool := false
  sigBad : Bool := false
  resolved : Bool := false
  locValid : Bool := false
  multi : Bool := false
  lock : Bool := false
  info : Nat := 0
  keyIdx : Nat := 0
  pkIdx : Nat := 0
  firstMs : Nat := 0
  lastMs : Nat := 0
  rssi : Nat := 0
  ch : Nat := 0
  coil : Nat := 0
  seen : Nat := 0
  locConf : Nat := 0
  locX : Nat := 0
  locY : Nat := 0
  deriving DecidableEq, Repr

/-- The 32 bytes of an entry (R134). Unused identifier bytes are zero. -/
def TabEntry.bytes (e : TabEntry) : List Byte :=
  let flags := e.valid.toNat + 2 * e.volatile.toNat + 4 * e.sigOk.toNat + 8 * e.sigBad.toNat
    + 16 * e.resolved.toNat + 32 * e.locValid.toNat + 64 * e.multi.toNat + 128 * e.lock.toNat
  padTo 10 e.id ++ leBytes 1 (e.id.length + 16 * e.proto + 128 * e.infoPart.toNat) ++ leBytes 1 flags
    ++ leBytes 4 (e.info % 2 ^ 16 + 2 ^ 16 * e.keyIdx + 2 ^ 26 * e.pkIdx)
    ++ leBytes 4 e.firstMs ++ leBytes 4 e.lastMs
    ++ leBytes 4 (e.rssi + 2 ^ 10 * e.ch + 2 ^ 13 * e.coil + 2 ^ 16 * e.seen + 2 ^ 24 * e.locConf)
    ++ leBytes 4 (e.locX + 2 ^ 16 * e.locY)

/-- The entry at an index. -/
def State.tab (s : State) (i : Nat) : TabEntry :=
  let a := 32 * i
  let b10 := (s.sb (a + 10)).toNat
  let b11 := (s.sb (a + 11)).toNat
  let w3 := s.snat (a + 12) 4
  let w6 := s.snat (a + 24) 4
  { id := s.sbytes a (b10 % 16), proto := bitsOf b10 4 3, infoPart := bitOf b10 7
    valid := bitOf b11 0, volatile := bitOf b11 1, sigOk := bitOf b11 2, sigBad := bitOf b11 3
    resolved := bitOf b11 4, locValid := bitOf b11 5, multi := bitOf b11 6, lock := bitOf b11 7
    info := bitsOf w3 0 16, keyIdx := bitsOf w3 16 10, pkIdx := bitsOf w3 26 5
    firstMs := s.snat (a + 16) 4, lastMs := s.snat (a + 20) 4
    rssi := bitsOf w6 0 10, ch := bitsOf w6 10 3, coil := bitsOf w6 13 3, seen := bitsOf w6 16 8
    locConf := bitsOf w6 24 8, locX := s.snat (a + 28) 2, locY := s.snat (a + 30) 2 }

/-- Write an entry as one 32-byte unit (R137). -/
def State.putTab (s : State) (i : Nat) (e : TabEntry) : State := s.swrite (32 * i) e.bytes

/-- Entry `i` is in use. -/
def State.tabValid (s : State) (i : Nat) : Bool := bitOf (s.sb (32 * i + 11)).toNat 0

/-- Indices in use, ascending: entries whose byte with VALID is listed in the memory. -/
def State.tabUsed (s : State) : List Nat :=
  (s.sram.filter fun c => decide (c.1 < 32 * tableSize) && c.1 % 32 == 11 && bitOf c.2.toNat 0).map fun c => c.1 / 32

/-- Lowest natural number from `i` on that an ascending list lacks. -/
def lowestFree : List Nat → Nat → Nat
  | [], i => i
  | u :: us, i => if u = i then lowestFree us (i + 1) else if i < u then i else lowestFree us i

/-- Low 32 bits of NT in ms. -/
def State.ntMs (s : State) : Nat := s.nt / 1000000 % 2 ^ 32

/-- Age of an entry; an age of 2³¹ or more counts as zero (R139). -/
def State.ageOf (s : State) (e : TabEntry) : Nat :=
  let a := (s.ntMs + 2 ^ 32 - e.lastMs) % 2 ^ 32
  if a < 2 ^ 31 then a else 0

/-- The record of a sighting that was not stored, or whose entry has been freed (R142, R168, R238): DROPPED, and UNRES of a
pseudonym that CRY did not resolve. Its other words are zero, and NEW is 0: DESIGN CHOICE, log entry 130. -/
def droppedRecord (unres : Bool) : List Byte :=
  List.replicate 16 0 ++ leBytes 4 (2 ^ 15 + 2 ^ 16 * unres.toNat) ++ List.replicate 12 0

/-- Entry `i` is freed: a record that waits for it shows DROPPED (R238). -/
def OutItem.forget (i : Nat) (unres : Bool) (it : OutItem) : OutItem := if it = .record i then .image (droppedRecord unres) else it

/-- Entry `i` is freed: a signature request for it delivers nothing (R141, R149). -/
def CryReq.forget (i : Nat) (r : CryReq) : CryReq := if r.entry = i ∧ r.sig then { r with dead := true } else r

/-- Entry `i` is freed: the buffer of a sequencer, and the request that it waits to make. -/
def Seq.forget (i : Nat) (unres : Bool) (q : Seq) : Seq :=
  { q with
    out := q.out.map (OutItem.forget i unres)
    run := match q.run with | .blocked (.sigq r) => .blocked (.sigq (r.forget i)) | r => r }

/-- Free an entry: it reads zero, its bit clears in every sighted map, and a locate or a signature request for it has no
entry left (R134, R141, R149, R210). FULL clears, at an eviction too, whose index is used again at once: DESIGN CHOICE, log entry
111. -/
def State.freeTab (s : State) (i : Nat) : State :=
  let s1 := s.swrite (32 * i) (List.replicate 32 0)
  let u (n : Nat) : Bool := (s.ch n).inv.unres.contains i
  let s2 := s1.each (List.range 8) fun s n => (s.modInv n fun c => { c with
    sighted := c.sighted.filter (· != i), news := c.news.filter (· != i) }).modSeq n (Seq.forget i (u n))
  let s3 : State := { s2 with locQ := s2.locQ.map fun q : LocReq => if q.entry = some (some i) then { q with entry := some none } else q }
  let s4 : State := { s3 with
    cry := { s3.cry with queue := s3.cry.queue.map (CryReq.forget i), ecc := s3.cry.ecc.map (CryReq.forget i) }
    jobs := s3.jobs.map fun j => { j with
      ended := j.ended.map fun e => { e with payload := e.payload.map (OutItem.forget i (u (leadOf j.mask))) } } }
  s4.wr R.INV_STAT_FULL 0

/-- Identity of an entry and of a sighting agree (R135). -/
def sameIdentity (e : TabEntry) (x : Sighting) : Bool :=
  e.valid && e.proto == x.proto.toNat && e.id == x.id && e.volatile == x.volatile &&
    (!x.volatile || (e.ch == x.ch.val && e.coil == x.coil.toNat))

/-- Entry with the identity of a sighting. -/
def State.findTab (s : State) (x : Sighting) : Option Nat := s.tabUsed.find? fun i => sameIdentity (s.tab i) x

/-- Entry with the greatest age among indices; ties go to the first. -/
def State.oldest (s : State) : List Nat → Option Nat
  | [] => none
  | i :: is =>
    match s.oldest is with
    | none => some i
    | some j => if s.ageOf (s.tab j) ≤ s.ageOf (s.tab i) then some i else some j

/-- The entry to evict (R140). -/
def State.victim (s : State) : Option Nat :=
  let ok := s.tabUsed.filter fun i => !(s.tab i).lock && s.chans.toList.all fun c => !c.inv.sighted.contains i
  match s.oldest (ok.filter fun i => (s.tab i).volatile) with
  | some i => some i
  | none => s.oldest ok

/-- An index for a new entry: the lowest free one, or that of an evicted entry (R135, R140). -/
def State.takeIndex (s : State) : State × Option Nat :=
  let i := lowestFree s.tabUsed 0
  if i < tableSize then (s, some i)
  else
    match s.victim with
    | none => (s, none)
    | some v => ((s.freeTab v).bump R.INV_CNT_1_N_EVICT, some v)

/-- Lead channel of a job, for its inventory context. -/
def State.leadOfJob (s : State) (id : Nat) : Option Nat :=
  (s.job? id).bind fun j => if j.state.holds then some (leadOf j.mask) else none

/-- INFO after a sighting: known values replace (R136). -/
def newInfo (e : TabEntry) (x : Sighting) : Nat × Bool :=
  if x.infoPart then
    if e.infoPart || !e.valid then (x.info.toNat / 256 * 256 + e.info % 256, true)
    else (x.info.toNat / 256 * 256 + e.info % 256, false)
  else (x.info.toNat, false)

/-- An entry as a sighting leaves it (R136); `first` is the first sighting of the identity in its job. -/
def mergedEntry (e : TabEntry) (x : Sighting) (first : Bool) (ms : Nat) : TabEntry :=
  let r := min x.rssi 1023
  let inf := newInfo e x
  let base :=
    if !e.valid then
      { id := x.id, proto := x.proto.toNat, valid := true, volatile := x.volatile, firstMs := ms, lastMs := ms
        seen := 1, ch := x.ch.val, coil := x.coil.toNat, rssi := r }
    else if first then
      { e with lastMs := ms, seen := min (e.seen + 1) 255, ch := x.ch.val, coil := x.coil.toNat, rssi := r, multi := false }
    else if e.ch = x.ch.val ∧ e.coil = x.coil.toNat then { e with lastMs := ms, rssi := max e.rssi r }
    else if e.rssi < r then
      { e with lastMs := ms, multi := true, ch := x.ch.val, coil := x.coil.toNat, rssi := r }
    else { e with lastMs := ms, multi := true }
  let withInfo := { base with info := inf.1, infoPart := inf.2 }
  match x.key with
  | none => withInfo
  | some k => { withInfo with resolved := true, keyIdx := k }

/-- Identity of a sighting as the job counts it. -/
def identityOf (x : Sighting) : TagIdent :=
  (x.proto, x.id, if x.volatile then some (x.ch, x.coil) else none)

/-- The same identity, of an entry. -/
def TabEntry.ident (e : TabEntry) : TagIdent :=
  (BitVec.ofNat 3 e.proto, e.id, if e.volatile then some (Fin.ofNat 8 e.ch, BitVec.ofNat 3 e.coil) else none)

/-- The locate of a sighting learns the entry that holds it (R210). -/
def State.bindLocate (s : State) (x : Sighting) (i : Option Nat) : State :=
  { s with locQ := s.locQ.map fun q => if x.loc = some q.serial then { q with entry := some i } else q }

/-- Merge a sighting (R135, R136, R140): the state, and the index with NEW, or none when it is not stored. -/
def State.mergeIntoTable (s : State) (x : Sighting) : State × Option (Nat × Bool) :=
  let lead := s.leadOfJob x.job
  let note (s : State) (g : InvCtx → InvCtx) : State :=
    match lead with
    | none => s
    | some n => s.modInv n fun c => g { c with
        ids := if c.ids.contains (identityOf x) then c.ids else c.ids ++ [identityOf x]
        unresIds := if x.cry == some false then identityOf x :: c.unresIds else c.unresIds }
  match s.findTab x with
  | some i =>
    let first := match lead with
      | none => true
      | some n => !(s.ch n).inv.sighted.contains i
    let s1 := (s.putTab i (mergedEntry (s.tab i) x first s.ntMs)).bump R.INV_CNT_0_N_MERGE
    (note s1 fun c => { c with
      sighted := if c.sighted.contains i then c.sighted else c.sighted ++ [i]
      unres := if x.cry == some false && !c.unres.contains i then c.unres ++ [i] else c.unres }, some (i, false))
  | none =>
    match s.takeIndex with
    | (s1, none) =>
      (note ((s1.setFlag R.INV_STAT_FULL).bump R.INV_CNT_2_N_DROP) fun c => { c with nDropx := c.nDropx + 1 }, none)
    | (s1, some i) =>
      let s2 := (s1.putTab i (mergedEntry {} x true s.ntMs)).bump R.INV_CNT_0_N_NEW
      (note s2 fun c => { c with
        sighted := c.sighted ++ [i], news := c.news ++ [i], nNew := c.nNew + 1
        unres := if x.cry == some false then c.unres ++ [i] else c.unres.filter (· != i) }, some (i, true))

/-- Merge a sighting, and tell its locate. -/
def State.mergeSighting (s : State) (x : Sighting) : State × Option (Nat × Bool) :=
  let r := s.mergeIntoTable x
  (r.1.bindLocate x (r.2.map Prod.fst), r.2)

/-! ## Records and summary (R142, R143, R238) -/

/-- Handle of a held sighting (R235). -/
def heldHandle : Nat := 0x4000

/-- The 32-byte record of an entry (R142). -/
def State.recordOf (s : State) (c : InvCtx) (i : Nat) : List Byte :=
  let e := s.tab i
  if e.valid then
    let w4 := i % 2 ^ 14 + 2 ^ 14 * (c.news.contains i).toNat + 2 ^ 16 * (c.unresIds.contains e.ident).toNat
    e.bytes.take 16 ++ leBytes 4 w4 ++ e.bytes.drop 20
  else droppedRecord (c.unres.contains i)

/-- The 16-byte summary (chapter 4), with the number of records in its entry. -/
def summaryBytes (c : InvCtx) (nRec : Nat) : List Byte :=
  let h v := leBytes 2 (min v 65535)
  h nRec ++ h c.ids.length ++ h c.nExch ++ h c.nCollx ++ h c.nNew ++ h c.nDropx
    ++ leBytes 1 (min c.stackLeft 255) ++ [0, 0, 0]

/-- Requests of a job to CRY that have not delivered (R149): queued, running, or waiting to be merged. -/
def State.cryWork (s : State) (id : Nat) : List CryReq :=
  (s.cry.queue ++ s.cry.ecc.toList ++ s.cry.aes.toList).filter fun r => r.job == id

/-- CRY work of a job is outstanding (R19, R149). -/
def State.cryOutstanding (s : State) (id : Nat) : Bool :=
  !(s.cryWork id).isEmpty || s.mergeQ.any fun x => x.job == id && x.cry.isSome

/-- Sightings of a job have yet to be merged (R114, R133). -/
def State.mergesDue (s : State) (id : Nat) : Bool :=
  (s.mergeQ.any fun x => x.job == id) || ((s.job? id).map fun j => !j.late.isEmpty) == some true

/-- CRY work or a locate requested for entry `i` by the job is outstanding (R142, R211). -/
def State.cryPendingFor (s : State) (id i : Nat) : Bool :=
  (s.cryWork id).any (fun r => r.entry == i && !r.dead) || s.locQ.any fun q => q.job == id && q.entry == some (some i)

/-- Length of an item of the result buffer. -/
def OutItem.len : OutItem → Nat
  | .byte _ => 1
  | .record _ => 32
  | .image b => b.length
  | .summary => 16

/-- Bytes in a result buffer. -/
def outLen (l : List OutItem) : Nat := (l.map OutItem.len).sum

/-- Take the images that can be taken now (R142, R238). -/
def State.fillItems (s : State) (id : Nat) (c : InvCtx) (l : List OutItem) : List OutItem :=
  l.map fun it =>
    match it with
    | .record i => if heldHandle ≤ i || s.cryPendingFor id i then it else .image (s.recordOf c i)
    | _ => it

/-- Every reserved image is filled (R238). -/
def imagesFilled (l : List OutItem) : Bool :=
  l.all fun it => match it with | .record _ => false | _ => true

/-- An item is a record, filled or not. -/
def OutItem.isRecord : OutItem → Bool
  | .record _ => true
  | .image _ => true
  | _ => false

/-- Records of a result buffer: reserved or filled. -/
def countRecords (l : List OutItem) : Nat := (l.filter OutItem.isRecord).length

/-- The bytes of a result buffer when its entry is written (R238). -/
def outBytes (c : InvCtx) (l : List OutItem) : List Byte :=
  l.flatMap fun it =>
    match it with
    | .byte b => [b]
    | .record i => droppedRecord (c.unres.contains i)
    | .image b => b
    | .summary => summaryBytes c (countRecords l)

/-- A record that named a handle names the entry, or shows that nothing was stored; `failed` when its token is unresolved. -/
def bindItem (handle : Nat) (r : Option Nat) (failed : Bool) (it : OutItem) : OutItem :=
  match it with
  | .record i => if i = handle then (match r with | none => .image (droppedRecord failed) | some k => .record k) else it
  | _ => it

/-- A request for a signature that named a handle names the entry; it is dropped when the token is unresolved (R158) or
nothing was stored. -/
def bindReq (id handle : Nat) (r : Option Nat) (failed : Bool) (x : CryReq) : Option CryReq :=
  if x.job = id ∧ x.entry = handle ∧ x.sig then
    if failed then none else r.map fun k => { x with entry := k }
  else some x

/-- What a sequencer that waits for queue space does when the handle it names is bound. -/
def bindBlock (id handle : Nat) (r : Option Nat) (failed : Bool) (q : Seq) : Seq :=
  match q.run with
  | .blocked (.sigq x) =>
    match bindReq id handle r failed x with
    | some y => { q with run := .blocked (.sigq y) }
    | none => { q with run := .run, pc := q.pc + 1 }
  | _ => q

/-- A held sighting of a job has been merged: records and requests that named its handle name the entry. -/
def State.bindHeld (s : State) (n id handle : Nat) (r : Option Nat) (failed : Bool) : State :=
  let s1 := s.modSeq n fun q => bindBlock id handle r failed { q with out := q.out.map (bindItem handle r failed) }
  let s2 := s1.modJob id fun j => { j with ended := j.ended.map fun e => { e with payload := e.payload.map (bindItem handle r failed) } }
  { s2 with cry := { s2.cry with queue := s2.cry.queue.filterMap (bindReq id handle r failed) } }

end Sys2Proof.Machine
end

