-- ==== Sys2Proof/Machine/Jobs.lean ====
section
/-!
DEFINITION. The life of a job (chapter 1): result rings and entries, the pools, ownership, the ends of a job, and
what its end does to the field.
-/

namespace Sys2Proof.Machine

/-! ## Air result codes (R27) -/

/-- DONE. -/
def rcDone : Byte := 0x00
/-- NO_TAG. -/
def rcNoTag : Byte := 0x01
/-- CRC_FAIL. -/
def rcCrcFail : Byte := 0x02
/-- COLLISION_UNRESOLVED. -/
def rcCollision : Byte := 0x03
/-- FIELD_LOST. -/
def rcFieldLost : Byte := 0x04
/-- NOT_WRITTEN. -/
def rcNotWritten : Byte := 0x05
/-- WRITE_UNKNOWN. -/
def rcWriteUnknown : Byte := 0x06
/-- VERIFY_FAIL. -/
def rcVerifyFail : Byte := 0x07
/-- SIG_INVALID. -/
def rcSigInvalid : Byte := 0x08
/-- PRIV_UNRESOLVED. -/
def rcPrivUnresolved : Byte := 0x09
/-- DEADLINE_MISSED. -/
def rcDeadline : Byte := 0x0A
/-- SYN_LOCK_TIMEOUT. -/
def rcSynTimeout : Byte := 0x0C
/-- FLUSHED. -/
def rcFlushed : Byte := 0x0D
/-- ABORTED_HOST. -/
def rcAborted : Byte := 0x0E
/-- ROUTINE_FAULT. -/
def rcFault : Byte := 0x0F
/-- BEAT_OVERRUN. -/
def rcOverrun : Byte := 0x10
/-- THERMAL_ABORT. -/
def rcThermal : Byte := 0x11
/-- LOST_BY_RESET. -/
def rcLost : Byte := 0x12
/-- TAG_ERROR. -/
def rcTagError : Byte := 0x13

/-! ## Descriptor fields (R260) -/

/-- A word of a job's descriptor. -/
def Job.word (j : Job) (i : Nat) : Word := j.desc.getD i 0
/-- Routine ID. -/
def Job.routine (j : Job) : Nat := getBits (j.word 0) 0 10
/-- CLASS. -/
def Job.cls (j : Job) : Nat := getBits (j.word 0) 10 2
/-- CHMASK. -/
def Job.chmask (j : Job) : BitVec 8 := BitVec.ofNat 8 (getBits (j.word 0) 12 8)
/-- COIL. -/
def Job.coil (j : Job) : Nat := getBits (j.word 0) 20 3
/-- SWARM. -/
def Job.swarm (j : Job) : Bool := bitOf (j.word 0).toNat 23
/-- DL_EN. -/
def Job.dlEn (j : Job) : Bool := bitOf (j.word 0).toNat 24
/-- ENERGY_EST. -/
def Job.energyEst (j : Job) : Nat := getBits (j.word 1) 0 24
/-- DEADLINE. -/
def Job.deadline (j : Job) : Nat := (j.word 2).toNat
/-- RING. -/
def Job.ringNo (j : Job) : Nat := getBits (j.word 3) 0 5
/-- COOKIE. -/
def Job.cookie (j : Job) : Nat := getBits (j.word 3) 8 24
/-- PPTR. -/
def Job.pptr (j : Job) : Nat := (j.word 6).toNat
/-- PLEN. -/
def Job.plen (j : Job) : Nat := getBits (j.word 7) 0 15
/-- Lead channel. -/
def Job.lead (j : Job) : Nat := leadOf j.mask

/-- Class by number (R260). -/
def classOf (k : Nat) : JobClass := if k = 0 then .gold else if k = 1 then .silver else if k = 2 then .bronze else .iron

/-! ## Ownership (R450) and RES_READY (R292) -/

/-- Owner port that a word of an ownership table names for slot `i`. -/
def ownerIn (w : Word) (i : Nat) : Option Nat := if bitOf w.toNat (4 * i + 2) then some (getBits w (4 * i) 2) else none

/-- Owner of a queue. -/
def State.queueOwner (s : State) (q : Nat) : Option Nat := ownerIn (s.rdWord (R.PROT_QOWN (q / 8))) (q % 8)

/-- Owner of a ring. -/
def State.ringOwner (s : State) (r : Nat) : Option Nat := ownerIn (s.rdWord (R.PROT_ROWN (r / 8))) (r % 8)

/-- RES_READY is pending for a port: some ring it owns holds an unreleased entry (R292). -/
def State.resReady (s : State) (p : Nat) : Bool :=
  (List.range 32).any fun r => s.ringOwner r == some p && !(s.ring r).entries.isEmpty

/-- The pending set of a port: its latched events and the level notice (R31, R32). -/
def State.pendSet (s : State) (p : Nat) : Nat := s.pend p / 2 * 2 + (s.resReady p).toNat

/-- Pending set ANDed with the mask. -/
def State.pendMasked (s : State) (p : Nat) : Nat := s.pendSet p &&& s.rd (R.HOST_NMASK_MASK p)

/-- HnATTN_N is low: an unmasked notice is pending (R33). Up to BOOT and in OFF it is not driven low (R489). -/
def State.attn (s : State) (p : Nat) : Bool := s.pendMasked p != 0 && s.boot == .started && s.pwr.state != .off

/-! ## Result rings (R287 to R291) -/

/-- Units of an entry. -/
def unitsOf (e : EntryBytes) : Nat := ceilDiv e.length 16

/-- Units of the entries not yet released. -/
def RingSt.used (r : RingSt) : Nat := (r.entries.map unitsOf).sum

/-- SIZE of an enabled ring, else 0. -/
def State.ringSize (s : State) (r : Nat) : Nat := if s.isOn (R.RES_CFG_EN r) then s.rd (R.RES_CFG_SIZE r) else 0

/-- FREE units (R287). -/
def State.ringFree (s : State) (r : Nat) : Nat := s.ringSize r - (s.ring r).resv - (s.ring r).used

/-- Header of a result entry (R25). -/
def entryHeader (cookie : Nat) (rc : Byte) (routine ch coil mask flags : Nat) (ntStart : Word) (len : Nat)
    (detail : BitVec 16) : List Byte :=
  leBytes 4 (cookie + 2 ^ 24 * rc.toNat)
    ++ leBytes 4 (routine + 2 ^ 10 * ch + 2 ^ 13 * coil + 2 ^ 16 * mask + 2 ^ 24 * flags)
    ++ leBytes 4 ntStart.toNat ++ leBytes 4 (len + 2 ^ 16 * detail.toNat)

/-- FLAGS of an entry (R26), from bit 24. -/
def entryFlags (final receipt partialE debt cut swarm restart : Bool) : Nat :=
  final.toNat + 2 * receipt.toNat + 4 * partialE.toNat + 8 * debt.toNat + 16 * cut.toNat + 32 * swarm.toNat
    + 64 * restart.toNat

/-- Post an entry: it takes its units out of `units` reserved ones, whose rest returns to FREE (R287). -/
def State.postEntry (s : State) (r units : Nat) (hdr payload : List Byte) : State :=
  let e := hdr ++ padTo (ceilDiv payload.length 16 * 16) payload
  let s1 := s.modRing r fun g => { g with entries := g.entries ++ [e], resv := g.resv - units }
  { s1 with ringsUsed := true }.bump (R.RES_CNT_N_POST r)

/-- Take reserved units. -/
def State.reserveUnits (s : State) (r n : Nat) : State := s.modRing r fun g => { g with resv := g.resv + n }

/-- Return reserved units. -/
def State.returnUnits (s : State) (r n : Nat) : State := s.modRing r fun g => { g with resv := g.resv - n }

/-! ## Depth and watermarks (R279, R281) -/

/-- Depth of a queue: its QUEUED jobs. -/
def State.depth (s : State) (q : Nat) : Nat := (s.jobs.filter fun j => j.queue == q && j.state == .queued).length

/-- A watermark crossing when the depth has risen to WM (R281). -/
def State.crossing (s : State) (q : Nat) : State :=
  let wm := s.rd (R.SCHED_QWM_WM q)
  if wm != 0 && s.depth q == wm then
    let s1 := (s.setFlag (R.SCHED_QSTAT_WM_HIT q)).modQu q fun u => { u with wmCount := min (u.wmCount + 1) 255 }
    match s1.queueOwner q with
    | none => s1
    | some p => s1.notify p 1
  else s

/-! ## The field at the end of a job (R49) -/

/-- Set the field state of a channel. -/
def State.setField (s : State) (n : Nat) (f : FieldState) : State := s.modCh n fun c => { c with field := f }

/-- The field of a channel begins to ramp down from the amplitude now driven (R49). -/
def State.startDown (s : State) (n : Nat) : State :=
  s.modCh n fun c => { c with field := .down, rampNt := s.time.nt, rampTo := s.rd (R.CH_TXAMP_AMP_NOW n) }

/-- A field-off request or end of job on channel `n` (R49): ON falls at once; RAMP, MOD and RXW when they reach ON;
a request that waits in SETTLE is dropped. DEDUCED for RAMP, log entry 20. -/
def State.stopField (s : State) (n : Nat) : State :=
  match (s.ch n).field with
  | .on => (s.modCh n fun c => { c with
      calib := false, wantOff := false, wantOn := false, settleTicks := 0 }).startDown n
  | .ramp | .mod | .rxw => s.modCh n fun c => { c with wantOff := true, wantOn := false }
  | .settle | .off | .down | .fault => s.modCh n fun c => { c with wantOn := false, wantOff := false }

/-- Stop the fields of a mask. -/
def State.stopFields (s : State) (m : BitVec 8) : State := s.each (maskList m) fun s n => s.stopField n.val

/-- Reserve an interval on every channel that the job of lead `n` holds (R17). -/
def State.reserveBeats (s : State) (n start stop : Nat) : State :=
  match s.jobLead n with
  | none => s
  | some j => s.each (maskList j.mask) fun s m => s.modCh m.val fun c => c.reserve s.beatNs start stop

/-- The beat of channel `n` that begins at NT `t` is reserved (R17). -/
def State.busyBeat (s : State) (n t : Nat) : Bool := decide (s.nt < (s.ch n).busyTo) && decide (t < (s.ch n).busyTo)

/-- No exchange is in progress on the lead channel (chapter 1). -/
def State.noExchange (s : State) (n : Nat) : Bool := (s.ch n).exch.isNone

/-- The exchange of lead channel `n` ends: it counts once for its job, and once as late when it outlasted the
declared worst case (R18, R249). It lasted to the close of its last window; the busy beats of one that was continued run to
that close (R228), and those of any other to its declared worst-case end (R17). -/
def State.endExchange (s : State) (n : Nat) : State :=
  match (s.ch n).exch with
  | none => s
  | some e =>
    let wcx := ((s.jobLead n).map fun j => j.decl.wcx).getD 0
    let stop := (e.closeNt.map fun t => t.toNat).getD s.nt
    let isLate := decide (wcx * 1000 < stop - e.startNt.toNat)
    let s0 := if e.contd then s.reserveBeats n e.startNt.toNat stop else s
    let s1 := if isLate && !e.late then s0.bump (R.CSQ_CNT_N_LATE n) else s0
    let s2 := s1.modCh n fun c =>
      { c with exch := none, lastExch := some { e with counted := true, late := e.late || isLate } }
    if e.counted then s2
    else
      match s2.jobLead n with
      | none => s2
      | some j => s2.modJob j.id fun k => { k with exchBeat := k.exchBeat + 1, exchAll := k.exchAll + 1 }

/-- Empty both FIFOs of a channel and set their pointers to zero (R107). -/
def State.clearFifos (s : State) (n : Nat) : State := s.modCh n fun c => { c with txf := {}, rxf := {} }

/-! ## Ends of a job (R19, R22) -/

/-- Bytes above the slot are dropped: what the payload may hold. -/
def Job.maxPayload (j : Job) : Nat := min j.decl.maxpay 1008

/-- The late sightings of a job enter the merge queue, oldest first, as far as it has space (R114). -/
def State.enqueueLate (s : State) (id : Nat) : State :=
  match s.job? id with
  | none => s
  | some j =>
    let k := 64 - s.mergeQ.length
    { s with mergeQ := s.mergeQ ++ j.late.take k }.modJob id fun j => { j with late := j.late.drop k }

/-- Hand sightings of a job to the merge unit, behind those that wait already (R114). -/
def State.sendLate (s : State) (id : Nat) (l : List Sighting) : State :=
  (s.modJob id fun j => { j with late := j.late ++ l }).enqueueLate id

/-- A held sighting that no RESQ followed is merged as volatile (R235). -/
def State.releaseHeld (s : State) (n id : Nat) : State :=
  match (s.ch n).inv.held with
  | none => s
  | some h =>
    let s1 := s.modInv n fun c => { c with held := none }
    if h.asked then s1 else s1.sendLate id [{ h.sight with volatile := true, handle := some h.handle }]

/-- The sightings that an inventory made and has not reported are merged all the same (R133); with HOLD as volatile (R235). -/
def State.releaseFound (s : State) (n id : Nat) : State :=
  let c := (s.ch n).inv
  let hold := bitOf c.cfg.toNat 4
  (s.modInv n fun c => { c with found := [], goDue := false }).sendLate id
    (c.found.map fun x => if hold then { x with volatile := true } else x)

/-- The routine of a job ends with a code (R19, R240, R241): the buffer is taken, the sequencer stops, the fields of
the job ramp down, and the job is FINISHING while CRY work is outstanding. -/
def State.endRunning (s : State) (j : Job) (rc : Byte) (partialE : Bool) (detail : BitVec 16) : State :=
  let n := j.lead
  let s0 := (s.releaseHeld n j.id).releaseFound n j.id
  let q := (s0.ch n).seq
  let items := s0.fillItems j.id (s0.ch n).inv q.out
  let rec' : EndRec :=
    { rc := rc, part := partialE, receipt := false, detail := detail, payload := items
      cut := q.cut || decide (j.maxPayload < outLen items) }
  let st := if s0.cryOutstanding j.id then .finishing else j.state
  let s1 := s0.modJob j.id fun k => { k with ended := some rec', marked := none, state := st }
  let s2 := s1.modCh n fun c => { c with txReq := none, seq := { c.seq with run := .idle, windup := false, out := [] } }
  let s3 := if (s2.ch n).win.isNone && (s2.ch n).field != .mod then s2.endExchange n else s2
  (s3.each (maskList j.mask) fun s n => s.clearFifos n.val).stopFields j.mask

/-- Post the receipt entry of a job that never ran; a granted job stays listed until its reservation returns. Its claim
ends with it (R189). -/
def State.postReceipt (s : State) (j : Job) (rc : Byte) : State :=
  let d := s.takeFresh Config.receiptDetail
  let hdr := entryHeader j.cookie rc j.routine 0 0 0 (entryFlags true true false false false false false)
    s.ntUs 0 d.1
  let s1 := (d.2.postEntry j.ringNo j.units hdr []).unclaim j.id
  if j.state = .granted then s1.modJob j.id fun k => { k with state := .posted, units := 0 } else s1.dropJob j.id

/-- End a job that is past admission and has not ended (R19). A granted job never starts. -/
def State.endJob (s : State) (id : Nat) (rc : Byte) (partialE : Bool) (detail : BitVec 16) : State :=
  match s.job? id with
  | none => s
  | some j =>
    match j.state, j.ended with
    | .granted, _ => s.postReceipt j rc
    | .running, none => s.endRunning j rc partialE detail
    | .waiting, none => s.endRunning j rc partialE detail
    | _, _ => s

/-- End of a job with the DETAIL in force. -/
def State.endJobInForce (s : State) (id : Nat) (rc : Byte) (partialE : Bool) : State :=
  match s.job? id with
  | none => s
  | some j => s.endJob id rc partialE (s.ch j.lead).seq.detail

/-- A sequencer fault (R245): FCODE and PC are recorded and the job ends. -/
def State.seqFault (s : State) (n : Nat) (fcode : Byte) : State :=
  match s.jobLead n with
  | none => s
  | some j =>
    let s1 := ((s.wr (R.CSQ_FAULT_FCODE n) fcode.toNat).wr (R.CSQ_FAULT_FPC n) (s.ch n).seq.pc.toNat).setFlag
      (R.CSQ_FAULT_FSEEN n)
    (s1.bump (R.CSQ_CNT_N_FAULT n)).endJob j.id rcFault true (fcode.setWidth 16)

/-- A job is to stop for ABORT or TJ_HARD: at once when no exchange is in progress, else after it (R19, R284, R316). -/
def State.stopJob (s : State) (j : Job) (rc : Byte) : State :=
  match j.state with
  | .granted => s.postReceipt j rc
  | .running | .waiting =>
    if j.ended.isSome then s
    else if s.noExchange j.lead then s.endJobInForce j.id rc true
    else s.modJob j.id fun k => { k with marked := some rc }
  | _ => s

/-! ## Final entries (R22, R18) -/

/-- Field energy since the last settlement on channel `n`, in µJ (R44). -/
def State.meterDelta (s : State) (n : Nat) : Nat := (s.rdWord (R.CH_TXENERGY n) - (s.ch n).eMark).toNat

/-- Field energy of a job since its grant, in µJ. -/
def State.jobEnergy (s : State) (j : Job) : Nat := j.fieldUj + ((maskList j.mask).map fun n => s.meterDelta n.val).sum

/-- The true charge exceeds the reservation (R18). -/
def State.jobDebt (s : State) (j : Job) : Bool := decide (j.cost < s.jobEnergy j + j.exchAll * j.ovh)

/-- A record of an ended job waits for a locate (R211). -/
def State.locatesDue (s : State) (j : Job) : Bool :=
  (j.ended.map fun e => e.payload.any fun it => match it with
    | .record i => s.locQ.any fun q => q.job == j.id && q.entry == some (some i)
    | .byte _ | .image _ | .summary => false) == some true

/-- The final entry may be written (R22, R49, R133, R211): the job has ended, its fields are OFF, its CRY work is done, its sightings
are merged, and its records are located. -/
def State.mayPost (s : State) (j : Job) : Bool :=
  !s.thermHold && j.ended.isSome && j.state.holds && (maskList j.mask).all (fun n => (s.ch n.val).field == .off) &&
    !s.cryOutstanding j.id && !s.mergesDue j.id && !s.locatesDue j

/-- Write the final entry of a job: it is POSTED (R22, R25, R26); its contexts clear (R111). COIL of a job that started no exchange is
0: DESIGN CHOICE, log entry 106. -/
def State.postFinal (s : State) (j : Job) (e : EndRec) : State :=
  let n := j.lead
  let c := (s.ch n).inv
  let body := (outBytes c (s.fillItems j.id c e.payload)).take j.maxPayload
  let fl := entryFlags true false e.part (s.jobDebt j) e.cut j.swarm j.waited
  let hdr := entryHeader j.cookie e.rc j.routine n j.coil0.toNat j.mask.toNat fl j.ntStart body.length e.detail
  let s1 := s.postEntry j.ringNo j.units hdr body
  let s2 := s1.modJob j.id fun k => { k with state := .posted, ended := none, units := 0 }
  s2.each (maskList j.mask) fun s n =>
    (s.clearFifos n.val).modCh n.val fun c => { c with inv := {}, swTarget := none, muted := false, w := 0, ev := none, lastExch := none, settleTicks := 0 }

/-- FINAL_ENTRY_WRITE: the final entry of the job that sequencer `n` ran is written once R22 allows it. -/
def execFinalEntryWrite (n : Ch) (s : State) : Host.Outcome State Fault Refusal :=
  match s.jobLead n.val with
  | none => .next s
  | some j =>
    match j.ended with
    | none => .next s
    | some e => .next (if s.mayPost j then s.postFinal j e else s)

/-! ## Pools (R261) -/

/-- Payload units of a job. -/
def Job.payUnits (j : Job) : Nat := ceilDiv j.plen 32

/-- Jobs that hold a descriptor and payload units: all that have not posted. -/
def State.poolJobs (s : State) : List Job := s.jobs.filter fun j => j.state != .posted

/-- Base of the payload pool. -/
def payBase : Nat := 0xC0000

/-- A run of payload units is free. -/
def State.runFree (s : State) (start len : Nat) : Bool :=
  decide (start + len ≤ 8192) && s.poolJobs.all fun j =>
    j.payUnits == 0 || decide (start + len ≤ (j.pptr - payBase) / 32)
      || decide ((j.pptr - payBase) / 32 + j.payUnits ≤ start)

/-- A free run of payload units: the device's choice, else the first that follows another job's units. -/
def State.pickRun (s : State) (len : Nat) : Option Nat :=
  let c := Config.payloadUnit s.fresh % 8192
  let cands := (0 :: s.poolJobs.map fun j => if j.payUnits = 0 then 0 else (j.pptr - payBase) / 32 + j.payUnits).filter
    fun u => s.runFree u len
  if cands.isEmpty then none else if s.runFree c len then some c else cands.head?

/-- A free descriptor slot: the device's choice, else the lowest. -/
def State.pickSlot (s : State) : Option Nat :=
  if 8192 ≤ s.poolJobs.length then none
  else
    let c := Config.descSlot s.fresh % 8192
    if s.poolJobs.all fun j => j.slot != c then some c
    else (List.range 8192).find? fun k => s.poolJobs.all fun j => j.slot != k

end Sys2Proof.Machine
end

