-- ==== Sys2Proof/Machine/Rom.lean ====
section
/-!
DEFINITION. The ROM routines as their catalogue gives them (R178, R253 to R258): parameters, the checks of R253, and what a
job remembers of the exchanges of its own. The code of the ROM is not in the manual; what the rules of the catalogue
bind is followed here and in RomCode. Log entry 29.
-/

namespace Sys2Proof.Machine

/-! ## Parameters (R178, R254, R255, R257) -/

/-- Routine IDs of the ROM catalogue (R258). -/
def romIds : List Nat :=
  [0x010, 0x014, 0x020, 0x021, 0x022, 0x028, 0x02C, 0x030, 0x031, 0x034, 0x035, 0x038, 0x039]

/-- The job runs a ROM routine. -/
def Job.isRom (j : Job) : Bool := romIds.contains j.routine

/-- The job runs a ROM inventory routine. -/
def Job.isInventory (j : Job) : Bool := [0x010, 0x014, 0x020, 0x021, 0x028, 0x02C].contains j.routine

/-- The job runs a ROM write routine (R258). -/
def Job.isWriter (j : Job) : Bool := j.routine == 0x030 || j.routine == 0x031 || j.routine == 0x035

/-- A byte of a job's payload; bytes beyond its length read as zero (R255). -/
def State.payByte (s : State) (j : Job) (i : Nat) : Byte := if i < j.plen then s.sb (j.pptr + i) else 0

/-- Two bytes of a job's payload, least significant first. -/
def State.payHalf (s : State) (j : Job) (i : Nat) : Nat := (s.payByte j i).toNat + 256 * (s.payByte j (i + 1)).toNat

/-- PW0. -/
def Job.pw0 (j : Job) : Nat := (j.word 4).toNat
/-- PW1. -/
def Job.pw1 (j : Job) : Nat := (j.word 5).toNat
/-- GUARD in ns (R253). -/
def Job.guardNs (j : Job) : Nat := 25000 * bitsOf j.pw0 24 8

/-- WAKE. -/
def Job.romWake (j : Job) : Bool := bitOf j.pw0 4
/-- SIG. -/
def Job.romSig (j : Job) : Bool := bitOf j.pw0 5
/-- RECHECK. -/
def Job.recheck (j : Job) : Bool := bitOf j.pw0 6
/-- PRIV. -/
def Job.romPriv (j : Job) : Bool := bitOf j.pw0 7
/-- MAXREC. -/
def Job.maxRec (j : Job) : Nat := bitsOf j.pw0 9 5

/-- BLOCK of a single-tag routine. -/
def Job.romBlock (j : Job) : Nat := bitsOf j.pw0 0 16
/-- COUNT of a single-tag routine. -/
def Job.romCount (j : Job) : Nat := bitsOf j.pw0 16 8

/-- VERIFY. -/
def Job.verify (j : Job) : Bool := bitOf j.pw1 0
/-- PRE. -/
def Job.preRead (j : Job) : Bool := bitOf j.pw1 1
/-- REQ_SIG. -/
def Job.reqSig (j : Job) : Bool := bitOf j.pw1 2
/-- REQ_RES. -/
def Job.reqRes (j : Job) : Bool := bitOf j.pw1 3
/-- RWIN, in ns. -/
def Job.rwinNs (j : Job) : Nat := 10000000 * bitsOf j.pw1 4 8
/-- PROBE, in ns. -/
def Job.probeNs (j : Job) : Nat := 5000000 * bitsOf j.pw1 12 4
/-- OPT1. -/
def Job.opt1 (j : Job) : Bool := bitOf j.pw1 16

/-- KIND of a single-tag routine; the block read of ISO/IEC 15693 has only that one (R258). -/
def State.tagKind (s : State) (j : Job) : Nat := if j.routine = 0x022 then 1 else (s.payByte j 11).toNat % 4

/-- W2MAX in ms: 0 stands for the protocol's default, which the manual gives for Type 2 and for ISO/IEC 15693. -/
def State.w2maxMs (s : State) (j : Job) : Nat :=
  let v := bitsOf j.pw1 24 8
  if v ≠ 0 then v else if s.tagKind j = 0 then 5 else 20

/-- Identifier of a single-tag routine, in air order. -/
def State.tagId (s : State) (j : Job) : List Byte := (List.range (min 10 (s.payByte j 10).toNat)).map fun i => s.payByte j i

/-- Protocol of a ROM inventory (R255, R258). -/
def State.romProto (s : State) (j : Job) : Nat :=
  if j.routine = 0x010 then 0 else if j.routine = 0x014 then 1 else if j.routine = 0x020 ∨ j.routine = 0x021 then 2
  else (s.payByte j 10).toNat % 4

/-- SLOTS16 of a ROM inventory. -/
def State.romSlots16 (s : State) (j : Job) : Bool :=
  if j.routine = 0x028 ∨ j.routine = 0x02C then bitOf (s.payByte j 10).toNat 2 else j.routine == 0x021

/-- RATE (R254, R257). -/
def State.romRate (s : State) (j : Job) : Nat :=
  if j.isInventory then bitsOf j.pw0 0 3 else bitsOf (s.payByte j 11).toNat 4 3

/-- The data-rate flag of an ISO/IEC 15693 request (R511): clear for RATE 0, which selects V6. -/
def rateBit (rate : Nat) : Nat := if rate = 0 then 0 else 2

/-- The tag of a routine, or its inventory, is of ISO/IEC 15693. -/
def State.romIsV (s : State) (j : Job) : Bool := if j.isInventory then s.romProto j == 2 else s.tagKind j == 1

/-- MOD100. -/
def State.mod100 (s : State) (j : Job) : Bool := if j.isInventory then bitOf j.pw0 3 else bitOf (s.payByte j 11).toNat 7

/-- SIGP. -/
def State.sigp (s : State) (j : Job) : Bool := if j.isInventory then bitOf j.pw0 15 else bitOf (s.payByte j 11).toNat 2

/-- SIGCMD. -/
def State.sigCmd (s : State) (j : Job) : Byte := s.payByte j (if j.isInventory then 7 else 12)
/-- SIGARG. -/
def State.sigArg (s : State) (j : Job) : Byte := s.payByte j (if j.isInventory then 8 else 13)
/-- TOKBLK. -/
def State.tokBlk (s : State) (j : Job) : Byte := s.payByte j (if j.isInventory then 9 else 14)

/-- The data of a job that writes, from payload byte 16 on; for Type 4 the file ID comes first (R257). -/
def State.writeData (s : State) (j : Job) : List Byte :=
  let base := if s.tagKind j = 2 then 18 else 16
  (List.range (j.plen - base)).map fun i => s.payByte j (base + i)

/-- File ID of a Type 4 job (R257). -/
def State.fileId (s : State) (j : Job) : List Byte := [s.payByte j 16, s.payByte j 17]

/-- Bytes of a block of a Type 2 or ISO/IEC 15693 tag that 0x030 or 0x031 writes. -/
def State.unitLen (s : State) (j : Job) : Nat :=
  if s.tagKind j = 0 then 4 else if j.routine = 0x031 then (s.writeData j).length / j.romCount else (s.writeData j).length

/-- Bytes that 0x030 or 0x031 writes into a Type 4 file: COUNT, or all of the data (R257). -/
def State.fileLen (s : State) (j : Job) : Nat :=
  if j.romCount = 0 then (s.writeData j).length else min j.romCount (s.writeData j).length

/-! ## The checks of R253 -/

/-- The signature read command of a job that needs one is missing or out of range (R256). -/
def State.sigCmdBad (s : State) (j : Job) (isV : Bool) : Bool := s.sigCmd j == 0 || (isV && decide ((s.sigCmd j).toNat < 0xA0))

/-- INV_CTL with the override of PW1 (R231, R254). -/
def overridden (ctl : BitVec 16) (pw1 : Nat) : BitVec 16 :=
  let mask := BitVec.ofNat 16 (pw1 / 2 ^ 16)
  (ctl &&& ~~~ mask) ||| (BitVec.ofNat 16 pw1 &&& mask)

/-- A parameter of an inventory routine is out of range, or a reserved bit is set (R253 to R256). -/
def State.inventoryBad (s : State) (j : Job) : Bool :=
  let proto := s.romProto j
  let swept := j.routine == 0x028 || j.routine == 0x02C
  let ctl := overridden ((s.rdWord R.INV_CTL).setWidth 16) j.pw1
  let count := (s.payByte j 11).toNat
  (swept && (proto == 3 || decide (8 ≤ (s.payByte j 10).toNat)))
    || (proto == 1 && decide (3 < s.romRate j)) || (proto == 2 && decide (4 < s.romRate j))
    || (j.romSig && s.sigCmdBad j (proto == 2))
    || bitsOf (j.pw1 ||| j.pw1 / 2 ^ 16) 6 2 != 0 || bitOf (j.pw1 ||| j.pw1 / 2 ^ 16) 11 || decide (4 < bitsOf ctl.toNat 8 3)
    || (j.routine == 0x028 && (count == 0 || decide (8 < count)
        || (List.range count).any fun k => decide (8 ≤ (s.payByte j (12 + k)).toNat)))

/-- The data of 0x030 or 0x031 does not fill the blocks to be written. DEDUCED, log entry 86. -/
def State.dataBad (s : State) (j : Job) : Bool :=
  let m := (s.writeData j).length
  if j.routine = 0x030 then decide (m < if s.tagKind j = 0 then 4 else 1)
  else if j.routine = 0x031 then j.romCount == 0 || decide (m < j.romCount * if s.tagKind j = 0 then 4 else 1)
  else false

/-- A parameter of a single-tag routine is out of range, or a reserved bit is set (R178, R253, R257). The range of IDLEN and of
BLOCK, one byte on the air, is DEDUCED, log entry 86. -/
def State.tagBad (s : State) (j : Job) : Bool :=
  let b := (s.payByte j 11).toNat
  let kind := s.tagKind j
  let len := (s.payByte j 10).toNat
  let needSig := j.routine == 0x038 || (j.isWriter && j.reqSig)
  let words :=
    if j.isWriter then bitsOf j.pw1 17 7 != 0 || j.probeNs == 0
    else if j.routine = 0x022 then decide (2 ^ 8 ≤ j.pw1)
    else j.pw1 != 0
  b % 4 == 3 || bitOf b 3 || (kind == 1 && decide (4 < s.romRate j)) || decide (16 ≤ (s.payByte j 15).toNat)
    || !(if kind = 1 then len == 8 else (len == 4 || len == 7 || len == 10))
    || (kind != 2 && decide (0xFF < j.romBlock)) || (needSig && s.sigCmdBad j (kind == 1)) || s.dataBad j || words

/-- A ROM routine's parameters do not pass the checks of R253. -/
def State.romBad (s : State) (j : Job) : Bool := j.isRom && (if j.isInventory then s.inventoryBad j else s.tagBad j)

/-! ## What a ROM routine has seen (R95, R101, R257, R258) -/

/-- Change what a ROM routine remembers. -/
def State.modRom (s : State) (j : Job) (g : RomCtx → RomCtx) : State :=
  if j.isRom then s.modJob j.id fun k => { k with rom := g k.rom } else s

/-- Command byte of a frame. -/
def commandOf (txMode : Nat) (f : List Byte) : Byte := if 8 ≤ txMode then f.getD 1 0 else f.headD 0

/-- Body of an ISO/IEC 14443-4 I-block, or none for another block. -/
def iBlockBody (f : List Byte) : Option (List Byte) :=
  match f with
  | [] => none
  | p :: rest =>
    if p &&& 0xE2 = 0x02 then some (rest.drop ((bitOf p.toNat 3).toNat + (bitOf p.toNat 2).toNat)) else none

/-- The block is an R(NAK). -/
def isRNak (f : List Byte) : Bool := match f with | [] => false | p :: _ => p &&& 0xF6 == 0xB2

/-- The block is an S(WTX). -/
def isWtx (f : List Byte) : Bool := match f with | [] => false | p :: _ => p &&& 0xF7 == 0xF2

/-- A command frame as a write routine means it: what it is, its block, page or file offset, and the data of a W1. -/
structure WriteCmd where
  frame : WriteFrame := .none
  block : Nat := 0
  data : List Byte := []
  deriving DecidableEq, Repr

/-- A command frame as a write routine of the kind means it. -/
def classifyFrame (kind : Nat) (f : List Byte) : WriteCmd :=
  let at1 := (f.getD 1 0).toNat
  let at10 := (f.getD 10 0).toNat
  if kind = 0 then
    if f.head? = some 0xA2 then ⟨.w1, at1, f.drop 2⟩ else if f.head? = some 0x30 then ⟨.read, at1, []⟩ else {}
  else if kind = 1 then
    if f[1]? = some 0x21 then ⟨.w1, at10, f.drop 11⟩ else if f[1]? = some 0x20 then ⟨.read, at10, []⟩ else {}
  else
    match iBlockBody f with
    | none => if isRNak f then ⟨.again, 0, []⟩ else if isWtx f then ⟨.wtx, 0, []⟩ else {}
    | some b =>
      let off := 256 * (b.getD 2 0).toNat + (b.getD 3 0).toNat
      if b[1]? = some 0xD6 then ⟨.w1, off, b.drop 5⟩ else if b[1]? = some 0xB0 then ⟨.read, off, []⟩ else {}

/-- The frame reads several blocks of an ISO/IEC 15693 tag. -/
def readsBlocks (kind : Nat) (f : List Byte) : Bool := kind == 1 && f[1]? == some 0x23

/-- The flags byte and the UID of an addressed ISO/IEC 15693 request with the option flag as given (R170, R511). -/
def State.headV (s : State) (j : Job) (opt : Bool) (f : List Byte) : Bool :=
  f.headD 0 == BitVec.ofNat 8 (0x20 + rateBit (s.romRate j) + 64 * opt.toNat) && (f.drop 2).take 8 == s.tagId j

/-- The signature read for an identifier (R256). -/
def State.sigFrame (s : State) (j : Job) (id : List Byte) : List Byte :=
  if s.romIsV j then
    [BitVec.ofNat 8 (0x20 + rateBit (s.romRate j)), s.sigCmd j, id.getD 6 0] ++ id ++ (if s.sigp j then [s.sigArg j] else [])
  else [s.sigCmd j, s.sigArg j]

/-- The token read for an identifier: 16 bytes from TOKBLK (R256). -/
def State.tokFrame (s : State) (j : Job) (id : List Byte) : List Byte :=
  if s.romIsV j then [BitVec.ofNat 8 (0x20 + rateBit (s.romRate j)), 0x23] ++ id ++ [s.tokBlk j, 3] else [0x30, s.tokBlk j]

/-- The tag whose signature and token a routine reads next: the latest sighted, or the tag of the job. -/
def State.readId (s : State) (j : Job) : List Byte := if j.isInventory then j.rom.check.id else s.tagId j

/-- The routine reads signatures. -/
def Job.wantsSig (j : Job) : Bool := if j.isInventory then j.romSig else j.routine == 0x038 || (j.isWriter && j.reqSig)

/-- The routine reads privacy tokens. -/
def Job.wantsTok (j : Job) : Bool := if j.isInventory then j.romPriv else j.routine == 0x039 || (j.isWriter && j.reqRes)

/-- A SELECT whose four bytes end the identifier of the tag (R175). -/
def selectsTag (id f : List Byte) : Bool :=
  f.getD 1 0 == 0x70 && decide (4 ≤ id.length) && (f.drop 2).take 4 == id.drop (id.length - 4)

/-- The SELECT frames of a tag, of every cascade level of its identifier (R257). -/
def selectFrames (id : List Byte) : List (List Byte) :=
  let sel (level : Nat) (u : List Byte) : List Byte :=
    BitVec.ofNat 8 (0x93 + 2 * level) :: 0x70 :: u ++ [u.foldl (fun a b => a ^^^ b) 0]
  let part (k : Nat) : List Byte := 0x88 :: (id.drop (3 * k)).take 3
  let levels := (id.length - 4) / 3
  (List.range levels).map (fun k => sel k (part k)) ++ [sel levels (id.drop (3 * levels))]

/-- What a frame of a ROM routine's own asks of its tag. A token is read before a signature (R158). -/
def State.romSend (s : State) (j : Job) (f : List Byte) : RomSend :=
  let kind := s.tagKind j
  let k := j.rom.check
  let reads := (classifyFrame kind f).frame == .read || readsBlocks kind f
  if j.wantsTok && k.tok.isNone && f == s.tokFrame j (s.readId j) then .token
  else if j.wantsSig && k.sig.isNone && f == s.sigFrame j (s.readId j) then .sig
  else if j.isInventory then .other
  else if kind != 1 && selectsTag (s.tagId j) f then .pick
  else if kind == 2 && ((iBlockBody f).bind fun b => b[1]?) == some 0xA4 then
    if ((iBlockBody f).map fun b => (b.drop 5).take 2) == some (s.fileId j) then .file else .otherFile
  else if reads && (kind != 2 || j.rom.filed) then .read
  else .other

/-- The frame puts an ISO/IEC 14443 A tag out of its selection: REQA, WUPA or HLTA. -/
def deselects (f : List Byte) : Bool := f == [0x26] || f == [0x52] || f.headD 0 == 0x50

/-- The engine holds the ISO/IEC 14443 A tag of a single-tag job selected: its SIGHT was the last event (R234, R256). -/
def State.engineHolds (s : State) (j : Job) : Bool :=
  let c := (s.ch j.lead).inv
  c.phase == .aSighted && (!bitOf c.ctl.toNat 2 || c.asSelect) && j.rom.check.id == s.tagId j

/-- The tag of a single-tag job is selected, by the routine's own SELECT or by the engine's (R234, R257). -/
def State.tagSelected (s : State) (j : Job) : Bool := j.rom.selected || s.engineHolds j

/-- The frame is addressed to the tag of a single-tag job (R101): by its UID, or while it is selected. An empty frame goes on with
the write before it. -/
def State.toTag (s : State) (j : Job) (f : List Byte) : Bool :=
  let id := s.tagId j
  if s.tagKind j = 1 then f.isEmpty || (f.drop 2).take 8 == id || (f.drop 3).take 8 == id
  else !deselects f && (selectsTag id f || s.tagSelected j)

/-- A command frame of the job starts: its body without a CRC; `own` when the routine itself sends it. -/
def State.noteCommand (s : State) (j : Job) (own : Bool) (txMode : Nat) (f : List Byte) : State :=
  let send := if own then s.romSend j f else .other
  let x := classifyFrame (s.tagKind j) f
  s.modRom j fun r => { r with
    firstNt := r.firstNt.orElse fun _ => some s.time.nt
    cmdVisit := r.visits
    toTag := own && !j.isInventory && s.toTag j f
    selected := (r.selected || (own && s.engineHolds j)) && !deselects f
    send := send
    check := { r.check with tokTried := r.check.tokTried || send == .token, sigTried := r.check.sigTried || send == .sig }
    readAt := x.block + (if readsBlocks (s.tagKind j) f then (f.getD 10 0).toNat else 0)
    readN := if readsBlocks (s.tagKind j) f then (f.getD 11 0).toNat + 1 else 1
    tries := if send = .read then r.tries + 1 else r.tries
    cmd := if own then commandOf txMode f else r.cmd
    fwi := if own && (f == [0x52] || f == [0x26]) then none else r.fwi
    wtxm := if own then (if f.headD 0 = 0xF2 then max 1 ((f.getD 1 0).toNat % 64) else 1) else r.wtxm }

/-- FWI of an ATS: the high half of TB(1), or the default of ISO/IEC 14443-4 (R95). -/
def fwiOf (ats : List Byte) : Nat :=
  let t0 := (ats.getD 1 0).toNat
  if 2 ≤ ats.length ∧ bitOf t0 5 then (ats.getD (2 + (bitOf t0 4).toNat) 0).toNat / 16 else 4

/-- The bytes that a clean answer to a read carries: of Type 2 all, of ISO/IEC 15693 those after the flags byte, of Type 4 those
before the status word; none when the tag answered with an error. -/
def readData (kind : Nat) (d : List Byte) : Option (List Byte) :=
  if kind = 0 then (if 16 ≤ d.length then some d else none)
  else if kind = 1 then (if bitOf (d.headD 0).toNat 0 || d.isEmpty then none else some (d.drop 1))
  else
    match iBlockBody d with
    | none => none
    | some b => if b.drop (b.length - 2) = [0x90, 0x00] then some (b.take (b.length - 2)) else none

/-- A clean answer, of a tag of the kind, says that the tag has not done what it was asked. -/
def RomCtx.errorIn (r : RomCtx) (kind : Nat) (d : List Byte) : Bool :=
  match r.send with
  | .other | .pick | .otherFile => kind == 1 && bitOf (d.headD 0).toNat 0
  | .sig => kind == 1 && bitOf (d.headD 0).toNat 0
  | .token => if kind = 1 then (readData 1 d).isNone || decide (d.length < 17) else decide (d.length < 16)
  | .read | .file => (readData kind d).isNone

/-- A good read of a tag's memory: the bytes at their addresses, and the blocks in order (R258). -/
def RomCtx.noteRead (r : RomCtx) (kind : Nat) (b : List Byte) : RomCtx :=
  let len := if kind = 0 then 4 else if kind = 1 then b.length / r.readN else 1
  { r with
    blockLen := len, tries := 0, nread := r.nread + r.readN, data := r.data ++ b
    mem := ((List.range b.length).zip b).map (fun x => (r.readAt * len + x.1, x.2)) ++ r.mem }

/-- A clean answer that is no error takes its effect on what the routine knows. -/
def RomCtx.noteGood (r : RomCtx) (kind : Nat) (d : List Byte) : RomCtx :=
  let body := if kind = 1 then d.drop 1 else d
  match r.send with
  | .other => r
  | .pick => { r with selected := true }
  | .file => { r with filed := true }
  | .otherFile => { r with filed := false }
  | .sig => { r with check := { r.check with sig := some body } }
  | .token => { r with check := { r.check with tok := some (body.take 16) } }
  | .read => r.noteRead kind ((readData kind d).getD [])

/-- A frame event of the routine's own exchange: its code, and the data delivered (R101, R258). -/
def State.noteAnswer (s : State) (j : Job) (code : Nat) (delivered : Bool) (d : List Byte) : State :=
  let kind := if s.romIsV j then 1 else if j.isInventory then 0 else s.tagKind j
  s.modRom j fun r =>
    let good := delivered && code != 5
    let bad := good && r.errorIn kind d
    let r1 := { r with
      lastEv := some code
      answered := r.answered || (r.toTag && code != 1)
      refused := bad
      flags := if delivered then d.headD 0 else r.flags
      fwi := if delivered && r.cmd == 0xE0 then some (fwiOf d) else r.fwi }
    if good && !bad then r1.noteGood kind d else r1

/-- A sighting is reported to a routine: its tag is the one at hand (R254), and has answered where it is that of the job (R101). -/
def State.noteSighting (s : State) (n : Nat) (x : Sighting) : State :=
  match s.jobLead n with
  | none => s
  | some j => s.modRom j fun r => { r with
      check := { id := x.id }, checked := r.check.id :: r.checked
      answered := r.answered || (!j.isInventory && x.id == s.tagId j) }

/-- A ROUND event of an inventory with `nodes` pending: whether it is past MAX_ROUNDS or MAX_NODES (R255, R257). MAX_NODES counts nodes
pending, and the event after MAX_ROUNDS others is past it. DEDUCED, log entry 87. -/
def State.noteRound (s : State) (j : Job) (nodes : Nat) : State :=
  let maxRounds := s.payHalf j 0
  let maxNodes := s.payHalf j 4
  s.modRom j fun r => { r with
    rounds := r.rounds + 1
    limit := r.limit || (maxRounds != 0 && decide (maxRounds ≤ r.rounds)) || (maxNodes != 0 && decide (maxNodes < nodes)) }

/-- MAX_MS have passed since the first command (R255, R257). -/
def State.timeLimit (s : State) (j : Job) : Bool :=
  let ms := s.payHalf j 2
  ms != 0 && (match j.rom.firstNt with | none => false | some t => decide (t.toNat + 1000000 * ms < s.nt))

/-! ## NDEF (R177, R258) -/

/-- A byte of the tag's memory as read. -/
def RomCtx.byteAt (r : RomCtx) (a : Nat) : Option Byte := r.mem.lookup a

/-- Address of the NDEF TLV, looked for from `a` on over at most `fuel` TLVs: none where a byte has yet to be read, `some none` where
there is no NDEF TLV. -/
def RomCtx.scanTlv (r : RomCtx) : Nat → Nat → Option (Option Nat)
  | 0, _ => some none
  | fuel + 1, a =>
    match r.byteAt a with
    | none => none
    | some 0x00 => r.scanTlv fuel (a + 1)
    | some 0xFE => some none
    | some 0x03 => some (some a)
    | some _ =>
      match r.byteAt (a + 1), r.byteAt (a + 2), r.byteAt (a + 3) with
      | some 0xFF, some hi, some lo => r.scanTlv fuel (a + 4 + 256 * hi.toNat + lo.toNat)
      | some 0xFF, _, _ => none
      | some l, _, _ => r.scanTlv fuel (a + 2 + l.toNat)
      | none, _, _ => none

/-- The NDEF TLV of a Type 2 or Type 5 tag, from BLOCK on. DEDUCED, log entry 123. -/
def State.ndefTlv (s : State) (j : Job) : Option (Option Nat) :=
  let len := if s.tagKind j = 0 then 4 else j.rom.blockLen
  j.rom.scanTlv (j.rom.mem.length + 1) (j.romBlock * len)

/-- `n` bytes of the memory from `a` on, once all are read. -/
def RomCtx.bytesAt (r : RomCtx) (a n : Nat) : Option (List Byte) := (List.range n).mapM fun i => r.byteAt (a + i)

/-- The NDEF message of the tag, once all of it is read (R258). -/
def State.ndefMsg (s : State) (j : Job) : Option (List Byte) :=
  let r := j.rom
  if s.tagKind j = 2 then
    match r.byteAt j.romBlock, r.byteAt (j.romBlock + 1) with
    | some hi, some lo => r.bytesAt (j.romBlock + 2) (256 * hi.toNat + lo.toNat)
    | _, _ => none
  else
    match s.ndefTlv j with
    | some (some t) =>
      match r.byteAt (t + 1), r.byteAt (t + 2), r.byteAt (t + 3) with
      | some 0xFF, some hi, some lo => r.bytesAt (t + 4) (256 * hi.toNat + lo.toNat)
      | some 0xFF, _, _ => none
      | some l, _, _ => r.bytesAt (t + 2) l.toNat
      | none, _, _ => none
    | _ => none

/-- A Type 2 or Type 5 tag holds no NDEF TLV. -/
def State.noNdef (s : State) (j : Job) : Bool := s.tagKind j != 2 && s.ndefTlv j == some none

/-! ## Codes (R101, R164, R169) -/

/-- RC of a ROM routine by the event of its last exchange; END's own code where that exchange was good, DONE or a tag's
error (R101). -/
def RomCtx.eventRc (r : RomCtx) (rc : Byte) : Byte :=
  match r.lastEv with
  | none => rc
  | some 9 => rcFault
  | some 8 => rcFault
  | some 5 => rcCollision
  | some 1 => if r.answered then rcFieldLost else rcNoTag
  | some 0 => if rc = rcTagError then rcTagError else rcDone
  | some 2 => if rc = rcTagError then rcTagError else rcDone
  | some _ => rcCrcFail

/-- The last outcome of a signature, 1 to 3, or of a resolution, 4 or 5, that the job's log holds (R236). -/
def Job.outcome (j : Job) (lo hi : Nat) : Option Word :=
  (j.cryLog.find? fun x => decide (lo ≤ x.2.toNat % 8) && decide (x.2.toNat % 8 ≤ hi)).map Prod.snd

/-- The signature outcome of the job is VALID. -/
def Job.sigValid (j : Job) : Bool := (j.outcome 1 3).map (fun w => w.toNat % 8) == some 1

/-- The resolution outcome of the job is RESOLVED. -/
def Job.tokResolved (j : Job) : Bool := (j.outcome 4 5).map (fun w => w.toNat % 8) == some 4

end Sys2Proof.Machine
end

