-- ==== Sys2Proof/Machine/Writes.lean ====
section
/-!
DEFINITION. What a ROM write routine owes to its air events (R170 to R179): the write step reached, the outcome that R172 and
R175 fix, the blocks done, and the final entry of R179. The code of the ROM routines is not in the manual, so all of
this is followed from the frames that the routine sends and the answers it gets. DEDUCED, log entry 24.
-/

namespace Sys2Proof.Machine

/-! ## Frames of a write -/

/-- Carrier cycles in ns (R63): 13.56 MHz. -/
def cyclesNs (c : Nat) : Nat := c * 25000 / 339

/-- Carrier cycles from the first edge of a frame of `n` bytes to the end of its last CRC bit (R171). The SOF of ISO/IEC
14443-3 type B lasts 12 to 14 etu; the manual does not say which, and the value is free. A stop bit follows the last
CRC bit. -/
def finalCycles (txMode n : Nat) : Nat :=
  if txMode < 4 then 9 * n * (128 / 2 ^ txMode)
  else if txMode < 8 then (12 + Config.sofExtra txMode % 3 + 10 * n - 1) * (128 / 2 ^ (txMode - 4))
  else if txMode < 10 then 1024 + 4096 * n
  else 1024 + 65536 * n

/-! ## The final entry (R179) -/

/-- DETAIL of a write routine (R179). -/
def WriteCtx.detail (w : WriteCtx) : BitVec 16 :=
  BitVec.ofNat 16 (w.step + 8 * w.fcut.toNat + 16 * w.recovered.toNat + 32 * w.vfy + 128 * w.preRan.toNat
    + (if w.rc = some rcTagError then 256 * w.tagErr.toNat else 0))

/-- Payload of a write routine (R179). -/
def WriteCtx.payload (w : WriteCtx) : List Byte :=
  let done := w.blocksDone + (w.rc == some rcDone).toNat
  leBytes 2 (min done 65535) ++ leBytes 2 (min w.index 65535) ++ [0, 0, 0, 0] ++ w.readback

/-! ## Following the frames -/

/-- Change the write context of a job that runs a ROM write routine; its DETAIL and payload follow. -/
def State.modWrite (s : State) (j : Job) (g : WriteCtx → WriteCtx) : State :=
  if j.isWriter then
    (s.modJob j.id fun k => { k with write := g k.write }).modSeq j.lead fun q => { q with
      detail := (g j.write).detail, out := (g j.write).payload.map .byte }
  else s

/-- The block at hand is done with; the next one begins (R176). -/
def WriteCtx.nextBlock (w : WriteCtx) : WriteCtx :=
  if w.rc = some rcDone then
    { index := w.index + 1, blocksDone := w.blocksDone + 1, preRan := w.preRan, ndef := w.ndef, lenBlock := w.lenBlock
      readback := w.readback, block := w.block, endAt := w.endAt }
  else w

/-- The outcome of the block at hand waits for a read-back in the retry window (R175). -/
def WriteCtx.unsettled (w : WriteCtx) : Bool := w.rc == some rcWriteUnknown && !w.fcut

/-- W4 of the block at hand is due or may be repeated (R172). -/
def WriteCtx.w4Due (w : WriteCtx) (j : Job) : Bool :=
  w.rc == some rcDone && decide (3 ≤ w.step) && j.verify && (w.vfy == 0 || w.vfy == 2)

/-! ## The write that comes next (R174, R176, R177) -/

/-- First byte after a new message of `n` bytes whose TLV begins at `t`. -/
def ndefStop (t n : Nat) : Nat := t + 2 + (if n < 255 then 0 else 2) + n

/-- A byte of the new NDEF TLV that begins at `t`: type, length, message and the terminator after it. -/
def ndefByte (m : List Byte) (t a : Nat) : Option Byte :=
  let n := m.length
  let start := ndefStop t n - n
  if a = t then some 0x03
  else if a = t + 1 then some (if n < 255 then BitVec.ofNat 8 n else 0xFF)
  else if t < a ∧ a < start then some (BitVec.ofNat 8 (if a = t + 2 then n / 256 else n))
  else if start ≤ a ∧ a < ndefStop t n then m[a - start]?
  else if a = ndefStop t n then some 0xFE
  else none

/-- Where an NDEF write goes on in a Type 4 file (R177): the length 0, the data, the new length. -/
def State.ndefDueFile (s : State) (j : Job) (v : WriteCtx) : Option Nat :=
  let base := j.romBlock
  if v.ndef = 0 then some base
  else if v.ndef = 1 then some (if v.endAt < base + 2 + (s.writeData j).length then v.endAt else base)
  else none

/-- Where an NDEF write goes on in a Type 2 or Type 5 tag (R177): the block of the length, the blocks after it as far as the
message goes, and the block of the length again. -/
def State.ndefDueTlv (s : State) (j : Job) (v : WriteCtx) (bs : Nat) : Option Nat :=
  match s.ndefTlv j with
  | some (some t) =>
    let block := (t + 1) / bs
    if v.ndef = 0 then some block
    else if v.ndef = 1 then some (if v.endAt * bs < ndefStop t (s.writeData j).length then v.endAt else block)
    else none
  | _ => none

/-- The block, page or offset that the write routine comes to next (R176, R177, R257). -/
def State.dueAt (s : State) (j : Job) (v : WriteCtx) : Option Nat :=
  let kind := s.tagKind j
  if j.routine = 0x035 then
    if kind = 2 then s.ndefDueFile j v else s.ndefDueTlv j v (if kind = 0 then 4 else j.rom.blockLen)
  else if j.routine = 0x031 ∧ v.index ≠ 0 then some (if kind = 2 then v.endAt else j.romBlock + v.index)
  else some j.romBlock

/-- What an NDEF write puts into a block: with the length set to 0 first, and the rest of the block as it was. Log entry 123. -/
def State.ndefWant (s : State) (j : Job) (v : WriteCtx) (block len : Nat) : List (Option Byte) :=
  let m := s.writeData j
  if s.tagKind j = 2 then
    if block = j.romBlock then (beBytes 2 (if v.ndef = 0 then 0 else m.length)).map some
    else ((m.drop (block - j.romBlock - 2)).take len).map some
  else
    match s.ndefTlv j with
    | some (some t) => (List.range len).map fun i =>
        let a := block * len + i
        if v.ndef = 0 then (if a = t + 1 then some 0 else j.rom.byteAt a) else (ndefByte m t a).orElse fun _ => j.rom.byteAt a
    | _ => []

/-- The bytes that the routine owes at a block, in a command that carries `len` of them: each as given, or any. None where it owes
nothing there. -/
def State.wantAt (s : State) (j : Job) (v : WriteCtx) (block len : Nat) : Option (List (Option Byte)) :=
  if s.dueAt j v ≠ some block then none
  else
    let kind := s.tagKind j
    let unit := if kind = 2 then (if j.routine = 0x030 then s.fileLen j else len) else s.unitLen j
    let at' := if kind = 2 then block - j.romBlock else v.index * s.unitLen j
    let m := if kind = 2 then (s.writeData j).take (s.fileLen j) else s.writeData j
    let w := if j.routine = 0x035 then s.ndefWant j v block (if kind = 0 then 4 else len) else ((m.drop at').take unit).map some
    if w.isEmpty then none else some w

/-- Data agree with what is owed. -/
def fitsWant (want : List (Option Byte)) (d : List Byte) : Bool :=
  want.length == d.length && (want.zip d).all fun x => x.1 == none || x.1 == some x.2

/-- The block at hand begins, by its write or by a pre-read that makes it needless: the NDEF stage and the place after it. -/
def WriteCtx.reach (v : WriteCtx) (kind block len : Nat) : WriteCtx :=
  { v with
    ndef := if v.ndef = 0 then 1 else if v.ndef = 1 ∧ block = v.lenBlock then 2 else v.ndef
    lenBlock := if v.ndef = 0 then block else v.lenBlock
    endAt := if kind = 2 then block + len else block + 1 }

/-- Every block of the job is written or was found written (R174, R176, R177). -/
def State.allDone (s : State) (j : Job) (w : WriteCtx) : Bool :=
  w.rc == some rcDone &&
    (if j.routine = 0x030 then true
     else if j.routine = 0x035 then w.ndef == 2
     else if s.tagKind j = 2 then decide (j.romBlock + s.fileLen j ≤ w.endAt)
     else decide (j.romCount ≤ w.index + 1))

/-- W3 of a Type 4 write is still open: the card asked for more time, or R(NAK) may recover its answer (R170, R173). -/
def WriteCtx.w3Open (w : WriteCtx) (kind retry : Nat) : Bool :=
  kind == 2 && w.cur == .w1 && decide (2 ≤ w.step) && !w.fcut
    && (w.rc.isNone || (w.rc == some rcWriteUnknown && decide (w.naks < retry)))

/-- RETRY of the job: that of INV_CTL at dispatch (R115, R172, R173). -/
def State.retryOf (s : State) (j : Job) : Nat := bitsOf (s.ch j.lead).inv.ctl0.toNat 12 4

/-- W3 of the write of a job is open. -/
def State.w3Open (s : State) (j : Job) : Bool := j.isWriter && j.write.w3Open (s.tagKind j) (s.retryOf j)

/-- A frame of a write routine as it means it: a read of a signature or a token is none of the write's, nor is one of another file. -/
def State.writeCmd (s : State) (j : Job) (f : List Byte) : WriteCmd :=
  let x := classifyFrame (s.tagKind j) f
  match s.romSend j f with
  | .sig | .token => {}
  | _ => if x.frame = .read ∧ s.tagKind j = 2 ∧ !j.rom.filed then {} else x

/-- A command frame of a write routine starts (R172 to R175): `f` is its body without the CRC, `nbytes` its length with it. -/
def State.noteTx (s : State) (j : Job) (own : Bool) (txMode : Nat) (f : List Byte) (nbytes bits : Nat) (cont : Bool) : State :=
  let kind := s.tagKind j
  let x := s.writeCmd j f
  s.modWrite j fun w =>
    if !own then { w with cur := .none }
    else if bits = 0 then
      if cont && w.eofDue then { w with cur := .eof, eofDue := false, closed := false } else { w with cur := .none }
    else
      match x.frame with
      | .w1 =>
        { w.nextBlock.reach kind x.block x.data.length with
          step := 1, cur := .w1, rc := none, block := x.block, data := x.data, closed := false
          finalNt := s.nt + cyclesNs (finalCycles txMode nbytes), eofDue := kind == 1 && bitOf (f.headD 0).toNat 6 }
      | .again => { w with cur := .w1, naks := w.naks + 1, closed := false }
      | .wtx => w
      | .read =>
        if w.w4Due j then { w with step := 4, cur := .read, reads := w.reads + 1 }
        else if w.unsettled then { w with cur := .read, probeNt := s.nt, woken := 0 }
        else if j.preRead ∧ s.dueAt j w.nextBlock = some x.block then
          { w.nextBlock with cur := .read, block := x.block, preRan := true, preHere := true }
        else { w with cur := .none }
      | .none | .eof =>
        { w with
          cur := .none
          woken := if bits = 7 ∧ f.headD 0 = 0x52 then 1 else if 0 < w.woken ∧ selectsTag (s.tagId j) f then 2 else w.woken }

/-- W1 ends with the last modulation edge. -/
def State.noteMod (s : State) (j : Job) : State :=
  s.modWrite j fun w => if w.cur = .w1 ∧ w.step = 1 then { w with step := 2, endNt := s.nt } else w

/-- An SOF ends W2. -/
def State.noteSof (s : State) (j : Job) : State :=
  s.modWrite j fun w => if (w.cur = .w1 ∧ !w.eofDue ∨ w.cur = .eof) ∧ w.step = 2 then { w with step := 3 } else w

/-- What a delivered answer to W1 fixes: the outcome and the tag's error, or none while the tag asks for more time (R172, R173). An
answer that the table of R172 does not name leaves WRITE_UNKNOWN, but an ISO/IEC 15693 response whose error bit is clear is an
acknowledgement: DESIGN CHOICE, log entry 133. -/
def ackOf (kind nbits : Nat) (d : List Byte) : Option (Byte × Byte) :=
  if kind = 0 then
    if nbits = 4 then (if (d.headD 0) &&& 0x0F = 0x0A then some (rcDone, 0) else some (rcTagError, (d.headD 0) &&& 0x0F))
    else some (rcWriteUnknown, 0)
  else if kind = 1 then
    if bitOf (d.headD 0).toNat 0 then some (rcTagError, d.getD 1 0) else some (rcDone, 0)
  else
    match iBlockBody d with
    | none => if isWtx d then none else some (rcWriteUnknown, 0)
    | some b =>
      let sw1 := b.getD (b.length - 2) 0
      let sw2 := b.getD (b.length - 1) 0
      if sw1 = 0x90 ∧ sw2 = 0x00 then some (rcDone, 0) else some (rcTagError, sw1)

/-- The data of a valid read-back. -/
def readBack (kind : Nat) (d : List Byte) : Option (List Byte) :=
  (readData kind d).map fun b => if kind = 0 then b.take 4 else b

/-- A read-back settles what it can (R172, R174, R175); `live` while the retry window is open, `want` what the routine owes in a
block of a length. After a pre-read with no valid answer the routine goes on to W1 and keeps no old contents: DESIGN CHOICE,
log entry 114. -/
def WriteCtx.settleRead (w : WriteCtx) (kind : Nat) (live : Bool) (want : Nat → Option (List (Option Byte)))
    (r : Option (List Byte)) : WriteCtx :=
  let same (d : List Byte) : Bool := d.take w.data.length == w.data
  match r with
  | none => if w.step = 4 ∧ w.rc = some rcDone then { w with vfy := 2 } else w
  | some d =>
    if w.step = 4 ∧ w.rc = some rcDone then
      if same d then { w with vfy := 1, readback := d } else { w with vfy := 3, rc := some rcVerifyFail, readback := d }
    else if w.unsettled && live then
      if same d then { w with rc := some rcDone, vfy := 1, recovered := true, readback := d }
      else if (w.pre.map fun p => d.take p.length == p) == some true then
        { w with rc := some rcNotWritten, recovered := true, readback := d }
      else { w with rc := some rcVerifyFail, vfy := 3, recovered := true, readback := d }
    else if w.step = 0 ∧ w.preHere then
      match want d.length with
      | none => { w with pre := some d }
      | some t =>
        if fitsWant t (d.take t.length) then { w.reach kind w.block t.length with pre := some d, rc := some rcDone }
        else { w with pre := some d }
    else w

/-- The retry window is open, or opens when the window of W3 closes (R175). -/
def State.retryLive (s : State) (j : Job) : Bool :=
  decide (0 < j.rwinNs) && (!j.write.closed || decide (s.nt < j.write.closeNt + j.rwinNs))

/-- A frame event reaches the routine: `code` is that of R101, `d` the data delivered. A frame that is not a valid answer, F_OVF
among them, leaves W3 WRITE_UNKNOWN (R172): for F_OVF DESIGN CHOICE, log entry 84. -/
def State.noteEvent (s : State) (j : Job) (code : Nat) (delivered : Bool) (nbits : Nat) (d : List Byte) : State :=
  let kind := s.tagKind j
  (s.noteAnswer j code delivered d).modWrite j fun w =>
    match w.cur with
    | .w1 | .eof =>
      if w.cur = .w1 ∧ w.eofDue then w
      else if delivered ∧ code ≠ 5 then
        match ackOf kind nbits d with
        | none => { w with step := 2, rc := none }
        | some (rc, e) => { w with rc := some rc, tagErr := e, step := 3 }
      else { w with rc := some rcWriteUnknown }
    | .read => w.settleRead kind (s.retryLive j) (s.wantAt j w w.block) (if delivered && code != 5 then readBack kind d else none)
    | .none | .again | .wtx => w

/-- The window of a write's answer closes (R175). -/
def State.noteClose (s : State) (j : Job) : State :=
  s.modWrite j fun w => if w.cur = .w1 ∨ w.cur = .eof then { w with closed := true, closeNt := s.nt } else w

/-- A write that has its acknowledgement when a channel fault ends the job: W4 was not obtained where it is still due, and with
blocks still to be written the next one, which has not begun, gives the RC (R52, R172, R176). -/
def State.cutBetween (s : State) (j : Job) (w : WriteCtx) : WriteCtx :=
  if w.rc ≠ some rcDone then w
  else if w.w4Due j ∧ w.reads ≤ s.retryOf j then { w with vfy := 2 }
  else if s.allDone j w then w
  else w.nextBlock

/-- One of the steps W1 to W4 is under way, its outcome still to come (R172). -/
def WriteCtx.inStep (w : WriteCtx) : Bool :=
  match w.cur with
  | .w1 | .eof => w.rc.isNone || w.rc == some rcWriteUnknown
  | .read => w.step == 4 && w.vfy != 1 && w.rc == some rcDone
  | .none | .again | .wtx => false

/-- A channel of the job enters FAULT (R171, R172): `live` while an exchange is in progress, `inMod` while it modulates. -/
def State.noteFault (s : State) (j : Job) (live inMod : Bool) : State :=
  (s.modRom j fun r => { r with lastEv := some 8 }).modWrite j fun w =>
    if !live then s.cutBetween j w
    else
      match w.cur with
      | .read =>
        if w.step = 4 ∧ w.vfy ≠ 1 ∧ w.rc = some rcDone then { w with vfy := 2, fcut := true } else s.cutBetween j w
      | .w1 | .eof =>
        if w.rc = some rcWriteUnknown then { w with fcut := true }
        else if w.rc.isSome then s.cutBetween j w
        else if w.step = 1 ∧ inMod ∧ s.nt < w.finalNt then { w with rc := some rcNotWritten, fcut := true }
        else { w with rc := some rcWriteUnknown, fcut := true }
      | .none | .again | .wtx => s.cutBetween j w

/-! ## The end of a ROM routine (R101, R133, R164, R169, R172, R179, R257, R258) -/

/-- RC of a single-tag routine that ends for want of an answer it needs (R101, R163). An inventory of its own that has not found the
tag gives its code, NO_TAG where it found others; a clean answer with an error gives TAG_ERROR: DESIGN CHOICE, log entry 122. -/
def RomCtx.failRc (r : RomCtx) (invRc rc : Byte) : Byte :=
  match r.lastEv with
  | none => if r.opened = 0 then rc else if invRc = rcDone then rcNoTag else invRc
  | some _ => if r.eventRc rc = rcDone then rcTagError else r.eventRc rc

/-- RC with which END ends a job: a write routine by R172 and R175, once its conditions of R164 and R169 hold; an origin check
and a resolution by their outcome; any other single-tag routine by its last exchange (R101); an inventory by R133. That an
NDEF write ends NOT_WRITTEN on a tag without an NDEF TLV is a DESIGN CHOICE, log entry 123. -/
def State.endCode (s : State) (j : Job) (invRc rc : Byte) : Byte :=
  if !j.isRom then rc
  else if j.isInventory then invRc
  else if j.isWriter then
    if j.reqSig && (j.outcome 1 3).isSome && !j.sigValid then rcSigInvalid
    else if j.reqRes && (j.outcome 4 5).isSome && !j.tokResolved then rcPrivUnresolved
    else if j.write.rc = none ∧ j.routine = 0x035 ∧ s.noNdef j ∧ !j.rom.refused ∧ j.rom.lastEv = some 0 then rcNotWritten
    else j.write.rc.getD (j.rom.failRc invRc rc)
  else if j.routine = 0x038 then
    if (j.outcome 1 3).isSome then (if j.sigValid then rcDone else rcSigInvalid) else j.rom.failRc invRc rc
  else if j.routine = 0x039 then
    if (j.outcome 4 5).isSome then (if j.tokResolved then rcDone else rcPrivUnresolved) else j.rom.failRc invRc rc
  else if j.rom.refused then j.rom.failRc invRc rc
  else j.rom.eventRc rc

/-- Table entry that the resolution of the job's token named (R236). -/
def Job.resolvedIndex (j : Job) : Nat := ((j.outcome 4 5).map fun w => getBits w 16 14).getD 0

/-- The items that an entry of an inventory routine holds: the summary and records (R143). -/
def OutItem.inEntry (x : OutItem) : Bool := x.isRecord || x == .summary

/-- Result buffer of a ROM routine as its catalogue gives it (R179, R257, R258): an inventory keeps the summary and at most
`MAXREC` records. -/
def State.romItems (s : State) (j : Job) (items : List OutItem) : List OutItem :=
  let bytes (l : List Byte) : List OutItem := l.map .byte
  if !j.isRom then items
  else if j.isInventory then
    items.filter (fun x => x == .summary) ++ (items.filter OutItem.isRecord).take j.maxRec
  else if j.isWriter then bytes j.write.payload
  else if j.routine = 0x022 then bytes j.rom.data
  else if j.routine = 0x034 then bytes ((s.ndefMsg j).getD [])
  else if j.routine = 0x038 then bytes (leBytes 1 (((j.outcome 1 3).getD 0).toNat % 8))
  else if j.routine = 0x039 then (if j.tokResolved then bytes (padTo 10 (s.tab j.resolvedIndex).id) else [])
  else items

/-- DETAIL of a ROM routine as its catalogue gives it (R143, R179, R258). -/
def State.romDetail (s : State) (j : Job) (items : List OutItem) (inForce : BitVec 16) : BitVec 16 :=
  if !j.isRom then inForce
  else if j.isInventory then BitVec.ofNat 16 (countRecords items)
  else if j.isWriter then j.write.detail
  else if j.routine = 0x022 then j.rom.flags.setWidth 16
  else if j.routine = 0x034 then BitVec.ofNat 16 (outLen items)
  else if j.routine = 0x038 then BitVec.ofNat 16 (((j.outcome 1 3).getD 0).toNat % 8)
  else if j.tokResolved then BitVec.ofNat 16 (s.tab j.resolvedIndex).keyIdx
  else inForce

end Sys2Proof.Machine
end

