-- ==== Sys2Proof/Machine/Air.lean ====
section
/-!
DEFINITION. What the field, the sequencer and the inventory engine share on the air (chapters 2, 3, 6 and 7): FIFO
pointers, the members of a swarm job, targets and patterns, ramps, transmit requests, windows and channel faults.
-/

namespace Sys2Proof.Machine

/-! ## FIFOs (R103 to R107) -/

/-- Pointer difference modulo twice the size. -/
def ptrDiff (size a b : Nat) : Nat := (a + 2 * size - b) % (2 * size)

/-- Readable bytes. -/
def Fifo.readable (f : Fifo) (size : Nat) : Nat := f.data.length - ptrDiff size f.rd f.rel

/-- Free bytes. -/
def Fifo.space (f : Fifo) (size : Nat) : Nat := size - f.data.length

/-- Write position. -/
def Fifo.wrPos (f : Fifo) (size : Nat) : Nat := (f.rel + f.data.length) % (2 * size)

/-- The next `n` readable bytes from offset `k` on. -/
def Fifo.peek (f : Fifo) (size k n : Nat) : List Byte := (f.data.drop (ptrDiff size f.rd f.rel + k)).take n

/-- Advance RD by `n`. -/
def Fifo.skip (f : Fifo) (size n : Nat) : Fifo := { f with rd := (f.rd + n) % (2 * size) }

/-- Append bytes at the write position. -/
def Fifo.append (f : Fifo) (bs : List Byte) : Fifo := { f with data := f.data ++ bs }

/-- MARK. -/
def Fifo.setMark (f : Fifo) : Fifo := { f with mark := f.rd, mvalid := true }

/-- RELEASE. -/
def Fifo.release (f : Fifo) (size : Nat) : Fifo :=
  { f with data := f.data.drop (ptrDiff size f.rd f.rel), rel := f.rd
           mvalid := f.mvalid && decide (ptrDiff size f.mark f.rd ≤ size) }

/-- DROP (R222). -/
def Fifo.dropAll (f : Fifo) (size : Nat) : Fifo := { f with rd := f.wrPos size }.release size

/-- Sizes of the TX and RX FIFOs. -/
def txSize : Nat := 1024
/-- Size of the RX FIFO. -/
def rxSize : Nat := 2048

/-! ## Members and targets -/

/-- The channels that move together with `n`: the members of the swarm job that holds it (R191), or `n` alone. -/
def State.team (s : State) (n : Nat) : List Nat :=
  match s.jobOn n with
  | none => [n]
  | some j => if j.group.isSome then (maskList j.mask).map fun c => c.val else [n]

/-- The lead of those channels (R185). -/
def State.leadAt (s : State) (n : Nat) : Nat := (s.team n).headD n

/-- Every member satisfies a test. -/
def State.teamAll (s : State) (n : Nat) (p : Nat → Chan → Bool) : Bool := (s.team n).all fun m => p m (s.ch m)

/-- Set a field state on all members. -/
def State.teamField (s : State) (n : Nat) (f : FieldState) : State := s.each (s.team n) fun s m => s.setField m f

/-- A coupling measurement. -/
def Maint.isCoupling (m : Maint) : Bool := match m.kind with | .coupling _ _ _ => true | _ => false

/-- The coupling measurement that runs on channel `n` (R199). -/
def State.couplingOn (s : State) (n : Nat) : Option Maint :=
  s.maint.find? fun m => m.running && m.isCoupling && bitOf m.mask.toNat n

/-- Drive level of a coupling measurement in mW. -/
def Maint.driveMw (m : Maint) : Option Nat := match m.kind with | .coupling _ _ mw => some mw.toNat | _ => none

/-- Target in force of channel `n` in mW (R39, R195, R199). -/
def State.targetMw (s : State) (n : Nat) : Nat :=
  let own := match s.jobOn n with
    | none => (s.couplingOn n).bind Maint.driveMw
    | some j => if j.ended.isSome then none else match (s.ch n).swTarget with | some t => some t | none => j.target
  min (own.getD (s.rd (R.CH_TXPWR_TARGET n))) (s.rd (R.CH_TXPWR_CAP n))

/-- Largest number below `2 ^ (k + 1)` added to `r` whose square is at most `x`. -/
def isqrtFrom (x : Nat) : Nat → Nat → Nat
  | 0, r => if (r + 1) * (r + 1) ≤ x then r + 1 else r
  | k + 1, r => isqrtFrom x k (if (r + 2 ^ (k + 1)) * (r + 2 ^ (k + 1)) ≤ x then r + 2 ^ (k + 1) else r)

/-- Integer square root of a number below 2¹²⁸. -/
def isqrt (x : Nat) : Nat := isqrtFrom x 63 0

/-- VTX_NEED in mV for a target, clamped to 3,000 to 16,000 (R37); rounded to the nearest mV, log entry 21. -/
def vtxNeed (mw rl rout : Nat) : Nat :=
  let num := 4 * mw * (100 * rl + rout) ^ 2 * 10 ^ 8
  let den := rl * 81027 ^ 2
  min 16000 (max 3000 ((isqrt (num / den) + 1) / 2))

/-- VTX_NEED of channel `n`. -/
def State.vtxNeedOf (s : State) (n : Nat) : Nat :=
  vtxNeed (s.targetMw n) (s.rd (R.CH_TXLOAD_RL n)) (s.rd (R.CH_TXLOAD_ROUT n))

/-- Need of channel `n` under a rail hold: TARGET clamped to CAP (R418). -/
def State.holdNeed (s : State) (n : Nat) : Nat :=
  vtxNeed (min (s.rd (R.CH_TXPWR_TARGET n)) (s.rd (R.CH_TXPWR_CAP n))) (s.rd (R.CH_TXLOAD_RL n)) (s.rd (R.CH_TXLOAD_ROUT n))

/-- VMAX in force, in mV. -/
def State.vmax (s : State) : Nat := getBits s.pmb.vlim 16 16

/-- The demand on the rail, in mV (R418). -/
def State.railDemand (s : State) : Nat :=
  let needs := (List.range 8).map fun n =>
    if (s.jobOn n).isSome then min (s.vtxNeedOf n) s.vmax
    else if bitOf s.pmb.rail.toNat n then min (s.holdNeed n) s.vmax else 0
  let step := getBits s.pmb.vstep 0 10
  min s.vmax (ceilDiv (needs.foldl max (getBits s.pmb.vlim 0 16)) step * step)

/-- The ULINEAR16 mantissa ⌈V × 2^−N⌉ of a rail in mV (R416). -/
def mantissaOf (mv : Nat) (e : Int) : Nat :=
  if 0 ≤ e then ceilDiv mv (1000 * 2 ^ e.toNat) else ceilDiv (mv * 2 ^ (-e).toNat) 1000

/-- The data word of VOUT_COMMAND; a mantissa of more than 16 bits leaves it free (R416). -/
def voutWord (mv : Nat) (e : Int) : BitVec 16 :=
  if mantissaOf mv e < 2 ^ 16 then BitVec.ofNat 16 (mantissaOf mv e) else Config.wideMantissa (mantissaOf mv e)

/-- A transaction, with PEC as PMB_CTL has it (R416). -/
def State.pmbTxn (s : State) (op : Nat) (code : Byte) (data : BitVec 16) : PmbTxn :=
  { op := op, code := code, data := data, pec := s.isOn R.PMB_CTL_PEC }

/-- VOUT_COMMAND with the demand (R421). -/
def State.railCommand (s : State) : State :=
  { s with pmb := { s.pmb with
      state := .change, cmd := s.railDemand, demand := s.railDemand, reads := 0, lower := 0, attempts := 0
      sent := some (s.pmbTxn 5 0x21 (voutWord s.railDemand s.pmb.expN)) } }

/-- The demand is computed, and one above the commanded rail is commanded at once (R418, R421). -/
def State.railRaise (s : State) : State :=
  if s.pmb.state == .ready && decide (s.pmb.cmd < s.railDemand) then s.railCommand
  else { s with pmb := { s.pmb with demand := s.railDemand } }

/-- Carrier phase PH of a channel (R63). -/
def State.phaseOf (s : State) (n : Nat) : BitVec 10 :=
  BitVec.ofNat 10 (s.rd (R.CH_PHASE_PHASE n) + s.rd R.SYN_PHOFS_PHOFS + (s.ch n).w.toNat)

/-- Phase in force: while the field is OFF a change of PH takes effect at once (R64). -/
def State.phaseNow (s : State) (n : Nat) : BitVec 10 :=
  if (s.ch n).field == .off then s.phaseOf n else (s.ch n).phNow

/-- Phase of the local oscillator of a channel (R77); in a swarm job PH holds the phase weight W. DEDUCED, log entry 73. -/
def State.loPhase (s : State) (n : Nat) : BitVec 10 := s.phaseNow n + BitVec.ofNat 10 (s.rd (R.CH_RXLO_LO_PH n))

/-! ## Modulation (R45 to R47, R99) -/

/-- Waveform of a TXMODE (R45). A bit of ISO/IEC 14443 B at 106 kbit/s lasts 128 carrier cycles. -/
def waveOf (txMode : Nat) : Wave :=
  if txMode < 4 then ⟨.modifiedMiller, 0, [36, 18, 9, 6].getD txMode 6, 0⟩
  else if txMode < 8 then ⟨.nrzl, 1, 128 / 2 ^ (txMode - 4), 205⟩
  else
    let coding : AirCoding := if txMode < 10 then .oneOf4 else .oneOf256
    if txMode % 2 = 0 then ⟨coding, 2, 128, 178⟩ else ⟨coding, 3, 128, 0⟩

/-- A profile of the ROM shaping table: the last value of each part fills its 16 entries (R47). -/
def romProfile (fall rise : List Nat) : List Byte :=
  let fill (l : List Nat) : List Byte := (List.range 16).map fun i => BitVec.ofNat 8 (l.getD i (l.getLastD 0))
  fill fall ++ fill rise

/-- The ROM shaping table (R47). -/
def romShape : List Byte :=
  romProfile [160, 64, 16, 0] [64, 160, 224, 255] ++ romProfile [248, 235, 220, 210, 205] [212, 225, 240, 250, 255]
    ++ romProfile [240, 215, 190, 178] [190, 215, 240, 255] ++ romProfile [200, 120, 40, 0] [40, 120, 200, 255]

/-- The shaping table of a channel (R46). -/
def Chan.shaping (c : Chan) : List Byte := c.shape.getD romShape

/-- STEP_Pp: carrier cycles for which each entry of a profile is held. -/
def State.profileStep (s : State) (n p : Nat) : Nat := getBits (s.rdWord (R.CH_WSSTEP n)) (4 * p) 4

/-- Levels of one pause, a carrier cycle each, from the start of the fall to the end of the rise: each entry is held for
`step` cycles, the last fall entry until the rise starts, and after the rise the level is the unmodulated one (R46). -/
def pauseLevels (profile : List Byte) (step pause : Nat) : List Nat :=
  (List.range (pause + 16 * step)).map fun t =>
    let k := if t < pause then min (t / step) 15 else 16 + (t - pause) / step
    (profile.getD k 0).toNat

/-- Levels of a pause of a waveform on channel `n`. -/
def State.waveLevels (s : State) (n : Nat) (w : Wave) : List Nat :=
  pauseLevels (((s.ch n).shaping.drop (32 * w.profile.val)).take 32) (s.profileStep n w.profile.val) w.pause

/-- Parity bits that follow the whole bytes of a frame on the air: odd, in the ISO/IEC 14443 A modes (R99). A short frame
carries none. At the higher rates too: PRESUMED, log entry 74. -/
def airParity (txMode : Nat) (bytes : List Byte) (bits : Nat) : List Bool :=
  if txMode < 4 then (bytes.take (bits / 8)).map fun b => popcount8 b.toNat % 2 == 0 else []

/-- The device clears the sub-carrier flag in every ISO/IEC 15693 request (R87): bit 0 of the flags byte. -/
def singleSub (txMode : Nat) (body : List Byte) : List Byte :=
  match body with
  | [] => []
  | b :: bs => (if 8 ≤ txMode then b &&& 0xFE else b) :: bs

/-- A ROM routine sends every ISO/IEC 15693 request with the data-rate flag of its RATE (R511): bit 1 of the flags byte. -/
def rateFlagged (txMode rate : Nat) (body : List Byte) : List Byte :=
  match body with
  | [] => []
  | b :: bs => (if 8 ≤ txMode then (b &&& 0xFD) ||| BitVec.ofNat 8 (rateBit rate) else b) :: bs

/-- The bytes that a TX of `bits` bits sends before its CRC (R87, R511). -/
def State.sentBody (s : State) (n : Nat) (j : Job) (bits : Nat) : List Byte :=
  let c := s.ch n
  let body := singleSub c.seq.txMode.toNat (c.txf.peek txSize 0 (ceilDiv bits 8))
  if j.isRom then rateFlagged c.seq.txMode.toNat (s.romRate j) body else body

/-! ## Sequencer control -/

/-- The sequencer goes on with the next instruction. -/
def Seq.resume (q : Seq) : Seq := { q with run := .run, pc := q.pc + 1 }

/-- Set a general register. -/
def Seq.setG (q : Seq) (r : GReg) (v : Word) : Seq := { q with g := q.g.setIfInBounds r.val v }

/-- A general register. -/
def Seq.getG (q : Seq) (r : GReg) : Word := q.g.toList.getD r.val 0

/-- An RX or XCH ends with a frame event code; `good` when the frame was delivered (R101, R220, R225). -/
def Seq.takeEvent (q : Seq) (rd : GReg) (code : BitVec 4) (good : Bool) : Seq :=
  { (q.setG rd (code.setWidth 32)).resume with fz := good }

/-- What the sequencer of channel `n` waits for. -/
def State.blockOf (s : State) (n : Nat) : Option Block :=
  match (s.ch n).seq.run with
  | .blocked b => some b
  | _ => none

/-- The sequencer of `n` is blocked on `b`: it resumes. -/
def State.resumeIf (s : State) (n : Nat) (b : Block) : State :=
  if s.blockOf n = some b then s.modSeq n Seq.resume else s

/-! ## Patterns (R194 to R198) -/

/-- Base of pattern `p` in the SRAM. -/
def patBase (p : Nat) : Nat := 0x175000 + 48 * p

/-- AMPW of channel `n` in pattern `p`. -/
def State.ampw (s : State) (p n : Nat) : Nat := s.snat (patBase p + 4 * (4 + n)) 4 % 256

/-- PHW of channel `n` in pattern `p`. -/
def State.phw (s : State) (p n : Nat) : Nat := bitsOf (s.snat (patBase p + 4 * (4 + n)) 4) 8 10

/-- The sum of R195 over the members. -/
def State.patSum (s : State) (p : Nat) (ms : List Nat) : Nat :=
  (ms.map fun m => s.ampw p m ^ 2 * s.rd (R.CH_TXLOAD_RL m)).sum

/-- The reserved bits of the word of channel `n` are zero (R5, R194). -/
def State.patWordOk (s : State) (p n : Nat) : Bool := bitsOf (s.snat (patBase p + 4 * (4 + n)) 4) 18 14 == 0

/-- A selection passes the checks of R196; an entry with a reserved bit set counts as one that is not VALID (R5). -/
def State.patOk (s : State) (p : Nat) (members : BitVec 8) : Bool :=
  let w := s.snat (patBase p) 4
  bitOf w 31 && !bitOf w 11 && s.snat (patBase p + 8) 8 == 0 && (List.range 8).all (fun n => s.patWordOk p n)
    && w % 256 == members.toNat && s.patSum p ((maskList members).map fun c => c.val) != 0

/-- The members take their targets and phase weights (R195); the quotient is rounded to the nearest mW. -/
def State.takePattern (s : State) (p : Nat) (members : BitVec 8) : State :=
  let ms := (maskList members).map fun c => c.val
  let total := s.patSum p ms
  let ptot := bitsOf (s.snat (patBase p) 4) 16 15
  s.each ms fun t m =>
    let pn := divRound (ptot * s.ampw p m ^ 2 * s.rd (R.CH_TXLOAD_RL m)) total
    let t1 := t.modCh m fun c => { c with swTarget := some pn, muted := s.ampw p m == 0, w := BitVec.ofNat 10 (s.phw p m) }
    if s.rd (R.CH_TXPWR_CAP m) < pn then t1.setFlag R.SWARM_STAT_PCLAMP else t1

/-- The channel runs a swarm job. -/
def State.inSwarm (s : State) (n : Nat) : Bool := ((s.jobOn n).map fun j => j.group.isSome) == some true

/-- The valid cache entry of the current position, when calibrations start from the cache (R55). -/
def State.cachedIq (s : State) (n : Nat) : Option (BitVec 12 × BitVec 12) :=
  let k := (s.ch n).curPos.toNat
  if s.isOn (R.CH_CCCTL_CACHE n) && s.isOn (R.CH_CCPOS_VALID n k) then
    some (BitVec.ofNat 12 (s.rd (R.CH_CCPOS_I n k)), BitVec.ofNat 12 (s.rd (R.CH_CCPOS_Q n k)))
  else none

/-- Loop ticks of 2.36 µs within which the power has settled after a selection in ON: 44.72 µs (R198). -/
def patternTicks : Nat := 19

/-- A member whose weight is 0 takes part at zero amplitude, with both bridge legs at GTX (R193). -/
def State.silent (s : State) (n : Nat) : Bool := s.inSwarm n && (s.ch n).muted

/-- Calibration of the members starts where CC_AUTO is 1 (R54, R192). -/
def State.startCalib (s : State) (n : Nat) : State :=
  s.each (s.team n) fun s m => s.modCh m fun c => { c with
    calib := s.isOn (R.CH_TXCTL_CC_AUTO m)
    calBase := if s.inSwarm m then none else s.cachedIq m }

/-- Select pattern `p` in the job of lead `n` (R196, R198), its field OFF or ON. -/
def State.selectPattern (s : State) (n p : Nat) : State :=
  match s.jobLead n with
  | none => s
  | some j =>
    if j.group.isNone || !s.patOk p j.mask then s.seqFault n 8
    else
      let s1 := (s.takePattern p j.mask).railRaise
      let s2 :=
        if (s1.ch n).field == .on then
          s1.startCalib n |>.each (s1.team n) fun s m => s.modCh m fun c => { c with settleTicks := patternTicks }
        else s1
      s2.modSeq n Seq.resume

/-! ## Ramps and the switch bus -/

/-- A position request of a channel (R61): the registers hold it, and it waits for the bus, and while the field is not OFF
for that too: a host may write CHn_ANT in any field state when no job holds the channel, and the spec takes a request only
in OFF. DESIGN CHOICE, log entry 75. -/
def State.requestAnt (s : State) (n pos : Nat) (en : Bool) : State :=
  ((s.wr (R.CH_ANT_POS n) pos).wr (R.CH_ANT_EN n) en.toNat).modCh n fun c => { c with antWait := true }

/-- A shift is pending for the channel, or its settling runs (CHn_ANT.PEND). -/
def Chan.antPend (c : Chan) : Bool := c.antWait || c.antShift || c.field == .settle

/-- The amplitude at which a ramp ends: AMP with the loop open, one that meets the target with it closed (R38, R49); the
latter is a free value. A member of weight 0 stays at 0 (R193). -/
def State.rampGoal (s : State) (n : Nat) : Nat :=
  if s.silent n then 0
  else if s.isOn (R.CH_TXCTL_LOOP n) then Config.rampAmp s.fresh % 1024 else s.rd (R.CH_TXAMP_AMP n)

/-- The ramp of a channel starts (R49). -/
def State.startRamp (s : State) (n : Nat) : State :=
  ({ s with fresh := s.fresh + 1 } : State).modCh n fun c => { c with
    field := .ramp, wantOn := false, wantOff := false, phNow := s.phaseNow n, settleTicks := 0, rampNt := s.time.nt
    rampTo := s.rampGoal n }

/-- A field-on request of the job of lead `n` is refused: SYN_CUT sets and the sequencer takes a fault (R49, R74). -/
def State.refuseOn (s : State) (n : Nat) : State :=
  let s1 := s.each (s.team n) fun s m =>
    (s.setFlag (R.CH_TXSTAT_SYN_CUT m)).modCh m fun c => { c with wantOn := false }
  s1.seqFault n 6

/-- Carry out a pending field-on request once every member is OFF with nothing pending (R49, R191). -/
def State.tryRamp (s : State) (n : Nat) : State :=
  let l := s.leadAt n
  if s.teamAll l fun _ c => c.field == .off && c.wantOn && !c.antPend then
    if s.locked then s.each (s.team l) fun s m => s.startRamp m else s.refuseOn l
  else s

/-! ## Transmit requests and exchanges (R16, R227, R228) -/

/-- The declared worst case of a job fits every channel it holds (R227, R353); while a drain is in force the remaining
window counts as 0 (R483). -/
def State.exchangeFits (s : State) (j : Job) (extraUs : Nat) : Bool :=
  s.drain.isNone && (maskList j.mask).all fun c => fitsWindow (s.remaining j.cls c.val s.nt) ((j.decl.wcx + extraUs) * 1000)

/-- The job waits for its gate window: its field ramps down (R16, R355). -/
def State.waitForGate (s : State) (n : Nat) (j : Job) : State :=
  let s1 := s.modJob j.id fun k => { k with state := .waiting, waited := true }
  (s1.modCh n fun c => { c with txReq := c.txReq.map fun r => { r with gate := true } }).stopFields j.mask

/-- The exchange of a transmit that starts: a new one, or the last one that goes on (R228). -/
def nextExch (c : Chan) (r : TxReq) (nt : BitVec 64) : Exch :=
  let fresh : Exch := { startNt := nt, engine := r.engine }
  if r.cont then { (match c.exch with | some e => e | none => c.lastExch.getD fresh) with closeNt := none, contd := true }
  else fresh

/-- The transmit of lead `n` starts: its members modulate (R49, R104, R227). An exchange that was kept open for a continuation
that has not come ends first (R249). -/
def State.startMod (s : State) (n : Nat) (j : Job) (r : TxReq) : State :=
  let s := if r.cont then s else s.endExchange n
  let last := match r.bytes.getLast? with
    | none => false
    | some b => bitOf b.toNat (if r.bits % 8 = 0 then 7 else r.bits % 8 - 1)
  let coil := BitVec.ofNat 3 (s.ch n).curPos.toNat
  let s1 := s.modCh n fun c => { c with
    txf := c.txf.skip txSize r.fifo, airOut := r.bytes, airBits := r.bits, airPar := airParity r.txMode r.bytes r.bits
    lastBit := last, txReq := none, txNow := some r
    exch := some (nextExch c r s.time.nt), ev := if r.cont then c.ev else none }
  let s2 := s1.modJob j.id fun k =>
    { k with state := .running, started := true, coil0 := if k.started then k.coil0 else coil }
  let body := if r.engine then r.bytes else r.bytes.take r.fifo
  let s3 := (s2.noteCommand j (!r.engine) r.txMode body).noteTx j (!r.engine) r.txMode body r.bytes.length r.bits r.cont
  let s4 := if r.cont then s3 else s3.reserveBeats n s.nt (s.nt + j.decl.wcx * 1000)
  let w := waveOf r.txMode
  (s4.each (s4.team n) fun s m => s.modCh m fun c => { c with wave := some w, airShape := s.waveLevels m w }).teamField n .mod

/-- Carry out a waiting transmit once every member is ON with no calibration running and no window open (R227). A job that is marked
to stop starts no further exchange: it ends where it would (R284, R316). -/
def State.tryTx (s : State) (n : Nat) : State :=
  match (s.ch n).txReq, s.jobLead n with
  | some r, some j =>
    if (s.teamAll n fun _ c => c.field == .on && !c.calib && c.settleTicks == 0 && !c.wantOff) && (s.ch n).win.isNone
        && j.ended.isNone then
      match j.marked, r.cont with
      | some rc, false => (s.endExchange n).endJobInForce j.id rc true
      | _, _ => if r.cont || s.exchangeFits j 0 then s.startMod n j r else s.waitForGate n j
    else s
  | _, _ => s

/-- The field of lead `n` has reached ON or OFF: what waits for it goes on. -/
def State.kick (s : State) (n : Nat) : State :=
  match s.blockOf n with
  | some (.pattern p) =>
    if (s.teamAll n fun _ c => c.field == .on) || (s.teamAll n fun _ c => c.field == .off) then
      s.selectPattern n p.toNat
    else s
  | some .fon => if s.teamAll n fun _ c => c.field == .on && !c.calib then s.modSeq n Seq.resume else s
  | _ => s.tryTx n

/-- The close of a window does not end the exchange: a frame with CONT is to follow (R170, R228). -/
def State.keepsExch (s : State) (n : Nat) : Bool :=
  match s.jobLead n with
  | none => false
  | some j => j.ended.isNone && ((s.ch n).seq.cont || j.write.eofDue || s.w3Open j)

/-- The exchange of lead `n` waits for a continuation (R228). -/
def State.waitsCont (s : State) (n : Nat) : Bool := ((s.ch n).exch.bind Exch.closeNt).isSome

/-- No exchange of lead `n` is in progress any more: what waited for its end takes place (R19, R49). -/
def State.afterExchange (s : State) (n : Nat) : State :=
  if (s.ch n).exch.isSome then s.kick n
  else
    match (s.jobLead n).bind fun j => j.marked.map fun rc => (j.id, rc) with
    | some (id, rc) => s.endJobInForce id rc true
    | none =>
      if (s.ch n).wantOff then s.each (s.team n) fun s m => s.stopField m else s.kick n

/-- The response window of lead `n` closes (R49, R93, R94): RXW to ON. -/
def State.closeWindow (s : State) (n : Nat) : State :=
  let s0 := match s.jobLead n with
    | none => s
    | some j => if ((s.ch n).win.map fun w : Window => w.engine) == some true then s else s.noteClose j
  let s1 := (s0.teamField n .on).modCh n fun c => { c with win := none }
  let s2 :=
    if s1.keepsExch n then s1.modCh n fun c => { c with exch := c.exch.map fun e : Exch => { e with closeNt := some s1.time.nt } }
    else s1.endExchange n
  s2.afterExchange n

/-- CONT has been cleared before the frame that was to continue came: the exchange ended with its last window (R228, R249). -/
def State.contGone (s : State) (n : Nat) : State :=
  if s.waitsCont n && !s.keepsExch n then (s.endExchange n).afterExchange n else s

/-! ## Channel faults (R51, R52, R230) -/

/-- END event word of the inventory engine (R233). -/
def endWord (rc : Byte) : Word := rc.setWidth 32

/-- The event word that INVS returns ends the inventory (R220). -/
def Seq.takeInvs (q : Seq) (rd : GReg) (w : Word) (isEnd : Bool) : Seq :=
  { (q.setG rd w).resume with fz := isEnd }

/-- The air instruction in progress on lead `n` returns at once (R230). -/
def State.cutAir (s : State) (n : Nat) : State :=
  match s.blockOf n with
  | some .fon | some .foff | some .ant | some (.tx none) | some (.pattern _) => s.modSeq n Seq.resume
  | some (.tx (some rd)) | some (.rx rd) => s.modSeq n fun q => q.takeEvent rd 8 false
  | some (.invs rd) =>
    (s.modInv n fun c => { c with phase := .ended, endRc := rcFault, waiting := false }).modSeq n fun q =>
      q.takeInvs rd (endWord rcFault) true
  | _ => s

/-- A fault of a member has ended the exchange of lead `n`: the other members leave MOD and RXW with it, and a field-off request
that waited for its end is carried out (R49, R191). -/
def State.leaveAir (s : State) (n : Nat) : State :=
  s.each (s.team n) fun s m =>
    match (s.ch m).field with
    | .mod | .rxw => if (s.ch m).wantOff then (s.setField m .on).stopField m else s.setField m .on
    | .off | .settle | .ramp | .on | .down | .fault => s

/-- What a channel fault does to the job of lead `n`: wind-up, or the end of the job (R52, R172, R230). A fault that cuts a write step
of a job marked to stop ends it with the RC of that step (R172). A window whose frame event was given already gives no second one
(R101): DEDUCED, log entry 104. -/
def State.faultJob (s : State) (n : Nat) : State :=
  match s.jobLead n with
  | none => s
  | some j =>
    let c := s.ch n
    let s1 := s.noteFault j c.exch.isSome (decide (c.exch.isSome ∧ c.win.isNone))
    let open' := (c.win.map fun w : Window => !w.done) == some true
    let s2 := if open' then s1.wr (R.CH_RXSTAT_LAST_FEV n) 8 else s1
    let s3 := ((s2.modCh n fun c => { c with win := none, txReq := none, txNow := none, ev := none }).endExchange n).leaveAir n
    if j.ended.isSome then s3
    else
      match j.marked with
      | some rc =>
        let step := if c.exch.isSome && j.write.inStep then (s1.job? j.id).bind fun k => k.write.rc else none
        s3.endJobInForce j.id (step.getD rc) true
      | none =>
        if j.decl.src = 0 ∧ !j.isWriter then s3.seqFault n 11
        else
          let s4 := s3.modJob j.id fun k => { k with state := if k.state = .waiting then .running else k.state }
          (s4.cutAir n).modSeq n fun q => { q with windup := true, windN := 0 }

/-- A coupling measurement that a fault on channel `n` stops (R201). -/
def State.stopCoupling (s : State) (n : Nat) : State :=
  let hit (m : Maint) : Bool := m.running && bitOf m.mask.toNat n && m.isCoupling
  if s.maint.any hit then
    ({ s with maint := s.maint.filter fun m => !hit m }.setFlag R.SWARM_CMDSTAT_DONE).wr R.SWARM_CMDSTAT_ERR 2
  else s

/-- While TSTATE is HARD a coupling measurement waits (R316): one that runs gives its members free and is due again, and a
member that ramps goes down at its ramp's end. It starts anew when it is granted again: DEDUCED, log entry 95. -/
def State.pauseCoupling (s : State) : State :=
  let runs := s.maint.filter fun m => m.running && m.isCoupling
  let s1 : State := { s with maint := s.maint.map fun m =>
    if m.running && m.isCoupling then { m with running := false, left := [] } else m }
  s1.each (runs.flatMap fun m => maskList m.mask) fun s n => s.stopField n.val

/-- The coupling measurement that runs on channel `n` drives its next member once every member is OFF and in position
(R199). Without LOCK the field is refused, and the measurement stops (R49, R201). -/
def State.driveNext (s : State) (n : Nat) : State :=
  match s.couplingOn n with
  | none => s
  | some m =>
    match m.left with
    | [] => s
    | k :: ks =>
      if (maskList m.mask).all fun c => (s.ch c.val).field == .off && !(s.ch c.val).antPend then
        if s.locked then
          { s with maint := s.maint.map fun x => if x = m then { x with left := ks } else x }.startRamp k
        else (s.setFlag (R.CH_TXSTAT_SYN_CUT k)).stopCoupling n
      else s

/-- The field states that a fault of R51 acts on. -/
def FieldState.faultable (f : FieldState) : Bool := f.live || f == .fault

/-- A fault bit sets on channel `n`, which enters FAULT, and DIAG counts it (R51, R52). -/
def State.faultChan (s : State) (n : Nat) (bit : Fld) (cnt : Fld) : State :=
  if (s.ch n).field.faultable then
    ((s.setFlag bit).bump cnt).modCh n fun c =>
      { c with field := .fault, wantOn := false, wantOff := false, calib := false, settleTicks := 0 }
  else s

/-- A fault that arises on the channels of a list; the jobs that hold them end or wind up (R52). -/
def State.faultChans (s : State) (l : List Nat) (bit : Nat → Fld) (cnt : Fld) : State :=
  let hit := l.filter fun n => (s.ch n).field.live
  let leads := (hit.map fun n => s.leadAt n).eraseDups
  let s1 := s.each l fun s n => s.faultChan n (bit n) cnt
  let s2 := s1.each hit fun s n => s.stopCoupling n
  s2.each leads fun s n => s.faultJob n

end Sys2Proof.Machine
end

