-- ==== Sys2Proof/Machine/Inventory.lean ====
section
/-!
DEFINITION. The inventory engine (chapter 4): the anticollision of the three protocols, its reports to INVS, the merge
unit, the ager and the table commands.
-/

namespace Sys2Proof.Machine

/-- What the receiver passes to the engine of one frame event (R112): the event, the data bits with those captured, the
first collided bit (4095 when none), the number of collided bits and the level. -/
structure RxInfo where
  code : Nat
  bits : List Bool := []
  caps : List Bool := []
  cpos : Nat := 4095
  ncoll : Nat := 0
  rssi : Nat := 0
  /-- Serial number of the locate of the frame (R207). -/
  loc : Option Nat := none
  deriving DecidableEq, Repr

/-- CRC bytes that a CRC kind appends (R96). -/
def frameCrc (kind : Nat) (bs : List Byte) : List Byte :=
  if kind = 0 then [] else if kind = 1 then leBytes 2 (crcA bs) else leBytes 2 (crcB bs)

/-! ## Latched options (R115) and the configuration word (R232) -/

/-- RETRY. -/
def InvCtx.retry (c : InvCtx) : Nat := bitsOf c.ctl.toNat 12 4
/-- SHORTCUT. -/
def InvCtx.shortcut (c : InvCtx) : Bool := bitOf c.ctl.toNat 0
/-- IDENT mode. -/
def InvCtx.ident (c : InvCtx) : Bool := bitOf c.ctl.toNat 2
/-- PROTO of INVO. -/
def InvCtx.proto (c : InvCtx) : Nat := getBits c.cfg 0 2
/-- WAKE. -/
def InvCtx.wake (c : InvCtx) : Bool := bitOf c.cfg.toNat 2
/-- SLOTS16. -/
def InvCtx.slots16 (c : InvCtx) : Bool := bitOf c.cfg.toNat 3
/-- HOLD. -/
def InvCtx.hold (c : InvCtx) : Bool := bitOf c.cfg.toNat 4
/-- AFI_EN. -/
def InvCtx.afiEn (c : InvCtx) : Bool := bitOf c.cfg.toNat 5
/-- AFI. -/
def InvCtx.afi (c : InvCtx) : Byte := BitVec.ofNat 8 (getBits c.cfg 16 8)

/-- The bit chosen at a collision (R116). -/
def InvCtx.choose (c : InvCtx) (captured value : Bool) : Bool :=
  if captured && bitOf c.ctl.toNat 3 then value else !bitOf c.ctl.toNat 1

/-- RC of R133 by the counts so far. -/
def InvCtx.rcNow (c : InvCtx) : Byte :=
  if 0 < c.stackLeft then rcCollision else if c.tagErr then rcTagError else if c.sofSeen then rcDone else rcNoTag

/-! ## Reports (R233, R234) -/

/-- SIGHT word of a merged sighting. -/
def sightWord (r : Option (Nat × Bool)) : Word :=
  match r with
  | none => BitVec.ofNat 32 (2 ^ 28 + 2 ^ 15)
  | some (i, isNew) => BitVec.ofNat 32 (2 ^ 28 + i + 2 ^ 14 * isNew.toNat)

/-- SIGHT word of a held sighting. -/
def heldWord : Word := BitVec.ofNat 32 (2 ^ 28 + 2 ^ 16)

/-- ROUND word. -/
def roundWord (nodes : Nat) : Word := BitVec.ofNat 32 (2 ^ 29 + nodes)

/-- INVS of channel `n` returns a word. -/
def State.returnInvs (s : State) (n : Nat) (w : Word) (isEnd : Bool) : State :=
  match s.blockOf n with
  | some (.invs rd) => s.modSeq n fun q => q.takeInvs rd w isEnd
  | _ => s

/-- A round or pass has ended: its ROUND word is returned (R233), and a ROM routine holds its limits against it (R257). -/
def State.endRound (s : State) (n nodes : Nat) : State :=
  let s1 := s.modInv n fun c => { c with phase := .round }
  let s2 := match s1.jobLead n with
    | none => s1
    | some j => s1.noteRound j nodes
  s2.returnInvs n (roundWord nodes) false

/-- The inventory ends with a code. -/
def State.endInv (s : State) (n : Nat) (rc : Byte) : State :=
  (s.modInv n fun c => { c with phase := .ended, endRc := rc }).returnInvs n (endWord rc) true

/-- Hand the next sighting to the routine, or to the merge queue, which must have space (R114, R235). -/
def State.report (s : State) (n : Nat) : State :=
  let c := (s.ch n).inv
  match c.found with
  | [] => s
  | x :: rest =>
    if c.hold then
      ((s.noteSighting n x).modInv n fun c => { c with
        held := some { sight := x, handle := heldHandle + c.nHeld }, nHeld := c.nHeld + 1, found := rest }).returnInvs n
        heldWord false
    else if s.mergeQ.length < 64 then
      ({ s with mergeQ := s.mergeQ ++ [{ x with asked := true }] }.noteSighting n x).modInv n fun c => { c with found := rest, waiting := true }
    else s

/-! ## Frames -/

/-- Send an engine frame: bytes without CRC, its bits, the CRC kind appended and expected (R230, R233). -/
def State.engineSend (s : State) (n : Nat) (phase : InvPhase) (body : List Byte) (bits txCrc rxCrc : Nat) : State :=
  let c := (s.ch n).inv
  let tx := c.txMode.toNat
  if 12 ≤ tx ∨ 14 ≤ c.rxMode.toNat then s.seqFault n 1
  else if bits = 0 ∧ tx < 8 then s.seqFault n 7
  else if c.rxMode.toNat = 13 ∧ (s.ch n).seq.rawb = 0 then s.seqFault n 7
  else if s.teamAll n fun _ c => c.field == .off then s.seqFault n 6
  else
    let crc := if bits = 0 then [] else frameCrc txCrc body
    let r : TxReq :=
      { bytes := body ++ crc, bits := bits + 8 * crc.length, fifo := 0, engine := true, cont := false
        txMode := tx, rxMode := c.rxMode.toNat, rxCrc := rxCrc, rawb := (s.ch n).seq.rawb.toNat }
    (s.modCh n fun c => { c with txReq := some r, inv := { c.inv with phase := phase } }).tryTx n

/-- SEL of a cascade level, counted from 0. -/
def selByte (level : Nat) : Byte := BitVec.ofNat 8 (0x93 + 2 * level)

/-- Cascade level of a node. -/
def Node.level (x : Node) : Nat := x.lower.length / 3

/-- Bytes of the known bits of a node. -/
def Node.bytes (x : Node) : List Byte := bitsBytes 9 x.bits

/-- BCC of four bytes. -/
def bccOf (u : List Byte) : Byte := u.foldl (fun a b => a ^^^ b) 0

/-- NVB of R119. -/
def nvbOf (n : Nat) : Byte := BitVec.ofNat 8 (16 * (2 + n / 8) + n % 8)

/-- SELECT of four bytes at a level. -/
def State.sendSelect (s : State) (n : Nat) (phase : InvPhase) (level : Nat) (u : List Byte) : State :=
  s.engineSend n phase ([selByte level, 0x70] ++ u ++ [bccOf u]) 56 1 1

/-- ANTICOLLISION of the current node with its known bits. -/
def State.sendAc (s : State) (n : Nat) (phase : InvPhase) : State :=
  let x := (s.ch n).inv.cur
  s.engineSend n phase ([selByte x.level, nvbOf x.bits.length] ++ x.bytes) (16 + x.bits.length) 0 0

/-- REQA or WUPA (R122); `opening` when the stack is empty and the walk starts from the root. -/
def State.sendReqA (s : State) (n : Nat) (opening : Bool) : State :=
  s.engineSend n (.aReq opening) [if (s.ch n).inv.wake then 0x52 else 0x26] 7 0 0

/-! ## ISO/IEC 14443 A (R119 to R125) -/

/-- The next exchange of the current node: reselection from lower level `k` on, ANTICOLLISION, confirmation or
SELECT. -/
def State.nodeA (s : State) (n k : Nat) : State :=
  let c := (s.ch n).inv
  if 3 * k < c.cur.lower.length then
    s.sendSelect n (.aReselect k) k (0x88 :: (c.cur.lower.drop (3 * k)).take 3)
  else if c.cur.bits.length < 32 then s.sendAc n .aAc
  else if c.ident && !c.asSelect then
    if c.cur.bytes.headD 0 = 0x88 then
      (s.modInv n fun c => { c with asSelect := true }).sendSelect n .aSelect c.cur.level c.cur.bytes
    else s.sendAc n .aConfirm
  else s.sendSelect n .aSelect c.cur.level c.cur.bytes

/-- Take the next node from the stack in the walk of IDENT mode. A node of cascade level 2 or 3 is handled as in SELECT mode
(R125). -/
def State.popIdent (s : State) (n : Nat) : State :=
  let c := (s.ch n).inv
  match c.stack with
  | [] => s.endInv n c.rcNow
  | x :: rest => (s.modInv n fun c => { c with cur := x, stack := rest, asSelect := !x.lower.isEmpty }).nodeA n 0

/-- The current node is done with: the walk goes on from the stack (R122, R125). -/
def State.nextA (s : State) (n : Nat) : State :=
  let c := (s.ch n).inv
  if c.ident && !c.asSelect then s.popIdent n
  else
    s.endRound n c.stack.length

/-- After the report of a pass: REQA or WUPA again, for the root or the next node (R122). In IDENT mode it comes before the walk
goes on from an empty stack too, and the inventory ends whatever answers it (R125): DEDUCED, log entry 109. -/
def State.passA (s : State) (n : Nat) : State :=
  let c := (s.ch n).inv
  match c.stack with
  | [] =>
    if c.ident then s.engineSend n .aLast [if c.wake then 0x52 else 0x26] 7 0 0
    else (s.modInv n fun c => { c with cur := {}, asSelect := false }).sendReqA n true
  | x :: rest => (s.modInv n fun c => { c with
      cur := x, stack := rest, asSelect := c.ident && !x.lower.isEmpty }).sendReqA n false

/-- An exchange of the current node failed: repeat it, or abandon the node (R118). -/
def State.retryA (s : State) (n : Nat) (again : State → State) : State :=
  let c := (s.ch n).inv
  if c.cur.tries < c.retry then again (s.modInv n fun c => { c with cur := { c.cur with tries := c.cur.tries + 1 } })
  else (s.modInv n fun c => { c with stackLeft := c.stackLeft + 1 }).nextA n

/-- A tag error: the node is abandoned (R123). -/
def State.tagErrA (s : State) (n : Nat) : State := (s.modInv n fun c => { c with tagErr := true }).nextA n

/-- Push a node; a full stack of 256 discards it (R117). -/
def InvCtx.push (c : InvCtx) (x : Node) : InvCtx :=
  if c.stack.length < 256 then { c with stack := x :: c.stack } else { c with stackLeft := c.stackLeft + 1 }

/-- The sighting that a channel makes now. -/
def State.sightingAt (s : State) (n : Nat) (proto : BitVec 3) (id : List Byte) (info : Nat) (part vol : Bool)
    (r : RxInfo) : Sighting :=
  { proto := proto, id := id, info := BitVec.ofNat 16 info, infoPart := part, volatile := vol
    ch := Fin.ofNat 8 n, coil := (s.ch n).curPos, rssi := r.rssi, loc := r.loc, job := ((s.jobLead n).map fun j => j.id).getD 0 }

/-- A sighting of ISO/IEC 14443 A (R122, R124, R138). -/
def State.foundA (s : State) (n : Nat) (sak : Option Byte) (r : RxInfo) : State :=
  let c := (s.ch n).inv
  let id := c.cur.lower ++ c.cur.bytes
  let x := s.sightingAt n 0 id ((sak.getD 0).toNat + 256 * c.atqa.toNat) sak.isNone
    (id.headD 0 == 0x08) r
  (s.modInv n fun c => { c with phase := .aSighted, found := [x] }).report n

/-- A clean exchange of a node: its count of tries starts again. -/
def State.cleanTry (s : State) (n : Nat) : State := s.modInv n fun c => { c with cur := { c.cur with tries := 0 } }

/-- The answer to ANTICOLLISION (R116, R119 to R121). A clean answer of another length than 40 bits is repeated like a failed
exchange: DESIGN CHOICE, log entry 108. -/
def State.eventAc (s : State) (n : Nat) (r : RxInfo) : State :=
  let c := (s.ch n).inv
  let m := c.cur.bits.length
  let all := c.cur.bits ++ r.bits
  let again (s : State) : State := s.sendAc n .aAc
  if r.code = 1 then s.nextA n
  else if 0 < r.ncoll then
    let k := m + r.cpos
    if 32 ≤ k then s.retryA n again
    else
      let b := c.choose (r.caps.getD r.cpos false) (r.bits.getD r.cpos false)
      let sib : Node := { lower := c.cur.lower, bits := all.take k ++ [!b] }
      (s.modInv n fun c => { c.push sib with cur := { c.cur with bits := all.take k ++ [b], tries := 0 } }).nodeA n 4
  else if r.code = 0 ∧ all.length = 40 then
    let u := bitsBytes 5 all
    if bccOf (u.take 4) = u.getD 4 0 then
      (s.modInv n fun c => { c with cur := { c.cur with bits := all.take 32, tries := 0 } }).nodeA n 4
    else s.retryA n again
  else s.retryA n again

/-- Four bits that answer SELECT as a NAK: any but the ACK 0xA (R123). The CRC over a partial byte makes them F_CODING (R101). -/
def RxInfo.nak (r : RxInfo) : Bool := r.code == 6 && r.bits.length == 4 && r.ncoll == 0 && bitsNat r.bits != 0xA

/-- The answer to SELECT of the current level (R122, R123). An answer with collided bits is repeated like a failed exchange,
and a SAK with the cascade bit at level 3 is a tag error: DESIGN CHOICE, log entry 88. -/
def State.eventSelect (s : State) (n : Nat) (r : RxInfo) : State :=
  let c := (s.ch n).inv
  let again (s : State) : State := s.sendSelect n .aSelect (s.ch n).inv.cur.level (s.ch n).inv.cur.bytes
  if r.code = 1 then s.nextA n
  else if (r.code = 0 ∨ r.code = 2) ∧ r.bits.length = 8 then
    let sak := BitVec.ofNat 8 (bitsNat r.bits)
    if bitOf sak.toNat 2 then
      if 2 ≤ c.cur.level then s.tagErrA n
      else (s.modInv n fun c => { c with cur := { lower := c.cur.lower ++ c.cur.bytes.drop 1 } }).nodeA n 4
    else (s.cleanTry n).foundA n (some sak) r
  else if r.nak then s.tagErrA n
  else s.retryA n again

/-- A frame event of an ISO/IEC 14443 A inventory. A confirming query without an answer drops its node, as any node query
does (R118, R124): DEDUCED, log entry 89. -/
def State.eventA (s : State) (n : Nat) (r : RxInfo) : State :=
  let c := (s.ch n).inv
  match c.phase with
  | .aReq opening =>
    if opening && r.code == 1 then s.endInv n c.rcNow
    else (s.modInv n fun c => { c with atqa := BitVec.ofNat 8 (bitsNat (r.bits.take 8)) }).nodeA n 0
  | .aReselect k =>
    if r.code = 1 then s.nextA n
    else if r.code = 0 ∨ r.code = 2 then (s.cleanTry n).nodeA n (k + 1)
    else if r.nak then s.tagErrA n
    else s.retryA n fun s => s.nodeA n k
  | .aAc => s.eventAc n r
  | .aConfirm =>
    if r.code = 1 then s.nextA n
    else if r.code = 0 ∧ r.bits.length = 8 ∧ BitVec.ofNat 8 (bitsNat r.bits) = bccOf c.cur.bytes then
      (s.cleanTry n).foundA n none r
    else s.retryA n fun s => s.sendAc n .aConfirm
  | .aSelect => s.eventSelect n r
  | .aLast => s.endInv n c.rcNow
  | .aHlta => if r.code = 1 then s.nextA n else s.tagErrA n
  | _ => s

/-! ## ISO/IEC 14443 B (R126 to R128) -/

/-- Code of a slot count. -/
def slotCode (k : Nat) : Nat := if k = 1 then 0 else if k = 2 then 1 else if k = 4 then 2 else if k = 8 then 3 else 4

/-- Send REQB or WUPB (slot 1) or the Slot-MARKER of slot `k`. -/
def State.sendSlotB (s : State) (n k : Nat) : State :=
  let c := (s.ch n).inv
  if k ≤ 1 then
    s.engineSend n (.bSlot 1) [0x05, if c.afiEn then c.afi else 0, BitVec.ofNat 8 (slotCode c.bN + 8 * c.wake.toNat)] 24 2 2
  else s.engineSend n (.bSlot k) [BitVec.ofNat 8 (16 * (k - 1) + 5)] 8 2 2

/-- Slot count of the next round (R127). -/
def nextSlots (k coll empty : Nat) : Nat :=
  if k ≤ 2 * coll then min 16 (2 * k) else if coll = 0 ∧ k ≤ 2 * empty then max 1 (k / 2) else k

/-- Go on after slot `k`: the next slot, or the round's report. -/
def State.afterSlotB (s : State) (n k : Nat) : State :=
  let c := (s.ch n).inv
  if k < c.bN then s.sendSlotB n (k + 1)
  else s.endRound n c.coll

/-- After the report of a round: the inventory ends, or the next round starts (R127). -/
def State.roundB (s : State) (n : Nat) : State :=
  let c := (s.ch n).inv
  if c.good = 0 ∧ c.coll = 0 then s.endInv n c.rcNow
  else
    (s.modInv n fun c => { c with bN := nextSlots c.bN c.coll c.empty, good := 0, coll := 0, empty := 0 }).sendSlotB n 1

/-- A frame event of an ISO/IEC 14443 B inventory. HLTB without an answer is a tag error, like any answer but 0x00 (R126):
DEDUCED, log entry 90. -/
def State.eventB (s : State) (n : Nat) (r : RxInfo) : State :=
  let c := (s.ch n).inv
  match c.phase with
  | .bSlot k =>
    if r.code = 1 then (s.modInv n fun c => { c with empty := c.empty + 1 }).afterSlotB n k
    else if r.code = 0 then
      let d := bitsBytes 12 r.bits
      let x := s.sightingAt n 1 ((d.drop 1).take 4) ((d.getD 10 0).toNat + 256 * (d.getD 5 0).toNat) false
        (bitOf c.ctl.toNat 5) r
      (s.modInv n fun c => { c with good := c.good + 1, cand := some x }).engineSend n (.bHltb k)
        (0x50 :: (d.drop 1).take 4) 40 2 2
    else (s.modInv n fun c => { c with coll := c.coll + 1 }).afterSlotB n k
  | .bHltb k =>
    if r.code = 0 ∧ bitsBytes 2 r.bits = [0x00] then
      (s.modInv n fun c => { c with phase := .bSighted k, found := c.cand.toList, cand := none }).report n
    else (s.modInv n fun c => { c with tagErr := true, cand := none }).afterSlotB n k
  | _ => s

/-! ## ISO/IEC 15693 (R129 to R131, R511) -/

/-- The data-rate flag (R511). -/
def InvCtx.rateFlag (c : InvCtx) : Nat := rateBit (c.rxMode.toNat - 8)

/-- Send the request of the current node, or the EOF that opens slot `k` (R227). At ×2, ×4 and ×8 it is the request of V26: DESIGN
CHOICE, log entry 132. -/
def State.sendSlotV (s : State) (n k : Nat) : State :=
  let c := (s.ch n).inv
  if 0 < k then s.engineSend n (.vSlot k) [] 0 0 3
  else
    let m := c.cur.bits.length
    let flags := (if c.slots16 then 0x04 else 0x24) + c.rateFlag + 16 * c.afiEn.toNat
    let body := [BitVec.ofNat 8 flags, 0x01] ++ (if c.afiEn then [c.afi] else []) ++ [BitVec.ofNat 8 m]
      ++ bitsBytes 8 c.cur.bits
    s.engineSend n (.vSlot 0) body (8 * body.length) 3 3

/-- Start the next node of the stack, or end (R132). -/
def State.nextV (s : State) (n : Nat) : State :=
  let c := (s.ch n).inv
  match c.stack with
  | [] => s.endInv n c.rcNow
  | x :: rest => (s.modInv n fun c => { c with cur := x, stack := rest, pushes := [], quiet := [] }).sendSlotV n 0

/-- Report the next sighting of a round that has ended, or the round itself. -/
def State.reportV (s : State) (n : Nat) : State :=
  let c := (s.ch n).inv
  if c.found.isEmpty then
    s.endRound n c.stack.length
  else (s.modInv n fun c => { c with phase := .vReport }).report n

/-- Send Stay Quiet to the next captured tag (R131), or report. -/
def State.quietV (s : State) (n : Nat) : State :=
  let c := (s.ch n).inv
  match c.quiet with
  | [] => s.reportV n
  | u :: rest =>
    (s.modInv n fun c => { c with quiet := rest }).engineSend n .vQuiet
      ([BitVec.ofNat 8 (0x20 + c.rateFlag), 0x02] ++ u) (16 + 8 * u.length) 3 3

/-- The four bits of a slot number, least significant first. -/
def slotBits (k : Nat) : List Bool := natBits 4 k

/-- A failed exchange of slot `k`: the nodes that repeat it, or none (R118). -/
def InvCtx.retryV (c : InvCtx) (k : Nat) : InvCtx :=
  let m := c.cur.bits.length
  if c.retry ≤ c.cur.tries then { c with stackLeft := c.stackLeft + 1 }
  else if !c.slots16 then { c with pushes := c.pushes ++ [({ c.cur with tries := c.cur.tries + 1 }, true)] }
  else if m + 4 ≤ 60 then
    { c with pushes := c.pushes ++ [({ bits := c.cur.bits ++ slotBits k, tries := c.cur.tries + 1 }, false)] }
  else { c with stackLeft := c.stackLeft + 1 }

/-- A collided slot `k` (R129, R130). In 1-slot mode a collision in the CRC alone would need a mask of more than 64 bits: the node is
abandoned: DESIGN CHOICE, log entry 131. -/
def InvCtx.branchV (c : InvCtx) (k : Nat) (r : RxInfo) : InvCtx :=
  let m := c.cur.bits.length
  let uid := r.bits.drop 16
  let near := 16 ≤ r.cpos && c.shortcut
  let u := r.cpos - 16
  if c.slots16 then
    if !near then
      if m + 4 ≤ 60 then { c with pushes := c.pushes ++ [({ bits := c.cur.bits ++ slotBits k }, false)] }
      else { c with stackLeft := c.stackLeft + 1 }
    else if m + 4 ≤ u then { c with pushes := c.pushes ++ [({ bits := uid.take (min u 60) }, false)] }
    else c.retryV k
  else if near && u < m then c.retryV k
  else if 64 ≤ (if near then u else m) then { c with stackLeft := c.stackLeft + 1 }
  else
    let stem := if near then uid.take u else c.cur.bits
    let pos := if near then r.cpos else 16 + m
    let b := c.choose (r.caps.getD pos false) (r.bits.getD pos false)
    { c with pushes := c.pushes ++ [({ bits := stem ++ [b] }, true), ({ bits := stem ++ [!b] }, false)] }

/-- The nodes of a round go onto the stack: the lowest slot is popped first, and one that is queried next comes on
top (R116, R129). -/
def InvCtx.pushRound (c : InvCtx) : InvCtx :=
  let c1 := c.pushes.reverse.foldl (fun c x => if x.2 then c else c.push x.1) { c with pushes := [] }
  c.pushes.reverse.foldl (fun c x => if x.2 then { c with stack := x.1 :: c.stack } else c) c1

/-- What slot `k` makes of a frame event: a sighting, a branch, a repeat. A clean response of another length than 80 bits makes
none of them: DESIGN CHOICE, log entry 110. -/
def State.slotV (s : State) (n k : Nat) (r : RxInfo) : State :=
  let good := (r.code == 0 || r.code == 2) && r.bits.length == 80
  let id := bitsBytes 8 ((r.bits.drop 16).take 64)
  let x := s.sightingAt n 2 id (bitsNat ((r.bits.drop 8).take 8) + 256 * bitsNat (r.bits.take 8)) false false r
  s.modInv n fun c =>
    let c1 := if good then { c with found := c.found ++ [x] } else c
    let c2 := if good && r.code == 2 && bitOf c.ctl.toNat 4 then { c1 with quiet := c1.quiet ++ [id] } else c1
    if r.code = 1 then c2
    else if 0 < r.ncoll then c2.branchV k r
    else if r.code == 0 || r.code == 2 then c2
    else c2.retryV k

/-- A frame event of an ISO/IEC 15693 inventory. -/
def State.eventV (s : State) (n : Nat) (r : RxInfo) : State :=
  match (s.ch n).inv.phase with
  | .vSlot k =>
    let s1 := s.slotV n k r
    if (s1.ch n).inv.slots16 && k < 15 then s1.sendSlotV n (k + 1)
    else (s1.modInv n InvCtx.pushRound).quietV n
  | .vQuiet => s.quietV n
  | _ => s

/-! ## The engine -/

/-- A frame event of an exchange that the engine runs (R112, R113, R118). F_OVF ends the job. N_COLLX counts the exchanges with
a collided bit; a collided slot of ISO/IEC 14443 B has none: DEDUCED, log entry 91. -/
def State.engineEvent (s : State) (n : Nat) (r : RxInfo) : State :=
  let sof := r.code != 1 && r.code != 8
  let s1 := s.modInv n fun c => { c with
    nExch := c.nExch + 1, nCollx := c.nCollx + (if 0 < r.ncoll then 1 else 0), sofSeen := c.sofSeen || sof }
  if r.code = 9 then
    match s1.jobLead n with
    | none => s1
    | some j => s1.endJobInForce j.id rcFault true
  else
    match (s1.ch n).inv.proto with
    | 0 => s1.eventA n r
    | 1 => s1.eventB n r
    | _ => s1.eventV n r

/-- The engine goes on at an INVS (R234). A B_N0 of 5 to 7, which only an override can give, opens with 16 slots: DESIGN CHOICE,
log entry 92. -/
def State.engineGo (s : State) (n : Nat) : State :=
  let c := (s.ch n).inv
  match c.phase with
  | .start =>
    match c.proto with
    | 0 => s.sendReqA n true
    | 1 => (s.modInv n fun c => { c with bN := 2 ^ min (bitsOf c.ctl.toNat 8 3) 4 }).sendSlotB n 1
    | _ => (s.modInv n fun c => { c with stack := [{}] }).nextV n
  | .aSighted =>
    if c.ident && !c.asSelect then s.popIdent n else s.engineSend n .aHlta [0x50, 0x00] 16 1 1
  | .bSighted k => s.afterSlotB n k
  | .vReport => s.reportV n
  | .round =>
    match c.proto with
    | 0 => s.passA n
    | 1 => s.roundB n
    | _ => s.nextV n
  | .ended => s.returnInvs n (endWord c.endRc) true
  | _ => s

/-- Nodes that are pending when INVE ends an inventory (R231). -/
def InvCtx.nodesPending (c : InvCtx) : Nat :=
  match c.proto with
  | 1 => c.coll
  | _ => c.stack.length

/-- INVS of lead `n` runs the engine, once the sightings that come before its own are in the merge queue (R114). -/
def State.invsGo (s : State) (n : Nat) : State :=
  match s.jobLead n with
  | none => s
  | some j =>
    if j.late.isEmpty then (s.modInv n fun c => { c with goDue := false }).engineGo n
    else s.modInv n fun c => { c with goDue := true }

/-- What waits for space in the merge queue goes on: late sightings first, then the engine calls (R114). -/
def State.retryReports (s : State) : State :=
  let s1 := s.each (s.jobs.map fun j => j.id) fun s id => s.enqueueLate id
  s1.each (List.range 8) fun s n =>
    match s.blockOf n with
    | some (.invs _) =>
      let c := (s.ch n).inv
      if c.goDue then s.invsGo n
      else if !c.found.isEmpty && !c.waiting &&
        (match c.phase with | .aSighted | .bSighted _ | .vReport => true | _ => false) then s.report n
      else s
    | _ => s

/-! ## Commands: the merge unit, the ager and INV_CMD -/

/-- CLEAR or CLEAR_ALL runs: merges wait (R144). -/
def State.mergesWait (s : State) : Bool :=
  match s.invCmd with
  | some (op, _) => op == 5 || op == 6
  | none => false

/-- What CRYR reports of a resolution: the outcome with the index of the entry (R236). -/
def resWord (resolved : Bool) (r : Option (Nat × Bool)) : Word :=
  BitVec.ofNat 32 ((if resolved then 4 else 5) + 2 ^ 16 * (r.map Prod.fst).getD 0)

/-- The head of the merge queue is merged (R114, R135, R136): an INVS that waits for it returns, and a sighting that
CRY handed over ends its request. -/
def State.mergeHead (s : State) : State :=
  match s.mergeQ with
  | [] => s
  | x :: rest =>
    let r : State × Option (Nat × Bool) := { s with mergeQ := rest }.mergeSighting x
    let lead := s.leadOfJob x.job
    let s1 : State :=
      match lead, x.cry with
      | none, _ => r.1
      | some n, none =>
        match x.handle with
        | some h => r.1.bindHeld n x.job h (r.2.map Prod.fst) false
        | none =>
          if x.asked && (r.1.ch n).inv.waiting then
            (r.1.modInv n fun c => { c with waiting := false }).returnInvs n (sightWord r.2) false
          else r.1
      | some n, some resolved =>
        let w := resWord resolved r.2
        let s2 := r.1.bindHeld n x.job (x.handle.getD 0) (r.2.map Prod.fst) (!resolved)
        let settle (h : Held) : Held :=
          if x.handle == some h.handle then { h with result := some (resolved, r.2.map Prod.fst) } else h
        let s3 := s2.modInv n fun c => { c with held := c.held.map settle }
        s3.modJob x.job fun j => { j with
          cryLog := (x.handle.getD 0, w) :: (((r.2.map Prod.fst).map fun k => (k, w)).toList ++ j.cryLog) }
    s1.retryReports

/-- AGER_VISIT: the ager visits an entry (R139). -/
def execAgerVisit (index : BitVec 14) (s : State) : Host.Outcome State Fault Refusal :=
  let e := s.tab index.toNat
  let limit := 100 * (if e.volatile then s.rd R.INV_AGE_VOL_AGE else s.rd R.INV_AGE_AGE)
  .next (if s.engRuns && e.valid && !e.lock && decide (limit ≤ s.ageOf e)
    then (s.freeTab index.toNat).bump R.INV_CNT_1_N_AGED else s)

/-- Identifier that INV_KEY holds. -/
def State.invKeyId (s : State) : List Byte :=
  (leBytes 4 (s.rd R.INV_KEY_0_KEY_LO) ++ leBytes 4 (s.rd R.INV_KEY_1_KEY_MID)
    ++ leBytes 2 (s.rd R.INV_KEY_2_KEY_HI)).take (s.rd R.INV_KEY_2_IDLEN)

/-- The entry that FIND looks for. -/
def State.invKeyFind (s : State) : Option Nat :=
  let x : Sighting :=
    { proto := BitVec.ofNat 3 (s.rd R.INV_KEY_2_PROTO), id := s.invKeyId, info := 0, infoPart := false
      volatile := s.isOn R.INV_KEY_2_VOL, ch := Fin.ofNat 8 (s.rd R.INV_KEY_2_CH)
      coil := BitVec.ofNat 3 (s.rd R.INV_KEY_2_COIL), rssi := 0, job := 0 }
  s.findTab x

/-- Effect of a table command (R144). -/
def State.invEffect (s : State) (op : Nat) (i : Nat) : State :=
  let setLock (b : Bool) : State := if s.tabValid i then s.putTab i { s.tab i with lock := b } else s
  match op with
  | 1 =>
    match s.invKeyFind with
    | none => s.wr R.INV_CMDSTAT_FOUND 0
    | some k => (s.setFlag R.INV_CMDSTAT_FOUND).wr R.INV_CMDSTAT_INDEX k
  | 2 => if s.tabValid i then s.freeTab i else s
  | 3 => setLock true
  | 4 => setLock false
  | 5 => s.each s.tabUsed fun s k => if (s.tab k).lock then s else s.freeTab k
  | _ => s.each s.tabUsed fun s k => s.freeTab k

/-- INV_COMMAND_DONE: the command running takes its effect and ends (R144). -/
def execInvCommandDone (s : State) : Host.Outcome State Fault Refusal :=
  match s.invCmd with
  | none => .next s
  | some (op, i) =>
    .next (if !s.engRuns then s else { s.invEffect op.toNat i.toNat with invCmd := none }.setFlag R.INV_CMDSTAT_DONE)

end Sys2Proof.Machine
end

