-- ==== Sys2Proof/Machine/Swarm.lean ====
section
/-!
DEFINITION. Combined reception and locating of a swarm group (chapter 6): fixed-point arithmetic of response vectors, the
record of a swarm SOF, and the locate unit. The fixed-point widths are the model's. DESIGN CHOICE, log entry 25.
-/

namespace Sys2Proof.Machine

/-! ## Fixed-point arithmetic -/

/-- cos and sin of 2π × 2ᵇ / 1024 for b = 0 to 9, times 2⁴⁰. -/
def rotTab : List (Int × Int) :=
  [(1099490929780, 6746476518), (1099428836573, 13492699036), (1099180475430, 26983366121),
   (1098187217867, 53950478471), (1094217178761, 107770985514), (1078384820155, 214504077523),
   (1015816288660, 420764883643), (777472127994, 777472127994), (0, 1099511627776), (-1099511627776, 0)]

/-- Product of two complex numbers scaled by 2⁴⁰. -/
def cmul40 (a b : Int × Int) : Int × Int :=
  ((a.1 * b.1 - a.2 * b.2) / 2 ^ 40, (a.1 * b.2 + a.2 * b.1) / 2 ^ 40)

/-- Unit vector of an angle in steps of 360°/1024, times 2⁴⁰. -/
def unitAt (k : Nat) : Int × Int :=
  (List.range 10).foldl (fun a b => if bitOf k b then cmul40 a (rotTab.getD b (0, 0)) else a) (2 ^ 40, 0)

/-- 10^(m/40) × 2³⁰ for m = 0 to 39. -/
def powTab : List Nat :=
  [1073741824, 1137365027, 1204758142, 1276144550, 1351760868, 1431857735, 1516700640, 1606570803, 1701766107, 1802602089]
  ++ [1909412977, 2022552809, 2142396597, 2269341577, 2403808519, 2546243128, 2697117519, 2856931779, 3026215629, 3205530179]
  ++ [3395469783, 3596664016, 3809779757, 4035523400, 4274643195, 4527931728, 4796228550, 5080422958, 5381456944, 5700328315]
  ++ [6038094002, 6395873565, 6774852899, 7176288171, 7601509978, 8051927761, 8529034476, 9034411541, 9569734080, 10136776473]

/-- Power ratio of a level in 0.25 dB, times 2³⁰. -/
def powOf (x : Int) : Nat :=
  let m := powTab.getD (x % 40).toNat 0
  if 0 ≤ x then m * 10 ^ (x / 40).toNat else m / 10 ^ (-(x / 40)).toNat

/-- Level in 0.25 dB of a power ratio scaled by 2³⁰: the greatest that does not exceed it. -/
def levelOf (t : Nat) : Int :=
  let d : Int := ((List.range 64).filter fun i => decide (powOf (40 * ((i : Int) - 12)) ≤ t)).length - 13
  let m : Int := ((List.range 40).filter fun i => decide (powOf (40 * d + i) ≤ t)).length - 1
  40 * d + m

/-! ## Geometry and shape (R205, R206) -/

/-- Coil position that a channel has connected: c = 8n + pos. -/
def State.coilIndex (s : State) (n : Nat) : Nat := 8 * n + (s.ch n).curPos.toNat

/-- A word of the geometry entry of coil position `c` (R205). -/
def State.geoAt (s : State) (c k : Nat) : Nat := s.snat (0x176000 + 16 * c + 4 * k) 4

/-- The geometry entry may be used: VALID is set and its reserved bits are zero (R5, R205). -/
def State.geoOk (s : State) (c : Nat) : Bool :=
  bitsOf (s.geoAt c 1) 16 16 &&& 0xFFFD == 1 && bitsOf (s.geoAt c 2) 26 6 == 0 && s.geoAt c 3 == 0

/-- A word of the geometry entry of channel `n`. -/
def State.geo (s : State) (n k : Nat) : Nat := s.geoAt (s.coilIndex n) k

/-- An entry of the shape table. -/
def State.shapeAt (s : State) (k : Nat) : Int := toSigned 16 (s.snat (0x176400 + 2 * k) 2)

/-- S at a distance in 0.1 mm scaled by 2¹⁶, times 2³⁰ (R206). -/
def State.coupling (s : State) (dist rad : Nat) : Int :=
  if rad = 0 then Config.zeroRadius dist * 2 ^ 16
  else
    let u := 16 * dist / rad
    let k := u / 2 ^ 16
    if 32 ≤ k then 0 else s.shapeAt k * 2 ^ 16 + (s.shapeAt (k + 1) - s.shapeAt k) * (u % 2 ^ 16 : Nat)

/-! ## The response vector (R83, R91) -/

/-- cos and sin of an angle of p/4096 rad, |p| ≤ 2,048, times 2⁴⁰. -/
def smallAngle (p : Int) : Int × Int :=
  let t := p * 2 ^ 28
  let t2 := t * t / 2 ^ 40
  let t3 := t2 * t / 2 ^ 40
  let t4 := t2 * t2 / 2 ^ 40
  (2 ^ 40 - t2 / 2 + t4 / 24 - t4 * t2 / 2 ^ 40 / 720, t - t3 / 6 + t3 * t2 / 2 ^ 40 / 120 - t4 * t3 / 2 ^ 40 / 5040)

/-- The image correction of channel `n` while IQ_EN is 1: the Q path turns by P_CORR/4096 rad and is scaled by
1 + G_CORR/4096 (R83). DESIGN CHOICE for the sense of the rotation, log entry 78. -/
def State.imageCorrect (s : State) (n : Nat) (v : Int × Int) : Int × Int :=
  if s.isOn (R.CH_RXCTL_IQ_EN n) then
    let r := smallAngle (s.rdS (R.CH_RXIQ_P_CORR n))
    (v.1, (v.2 * r.1 + v.1 * r.2) * (4096 + s.rdS (R.CH_RXIQ_G_CORR n)) / 2 ^ 52)
  else v

/-- Direction of the response vector of a member after the image correction, with magnitude 2³⁰ (R91); a vector that is
zero has a free direction. The paths measure it relative to the local oscillator, which runs at PH + LO_PH (R77): LO_PH, the
angle by which that leads PH, is added. DEDUCED, log entry 105. -/
def State.direction (s : State) (m : SofMeas) : Int × Int :=
  let v := s.imageCorrect m.ch.val (clampInt (-(2 ^ 30)) (2 ^ 30) m.vecI, clampInt (-(2 ^ 30)) (2 ^ 30) m.vecQ)
  let len : Int := isqrt ((v.1.natAbs ^ 2 + v.2.natAbs ^ 2) * 2 ^ 60)
  if len = 0 then
    let u := unitAt (Config.zeroAngle s.fresh m.ch.val % 1024)
    (u.1 / 2 ^ 10, u.2 / 2 ^ 10)
  else cmul40 (v.1 * 2 ^ 60 / len, v.2 * 2 ^ 60 / len) (unitAt (s.rd (R.CH_RXLO_LO_PH m.ch.val)))

/-! ## The SOF of a swarm frame (R202 to R204) -/

/-- Response vector v of R208 of one member, scaled by 2³⁰: its level by RSSI, which counts from the antenna pins
(R91), its direction as measured, rotated by −W and by −RXPH. -/
def State.respVec (s : State) (m : SofMeas) : Int × Int :=
  let n := m.ch.val
  let d := s.direction m
  let amp := isqrt (powOf (min m.rssi 1023) * 2 ^ 30) * bitsOf (s.geo n 2) 0 16
  let r := unitAt ((2048 - (s.ch n).w.toNat - bitsOf (s.geo n 2) 16 10) % 1024)
  let scale (v : Int) : Int := v * amp / (4096 * 2 ^ 30 * 2 ^ 40)
  (scale (d.1 * r.1 - d.2 * r.2), scale (d.1 * r.2 + d.2 * r.1))

/-- SNR of one member in 0.25 dB (R202). -/
def snrOf (m : SofMeas) : Int := (m.rssi : Int) - m.noise

/-- Members with a non-zero weight (R203, R204). Members that tie at the highest SNR are all kept: DESIGN CHOICE, log entry 115. -/
def State.included (s : State) (lead : Nat) (meas : List SofMeas) : List SofMeas :=
  if !s.isOn R.SWARM_CTL_COMB_EN then meas.filter fun m => m.ch.val == lead
  else if !s.isOn R.SWARM_CTL_AUTO_EXCL then meas
  else
    let top := meas.foldl (fun a m => max a (snrOf m)) (-4096)
    meas.filter fun m => decide (4 * (s.rd R.SWARM_CTL_EXCL_DB : Int) ≤ (snrOf m)) || (snrOf m) == top

/-- SNR field of channel `k`. -/
def snrFld (k : Nat) : Fld := ⟨R.SWARM_SNR_0 + 4 * (k / 4), 8 * (k % 4), 8⟩

/-- A level in 0.25 dB as a signed byte in 0.5 dB. -/
def halfDb (x : Int) : Int := clampInt (-128) 127 (x / 2)

/-- The record of a swarm SOF, and the snapshot group of R215. -/
def State.swarmSof (s : State) (lead : Nat) (meas : List SofMeas) : State × SwarmSof :=
  let incl := s.included lead meas
  let csnr := levelOf ((incl.map fun m => powOf (snrOf m)).sum)
  let vs := meas.map fun m => (m.ch.val, s.respVec m)
  let top := vs.foldl (fun a v => max a (isqrt (v.2.1.natAbs ^ 2 + v.2.2.natAbs ^ 2))) 0
  let part (x : Int) : Int := clampInt (-32768) 32767 (x * 16384 / top)
  let s1 := s.each meas fun s m => s.wrS (snrFld m.ch.val) (halfDb (snrOf m))
  let s2 := s1.each vs fun s v => (s.wrS (R.SWARM_VEC_VEC_I v.1) (part v.2.1)).wrS (R.SWARM_VEC_VEC_Q v.1) (part v.2.2)
  let mask := (incl.map fun m => 2 ^ m.ch.val).sum
  ((s2.wrS R.SWARM_CSNR_CSNR (halfDb csnr)).wr R.SWARM_CSNR_INCL mask,
    { meas := vs.map fun v => (s.coilIndex v.1, v.2), csnr := csnr })

/-! ## The locate unit (R207 to R210) -/

/-- Signed half of a bounds word. -/
def boundOf (w : Word) (hi : Bool) : Int := toSigned 16 (getBits w (if hi then 16 else 0) 16)

/-- Steps from a bound to the other, and one. -/
def stepsIn (lo hi : Int) (step : Nat) : Nat := if hi < lo then 0 else (hi - lo).toNat / step + 1

/-- N_C of R209. -/
def coarsePoints (b0 b1 cfg : Word) : Nat :=
  stepsIn (boundOf b0 false) (boundOf b0 true) (getBits cfg 0 5) * stepsIn (boundOf b1 false) (boundOf b1 true) (getBits cfg 0 5)

/-- The first locate of the queue starts, unless its grid is too large (R209, R214). -/
def State.startLocate (s : State) : List LocReq → State
  | [] => ({ s with locQ := [] } : State)
  | q :: rest =>
    if q.cfg.isSome then { s with locQ := q :: rest }
    else
      let b0 := s.rdWord R.SWARM_LOCB_0
      let b1 := s.rdWord R.SWARM_LOCB_1
      let c := s.rdWord R.SWARM_LOCCFG
      if 4096 < coarsePoints b0 b1 c then
        ((s.setFlag R.SWARM_STAT_LCFG_ERR).bump R.SWARM_CNT_0_N_LOCFAIL).startLocate rest
      else { s with locQ := { q with cfg := some (b0, b1, c) } :: rest }

/-- The job's routine requests locating: the swarm inventory with its LOC option (R257). -/
def Job.wantsLocate (j : Job) : Bool := j.group.isSome && j.routine == 0x02C && bitOf (j.word 4).toNat 8

/-- A frame delivered with F_OK in a swarm job asks for a locate (R207, R209): the state, and the serial number. The locate that runs
takes none of the four places of the queue: DESIGN CHOICE, log entry 128. -/
def State.askLocate (s : State) (j : Job) (sof : SwarmSof) : State × Option Nat :=
  if !j.wantsLocate then (s, none)
  else if !s.isOn R.SWARM_CTL_LOC_EN || decide (sof.csnr < 4 * (s.rd R.SWARM_LOCCFG_SNR_MIN : Int))
      || (maskList j.mask).any (fun n => !s.geoOk (s.coilIndex n.val)) then
    (s.bump R.SWARM_CNT_0_N_LOCFAIL, none)
  else if 5 ≤ s.locQ.length then (s.bump R.SWARM_CNT_1_N_LOCSKIP, none)
  else
    let q : LocReq := { serial := s.nextLoc, group := j.group.getD 0, job := j.id, meas := sof.meas }
    (({ s with nextLoc := s.nextLoc + 1 } : State).startLocate (s.locQ ++ [q]), some q.serial)

/-- c(x, y) of R208 at a point in mm, times 2³². -/
def State.corr (s : State) (meas : List (Nat × Int × Int)) (x y : Int) : Nat :=
  let term (m : Nat × Int × Int) : Int × Int × Int :=
    let w0 := s.geoAt m.1 0
    let dx := 10 * x - toSigned 16 (bitsOf w0 0 16)
    let dy := 10 * y - toSigned 16 (bitsOf w0 16 16)
    let c := s.coupling (isqrt ((dx.natAbs ^ 2 + dy.natAbs ^ 2) * 2 ^ 32)) (bitsOf (s.geoAt m.1 1) 0 16)
    (if bitOf (s.geoAt m.1 1) 17 then -c else c, m.2)
  let ts := meas.map term
  let re := (ts.map fun t => t.1 * t.2.1).sum
  let im := (ts.map fun t => t.1 * t.2.2).sum
  let den := (ts.map fun t => t.2.1 * t.2.1 + t.2.2 * t.2.2).sum * (ts.map fun t => t.1 * t.1).sum
  if den = 0 then 0 else ((re * re + im * im) * 2 ^ 32 / den).toNat

/-- Points of a grid, x first, y running fastest. -/
def gridOf (x0 : Int) (nx : Nat) (y0 : Int) (ny : Nat) (step : Nat) : List (Int × Int) :=
  (List.range nx).flatMap fun k => (List.range ny).map fun l => (x0 + (k * step : Nat), y0 + (l * step : Nat))

/-- Best point of a list: the first of the greatest correlation. -/
def State.bestOf (s : State) (meas : List (Nat × Int × Int)) (ps : List (Int × Int)) (d : Int × Int) : Int × Int :=
  ((ps.foldl (fun b p =>
    let c := s.corr meas p.1 p.2
    match b with
    | none => some (c, p)
    | some (bc, bp) => if bc < c then some (c, p) else some (bc, bp)) none).map Prod.snd).getD d

/-- A quotient rounded to the nearest integer, halves upwards. -/
def roundQuot (a b : Int) : Int := if b < 0 then (-(2 * a) - b) / (-(2 * b)) else (2 * a + b) / (2 * b)

/-- The step of R208 from a grid point, in 0.1 mm: the quotient rounded to the nearest and clamped. -/
def refineStep (lo mid hi : Int) (flat : Int) : Int :=
  let den := 2 * (lo - 2 * mid + hi)
  clampInt (-5) 5 (if den = 0 then flat else roundQuot (10 * (lo - hi)) den)

/-- The position in 0.1 mm and the confidence that a locate finds (R208). -/
def State.locate (s : State) (q : LocReq) (b0 b1 cfg : Word) : Int × Int × Nat :=
  let step := getBits cfg 0 5
  let xmin := boundOf b0 false
  let xmax := boundOf b0 true
  let ymin := boundOf b1 false
  let ymax := boundOf b1 true
  let p := s.bestOf q.meas (gridOf xmin (stepsIn xmin xmax step) ymin (stepsIn ymin ymax step) step) (xmin, ymin)
  let fx := max xmin (p.1 - step)
  let fy := max ymin (p.2 - step)
  let b := s.bestOf q.meas (gridOf fx (stepsIn fx (min xmax (p.1 + step)) 1) fy (stepsIn fy (min ymax (p.2 + step)) 1) 1) p
  let c (dx dy : Int) : Int := s.corr q.meas (b.1 + dx) (b.2 + dy)
  (10 * b.1 + refineStep (c (-1) 0) (c 0 0) (c 1 0) (Config.flatRefine s.fresh),
   10 * b.2 + refineStep (c 0 (-1)) (c 0 0) (c 0 1) (Config.flatRefine (s.fresh + 1)),
   255 * s.corr q.meas b.1 b.2 / 2 ^ 32)

/-- A point in 0.1 mm lies in the interior (R210). -/
def interior (b0 b1 cfg : Word) (x y : Int) : Bool :=
  let e : Int := getBits cfg 24 8
  decide (10 * (boundOf b0 false + e) ≤ x) && decide (x ≤ 10 * (boundOf b0 true - e))
    && decide (10 * (boundOf b1 false + e) ≤ y) && decide (y ≤ 10 * (boundOf b1 true - e))

/-- Some sighting still on its way names the locate. -/
def State.locAlive (s : State) (serial : Nat) : Bool :=
  let hit (x : Sighting) : Bool := x.loc == some serial
  s.mergeQ.any hit || (s.cry.queue ++ s.cry.ecc.toList ++ s.cry.aes.toList).any (fun r => r.held.any hit)
    || (s.jobs.any fun j => j.late.any hit) || s.chans.toList.any fun c => c.inv.found.any hit || c.inv.cand.any hit || c.inv.held.any fun h => hit h.sight

/-- A locate ends (R210): its result shows in SWARM_LOCX and SWARM_LOCQ, and goes to the entry when it may. -/
def State.endLocate (s : State) (q : LocReq) (b0 b1 cfg : Word) : State :=
  let r := s.locate q b0 b1 cfg
  let x := r.1
  let y := r.2.1
  let conf := min r.2.2 255
  let inside := interior b0 b1 cfg x y
  let entry := q.entry.getD none
  let write := entry.isSome && decide (getBits cfg 8 8 ≤ conf)
  let s0 : State := { s with fresh := s.fresh + 2 }
  let s1 := ((s0.wrS R.SWARM_LOCX_X x).wrS R.SWARM_LOCX_Y y).wrWord R.SWARM_LOCQ
    (BitVec.ofNat 32 (conf + 2 ^ 8 * (!inside).toNat + 2 ^ 9 * write.toNat + 2 ^ 16 * entry.getD 0))
  let s2 := if conf < getBits cfg 8 8 then s1.bump R.SWARM_CNT_0_N_LOCFAIL
    else
      match entry with
      | none => s1.bump R.SWARM_CNT_1_N_LOCSKIP
      | some i =>
        (s1.putTab i { s1.tab i with
          locX := ofSigned 16 x, locY := ofSigned 16 y, locConf := if inside then conf else min conf 127
          locValid := true }).bump R.SWARM_CNT_0_N_LOC
  s2.startLocate (s2.locQ.drop 1)

end Sys2Proof.Machine
end

