-- ==== Sys2Proof/Machine/Receive.lean ====
section
/-!
DEFINITION. The receive path (chapter 3): response windows, bit classification, frame assembly, frame events, and the
commands of a window's life.
-/

namespace Sys2Proof.Machine

/-! ## Windows (R80, R92, R95, R512) -/

/-- Carrier cycles from the command's end to the latest nominal SOF start, and of the SOF (R95, R512). -/
def sofTiming (mode : Nat) (last1 : Bool) (rawb : Nat) : Nat × Nat :=
  if mode < 4 then (if last1 then 1236 else 1172, 128 / 2 ^ mode)
  else if mode < 8 then (7680, 14 * 128 / 2 ^ (mode - 4))
  else if mode < 13 then (4352, [3072, 768, 384, 192, 96].getD (mode - 8) 0)
  else (4352, 96 * rawb)

/-- Earliest nominal SOF start in carrier cycles after the command's end (R92). The TR0 of ISO/IEC 14443-2 is a free value
below the latest start. -/
def earliestSof (mode : Nat) (last1 : Bool) : Nat :=
  if mode < 4 then (if last1 then 1236 else 1172) else if mode < 8 then min (Config.tr0 mode) 7680 else 4320

/-- A SOF that starts `fdt` units of 16/fc after the command's end lies more than EARLY_US before the earliest nominal start
(R92). -/
def State.tooEarly (s : State) (n : Nat) (w : Window) (fdt : Nat) : Bool :=
  decide (100 * (16 * (fdt + 1)) + 1356 * s.rd (R.CH_RXTIME_EARLY_US n) ≤ 100 * w.earliest)

/-- FWT in carrier cycles: 302.1 µs × 2^FWI (R95). -/
def fwtCycles (fwi : Nat) : Nat := 4096 * 2 ^ fwi

/-- TO of a window for an ISO/IEC 14443-4 block in µs: FWT with its extension, the SOF and MARGIN_US (R95). -/
def blockTo (mode fwi wtxm margin : Nat) : Nat :=
  ceilDiv (100 * (fwtCycles fwi * wtxm + (sofTiming mode false 0).2)) 1356 + margin

/-- TO in µs (R93): the wait and the SOF, plus MARGIN_US, rounded up. -/
def defaultTo (mode : Nat) (last1 : Bool) (rawb margin : Nat) : Nat :=
  let t := sofTiming mode last1 rawb
  ceilDiv (100 * (t.1 + t.2)) 1356 + margin

/-- The highest gain step at which the residual of the last calibration reaches at most 25 % of full scale (R80); the
residual is the leak that the calibration cancelled, which its I and Q match, less CHn_CCRES. DEDUCED, log entry 26. Where not even
0 dB brings it there, the gain is 0 dB: DESIGN CHOICE, log entry 79. -/
def State.gainCap (s : State) (n : Nat) : Nat :=
  let i := (s.ch n).calIQ.1.toInt.natAbs
  let q := (s.ch n).calIQ.2.toInt.natAbs
  let fits (k : Nat) : Bool :=
    decide ((i ^ 2 + q ^ 2) * 16 * powOf (12 * k - s.rd (R.CH_CCRES_RES_DB n)) ≤ 2048 ^ 2 * 2 ^ 30)
  ((List.range 15).reverse.find? fits).getD 0

/-- An image calibration of channel `n` is running. -/
def State.imageCalRuns (s : State) (n : Nat) : Bool :=
  s.maint.any fun m => m.running && m.kind == .imageCal && bitOf m.mask.toNat n

/-- An image calibration runs on channel `n`, as maintenance or in start-up (R84, R85). -/
def State.imageCalOn (s : State) (n : Nat) : Bool := (s.boot == .imageCal && bitOf s.bootCal.toNat n) || s.imageCalRuns n

/-- Gain code in force: 0 dB in a calibration of the cancellation (R54) and in a coupling measurement (R199), 21 dB in one of
the image (R84), else the AGC's, or GAIN throughout while AGC is 0 (R80 to R82). -/
def State.gainNow (s : State) (n : Nat) : Nat :=
  if (s.ch n).calib || (s.couplingOn n).isSome then 0
  else if s.imageCalOn n then 7
  else if s.isOn (R.CH_RXCTL_AGC n) then (s.ch n).gain.toNat else s.rd (R.CH_RXCTL_GAIN n)

/-- A window arms on one channel: its gain, its local oscillator and GCAP (R77, R80, R82). -/
def State.armGain (s : State) (n : Nat) : State :=
  let k := if s.isOn (R.CH_RXCTL_AGC n) then s.gainCap n else s.rd (R.CH_RXCTL_GAIN n)
  let s1 := s.modCh n fun c => { c with gain := BitVec.ofNat 4 k, loNow := s.loPhase n }
  if s.isOn (R.CH_TXSTAT_CC_FAIL n) then s1.setFlag (R.CH_RXSTAT_GCAP n) else s1

/-- The response window of a channel's exchange is open (R92, R191). -/
def State.winOpen (s : State) (n : Nat) : Bool := (s.ch (s.leadAt n)).win.isSome

/-! ## Bits (R86 to R90) -/

/-- A decoded bit. -/
structure DBit where
  v : Bool
  coll : Bool := false
  capt : Bool := false
  /-- Coding violation. -/
  viol : Bool := false
  deriving DecidableEq, Repr

/-- Modes with Manchester coding and bit collision detection (R86). -/
def manchester (mode : Nat) : Bool := mode == 0 || 8 ≤ mode

/-- A half carries subcarrier: its energy is not more than COLL_DB below the reference (R88); one above the reference counts however
far it lies above: DEDUCED, log entry 31. -/
def withinDb (db : Nat) (e : Int) : Bool := decide (-(db : Int) ≤ e)

/-- Classification of a bit (R86, R88, R90): a bit of the other coding is a violation; `tie` is the stored value of a bit whose
halves are equal. -/
def classifyBit (man collEn captEn : Bool) (collDb captDb : Nat) (tie : Bool) (b : RxBit) : DBit :=
  match b with
  | .hard v => if man then { v := false, viol := true } else { v := v }
  | .bad => { v := false, viol := true }
  | .man e0 e1 =>
    let stronger := if e0 = e1 then tie else decide (e0 < e1)
    if !man then { v := false, viol := true }
    else if withinDb collDb e0 && withinDb collDb e1 then
      if !collEn then { v := stronger }
      else if captEn && decide (captDb ≤ (e0 - e1).natAbs) then { v := stronger, coll := true, capt := true }
      else { v := false, coll := true }
    else if withinDb collDb e0 then { v := false }
    else if withinDb collDb e1 then { v := true }
    else { v := false, viol := true }

/-- Bits of a frame, classified by the settings of channel `n`. -/
def State.classify (s : State) (n mode : Nat) (bits : List RxBit) : List DBit :=
  bits.zipIdx.map fun b =>
    classifyBit (manchester mode) (s.isOn (R.CH_RXCTL_COLL_EN n)) (s.isOn (R.CH_RXCTL_CAPT_EN n))
      (s.rd (R.CH_RXTHR_COLL_DB n)) (s.rd (R.CH_RXTHR_CAPT_DB n)) (Config.tieBit s.fresh b.2) b.1

/-- Two bits without subcarrier follow one another (R100). -/
def twoEmpty : List DBit → Bool
  | a :: b :: rest => (a.viol && b.viol) || twoEmpty (b :: rest)
  | _ => false

/-- Data bits of an ISO/IEC 14443 A frame without its parity bits, and whether a parity that counts is wrong: `g` bits
up to the next parity bit, `chk` whether that byte is checked (R89, R99). A first byte that completes the partial byte of a
command is not checked: DESIGN CHOICE, log entry 80. With `inv` the last parity bit of the frame is even. -/
def splitParity (inv : Bool) : Nat → Nat → Bool → List DBit → List DBit × Bool
  | 0, _, _, l => (l, false)
  | fuel + 1, g, chk, l =>
    if l.length < g then (l, false)
    else
      let d := l.take g
      let ones := (d.filter fun b => b.v).length
      match l.drop g with
      | [] => (d, chk && !d.any fun b => b.coll)
      | p :: rest =>
        let even := chk && !p.coll && (!d.any fun b => b.coll) && (ones + p.v.toNat) % 2 == 0
        let odd := chk && !p.coll && (!d.any fun b => b.coll) && (ones + p.v.toNat) % 2 == 1
        if rest.isEmpty then (d, if inv then odd else even)
        else
          let r := splitParity inv fuel 8 true rest
          (d ++ r.1, even || r.2)

/-- Register of a CRC kind left by all bytes of a good frame (R96). -/
def crcGood (kind : Nat) (bs : List Byte) : Bool :=
  let d := bs.take (bs.length - 2)
  let c := leNat (bs.drop (bs.length - 2))
  decide (2 ≤ bs.length) && c == (if kind = 1 then crcA d else crcB d)

/-! ## Frames (R96 to R101) -/

/-- What the receiver makes of a frame: its event, the data bits with CRC, and the collision record. -/
structure Decoded where
  code : Nat
  bits : List DBit
  cpos : Nat
  ncoll : Nat
  capt : Bool
  /-- Bitmap of the collided bits among data bits 0 to 63. -/
  cmap : Nat
  deriving DecidableEq, Repr

/-- Decode a frame in a window of channel `n`; `space` is the free space of the RX FIFO (R88, R97 to R101, R105). A collision
of a parity bit alone counts nowhere: DESIGN CHOICE, log entry 81. At A212 to A848 an answer's last parity bit is even:
PRESUMED, log entry 74. -/
def State.decodeFrame (s : State) (n : Nat) (w : Window) (airBits space : Nat) (r : RxFrame) : Decoded :=
  let all := s.classify n w.mode r.bits
  let g := if 8 < airBits ∧ airBits % 8 ≠ 0 then 8 - airBits % 8 else 8
  let sp := if w.mode < 4 then splitParity (w.mode != 0) (all.length + 1) g (g == 8) all else (all, false)
  let data := sp.1
  let len := data.length
  let isCut := r.cut || (8 ≤ w.mode && twoEmpty all)
  let isCoding := !r.framing || (all.any fun b => b.viol) || (w.crc != 0 && len % 8 != 0)
  let isColl := data.any fun b => b.coll && !b.capt
  let capt := data.any fun b => b.capt
  let crcOk := w.crc == 0 || crcGood w.crc (bitsBytes (len / 8 + 1) (data.map fun b => b.v))
  let code :=
    if space < 8 + ceilDiv len 8 then 9
    else if isCut then 7
    else if isCoding then 6
    else if isColl then 5
    else if sp.2 then 4
    else if !crcOk then 3
    else if capt then 2
    else 0
  { code := code, bits := data
    cpos := (data.findIdx? fun b => b.coll).getD 4095, ncoll := (data.filter fun b => b.coll).length, capt := capt
    cmap := bitsNat ((data.take 64).map fun b => b.coll) }

/-- Event codes that are delivered (R101). -/
def deliveredCode (code crc : Nat) : Bool := code == 0 || code == 2 || (code == 5 && crc == 0)

/-- The counters of a frame event (R110). -/
def State.countEvent (s : State) (n code crc ncoll : Nat) : State :=
  let s1 := s.wr (R.CH_RXSTAT_LAST_FEV n) code
  let s2 := if deliveredCode code crc then s1.bump (R.CH_RXCNT_0_N_OK n) else s1
  let s3 := if code = 3 ∨ code = 4 ∨ code = 6 ∨ code = 7 then s2.bump (R.CH_RXCNT_0_N_CRC n) else s2
  let s4 := if code = 1 then s3.bump (R.CH_RXCNT_1_N_NORESP n) else s3
  let s5 := if code = 9 then (s4.bump (R.CH_RXCNT_2_N_OVF n)).setFlag (R.CH_RXSTAT_OVF n) else s4
  if 0 < ncoll then s5.bump (R.CH_RXCNT_1_N_COLL n) else s5

/-- A frame event reaches the sequencer of channel `n`, `good` when its frame was delivered (R101, R225): an RX takes it, or it
waits for one, in place of the event of an earlier window. An RX that has collected that one since this window opened leaves none
to collect (R229): DEDUCED, log entry 121. -/
def State.handEvent (s : State) (n code : Nat) (good : Bool) : State :=
  match s.blockOf n with
  | some (.rx rd) => s.modSeq n fun q => q.takeEvent rd (BitVec.ofNat 4 code) good
  | _ =>
    if ((s.ch n).win.map fun w : Window => w.taken) = some true then s
    else s.modCh n fun c => { c with ev := some (BitVec.ofNat 4 code), evGood := good }

/-- The frame record of R108. -/
def recordBytes (nbits : Nat) (d : Decoded) (rssi fdt : Nat) (clip : Bool) : List Byte :=
  leBytes 4 (nbits % 2 ^ 15 + 2 ^ 15 * d.capt.toNat + 2 ^ 16 * min d.cpos 4095 + 2 ^ 28 * min d.ncoll 15)
    ++ leBytes 4 (min rssi 65535 + 2 ^ 16 * min fdt 32767 + 2 ^ 31 * clip.toNat)

/-- The collision registers of a frame (R89). -/
def State.noteColl (s : State) (n : Nat) (d : Decoded) : State :=
  let s1 := s.wrWord (R.CH_RXCOLL n) (BitVec.ofNat 32 (min d.cpos 4095 + 2 ^ 12 * min d.ncoll 15 + 2 ^ 16 * d.capt.toNat))
  (s1.wr (R.CH_RXCMAP_0_CMAP_LO n) d.cmap).wr (R.CH_RXCMAP_1_CMAP_HI n) (d.cmap / 2 ^ 32)

/-- A frame ends in the window of lead `n` (R101, R105, R112); one whose record found no space at its SOF is not delivered. A
frame of the engine's own leaves the FIFO's pointers as they were: DESIGN CHOICE, log entry 112. -/
def State.endFrame (s : State) (n : Nat) (w : Window) (r : RxFrame) : State :=
  let c := s.ch n
  let d := s.decodeFrame n w c.airBits (if w.room then c.rxf.space rxSize else 0) r
  let raw := d.bits.map fun b => b.v
  let vals := if w.crc = 0 then raw else raw.take (raw.length - 16)
  let data := bitsBytes (vals.length / 8 + 1) vals
  let got := deliveredCode d.code w.crc
  let s1 : State := { s with fresh := s.fresh + 1 }
  let s2 := ((s1.noteColl n d).countEvent n d.code w.crc d.ncoll).modCh n fun c => { c with win := some { w with done := true } }
  let clipped := (s.team n).filter fun m => bitOf r.clip.toNat m
  let s3 := s2.each clipped fun s m => s.setFlag (R.CH_RXSTAT_CLIP m)
  match s3.jobLead n with
  | none => s3
  | some j =>
    let ask := if d.code = 0 then s3.askLocate j w.swarm else (s3, none)
    if w.engine then
      ask.1.engineEvent n
        { code := d.code, bits := (if got then vals else raw).take 96, caps := d.bits.map fun b => b.capt, cpos := min d.cpos 4095, ncoll := d.ncoll
          rssi := w.rssi, loc := ask.2 }
    else
      let rec' := recordBytes vals.length d w.rssi w.fdt (!clipped.isEmpty) ++ data
      let s4 := if got then ask.1.modCh n fun c => { c with rxf := c.rxf.append rec' } else ask.1
      (s4.noteEvent j d.code got vals.length data).handEvent n d.code got

/-! ## Commands -/

/-- TO in µs that a ROM routine names for the window of a frame: FWT with S(WTX) after the ATS of a Type 4 card (R95), and W2MAX for
a W1 of Type 2 or of ISO/IEC 15693 with option flag 0 (the table of write steps, R172). -/
def State.romTo (s : State) (j : Job) (mode margin : Nat) : Option Nat :=
  let kind := s.tagKind j
  if !j.isRom || j.isInventory then none
  else if kind = 2 then
    match j.rom.fwi with
    | some f => if j.rom.cmd.toNat / 16 = 0xD then none else some (blockTo mode f j.rom.wtxm margin)
    | none => none
  else if j.isWriter && j.write.cur == .w1 && !j.write.eofDue then
    some (ceilDiv (100 * (13560 * s.w2maxMs j + (sofTiming mode false 0).2)) 1356 + margin)
  else none

/-- RX of lead `n` takes the event that is held, or waits for the one of the window that is open (R229). -/
def State.collectEvent (s : State) (n : Nat) (rd : GReg) : State :=
  match (s.ch n).ev with
  | some code => s.modCh n fun c => { c with
      ev := none, win := c.win.map fun w : Window => { w with taken := true }, seq := c.seq.takeEvent rd code c.evGood }
  | none => s.modSeq n fun q => { q with run := .blocked (.rx rd) }

/-- MOD_END: the last modulation edge ends; the members enter RXW and the window arms (R49, R80, R95). -/
def execModEnd (n : Ch) (s : State) : Host.Outcome State Fault Refusal :=
  let l := s.leadAt n.val
  match (s.ch l).txNow, (s.ch l).field with
  | some r, .mod =>
    let dflt := defaultTo r.rxMode (s.ch l).lastBit r.rawb (s.rd (R.CH_RXTIME_MARGIN_US l))
    let named := if r.engine then none else (s.jobLead l).bind fun j => s.romTo j r.rxMode (s.rd (R.CH_RXTIME_MARGIN_US l))
    let w : Window := { mode := r.rxMode, crc := r.rxCrc, toUs := named.getD (if r.rxto = 0 then dflt else r.rxto), engine := r.engine
                        earliest := earliestSof r.rxMode (s.ch l).lastBit }
    let s1 := (s.teamField l .rxw).each (s.team l) fun s m => s.armGain m
    let s2 := s1.modCh l fun c => { c with win := some w, txNow := none }
    let s3 := match s2.jobLead l with
      | none => s2
      | some j => s2.noteMod j
    .next (match s3.blockOf l with
      | some (.tx none) => s3.modSeq l Seq.resume
      | some (.tx (some rd)) => s3.collectEvent l rd
      | _ => s3)
  | _, _ => .next s

/-- The chain of one member measures a SOF (R81, R91). -/
def State.measureSof (s : State) (m : SofMeas) : State :=
  let n := m.ch.val
  let d := s.direction m
  let s1 := (s.wr (R.CH_RXRSSI_RSSI n) (min m.rssi 65535)).wr (R.CH_RXRSSI_NOISE n) (min m.noise 65535)
  let s2 := (s1.wrS (R.CH_RXVEC_VEC_I n) ((d.1 + 2 ^ 15) / 2 ^ 16)).wrS (R.CH_RXVEC_VEC_Q n) ((d.2 + 2 ^ 15) / 2 ^ 16)
  if s.isOn (R.CH_RXCTL_AGC n) then s2.modCh n fun c => { c with gain := BitVec.ofNat 4 (c.gain.toNat - min m.overs 3) } else s2

/-- SOF_DETECT: a response's SOF at or above MIN_DBUV (R81, R91, R93, R105, R202). One that comes too early is discarded (R92). In a swarm
exchange the lead's MIN_DBUV and EARLY_US hold for the combined signal, as its COLL_DB and capture settings do for the bits:
DESIGN CHOICE, log entry 116. -/
def execSofDetect (n : Ch) (meas : List SofMeas) (fdt : Nat) (s : State) : Host.Outcome State Fault Refusal :=
  let l := s.leadAt n.val
  let ms := meas.filter fun m => (s.team l).contains m.ch.val
  match (s.ch l).win, s.jobLead l with
  | some w, some j =>
    if w.sof || w.done || ms.isEmpty || decide (levelOf ((ms.map fun m => powOf m.rssi).sum) < 4 * (s.rd (R.CH_RXTHR_MIN_DBUV l) : Int))
    then .next s
    else if s.tooEarly l w fdt then .next (s.bump (R.CH_RXCNT_2_N_EARLY n.val))
    else
      let s1 := s.each ms fun s m => s.measureSof m
      let sw := if j.group.isSome then s1.swarmSof l ms else (s1, {})
      let rssi := ms.foldl (fun a m => max a m.rssi) 0
      let s2 := (({ sw.1 with fresh := sw.1.fresh + 1 } : State).wr (R.CH_RXFDT_FDT l) (min fdt 32767)).modCh l fun c =>
        { c with win := some { w with
          sof := true, fdt := fdt, rssi := rssi, swarm := sw.2, room := decide (8 ≤ c.rxf.space rxSize) } }
      .next ((s2.modInv l fun c => { c with sofSeen := true }).noteSof j)
  | _, _ => .next s

/-- FRAME_END: the frame whose SOF was detected ends (R101). -/
def execFrameEnd (n : Ch) (r : RxFrame) (s : State) : Host.Outcome State Fault Refusal :=
  let l := s.leadAt n.val
  match (s.ch l).win with
  | some w => .next (if w.sof && !w.done then s.endFrame l w r else s)
  | none => .next s

/-- RESPONSE_TIMEOUT: no SOF by TO: F_NORESP, and the window closes (R93). -/
def execResponseTimeout (n : Ch) (s : State) : Host.Outcome State Fault Refusal :=
  let l := s.leadAt n.val
  match (s.ch l).win with
  | some w =>
    if w.sof || w.done then .next s
    else
      let s1 := (s.countEvent l 1 w.crc 0).modCh l fun c => { c with win := some { w with done := true } }
      let s2 :=
        if w.engine then s1.engineEvent l { code := 1 }
        else
          match s1.jobLead l with
          | none => s1
          | some j => (s1.noteEvent j 1 false 0 []).handEvent l 1 false
      .next (s2.closeWindow l)
  | none => .next s

/-- WINDOW_CLOSE: the guard after a frame has ended (R94). -/
def execWindowClose (n : Ch) (s : State) : Host.Outcome State Fault Refusal :=
  let l := s.leadAt n.val
  match (s.ch l).win with
  | some w => .next (if w.done then s.closeWindow l else s)
  | none => .next s

/-- EARLY_SUBCARRIER: subcarrier too early is discarded and counted (R92). -/
def execEarlySubcarrier (n : Ch) (s : State) : Host.Outcome State Fault Refusal :=
  let l := s.leadAt n.val
  match (s.ch l).win with
  | some w => .next (if w.sof || w.done then s else s.bump (R.CH_RXCNT_2_N_EARLY n.val))
  | none => .next s

end Sys2Proof.Machine
end

