-- ==== Sys2Proof/Machine/Field.lean ====
section
/-!
DEFINITION. Field drive and the synthesiser (chapter 2): the events of the field sequence, the power loop, the carrier
cancellation, the antenna switch bus and the synthesiser's own transitions.
-/

namespace Sys2Proof.Machine

/-! ## Synthesiser maintenance (R480, R483) -/

/-- Synthesiser maintenance (R480). -/
def MaintKind.isSynth : MaintKind → Bool
  | .recal | .phaseStep _ => true
  | .imageCal | .chTest | .coupling _ _ _ => false

/-- Synthesiser maintenance is due and does not run yet. -/
def State.synthDue (s : State) : Bool := s.maint.any fun m => m.kind.isSynth && !m.running

/-- The synthesiser work that is due longest starts; its own kind holds every channel (R65, R67, R71, R480). -/
def State.startSynth (s : State) : State :=
  match s.maint.find? fun m => m.kind.isSynth && !m.running with
  | none => s
  | some m =>
    { s with
      maint := s.maint.map fun x => if x = m then { x with running := true, mask := 0xFF } else x
      syn := { s.syn with state := if m.kind = .recal then .cal else .step }
      budg := { s.budg with quiet := false } }

/-- While a drain is in force, synthesiser work starts once every field is OFF (R483). -/
def State.drainStart (s : State) : State :=
  if s.drain.isSome && s.synthDue && s.locked && s.chans.toList.all fun c => c.field == .off then s.startSynth else s

/-! ## The switch bus (R58 to R61) -/

/-- The request of channel `n` is taken by the shift that starts: it waits, its field is OFF (R61) and PD_CHn is on (R393). -/
def State.antTaken (s : State) (n : Nat) : Bool :=
  (s.ch n).antWait && (s.ch n).field == .off && bitOf s.pwr.domOn.toNat n

/-- Four bits of channel `n` in the word of the shift that starts (R58, R61). -/
def State.antNibble (s : State) (n : Nat) : Nat :=
  let c := s.ch n
  if s.antTaken n then s.rd (R.CH_ANT_POS n) + 8 * s.rd (R.CH_ANT_EN n) else c.curPos.toNat + 8 * c.curEn.toNat

/-- The word of the shift that starts. -/
def State.antWord (s : State) : Word := BitVec.ofNat 32 (((List.range 8).map fun n => s.antNibble n * 16 ^ n).sum)

/-- ANT_SHIFT_START: the bus is idle and a request waits (R60, R61). -/
def execAntShiftStart (s : State) : Host.Outcome State Fault Refusal :=
  if s.syn.shift.isSome || !((List.range 8).any s.antTaken) then .next s
  else
    let s1 : State := { s with syn := { s.syn with shift := some s.antWord } }
    .next (s1.each (List.range 8) fun s n =>
      if s.antTaken n then s.modCh n fun c => { c with antWait := false, antShift := true } else s)

/-- A channel's position is in place: what waited for it goes on (R49). -/
def State.antDone (s : State) (n : Nat) : State :=
  if (s.ch n).antPend then s else (((s.resumeIf n .ant).kick (s.leadAt n)).tryRamp n).driveNext n

/-- The outputs of channel `n` latch four bits of the word: it settles when its position changed (R49, R60). -/
def State.latchAnt (s : State) (n : Nat) (word : Word) : State :=
  let pos := BitVec.ofNat 3 (getBits word (4 * n) 3)
  let en := bitOf word.toNat (4 * n + 3)
  s.modCh n fun c => { c with
    curPos := pos, curEn := en, antShift := false, phNow := s.phaseNow n
    field := if c.field = .off ∧ (c.curPos ≠ pos ∨ c.curEn ≠ en) then .settle else c.field }

/-- ANT_SHIFT_COMPLETE: the word latches (R60). -/
def execAntShiftComplete (s : State) : Host.Outcome State Fault Refusal :=
  match s.syn.shift with
  | none => .next s
  | some w =>
    let moved := (List.range 8).filter fun n => (s.ch n).antShift
    let s1 : State := { s with syn := { s.syn with shift := none } }
    let s2 := (s1.wrWord R.SYN_ASWORD w).each (List.range 8) fun s n => s.latchAnt n w
    .next (s2.each moved fun s n => s.antDone n)

/-- The field of channel `n` has reached OFF: a FOFF ends with the last member (R225). -/
def State.offReached (s : State) (n : Nat) : State :=
  if s.teamAll n fun _ c => c.field == .off then s.resumeIf (s.leadAt n) .foff else s

/-- SETTLE_END: the settle timer expires (R49). -/
def execSettleEnd (n : Ch) (s : State) : Host.Outcome State Fault Refusal :=
  if (s.ch n.val).field == .settle then .next (((s.setField n.val .off).offReached n.val).antDone n.val).drainStart else .next s

/-! ## Ramps and calibration (R49, R54 to R57, R191, R192) -/

/-- Every member is ON and calibrated: FON ends, and what waits for the field goes on. -/
def State.onDone (s : State) (n : Nat) : State :=
  if s.teamAll n fun _ c => c.field == .on && !c.calib then
    s.kick (s.leadAt n)
  else s

/-- Loop ticks of 2.36 µs in the 20 µs and the 256 samples of a column of a coupling measurement: 57.76 µs (R199). -/
def columnTicks : Nat := 25

/-- RAMP_END: the ramp ends, and calibration starts where CC_AUTO is 1 (R49); in a swarm job, once every member is ON
(R192). -/
def execRampEnd (n : Ch) (s : State) : Host.Outcome State Fault Refusal :=
  let c := s.ch n.val
  if c.field != .ramp then .next s
  else
    let s1 := s.modCh n.val fun c => { c with field := .on, amp := c.rampTo * 4096, onNt := some s.time.nt }
    if c.wantOff then .next (s1.stopField n.val)
    else if (s.couplingOn n.val).isSome then .next (s1.modCh n.val fun c => { c with holdTicks := columnTicks })
    else if s1.teamAll n.val fun _ c => c.field == .on then .next ((s1.startCalib n.val).onDone n.val)
    else .next s1

/-- What a calibration settles of one value: all 12 bits, or the 6 least significant bits of the cached one (R54, R55). -/
def settleBits (base : Option (BitVec 12)) (v : BitVec 12) : BitVec 12 :=
  match base with
  | none => v
  | some b => (b &&& 0xFC0) ||| (v &&& 0x03F)

/-- Duration of a calibration in µs: 24 bits and the check, or 12 bits and the check (R54, R55). -/
def calUs (cached : Bool) : Nat := if cached then 8 else 14

/-- CALIBRATION_END: a calibration ends with I, Q and the achieved cancellation (R54, R55, R57, R192). It ends at its own
duration and at no other. -/
def execCalibrationEnd (n : Ch) (i q : BitVec 12) (resDb us : BitVec 8) (s : State) :
    Host.Outcome State Fault Refusal :=
  if !(s.ch n.val).calib || us.toNat != calUs (s.ch n.val).calBase.isSome then .next s
  else
    let m := n.val
    let base := (s.ch m).calBase
    let i := (settleBits (base.map Prod.fst) i).toNat
    let q := (settleBits (base.map Prod.snd) q).toNat
    let s1 := (((s.wr (R.CH_CCIQ_I m) i).wr (R.CH_CCIQ_Q m) q).wr (R.CH_CCRES_RES_DB m) resDb.toNat).wr
      (R.CH_CCRES_CAL_US m) us.toNat
    let k := (s.ch m).curPos.toNat
    let s2 :=
      if resDb.toNat < 4 * s.rd (R.CH_CCCTL_THRESH m) then s1.setFlag (R.CH_TXSTAT_CC_FAIL m)
      else if s.inSwarm m then s1
      else ((s1.wr (R.CH_CCPOS_I m k) i).wr (R.CH_CCPOS_Q m k) q).wr (R.CH_CCPOS_VALID m k) 1
    .next ((s2.modCh m fun c => { c with
      calib := false, calBase := none, calIQ := (BitVec.ofNat 12 i, BitVec.ofNat 12 q) }).onDone m)

/-- OPEN_ANTENNA_CHECK: the antenna current is below OPEN_PCT % of √(P / RL) (R51). -/
def execOpenAntennaCheck (n : Ch) (iMa : Nat) (s : State) : Host.Outcome State Fault Refusal :=
  let m := n.val
  let low := decide (iMa ^ 2 * s.rd (R.CH_TXLOAD_RL m) < s.rd (R.CH_TXLOOP_OPEN_PCT m) ^ 2 * s.targetMw m)
  let on := match (s.ch m).field with
    | .on | .mod | .rxw => true
    | _ => false
  .next (if low && on then s.faultChans [m] R.CH_TXSTAT_OPEN R.DIAG_CNT_1_N_OPEN else s)

/-- DOWN_END: the amplitude reaches 0 (R49). -/
def execDownEnd (n : Ch) (s : State) : Host.Outcome State Fault Refusal :=
  let m := n.val
  if (s.ch m).field != .down then .next s
  else
    let s1 := (s.setField m .off).offReached m
    if s1.teamAll m fun _ c => c.field == .off then
      let l := s1.leadAt m
      .next (((s1.kick l).tryRamp l).driveNext m).drainStart
    else .next s1.drainStart

/-- OVERCURRENT on channel `n` (R51). -/
def execOvercurrent (n : Ch) (s : State) : Host.Outcome State Fault Refusal :=
  .next (s.faultChans [n.val] R.CH_TXSTAT_OVC R.DIAG_CNT_1_N_OVC)

/-! ## The loop tick (R38 to R44, R56, R64) -/

/-- Temperature of the sensor beside the driver of channel `n`, in 1/16 °C (R43, R311). -/
def State.pairTemp (s : State) (n : Nat) : Int := s.budg.sens.getD (n / 2) 0

/-- T_DIE: the highest of the latest five samples, in 1/16 °C (R311). -/
def State.tDie (s : State) : Int := s.budg.sens.foldl max (s.budg.sens.headD 0)

/-- User entry `k` of the temperature curve (R43). -/
def State.userTemp (s : State) (n k : Nat) : Int :=
  toSigned 8 (getBits (s.rdWord (R.CH_TCOMP_0 n + 4 * (k / 4))) (8 * (k % 4)) 8)

/-- The factor of R43 in units of 1/409,600: entries lie 25 °C apart, and U is interpolated exactly. -/
def State.tempFactor (s : State) (n : Nat) : Int :=
  let t := s.pairTemp n
  let x := (clampInt 0 2800 (t + 640)).toNat
  let k := min (x / 400) 6
  let f : Int := (x - 400 * k : Nat)
  400 * (1024 + Config.factoryCurve t) + s.userTemp n k * (400 - f) + s.userTemp n (k + 1) * f

/-- A quantity times the factor of R43; what would be below zero is 0. Truncated; DESIGN CHOICE, log entry 27. -/
def scaleTemp (x : Int) (f : Int) : Int := max 0 (x * f / 409600)

/-- The phase moves by at most 8 steps per carrier cycle over a tick of 32, the shorter way round (R64). A move of 512 steps goes
down: DESIGN CHOICE, log entry 126. -/
def movePhase (now goal : BitVec 10) : BitVec 10 :=
  let d := toSigned 10 (goal - now).toNat
  now + BitVec.ofInt 10 (clampInt (-256) 256 d)

/-- The amplitude path of a tick in ON (R38, R42, R43): `p` is the corrected power. -/
def State.tickAmp (s : State) (n : Nat) (p vtxMv : Nat) : State :=
  let c := s.ch n
  let loop := s.isOn (R.CH_TXCTL_LOOP n)
  let path : Int :=
    if s.silent n then 0
    else if loop then max 0 (c.amp + Config.ampError (s.targetMw n) p * 2 ^ s.rd (R.CH_TXLOOP_KI n))
    else 4096 * s.rd (R.CH_TXAMP_AMP n)
  let base : Int := path / 4096
  let warm : Int := if !loop && s.isOn (R.CH_TXCTL_TCOMP_EN n) then scaleTemp base (s.tempFactor n) else base
  let amp : Nat :=
    if s.silent n then 0
    else if s.isOn (R.CH_TXCTL_VFF n) then (if vtxMv = 0 then 1024 else warm.toNat * s.pmb.ok / vtxMv) else warm.toNat
  let s1 := if 1023 < amp then s.setFlag (R.CH_TXSTAT_SAT n) else s
  (s1.wr (R.CH_TXAMP_AMP_NOW n) (min amp 1023)).modCh n fun c => { c with amp := min path.toNat (4096 * 1023 + 4095) }

/-- Level of a raised-cosine ramp to `top` over `us` µs, `t` ns after its start: top × (1 − cos(π × t / T)) / 2, rounded (R49). -/
def rampLevel (top us t : Nat) : Nat :=
  if us * 1000 ≤ t then top
  else ((top * (2 ^ 40 - cosTurn (t * 2 ^ 40 / (2 * us * 1000))) + 2 ^ 40) / 2 ^ 41).toNat

/-- AMP_NOW at a tick outside ON: in MOD and RXW the loop is frozen (R40); within a ramp it follows the raised cosine of R49, the
way down as the way up; in SETTLE and FAULT the bridge does not drive. DEDUCED, log entry 77. -/
def State.tickOther (s : State) (n : Nat) : State :=
  let c := s.ch n
  let t := (s.time.nt - c.rampNt).toNat
  match c.field with
  | .ramp => s.wr (R.CH_TXAMP_AMP_NOW n) (rampLevel c.rampTo (s.rd (R.CH_TXTIME_RAMP_US n)) t)
  | .down => s.wr (R.CH_TXAMP_AMP_NOW n) (c.rampTo - rampLevel c.rampTo (s.rd (R.CH_TXTIME_DOWN_US n)) t)
  | .settle | .fault => s.wr (R.CH_TXAMP_AMP_NOW n) 0
  | .off | .on | .mod | .rxw => s

/-- Measured power within the accuracy of R41: 5 % of the target, or 10 mW below 200 mW. -/
def powerOk41 (target p : Nat) : Bool :=
  decide (((target : Int) - p).natAbs * 20 ≤ if target < 200 then 200 else target)

/-- A tick brings the power of a selected pattern nearer: the wait of R198 ends with the power in place, or with its last
tick. -/
def State.tickSettle (s : State) (n p : Nat) : State :=
  s.modCh n fun c => { c with settleTicks := if powerOk41 (s.targetMw n) p then 0 else c.settleTicks - 1 }

/-- The last member's power is in place: what waited for it goes on (R198). -/
def State.settled (s : State) (n : Nat) : State :=
  if s.inSwarm n && s.teamAll n fun _ c => c.settleTicks == 0 then s.tryTx (s.leadAt n) else s

/-- Tracking of one cancellation value by at most 1 LSB (R56). -/
def trackStep (v d : Int) : Int := clampInt (-2048) 2047 (v + clampInt (-1) 1 d)

/-- A tick of channel `n` in ON while a coupling measurement drives it: after the last one of its column the antenna current of the
column is kept, and the member ramps down (R199). -/
def State.columnTick (s : State) (n : Nat) : State :=
  match s.couplingOn n with
  | none => s
  | some m =>
    let k := (s.ch n).holdTicks - 1
    let s1 := s.modCh n fun c => { c with holdTicks := k }
    if k = 0 then
      ({ s1 with maint := s1.maint.map fun x => if x = m then { x with amps := (n, s.rd (R.CH_TXMEAS_I_MEAS n)) :: x.amps } else x
       } : State).startDown n
    else s1

/-- LOOP_TICK of a channel whose field is not OFF (R38); in OFF no tick occurs: DESIGN CHOICE, log entry 127. The local oscillator
follows the phase (R77). -/
def execLoopTick (n : Ch) (pMw iMa vtxMv : Nat) (dI dQ : Int) (s : State) : Host.Outcome State Fault Refusal :=
  let m := n.val
  let c := s.ch m
  if c.field = .off then .next s
  else
    let p := if s.isOn (R.CH_TXCTL_LOOP m) && s.isOn (R.CH_TXCTL_TCOMP_EN m) then (scaleTemp pMw (s.tempFactor m)).toNat else pMw
    let e := c.eFrac + 32 * p
    let s1 := ((s.wrSat (R.CH_TXMEAS_P_MEAS m) p).wrSat (R.CH_TXMEAS_I_MEAS m) iMa).wr (R.CH_TXENERGY_ENERGY m)
      (s.rd (R.CH_TXENERGY_ENERGY m) + e / 13560)
    let ph := movePhase c.phNow (s.phaseOf m)
    let s2 := s1.modCh m fun c => { c with
      eFrac := e % 13560, phNow := ph, loNow := ph + BitVec.ofNat 10 (s.rd (R.CH_RXLO_LO_PH m)) }
    if c.field != .on then .next (s2.tickOther m)
    else
      let s3 := (s2.tickAmp m p vtxMv).tickSettle m p
      if s3.isOn (R.CH_TXCTL_CC_TRACK m) && (s.couplingOn m).isNone then
        .next (((s3.wrS (R.CH_CCIQ_I m) (trackStep (s3.rdS (R.CH_CCIQ_I m)) dI)).wrS (R.CH_CCIQ_Q m)
          (trackStep (s3.rdS (R.CH_CCIQ_Q m)) dQ)).settled m)
      else .next ((s3.settled m).columnTick m)

/-! ## The synthesiser (R65 to R68, R71) -/

/-- Change the synthesiser's state. -/
def State.setSyn (s : State) (x : SynState) : State := { s with syn := { s.syn with state := x, slew := none } }

/-- A failed lock attempt (R65). -/
def State.lockFailed (s : State) : State := ((s.setSyn .cal).setFlag R.SYN_STAT_LOCK_FAIL).bump R.DIAG_CNT_3_N_LOCKFAIL

/-- BAND_FOUND: CAL to ACQ. A recalibration that is due is thereby complete (R65, R67). -/
def execBandFound (s : State) : Host.Outcome State Fault Refusal :=
  if s.syn.state != .cal then .next s
  else
    let s1 := ((s.setSyn .acq).wrS R.SYN_STAT_CAL_TEMP s.tDie).wr R.SYN_CTL_RECAL 0
    .next { s1 with maint := s1.maint.filter fun m => m.running || m.kind != .recal }

/-- LOCK_ATTEMPT_TIMEOUT: 400 µs without lock (R65). -/
def execLockAttemptTimeout (s : State) : Host.Outcome State Fault Refusal :=
  .next (if s.syn.state == .acq || s.syn.state == .lost then s.lockFailed else s)

/-- LOCK_LOST: LOCKED to LOST, and SYN_CUT on every channel that drives (R65, R68). -/
def execLockLost (s : State) : Host.Outcome State Fault Refusal :=
  if !s.locked then .next s
  else
    let s1 := (((s.setSyn .lost).setFlag R.SYN_STAT_UNLOCK_SEEN).bump R.SYN_LOCKT_LOSSES).notifyAll 9
    .next (s1.faultChans (List.range 8) R.CH_TXSTAT_SYN_CUT R.DIAG_CNT_2_N_SYNCUT)

/-- A maintenance job that satisfies the test has ended: it leaves the queue, and DIAG counts it (R480). -/
def State.maintEnd (s : State) (p : Maint → Bool) : State :=
  if s.maint.any p then ({ s with maint := s.maint.filter fun m => !p m } : State).bump R.DIAG_CNT_4_N_MAINT else s

/-- LOCK becomes 1: the hold times restart (R72), and synthesiser maintenance that ran has ended, with its drain. -/
def State.becomeLocked (s : State) (us : BitVec 16) : State :=
  let s1 := (s.setSyn .locked).wr R.SYN_LOCKT_LOCK_US us.toNat
  let ran := s1.maint.any fun m => m.running && m.kind.isSynth
  let s2 : State := { s1 with
    jobs := s1.jobs.map fun j => { j with holdNs := 0 }, drain := if ran || !s1.synthDue then none else s1.drain }
  s2.maintEnd fun m => m.running && m.kind.isSynth

/-- PHASE_STEP_RELOCK: a phase step relocks (R65, R71). -/
def execPhaseStepRelock (us : BitVec 16) (s : State) : Host.Outcome State Fault Refusal :=
  .next (if s.syn.state == .step then s.becomeLocked us else s)

/-- STEP_RELOCK_TIMEOUT: no relock within 40 µs (R65). -/
def execStepRelockTimeout (s : State) : Host.Outcome State Fault Refusal :=
  .next (if s.syn.state == .step then s.lockFailed.notifyAll 9 else s)

/-! ## Image calibration (R84, R85) -/

/-- What an image calibration of channel `n` leaves: the corrections, the worse rejection, and IQCAL (R84, R85). -/
def State.imageCalDone (s : State) (n : Nat) (g p : BitVec 12) (irrA irrB : BitVec 8) : State :=
  let irr := min irrA.toNat irrB.toNat
  let s1 := (((s.wr (R.CH_RXIQ_G_CORR n) g.toNat).wr (R.CH_RXIQ_P_CORR n) p.toNat).wr (R.CH_RXIQCAL_IRR_DB n) irr).wr
    (R.CH_RXIQCAL_IQCAL n) 0
  let s2 := s1.modCh n fun c => { c with iqTemp := s.tDie }
  if irr < 200 then s2.setFlag (R.CH_RXIQCAL_IQ_FAIL n) else s2

/-- The image calibration of channel `n` that ran as maintenance has ended. -/
def State.imageCalOver (s : State) (n : Nat) : State :=
  s.maintEnd fun m => m.running && m.kind == .imageCal && bitOf m.mask.toNat n

end Sys2Proof.Machine
end

