-- ==== Sys2Proof/Machine/Pmb.lean ====
section
/-!
DEFINITION. Who holds a channel, and the transmitter rail (chapter 12): the controller of the PMBus regulator, rail holds,
and the events of its bus.
-/

namespace Sys2Proof.Machine

/-! ## Holds (R362, R481) -/

/-- A listen channel (R360). -/
def State.listens (s : State) (n : Nat) : Bool := bitOf (s.rd R.EMU_CTL_CHMASK) n

/-- Listen mode holds channel `n`: from field detection until its card is OFF again (R362). -/
def State.listenHolds (s : State) (n : Nat) : Bool := s.listens n && (s.card n).field

/-- A maintenance job holds channel `n` (R481). -/
def State.maintHolds (s : State) (n : Nat) : Bool := s.maint.any fun m => m.running && bitOf m.mask.toNat n

/-- A job holds channel `n`. -/
def State.jobHolds (s : State) (n : Nat) : Bool := (s.jobOn n).isSome

/-- A job or a maintenance job holds channel `n` (R84, R199, R481). A maintenance job counts as a job where a register is
closed while one holds the channel: DEDUCED, log entry 82. -/
def State.chanHeld (s : State) (n : Nat) : Bool := s.jobHolds n || s.maintHolds n

/-- Nothing holds channel `n`; rail holds apart. -/
def State.unheld (s : State) (n : Nat) : Bool := !s.jobHolds n && !s.maintHolds n && !s.listenHolds n

/-! ## The rail controller (R416 to R421) -/

/-- Change the rail controller. -/
def State.modPmb (s : State) (g : PmbSt → PmbSt) : State := { s with pmb := g s.pmb }

/-- The controller goes to OFF: VTXEN low, VTX_OK 0 (R421). -/
def State.pmbOff (s : State) : State :=
  s.modPmb fun p => { p with state := .off, vtxen := false, ok := 0, cmd := 0, lower := 0, holdLow := false, mode := none }

/-- VTXEN rises (R417, R421): OFF to TON, while EN is 1. -/
def State.pmbOn (s : State) : State :=
  if s.isOn R.PMB_CTL_EN && s.pmb.state == .off && !s.pmb.holdLow then
    s.modPmb fun p => { p with state := .ton, vtxen := true, reads := 0, attempts := 0, lower := 0 }
  else s

/-- Entry to FAULT with a code (R421). -/
def State.pmbFault (s : State) (err : Nat) : State :=
  let s1 := (s.modPmb fun p => { p with state := .fault, ok := 0, attempts := 0, reads := 0 }).wr R.PMB_STAT_ERR err
  ((s1.setFlag R.PMB_STAT_FAULT_SEEN).bump R.PMB_CNT_N_ERR).notifyAll 10

/-- The controller may take a bus error or an alert: TON to READY. -/
def PmbState.busy : PmbState → Bool
  | .ton | .setup | .ready | .change => true
  | .off | .fault => false

/-- SETUP has read VOUT_MODE: the demand is commanded, or the format is not ULINEAR16 (R421). -/
def State.pmbSetup (s : State) (voutMode : Byte) : State :=
  let s1 := s.modPmb fun p => { p with mode := none }
  if bitsOf voutMode.toNat 5 3 ≠ 0 then s1.pmbFault 4
  else (s1.modPmb fun p => { p with expN := toSigned 5 voutMode.toNat }).railCommand

/-- PMB_TON_END: TON_US has passed, and the transactions of SETUP follow, once PD_ENG is on (R417, R421). -/
def execPmbTonEnd (voutMode : Byte) (s : State) : Host.Outcome State Fault Refusal :=
  if s.pmb.state != .ton && s.pmb.state != .setup then .next s
  else if bitOf s.pwr.domOn.toNat 10 then .next (s.pmbSetup voutMode)
  else .next (s.modPmb fun p => { p with state := .setup, mode := some voutMode })

/-- PD_ENG comes on: a SETUP that waits for it goes on (R421). -/
def State.pmbEngineOn (s : State) : State :=
  match s.pmb.state, s.pmb.mode with
  | .setup, some m => s.pmbSetup m
  | _, _ => s

/-- A ULINEAR16 mantissa in mV, rounded (R416). -/
def mantissaMv (m : Nat) (e : Int) : Nat := if 0 ≤ e then m * 1000 * 2 ^ e.toNat else divRound (m * 1000) (2 ^ (-e).toNat)

/-- A reading lies within VTOL, in 0.5 %, of the commanded rail (R421). -/
def withinTol (v cmd tol : Nat) : Bool := decide (((v : Int) - cmd).natAbs * 200 ≤ tol * cmd)

/-- PMB_VSETTLE_END: READ_VOUT confirms the rail or not (R420, R421). -/
def execPmbVsettleEnd (mantissa : BitVec 16) (s : State) : Host.Outcome State Fault Refusal :=
  if s.pmb.state != .change then .next s
  else
    let v := mantissaMv mantissa.toNat s.pmb.expN
    let s1 := (s.wrSat R.PMB_VREAD_VOUT v).modPmb fun p => { p with attempts := 0, sent := some (s.pmbTxn 3 0x8B 0) }
    if withinTol v s.pmb.cmd (getBits s.pmb.vstep 24 8) then
      .next (((s1.modPmb fun p => { p with
        state := .ready, ok := p.cmd, reads := 0, lower := 0 }).bump R.PMB_CNT_N_CHANGE).railRaise)
    else if 2 ≤ s.pmb.reads then .next (s1.pmbFault 5)
    else .next (s1.modPmb fun p => { p with reads := p.reads + 1 })

/-- ERR of a bus error. -/
def busErrCode : BusErr → Nat
  | .nack => 1 | .pec => 2 | .timeout => 3

/-- Failed attempts of transaction `t` so far: those of another one have ended with it (R421). -/
def PmbSt.failed (p : PmbSt) (t : PmbTrans) : Nat := if p.trans = t then p.attempts else 0

/-- PMB_BUS_ERROR: an attempt of a transaction fails; the last of RETRY + 1 enters FAULT (R421). The transactions of
SETUP come after the wait of TON. -/
def execPmbBusError (e : BusFail) (s : State) : Host.Outcome State Fault Refusal :=
  if !s.pmb.state.busy then .next s
  else if s.rd R.PMB_CTL_RETRY ≤ s.pmb.failed e.trans then .next (s.pmbFault (busErrCode e.err))
  else .next (s.modPmb fun p => { p with
    attempts := p.failed e.trans + 1, trans := e.trans
    state := if p.state = .ton ∧ (e.trans = .clearFaults ∨ e.trans = .voutMode) then .setup else p.state })

/-- PMALERT: STATUS_WORD is kept, and any of bits 11, 6, 5, 4, 3 and 2 enters FAULT (R421). -/
def execPmalert (statusWord : BitVec 16) (s : State) : Host.Outcome State Fault Refusal :=
  if !s.pmb.state.busy then .next s
  else
    let s1 := (s.wr R.PMB_STAT_SW statusWord.toNat).modPmb fun p => { p with
      attempts := if p.trans = .statusWord then 0 else p.attempts, sent := some (s.pmbTxn 3 0x79 0) }
    .next (if statusWord &&& 0x087C != 0 then s1.pmbFault 6 else s1)

/-- PMB_RECOVER_END: VTXEN has been low for 1 ms (R421). -/
def execPmbRecoverEnd (s : State) : Host.Outcome State Fault Refusal :=
  if !s.pmb.holdLow then .next s
  else .next (s.modPmb fun p => { p with holdLow := false }).pmbOn

/-- RECOVER (R421, R422): it acts in FAULT only. -/
def State.pmbRecover (s : State) : State :=
  if s.pmb.state == .fault then s.pmbOff.modPmb fun p => { p with holdLow := true } else s

/-- VTXLOW of a pair: both channels, unless OFF, and the controller (R51, R52, R421). -/
def execVtxlow (pair : Fin 4) (s : State) : Host.Outcome State Fault Refusal :=
  let l := [2 * pair.val, 2 * pair.val + 1]
  if l.any fun n => (s.ch n).field.faultable then
    let s1 := s.faultChans l R.CH_TXSTAT_VTXLOW R.DIAG_CNT_2_N_VTXLOW
    .next (if s.pmb.state == .off || s.pmb.state == .fault then s1 else s1.pmbFault 7)
  else .next s

/-! ## Step 4 (R418, R419, R421) -/

/-- Channels that the head of some queue names. -/
def State.namedByHeads (s : State) : BitVec 8 :=
  (List.range 64).foldl (fun m q => match s.headOf q with | none => m | some j => m ||| j.chmask) 0

/-- Rail holds are placed and end, and VLIM and VSTEP take force (R419, R425). -/
def State.placeRailHolds (s : State) : State :=
  let s1 := s.modPmb fun p => { p with vlim := s.rdWord R.PMB_VLIM, vstep := s.rdWord R.PMB_VSTEP }
  let named := s1.namedByHeads
  let held := (List.range 8).filter fun n => !s1.jobHolds n && bitOf named.toNat n && decide (s1.pmb.ok < min (s1.holdNeed n) s1.vmax)
  s1.modPmb fun p => { p with rail := BitVec.ofNat 8 ((held.map fun n => 2 ^ n).sum) }

/-- The demand at step 4: a raise at once, a lower after LOWER_BEATS (R421). -/
def State.railStep4 (s : State) : State :=
  let s1 := s.placeRailHolds.railRaise
  if s1.pmb.state != .ready then s1
  else if s1.railDemand < s1.pmb.cmd then
    if getBits s1.pmb.vstep 16 8 ≤ s1.pmb.lower + 1 then
      s1.railCommand.modPmb fun p => { p with ok := p.cmd }
    else s1.modPmb fun p => { p with lower := p.lower + 1 }
  else s1.modPmb fun p => { p with lower := 0 }

/-! ## Raw access (R422) -/

/-- Command codes that a raw write or send may not carry. -/
def rawBarred (code : Byte) : Bool := code == 0x01 || code == 0x02 || code == 0x20 || code == 0x21

/-- A raw command of kind `op` (2 to 6): its status, and the transaction that starts. A second one while one runs
is answered BUSY. -/
def State.pmbRaw (s : State) (op : Nat) (code : Byte) (data : BitVec 16) : State × Byte :=
  if 4 ≤ op ∧ rawBarred code then (s, 0x04)
  else if (s.pmb.state != .ready && s.pmb.state != .fault) || s.pmb.raw.isSome then (s, 0x05)
  else
    let d : BitVec 16 := if op = 4 then data &&& 0xFF else if op = 5 then data else 0
    (((s.modPmb fun p => { p with raw := some (s.pmbTxn op code d) }).wr R.PMB_RAW_DONE 0).wr R.PMB_RAW_ERR 0, 0x00)

/-- What a raw transaction that succeeds leaves in PMB_RAW: a byte, a word, or nothing after a write or send. -/
def PmbTxn.result (x : PmbTxn) (data : BitVec 16) : Option Nat :=
  if x.op = 2 then some (data.toNat % 256) else if x.op = 3 then some data.toNat else none

/-- PMB_RAW_DONE: the raw transaction ends; a read that succeeds leaves its data. -/
def execPmbRawDone (data : BitVec 16) (failed : Bool) (s : State) : Host.Outcome State Fault Refusal :=
  match s.pmb.raw with
  | none => .next s
  | some x =>
    let s1 := ((s.modPmb fun p => { p with raw := none }).setFlag R.PMB_RAW_DONE).wr R.PMB_RAW_ERR failed.toNat
    .next (match x.result data with
      | some v => if failed then s1 else s1.wr R.PMB_RAW_DATA v
      | none => s1)

end Sys2Proof.Machine
end

