-- ==== Sys2Proof/Machine/Watch.lean ====
section
/-!
DEFINITION. Firefly (chapter 12, R409 to R415): its step list, pings, comparison, tracking and detection.
-/

namespace Sys2Proof.Machine

/-! ## Sines of small angles -/

/-- An angle of `k` times 0.05° in 2⁻⁴⁰ rad. -/
def angle40 (k : Nat) : Nat := divRound (k * pi40) 3600

/-- Sine and cosine of `k` times 0.05° in 2⁻⁴⁰, for angles up to 25.5°. -/
def sinCos (k : Nat) : Int × Int :=
  let ts := trigTerms (angle40 k) 14 0 (2 ^ 40)
  (altSum (evens (ts.drop 1)), altSum (evens ts))

/-! ## The comparison of R412 -/

/-- Signed halves of a step word. -/
def vecOf (w : Word) : Int × Int := (toSigned 16 (getBits w 0 16), toSigned 16 (getBits w 16 16))

/-- A step word of a vector; what does not fit saturates. -/
def wordOf (v : Int × Int) : Word :=
  let k (x : Int) : Nat := ofSigned 16 (clampInt (-32768) 32767 x)
  BitVec.ofNat 32 (k v.1 + 2 ^ 16 * k v.2)

/-- Square of a vector's length. -/
def normSq (v : Int × Int) : Nat := (v.1 * v.1 + v.2 * v.2).toNat

/-- |ΔA| is at least `t` half thousandths. -/
def ampFar (v b : Int × Int) (t : Nat) : Bool :=
  decide ((2000 + t) ^ 2 * normSq b ≤ 2000 ^ 2 * normSq v) || decide (2000 ^ 2 * normSq v ≤ (2000 - t) ^ 2 * normSq b)

/-- |ΔA| is above `t` half thousandths. -/
def ampBeyond (v b : Int × Int) (t : Nat) : Bool :=
  decide ((2000 + t) ^ 2 * normSq b < 2000 ^ 2 * normSq v) || decide (2000 ^ 2 * normSq v < (2000 - t) ^ 2 * normSq b)

/-- Cross and dot product. -/
def crossDot (v b : Int × Int) : Int × Int := (v.2 * b.1 - v.1 * b.2, v.1 * b.1 + v.2 * b.2)

/-- |Δφ| is at least `t` times 0.05°, up to the precision of the sine; the phase of a zero vector is a free value. -/
def phaseFar (v b : Int × Int) (t : Nat) (free : Bool) : Bool :=
  let (c, d) := crossDot v b
  if v == (0, 0) then free
  else decide (d ≤ 0) || decide ((sinCos t).1 * d ≤ (c.natAbs : Int) * (sinCos t).2)

/-- |Δφ| is above `t` times 0.05°. -/
def phaseBeyond (v b : Int × Int) (t : Nat) (free : Bool) : Bool :=
  let (c, d) := crossDot v b
  if v == (0, 0) then free
  else decide (d ≤ 0) || decide ((sinCos t).1 * d < (c.natAbs : Int) * (sinCos t).2)

/-- A ping exceeds (R412). -/
def exceeds (scfg : Word) (v b : Int × Int) (free : Bool) : Bool :=
  let ta := getBits scfg 8 8
  let tp := getBits scfg 16 8
  (ta != 0 && ampFar v b (2 * ta)) || (tp != 0 && phaseFar v b (2 * tp) free)

/-- A ping lies within half of each threshold (R412). -/
def withinHalf (scfg : Word) (v b : Int × Int) (free : Bool) : Bool :=
  let ta := getBits scfg 8 8
  let tp := getBits scfg 16 8
  (ta == 0 || !ampBeyond v b ta) && (tp == 0 || !phaseBeyond v b tp free)

/-! ## Steps -/

/-- The default step. -/
def noStep (_ : Nat) : WStep := {}

/-- Step `k`. -/
def State.wstep (s : State) (k : Nat) : WStep := sget noStep s.watch.steps k

/-- Change step `k`. -/
def State.modStep (s : State) (k : Nat) (g : WStep → WStep) : State :=
  { s with watch := { s.watch with steps := sput noStep s.watch.steps k (g (s.wstep k)) } }

/-- Channel of a step. -/
def WStep.ch (w : WStep) : Nat := getBits w.scfg 0 3
/-- TRACK. -/
def WStep.track (w : WStep) : Bool := bitOf w.scfg.toNat 7
/-- WAKE. -/
def WStep.wakes (w : WStep) : Bool := bitOf w.scfg.toNat 26
/-- RUN. -/
def WStep.runs (w : WStep) : Bool := bitOf w.scfg.toNat 27

/-- The baseline moves towards the measurement (R413). -/
def trackBase (sh : Nat) (b v : Int × Int) : Int × Int :=
  (b.1 + (v.1 - b.1).tdiv (2 ^ sh), b.2 + (v.2 - b.2).tdiv (2 ^ sh))

/-- A step becomes detected (R412). -/
def State.detect (s : State) (k : Nat) : State :=
  let f := if k < 32 then R.WATCH_DET_0_DET else R.WATCH_DET_1_DET
  let s1 := (s.modStep k fun w => { w with now := true, exceed := 0, within := 0 }).wr f (s.rd f ||| 2 ^ (k % 32))
  let s2 := (({ s1 with watch := { s1.watch with lastDet := BitVec.ofNat 6 k } }).bump R.WATCH_CNT_1_N_DET).notifyAll 11
  (if s.isOn R.PWR_WAKEEN_WATCH && (s.wstep k).wakes then s2.latchWake (.watch (BitVec.ofNat 6 k)) else s2).leaveIdle

/-- What a ping of step `k` does once it is compared (R412, R413). -/
def State.compareStep (s0 : State) (k : Nat) : State :=
  let w0 := s0.wstep k
  let s1 := s0.modStep k fun w =>
    if w.capPing then { w with sbase := w.smeas, capPing := false, pinged := false }
    else { w with pinged := false }
  let w := s1.wstep k
  let b := vecOf w.sbase
  let v := vecOf w0.smeas
  let confirm := getBits s1.watch.ctl 16 3
  let fr := s1.takeFresh Config.zeroPhase
  if normSq b = 0 then s1
  else
    let s := fr.2
    if exceeds w.scfg v b fr.1 then
      if w.now then s.modStep k fun w => { w with within := 0 }
      else if confirm ≤ w.exceed + 1 then s.detect k
      else s.modStep k fun w => { w with exceed := w.exceed + 1 }
    else if w.now then
      if !withinHalf w.scfg v b fr.1 then s.modStep k fun w => { w with within := 0 }
      else if confirm ≤ w.within + 1 then s.modStep k fun w => { w with now := false, exceed := 0, within := 0 }
      else s.modStep k fun w => { w with within := w.within + 1 }
    else
      s.modStep k fun w => { w with
        exceed := 0
        sbase := if w.track then wordOf (trackBase (getBits s.watch.ctl 20 4) b v) else w.sbase }

/-- Step 5 of a boundary: the pings run in RUN since the last one are compared (R414). -/
def State.compareWatch (s : State) : State :=
  s.each (List.range 64) fun s k => if (s.wstep k).pinged then s.compareStep k else s

/-- A ping of step `k` measures `m` (R411); a CAPTURE made before it takes it (R413). -/
def State.ping (s : State) (k : Nat) (m : Int × Int) : State :=
  (({ s with watch := { s.watch with cur := BitVec.ofNat 6 k } }).modStep k fun w =>
    { w with smeas := wordOf m, capture := false, capPing := w.capture || w.capPing }).bump R.WATCH_CNT_0_N_PING

/-- A step may run on its channel in RUN and IDLE (R414). -/
def State.mayPing (s : State) (n : Nat) : Bool := (s.ch n).field == .off && s.unheld n && s.watchOpen

/-- POS and EN of a step. -/
def WStep.pos (w : WStep) : BitVec 3 × Bool := (BitVec.ofNat 3 (getBits w.scfg 3 3), bitOf w.scfg.toNat 6)

/-- The steps from `k` on among the first `total`, with their words. -/
def State.stepsFrom (s : State) (k total : Nat) : List WStep := ((List.range total).drop k).map s.wstep

/-- The switch word that latches what the channels hold is shifted (R58, R410). -/
def State.showWord (s : State) : State :=
  s.wrWord R.SYN_ASWORD (BitVec.ofNat 32 (((List.range 8).map fun n =>
    ((s.ch n).curPos.toNat + 8 * (s.ch n).curEn.toNat) * 16 ^ n).sum))

/-- The switch word shifted before step `k`, where its channel is not latched as the step needs: every channel takes the
position of its next step from here on, among the steps that `may` takes (R410). -/
def State.latchStep (s : State) (may : WStep → Bool) (k total : Nat) : State :=
  let w := s.wstep k
  let c := s.ch w.ch
  if (c.curPos, c.curEn) = w.pos then s
  else
    (s.each (List.range 8) fun s n =>
      match (s.stepsFrom k total).find? fun x => x.ch == n && may x with
      | none => s
      | some x => s.modCh n fun c => { c with curPos := x.pos.1, curEn := x.pos.2 }).showWord

/-- The restore shift after a ping in RUN or IDLE: channel `n` is latched as CHn_ANT has it (R414). -/
def State.restoreAnt (s : State) (n : Nat) : State :=
  let pos := BitVec.ofNat 3 (s.rd (R.CH_ANT_POS n))
  let en := s.isOn (R.CH_ANT_EN n)
  if ((s.ch n).curPos, (s.ch n).curEn) = (pos, en) then s
  else (s.modCh n fun c => { c with curPos := pos, curEn := en }).showWord

/-- A step that runs in RUN and IDLE, on a channel that lets it (R414). -/
def State.stepMay (s : State) (w : WStep) : Bool := w.runs && s.mayPing w.ch

/-- One step of a round of `total` steps in RUN or IDLE (R410, R414). Only channels that meet the conditions of R414 follow
the switch word, and its settling and the restore shift end within the round: DEDUCED, log entry 97. -/
def State.stepAwake (s : State) (total k : Nat) (m : Int × Int) : State :=
  let w := s.wstep k
  if !w.runs then s
  else if !s.mayPing w.ch then s.bump R.WATCH_CNT_0_N_SKIP
  else
    let s1 := ((s.latchStep s.stepMay k total).ping k m).restoreAnt w.ch
    if s.pwr.state == .run then s1.modStep k fun w => { w with pinged := true } else s1.compareStep k

/-- A round of `total` steps in RUN or IDLE: the steps from `k` on. -/
def State.roundAwake (s : State) (total : Nat) : Nat → List (Int × Int) → State
  | _, [] => s
  | k, m :: ms => State.roundAwake (s.stepAwake total k m) total (k + 1) ms

/-- A round in WATCH: the steps from `k` on, up to one whose detection wakes the device (R415). -/
def State.roundWatch (s : State) (total : Nat) : Nat → List (Int × Int) → State × Option Nat
  | _, [] => (s, none)
  | k, m :: ms =>
    let w := s.wstep k
    let s1 := ((s.latchStep (fun _ => true) k total).ping k m).compareStep k
    if w.wakes && !w.now && (s1.wstep k).now && s.isOn R.PWR_WAKEEN_WATCH then (s1, some k)
    else State.roundWatch s1 total (k + 1) ms

/-- CLEAR of one step. -/
def WStep.clear (w : WStep) : WStep := { w with now := false, exceed := 0, within := 0 }

/-- A write of SCFG: the next round takes it (R424). -/
def State.writeCfg (s : State) (k : Nat) (v : Word) : State := s.modStep k fun w => { w with nextCfg := some (v &&& 0x0FFFFFFF) }

/-- A write of SBASE: at the next round it sets the baseline and clears the step (R413, R424). -/
def State.writeBase (s : State) (k : Nat) (v : Word) : State := s.modStep k fun w => { w with nextBase := some v }

/-- The words of a step that a round takes (R413, R424). -/
def WStep.renew (w : WStep) : WStep :=
  let w1 := match w.nextBase with
    | none => w
    | some b => { w.clear with sbase := b, nextBase := none }
  { w1 with scfg := w.nextCfg.getD w.scfg, nextCfg := none }

/-- A round starts: what was written since the last one takes force (R424). -/
def State.openRound (s : State) : State :=
  let due := (s.watch.steps.filter fun x => x.2.nextCfg.isSome || x.2.nextBase.isSome).map Prod.fst
  let s1 : State := { s with watch := { s.watch with ctl := s.rdWord R.WATCH_CTL } }
  s1.each due fun s k => s.modStep k WStep.renew

/-- Steps that a WATCH_CMD acts on. -/
def cmdSteps (one : Bool) (k : Nat) : List Nat := if one then [k] else List.range 64

/-- CAPTURE: each enabled step takes its baseline from its next ping (R413). -/
def State.captureSteps (s : State) (one : Bool) (k : Nat) : State :=
  s.each (cmdSteps one k) fun s i => if bitOf ((s.wstep i).nextCfg.getD (s.wstep i).scfg).toNat 6 then s.modStep i fun w => { w with capture := true } else s

/-- CLEAR: steps become clear, baselines kept. -/
def State.clearSteps (s : State) (one : Bool) (k : Nat) : State :=
  s.each (cmdSteps one k) fun s i => s.modStep i WStep.clear

/-- PING_OSC_TRIM: the ping oscillator is trimmed; no state of the device shows it (R411). -/
def execPingOscTrim (s : State) : Host.Outcome State Fault Refusal := .next s

end Sys2Proof.Machine
end

