-- ==== Sys2Proof/Machine/Budget.lean ====
section
/-!
DEFINITION. Accounts of energy, power and heat (chapter 9), and steps 1, 2, 4 and 6 of a beat boundary (R10).
-/

namespace Sys2Proof.Machine

/-! ## The accounts -/

/-- Change the accounts. -/
def State.modBudg (s : State) (g : BudgSt → BudgSt) : State := { s with budg := g s.budg }

/-- Step 4 takes the global BUDG registers. -/
def State.latchLim (s : State) : State :=
  s.modBudg fun b => { b with lim := s.regs.filter fun r => decide (0x1800 ≤ r.1) && decide (r.1 ≤ 0x1840) }

/-- Least value of a signed balance. -/
def balMin : Int := -(2 ^ 31)

/-- Add to HB; it saturates at −2³¹ (R298). -/
def State.addHb (s : State) (x : Int) : State := s.modBudg fun b => { b with hb := max balMin (b.hb + x) }

/-- Add to the shaper balance of a queue (R275). -/
def State.addBal (s : State) (q : Nat) (x : Int) : State := s.modQu q fun u => { u with bal := max balMin (u.bal + x) }

/-! ## Quota (R308 to R310) -/

/-- O of a port: the remaining reservations of its jobs. -/
def State.owed (s : State) (p : Nat) : Nat := ((s.jobs.filter fun j => j.port.val == p).map fun j => j.remain).sum

/-- U of a port. -/
def State.usage (s : State) (p : Nat) : Nat := ((s.pt p).slots.take (s.pt p).qwin).sum + s.owed p

/-- OVER of a port sets (R310); the next step 4 shows it (R329). -/
def State.setOver (s : State) (p : Nat) : State :=
  if (s.pt p).isOver then s
  else (s.modPt p fun t => { t with isOver := true, overNew := true }).notify p 3

/-- U after a write of QUOTA (R310). -/
def State.quotaWritten (s : State) (p : Nat) : State :=
  if s.isOn (R.BUDG_PCFG_QEN p) && decide (s.rd (R.BUDG_QUOTA_QUOTA p) < s.usage p) then s.setOver p else s

/-! ## Step 1: settlement (R18, R190, R275, R298, R301, R308) -/

/-- What the beat just ended measured is taken, and its meters start anew; every sequencer owes a yield (R242). -/
def State.openBeat (s : State) : State :=
  let len := s.beatNs
  let l := s.chans.toList
  let rsns := s.lim R.BUDG_ISNS_RSNS
  let n := s.budg.nSamp
  let s1 := s.modBudg fun b => { b with
    beatNs := len
    beatUj := ((List.range 8).map s.meterDelta).sum
    beatOn := (l.map fun c => min c.onNs len).sum
    beatAct := (l.map fun c => min c.actNs len).sum
    beatP := if n = 0 then b.beatP else divRound b.sumP (rsns * n)
    beatV := if n = 0 then b.beatV else divRound b.sumV n
    beatI := if n = 0 then b.beatI else divRound (b.sumI * 1000) (rsns * n)
    sumP := 0, sumV := 0, sumI := 0, nSamp := 0
    beatQuiet := b.quiet, quiet := s.maint.all fun m => !m.running }
  let s2 : State := { s1 with jobs := s1.jobs.map fun j => { j with rom := { j.rom with postTried := false } } }
  s2.each (List.range 8) fun s n => s.modCh n fun c => { c with
    onNs := 0, actNs := 0, seq := { c.seq with ypend := true, ycnt := 0 } }

/-- The beat's charge of a job: its field energy and its overheads (R18, R190). -/
def State.chargeJob (s : State) (j : Job) : State :=
  let e := ((maskList j.mask).map fun n => s.meterDelta n.val).sum
  let amt := e + j.exchBeat * j.ovh
  let t := min j.remain amt
  (s.modJob j.id fun k => { k with
    remain := k.remain - t, debt := k.debt + (amt - t), fieldUj := k.fieldUj + e, exchBeat := 0 }).modPt j.port.val
      fun p => { p with slotNow := p.slotNow + amt }

/-- A posted job is settled: what it reserved and did not use returns, or its debt is charged (R18). -/
def State.settleJob (s : State) (j : Job) : State :=
  let left : Int := (j.remain : Int) - j.debt
  let s1 := (s.dropJob j.id).addHb left
  if j.shaped && (s.qu j.queue).shen then s1.addBal j.queue left else s1

/-- Jobs past admission. -/
def State.admitted (s : State) : List Job := s.jobs.filter fun j => j.state.holds || j.state == .posted

/-- Field energy of channels that no job held: maintenance, charged to HB (R301). -/
def State.maintEnergy (s : State) : Nat :=
  (((List.range 8).filter fun n => !s.admitted.any fun j => bitOf j.mask.toNat n).map s.meterDelta).sum

/-- The window of a port advances, and OVER is evaluated (R308, R310). -/
def State.portStep1 (s : State) (p : Nat) : State :=
  let s1 := s.modPt p fun t => { t with
    slots := (t.slotNow :: t.slots).take 1024, slotNow := 0, qwin := s.rd (R.BUDG_PCFG_QWIN p) }
  let off := s1.modPt p fun t => { t with isOver := false }
  if !s1.isOn (R.BUDG_PCFG_QEN p) then off
  else if s1.rd (R.BUDG_QUOTA_QUOTA p) < s1.usage p then s1.setOver p
  else if s1.usage p < s1.rd (R.BUDG_QUOTA_QUOTA p) then off
  else s1

/-- The job that holds channel `n` has not ended. -/
def State.jobGoesOn (s : State) (n : Nat) : Bool := ((s.jobOn n).map fun j => j.ended.isNone) == some true

/-- A channel in FAULT whose holding job has ended goes to OFF (R49); the job's final entry waits for that (R22). -/
def State.clearFault (s : State) (n : Nat) : State :=
  if (s.ch n).field == .fault && !s.jobGoesOn n then s.setField n .off else s

/-- Step 1. -/
def State.step1 (s0 : State) : State :=
  let s := s0.openBeat
  let rest := s.maintEnergy
  let s1 := (s.each s.admitted fun s j => s.chargeJob j).addHb (-rest)
  let s2 := s1.each (List.range 8) fun s n => s.modCh n fun c => { c with eMark := s.rdWord (R.CH_TXENERGY n) }
  let s3 := s2.each (s2.jobs.filter fun j => j.state == .posted) fun s j => s.settleJob j
  (s3.each [0, 1, 2, 3] fun s p => s.portStep1 p).each (List.range 8) fun s n => s.clearFault n

/-! ## Step 2: refills (R270, R275, R277, R278, R298) -/

/-- Refill of a queue's shaper. -/
def State.refillQueue (s : State) (q : Nat) : State :=
  let on := s.isOn (R.SCHED_QCFG_SHEN q)
  let burst := s.rd (R.SCHED_QBURST_BURST q)
  s.modQu q fun u => { u with
    shen := on, burst := burst
    bal := if !on then u.bal else if !u.shen then burst else min (u.bal + s.rd (R.SCHED_QRATE_RATE q)) burst }

/-- Refill of a port's buckets. -/
def State.refillPort (s : State) (p : Nat) : State :=
  s.modPt p fun t => { t with
    tc := min (t.tc + s.rd (R.BUDG_CIR_CIR p)) (s.rd (R.BUDG_CBS_CBS p))
    tp := min (t.tp + s.rd (R.BUDG_PIR_PIR p)) (s.rd (R.BUDG_PBS_PBS p)) }

/-- Refill of HB; what falls below 1 µJ is carried. DEDUCED, log entry 45. -/
def State.refillHb (s : State) : State :=
  let total := s.rd R.BUDG_FLD_FLD_MAX * s.time.beatUs + s.budg.hbFrac
  s.modBudg fun b => { b with
    hb := max balMin (min (b.hb + total / 1000) (s.rd R.BUDG_HBURST_H_BURST)), hbFrac := total % 1000 }

/-- Step 2. -/
def State.step2 (s : State) : State :=
  ((s.each (List.range 64) fun s q => s.refillQueue q).each [0, 1, 2, 3] fun s p => s.refillPort p).refillHb

/-! ## The thermal model (R312, R313). Its fixed-point widths are the model's: DESIGN CHOICE, log entry 46 -/

/-- Terms of the exponential series of `y` from term `k` on, in 2⁻⁶⁴: `t` is the term before. -/
def expTerms (y : Nat) : Nat → Nat → Nat → List Nat
  | 0, _, _ => []
  | n + 1, k, t => t :: expTerms y n (k + 1) (t * y / (2 ^ 64 * (k + 1)))

/-- `k` squarings of a number in 2⁻⁶⁴. -/
def squares : Nat → Nat → Nat
  | 0, z => z
  | k + 1, z => squares k (z * z / 2 ^ 64)

/-- 1 − exp(−a/b), in 2⁻⁶⁴. -/
def oneMinusExp (a b : Nat) : Nat :=
  if 40 * b ≤ a then 2 ^ 64
  else 2 ^ 64 - squares 8 (altSum (expTerms (a * 2 ^ 64 / (b * 256)) 16 0 (2 ^ 64))).toNat

/-- A node rise `t` after it moves by the part `k` towards the rise of a power in 0.05 mW through a resistance in
0.01 °C/W. -/
def towards (t : Int) (p20 r k : Nat) : Int := ((p20 * r * 2 ^ 32 / 2000000 : Nat) - t) * k / 2 ^ 64

/-- P_DISS in mW, rounded (R312). -/
def State.dissipation (s : State) : Nat :=
  let b := s.budg
  s.lim R.BUDG_THOR_PCORE + divRound (45 * b.beatAct + 60 * b.beatOn + 150000 * b.beatUj) b.beatNs

/-- T_PRED of a power in 0.05 mW, in 2⁻³² °C (R313). -/
def State.predict (s : State) (p20 : Nat) : Int :=
  let h := s.lim R.BUDG_THOR_H
  s.tDie * 2 ^ 28 + towards s.budg.t1 p20 (s.lim R.BUDG_TMOD_0_R1) (oneMinusExp h (s.lim R.BUDG_TMOD_0_TAU1))
    + towards s.budg.t2 p20 (s.lim R.BUDG_TMOD_1_R2) (oneMinusExp h (10 * s.lim R.BUDG_TMOD_1_TAU2))

/-- A temperature in 2⁻³² °C as a signed register field in 1/16 °C, rounded. -/
def temp16 (t : Int) : Int := clampInt (-32768) 32767 ((t + 2 ^ 27) / 2 ^ 28)

/-- P_DISS and the node rises of the beat just ended. -/
def State.stepModel (s : State) : State :=
  let p := s.dissipation
  let us := s.budg.beatNs / 1000
  s.modBudg fun b =>
    let t1 := if b.restart then 0 else b.t1
    let t2 := if b.restart then 0 else b.t2
    { b with
      pdiss := p, restart := false
      t1 := t1 + towards t1 (20 * p) (s.lim R.BUDG_TMOD_0_R1) (oneMinusExp us (1000 * s.lim R.BUDG_TMOD_0_TAU1))
      t2 := t2 + towards t2 (20 * p) (s.lim R.BUDG_TMOD_1_R2) (oneMinusExp us (10000 * s.lim R.BUDG_TMOD_1_TAU2)) }

/-- TSTATE at step 4 (R315). -/
def State.thermStep4 (s : State) : State :=
  let t0 := s.predict (20 * s.budg.pdiss)
  let die := s.tDie * 2 ^ 28
  let soft := s.limS R.BUDG_TLIM_0_TJ_SOFT * 2 ^ 28
  let hyst : Int := s.lim R.BUDG_TLIM_1_HYST * 2 ^ 32
  match s.budg.tstate with
  | .normal =>
    if soft ≤ t0 ∨ soft ≤ die then
      ((s.modBudg fun b => { b with tstate := .soft }).setFlag R.BUDG_TSTAT_SOFT_SEEN).notifyAll 4
    else s
  | .soft => if t0 ≤ soft - hyst ∧ die ≤ soft - hyst then s.modBudg fun b => { b with tstate := .normal } else s
  | .hard =>
    if die ≤ s.limS R.BUDG_TLIM_0_TJ_HARD * 2 ^ 28 - hyst then s.modBudg fun b => { b with tstate := .soft } else s

/-! ## Step 4 -/

/-- PIN_NOW against PIN_MAX, and PIN_BASE (R303, R304, R307). -/
def State.powerStep4 (s : State) : State :=
  let p := min s.budg.beatP 65535
  let isOver := decide (s.lim R.BUDG_PIN_PIN_MAX < p)
  let s1 := s.modBudg fun b => { b with isOver := isOver }
  let s2 := if isOver then s1.setFlag R.BUDG_TSTAT_OVER_SEEN else s1
  let s3 := if isOver && s.lim R.BUDG_CTL_PWR_EN != 0 then s2.bump R.BUDG_ACNT_1_N_OVER else s2
  let quiet := s.budg.beatQuiet && s.budg.beatOn == 0 && s.chans.toList.all (fun c => c.field == .off)
    && s.maint.all fun m => !m.running
  if quiet then (s3.wr R.BUDG_PBASE_PIN_BASE p).latchLim else s3

/-- PCLAIM: the claims of the jobs from grant to POSTED (R305). -/
def State.pclaim (s : State) : Nat := ((s.jobs.filter fun j => j.state.holds).map fun j => j.claim).sum

/-- Registers of a port that step 4 shows (R329). -/
def State.showPort (s : State) (p : Nat) : State :=
  let t := s.pt p
  let s1 := (((s.wr (R.BUDG_TC_TC p) t.tc).wr (R.BUDG_TP_TP p) t.tp).wrSat (R.BUDG_QUSE_U p) (s.usage p)).wr
    (R.BUDG_QSTAT_OVER p) t.isOver.toNat
  (if t.overNew then s1.setFlag (R.BUDG_QSTAT_OVER_SEEN p) else s1).modPt p fun t => { t with overNew := false }

/-- The deferrals counted since the last step 4 enter BUDG_ACNT (R329). -/
def State.showDeferrals (s : State) : State :=
  (((s.bump R.BUDG_ACNT_0_N_ACCT s.budg.nAcct).bump R.BUDG_ACNT_0_N_PWR s.budg.nPwr).bump R.BUDG_ACNT_1_N_THM
    s.budg.nThm).modBudg fun b => { b with nAcct := 0, nPwr := 0, nThm := 0 }

/-- Global registers that step 4 shows (R329). -/
def State.showBudget (s : State) : State :=
  let b := s.budg
  let sen (k : Nat) : Int := b.sens.getD k 0
  let amb := s.tDie * 2 ^ 28 - b.t1 - b.t2
  let s1 := ((s.wrS R.BUDG_HBAL_HB b.hb).wrSat R.BUDG_PNOW_PIN_NOW b.beatP).wrSat R.BUDG_PNOW_PCLAIM s.pclaim
  let s2 := (s1.wrS R.BUDG_TDIE_T_DIE s.tDie).wrS R.BUDG_TDIE_T_PRED (temp16 (s.predict (20 * b.pdiss)))
  let s3 := (s2.wrSat R.BUDG_PDISS_P_DISS b.pdiss).keepMax R.BUDG_PDISS_PD_MAX (min b.pdiss 65535)
  let s4 := (((s3.wrS R.BUDG_TSENS_0_S0 (sen 0)).wrS R.BUDG_TSENS_0_S1 (sen 1)).wrS R.BUDG_TSENS_1_S2 (sen 2)).wrS
    R.BUDG_TSENS_1_S3 (sen 3)
  let s5 := (s4.wrS R.BUDG_TSENS_2_S4 (sen 4)).wrS R.BUDG_TSENS_2_T_AMB_EST (temp16 amb)
  let s6 := (s5.wrSat R.BUDG_VIN_VIN b.beatV).wrSat R.BUDG_VIN_IIN b.beatI
  (s6.showDeferrals.wr R.BUDG_TSTAT_OVER b.isOver.toNat).each [0, 1, 2, 3] fun s p => s.showPort p

/-- Step 4 (R303, R304, R307, R312 to R315, R419, R421, R329). -/
def State.step4 (s : State) : State := s.latchLim.stepModel.thermStep4.powerStep4.railStep4.showBudget

/-! ## Step 6 (R280) -/

/-- Head delay of a queue in 0.1 ms. -/
def State.headDelay (s : State) (q : Nat) : Nat :=
  match s.headOf q with
  | none => 0
  | some j => min ((s.nt - j.queuedNt.toNat) / 100000) 65535

/-- Step 6. -/
def State.step6 (s : State) : State :=
  s.each (List.range 64) fun s q =>
    let d := s.headDelay q
    (s.modQu q fun u => { u with hdly := d }).keepMax (R.SCHED_QDLY_DMAX q) d

/-- The shunt voltage and VIN are sampled: from step 2 of start-up on, in RUN and IDLE (R489). -/
def State.samplesSupply (s : State) : Bool :=
  (s.pwr.state == .run || s.pwr.state == .idle) && s.boot != .held && s.boot != .crystal

/-- SUPPLY_SAMPLE: a sample of the shunt voltage and of VIN (R303). -/
def execSupplySample (shuntUv vinMv : Nat) (s : State) : Host.Outcome State Fault Refusal :=
  .next (if s.samplesSupply then s.modBudg fun b => { b with
    sumP := b.sumP + vinMv * shuntUv, sumV := b.sumV + vinMv, sumI := b.sumI + shuntUv, nSamp := b.nSamp + 1 } else s)

end Sys2Proof.Machine
end

