-- ==== Sys2Proof/Machine/Results.lean ====
section
/-!
DEFINITION. Results of a running job (R237 to R241): the result buffer, interim entries, END, and what resumes when the
merge unit, the locate unit or CRY delivers.
-/

namespace Sys2Proof.Machine

/-! ## The result buffer (R237, R238, R240) -/

/-- Size of the result buffer. -/
def outSize : Nat := 1008

/-- Append an item to the buffer: what lies beyond 1,008 bytes is dropped (R240). -/
def Seq.emit (q : Seq) (it : OutItem) : Seq :=
  let n := outLen q.out
  if outSize ≤ n then { q with cut := true }
  else { q with out := q.out ++ [it], cut := q.cut || decide (outSize < n + it.len) }

/-- Append bytes. -/
def Seq.emitBytes (q : Seq) (bs : List Byte) : Seq := bs.foldl (fun q b => q.emit (.byte b)) q

/-- Bytes in the buffer. -/
def Seq.outBytesLen (q : Seq) : Nat := min outSize (outLen q.out)

/-- Take the images of the buffer of channel `n` that can be taken now (R142, R238). -/
def State.refill (s : State) (n : Nat) : State :=
  match s.jobLead n with
  | none => s
  | some j => s.modSeq n fun q => { q with out := s.fillItems j.id (s.ch n).inv q.out }

/-! ## Interim and final entries (R239, R241) -/

/-- POST of lead `n` with register `r`, every image being filled (R239). -/
def State.doPost (s : State) (n : Nat) (j : Job) (r : GReg) : State :=
  let c := s.ch n
  if c.seq.out.isEmpty then s.modSeq n fun q => (q.setG r 2).resume
  else
    let out := if j.isInventory then c.seq.out.filter OutItem.inEntry else c.seq.out
    let body := (outBytes c.inv out).take outSize
    let units := 1 + ceilDiv body.length 16
    if s.ringFree j.ringNo < units then
      (s.modRom j fun k => { k with postFails := k.postFails + 1, postTried := true }).modSeq n fun q => (q.setG r 1).resume
    else
      let fl := entryFlags false false false false c.seq.cut j.group.isSome j.waited
      let detail := s.romDetail j out c.seq.detail
      let hdr := entryHeader j.cookie rcDone j.routine n j.coil0.toNat j.mask.toNat fl j.ntStart body.length detail
      ((s.postEntry j.ringNo 0 hdr body).modRom j fun k => { k with postFails := 0, postTried := false }).modSeq n fun q =>
        { (q.setG r 0).resume with out := [], cut := false }

/-- END of lead `n` with an allowed code, every image being filled (R241); a ROM routine ends as its rules give (R133, R258). A
job that is marked to stop ends with the code of its stop (R284, R316). -/
def State.doEnd (s : State) (n : Nat) (j : Job) (rc : Byte) : State :=
  match j.marked with
  | some m => s.endJobInForce j.id m true
  | none =>
    let q := (s.ch n).seq
    let items := s.romItems j q.out
    (s.modSeq n fun q => { q with out := items }).endJob j.id (s.endCode j (s.ch n).inv.rcNow rc) false
      (s.romDetail j items q.detail)

/-- RC values that END and ENDR accept (R241). -/
def endAllowed (rc : Byte) : Bool := rc.toNat ≤ 9 || rc == 0x0F || rc == 0x13

/-- The sequencer of `n` is blocked on images or on CRY, and goes on when it can. -/
def State.unblock (s : State) (n : Nat) : State :=
  match s.jobLead n with
  | none => s
  | some j =>
    match s.blockOf n with
    | some (.post r) => if imagesFilled (s.ch n).seq.out then s.doPost n j r else s
    | some (.ending rc) => if imagesFilled (s.ch n).seq.out then s.doEnd n j rc else s
    | some .cryw => if s.cryOutstanding j.id then s else s.modSeq n Seq.resume
    | _ => s

/-- The images of the jobs that have ended. -/
def State.refillEnded (s : State) : State :=
  { s with jobs := s.jobs.map fun j => { j with ended := j.ended.map fun e =>
    { e with payload := s.fillItems j.id (s.ch j.lead).inv e.payload } } }

/-- CRY, the merge unit or the locate unit has delivered: images are taken and what waited for them goes on. -/
def State.delivered (s : State) : State :=
  s.refillEnded.each (List.range 8) fun s n => (s.refill n).unblock n

/-! ## Commands -/

/-- LOCATE_DONE: the locate that runs ends (R210); it waits for the sighting of its frame to be merged. -/
def execLocateDone (s : State) : Host.Outcome State Fault Refusal :=
  match s.locQ with
  | [] => .next s
  | q :: _ =>
    match q.cfg with
    | none => .next s
    | some (b0, b1, c) =>
      .next (if !s.engRuns || q.entry.isNone && s.locAlive q.serial then s else (s.endLocate q b0 b1 c).delivered)

end Sys2Proof.Machine
end

