-- ==== Sys2Proof/Machine/Cry.lean ====
section
/-!
DEFINITION. CRY (chapter 5): the request queue, the ECDSA and AES units, key selection, signatures, privacy tokens and the
key commands.
-/

namespace Sys2Proof.Machine

/-! ## Keys (R150 to R157) -/

/-- Bytes of public key `k`. -/
def State.pubKey (s : State) (k : Nat) : List Byte := s.sbytes (0x164000 + 64 * k) 64

/-- Bytes of the descriptor of public key `k`. -/
def State.pubDescr (s : State) (k : Nat) : List Byte := s.sbytes (0x164800 + 16 * k) 16

/-- Word 0 of a descriptor. -/
def descrWord (d : List Byte) : Nat := leNat (d.take 4)

/-- L of a curve, in bytes (R159). -/
def curveLen (k : Nat) : Nat := if k = 0 then 16 else if k = 1 then 28 else 32

/-- Reserved bits of word 0 of a descriptor (R5, R154): they lie outside every field. -/
def descrReserved (w : Nat) : Nat := bitsOf w 9 3 + bitsOf w 15 1 + bitsOf w 22 10

/-- Result of the checks of R155: 0 when all pass, else CRY_CMDSTAT.ERR. A descriptor with a reserved bit set is not valid (R5);
that ERR then shows 1 is a DESIGN CHOICE, log entry 93. -/
def State.keyCheck (s : State) (k : Nat) : Nat :=
  let w := descrWord (s.pubDescr k)
  let c := curveOf (w % 4)
  let x := beNat ((s.pubKey k).take 32)
  let y := beNat ((s.pubKey k).drop 32)
  if w % 4 = 3 ∨ bitsOf w 2 2 = 3 ∨ descrReserved w ≠ 0 then 1
  else if 32 < bitsOf w 16 6 ∨ 10 < bitsOf w 12 3 + ceilDiv (bitsOf w 16 6) 8 then 2
  else if c.p ≤ x ∨ c.p ≤ y then 3
  else if !onCurve c x y then 4
  else 0

/-- Key `k` may check a signature of the entry (R157). -/
def State.keyFits (s : State) (e : TabEntry) (k : Nat) : Bool :=
  let d := s.pubDescr k
  let w := descrWord d
  let bits := bitsOf w 16 6
  bitOf (s.rd R.CRY_PKVALID_VALID) k && bitOf w 8 && (bitsOf w 6 2 == e.proto || bitsOf w 6 2 == 3)
    && leNat ((d.drop 4).take 4) % 2 ^ bits == leNat ((padTo 10 e.id).drop (bitsOf w 12 3)) % 2 ^ bits

/-- The key selected for an entry: the lowest that fits. -/
def State.selectKey (s : State) (e : TabEntry) : Option Nat := (List.range 32).find? fun k => s.keyFits e k

/-! ## The queue (R146 to R148, R394) -/

/-- The next request of a unit: GOLD first and by arrival, or by arrival alone (R146). -/
def pickReq (prio : Bool) (l : List CryReq) : Option CryReq :=
  if prio then
    [JobClass.gold, .silver, .bronze, .iron].findSome? fun c => l.find? fun r => r.cls == c
  else l.head?

/-- A signature request may start: it names an entry. -/
def CryReq.sigReady (r : CryReq) : Bool := r.sig && decide (r.entry < heldHandle)

/-- Take one request out of the queue. -/
def State.takeReq (s : State) (r : CryReq) : State := { s with cry := { s.cry with queue := s.cry.queue.erase r } }

/-- The ECDSA unit takes its next request and copies its key (R148, R157); a validation that waits comes first (R181). -/
def State.startEcc (s : State) : State :=
  match s.cry.eccBusy, pickReq (s.isOn R.CRY_CTL_PRIO) (s.cry.queue.filter CryReq.sigReady) with
  | false, some r =>
    let k := s.selectKey (s.tab r.entry)
    let s1 := s.takeReq r
    { s1 with cry := { s1.cry with ecc := some { r with
      keyIdx := k, key := s.pubKey (k.getD 0), descr := s.pubDescr (k.getD 0) } } }
  | _, _ => s

/-- The AES unit takes its next token and copies the group keys in use (R148, R166); a ZERO_AES that waits comes first (R181). -/
def State.startAes (s : State) : State :=
  match s.cry.aes.isSome || s.cry.zeroes, pickReq (s.isOn R.CRY_CTL_PRIO) (s.cry.queue.filter fun r => !r.sig) with
  | false, some r =>
    let keys := (List.range (s.rd R.CRY_PRIV_NKEYS)).map fun k => s.sbytes (0x160000 + 16 * k) 16
    let s1 := s.takeReq r
    { s1 with cry := { s1.cry with aes := some r, aesKeys := keys } }
  | _, _ => s

/-- Both units take what they can. -/
def State.startCry (s : State) : State := s.startEcc.startAes

/-- PD_CRY switches on (R394): bit 8 of DOMON. -/
def State.powerCry (s : State) : State := { s with pwr := { s.pwr with domOn := s.pwr.domOn ||| 0x100 } }

/-- A request of lead `n` joins the queue, or the instruction waits for space (R147). -/
def State.request (s : State) (n : Nat) (r : CryReq) : State :=
  if s.cry.queue.length < 32 then
    ({ s.powerCry with cry := { s.cry with queue := s.cry.queue ++ [r] } }.startCry).modSeq n Seq.resume
  else (s.bump R.CRY_CNT_2_N_QWAIT).modSeq n fun q => { q with run := .blocked (if r.sig then .sigq r else .resq r) }

/-- A signature request. One that names a free entry delivers nothing (R141). -/
def State.sigReq (s : State) (j : Job) (entry : Nat) (handle : Option Nat) (data : List Byte) : CryReq :=
  { sig := true, job := j.id, cls := classOf j.cls, entry := entry, held := none, data := data, handle := handle
    dead := decide (entry < heldHandle) && !s.tabValid entry }

/-- A token request for a held sighting. -/
def resReq (j : Job) (h : Held) (data : List Byte) : CryReq :=
  { sig := false, job := j.id, cls := classOf j.cls, entry := h.handle
    held := some { h.sight with handle := some h.handle }, data := data, handle := some h.handle }

/-- The instructions that wait for queue space make their requests (R147), the lowest channel first: DESIGN CHOICE, log entry
113. -/
def State.retryRequests (s : State) : State :=
  s.each (List.range 8) fun s n =>
    if 32 ≤ s.cry.queue.length then s
    else
      match s.blockOf n with
      | some (.sigq r) | some (.resq r) => s.request n r
      | _ => s

/-! ## Signatures (R159 to R163) -/

/-- e of R160. -/
def sigNumber (d : List Byte) (id : List Byte) : Nat :=
  let w := descrWord d
  let m := if bitOf w 5 then id.reverse else id
  let hash (x : List Byte) : Nat := beNat (sha256 x) / 2 ^ (256 - 8 * curveLen (w % 4))
  match bitsOf w 2 2 with
  | 0 => hash m
  | 1 => beNat (padTo (curveLen (w % 4)) m)
  | _ => hash ((d.drop 8).take 8 ++ m)

/-- The signature of a request verifies over an identifier (R159 to R161). -/
def CryReq.verifies (r : CryReq) (id : List Byte) : Bool :=
  let w := descrWord r.descr
  let len := curveLen (w % 4)
  let two := r.data.take (2 * len)
  let sg := if bitOf w 4 then two.reverse else two
  decide (2 * len ≤ r.data.length) &&
    ecdsaVerify (curveOf (w % 4)) (beNat (r.key.take 32)) (beNat (r.key.drop 32)) (sigNumber r.descr id)
      (beNat (sg.take len)) (beNat (sg.drop len))

/-- Outcome of a signature request: 1 VALID, 2 INVALID, 3 NOKEY (R163, R236). -/
def State.sigOutcome (s : State) (r : CryReq) : Nat :=
  match r.keyIdx with
  | none => 3
  | some _ => if r.verifies (s.tab r.entry).id then 1 else 2

/-- Keep the outcome of a request for CRYR (R236). -/
def State.logCry (s : State) (job entry : Nat) (w : Word) : State :=
  s.modJob job fun j => { j with cryLog := (entry, w) :: j.cryLog }

/-- Deliver a signature outcome (R141, R163). -/
def State.deliverSig (s : State) (r : CryReq) : State :=
  if r.dead then s.bump R.INV_CNT_2_N_CRYLATE
  else
    let o := s.sigOutcome r
    let e := s.tab r.entry
    let s1 := s.putTab r.entry { e with
      sigOk := o == 1, sigBad := o == 2, pkIdx := if o = 3 then 0 else r.keyIdx.getD 0 }
    let s2 := if o = 1 then s1.bump R.CRY_CNT_0_N_SIGOK else if o = 2 then s1.bump R.CRY_CNT_0_N_SIGBAD
      else s1.bump R.CRY_CNT_2_N_NOKEY
    let s3 := s2.logCry r.job r.entry (BitVec.ofNat 32 o)
    match r.handle with
    | none => s3
    | some h => s3.logCry r.job h (BitVec.ofNat 32 o)

/-- MERGE: the head of the merge queue is merged (R114, R135, R136). A request that it rebinds may start at an idle unit, and
one that it drops makes space for another (R146, R147, R158). -/
def execMerge (s : State) : Host.Outcome State Fault Refusal :=
  .next (if !s.engRuns || s.mergesWait || s.mergeQ.isEmpty then s else s.mergeHead.startCry.retryRequests.delivered)

/-- ECDSA_DONE: the unit delivers and takes its next request (R162, R163). -/
def execEcdsaDone (latUs : Nat) (s : State) : Host.Outcome State Fault Refusal :=
  match s.cry.ecc with
  | none => .next s
  | some r =>
    let s1 := (s.deliverSig r).keepMax R.CRY_LAT_ECC_MAX latUs
    .next ({ s1 with cry := { s1.cry with ecc := none } }.startCry.retryRequests.delivered)

/-! ## Privacy tokens (R165 to R168) -/

/-- A decrypted token has the form of R165. -/
def tokenOk (t : List Byte) : Bool :=
  let fmt := (t.getD 10 0).toNat
  let len := fmt % 16
  t.drop 13 == [0xC3, 0x96, 0x3C] && fmt < 128 && (len == 4 || len == 7 || len == 8 || len == 10) && fmt / 16 ≤ 2
    && ((t.take 10).drop len).all fun b => b == 0

/-- The first key that resolves a token, with the plaintext (R166). -/
def searchToken (token : List Byte) : Nat → List (List Byte) → Option (Nat × List Byte)
  | _, [] => none
  | k, key :: rest =>
    let t := aesDecrypt key token
    if tokenOk t then some (k, t) else searchToken token (k + 1) rest

/-- The sighting that a search yields (R168). -/
def resolvedSighting (x : Sighting) (r : Option (Nat × List Byte)) : Sighting :=
  match r with
  | none => { x with volatile := true, cry := some false }
  | some (k, t) =>
    let fmt := (t.getD 10 0).toNat
    { x with proto := BitVec.ofNat 3 (fmt / 16), id := t.take (fmt % 16), volatile := false, key := some k, cry := some true }

/-- A privacy search ends and its sighting goes to the merge unit, once that has space (R168). -/
def State.searchEnd (s : State) (lat : Nat) : Option State :=
  match s.cry.aes with
  | none => none
  | some r =>
    if 64 ≤ s.mergeQ.length then none
    else
      let found := searchToken r.data 0 s.cry.aesKeys
      let x := r.held.map fun x => resolvedSighting x found
      let s1 := (if found.isSome then s.bump R.CRY_CNT_1_N_RES else s.bump R.CRY_CNT_1_N_UNRES).keepMax R.CRY_LAT_AES_MAX lat
      some { s1 with mergeQ := s1.mergeQ ++ x.toList, cry := { s1.cry with aes := none, aesKeys := [] } }

/-! ## Key commands (R155, R181) -/

/-- VALIDATE of one key: the bit sets when its checks pass (R155). -/
def State.validateKey (s : State) (k : Nat) : State :=
  if s.keyCheck k = 0 then s.wr R.CRY_PKVALID_VALID (s.rd R.CRY_PKVALID_VALID ||| 2 ^ k) else s

/-- Result of a validation in CRY_CMDSTAT: that of the first key of the list that fails. -/
def State.noteCheck (s : State) (ks : List Nat) : State :=
  match ks.find? fun k => s.keyCheck k != 0 with
  | none => s.wr R.CRY_CMDSTAT_ERR 0
  | some k => (s.wr R.CRY_CMDSTAT_ERR (s.keyCheck k)).wr R.CRY_CMDSTAT_KEY k

/-- Effect of a key command. -/
def State.cryEffect (s : State) (op k : Nat) : State :=
  match op with
  | 1 => (s.validateKey k).noteCheck [k]
  | 2 => s.wr R.CRY_PKVALID_VALID (s.rd R.CRY_PKVALID_VALID &&& (2 ^ 32 - 1 - 2 ^ k))
  | 3 => (s.each (List.range 32) State.validateKey).noteCheck (List.range 32)
  | _ =>
    { s with sram := s.sram.filter fun c => decide (c.1 < 0x160000) || decide (0x164000 ≤ c.1) }.wr R.CRY_PRIV_NKEYS 0

/-- CRY_COMMAND_DONE: the command running takes its effect; a validation waits for the request in progress, and ZERO_AES for
the search (R181). -/
def execCryCommandDone (s : State) : Host.Outcome State Fault Refusal :=
  match s.cry.cmd with
  | none => .next s
  | some (op, k) =>
    if (op == 4 && s.cry.aes.isSome) || (s.cry.validates && s.cry.ecc.isSome) then .next s
    else
      let s1 := s.cryEffect op.toNat k.toNat
      let s2 := { s1 with cry := { s1.cry with cmd := none } }.setFlag R.CRY_CMDSTAT_DONE
      .next (if s.cry.validates || s.cry.zeroes then s2.startCry.retryRequests.delivered else s2)

/-- PD_CRY_POWER_OFF: an empty queue and idle units for 1 ms (R394). -/
def execPdCryPowerOff (s : State) : Host.Outcome State Fault Refusal :=
  if s.cry.queue.isEmpty && s.cry.ecc.isNone && s.cry.aes.isNone && s.cry.cmd.isNone then
    .next { s with pwr := { s.pwr with domOn := s.pwr.domOn &&& 0xEFF } }
  else .next s

end Sys2Proof.Machine
end

