-- ==== Sys2Proof/Machine/Queues.lean ====
section
/-!
DEFINITION. Job queues and result rings (chapter 8): SUBMIT, policing, flush, and the ring commands, as what a
frame that has passed the checks of its port does and answers.
-/

namespace Sys2Proof.Machine

/-! ## Host statuses (R455) -/

/-- OK. -/
def stOk : Byte := 0x00
/-- CRC_BAD. -/
def stCrcBad : Byte := 0x01
/-- SEQ_BAD. -/
def stSeqBad : Byte := 0x02
/-- DENIED. -/
def stDenied : Byte := 0x03
/-- RANGE. -/
def stRange : Byte := 0x04
/-- BUSY. -/
def stBusy : Byte := 0x05
/-- TRUNC. -/
def stTrunc : Byte := 0x06
/-- FLUSHED. -/
def stFlushed : Byte := 0x07
/-- NO_SPACE. -/
def stNoSpace : Byte := 0x08
/-- BAD_OPC. -/
def stBadOpc : Byte := 0x09
/-- POLICED. -/
def stPoliced : Byte := 0x0A
/-- WAKING. -/
def stWaking : Byte := 0x0B

/-- What an executed frame answers: STATUS, INFO and the payload of its reply (R432). -/
structure Answer where
  status : Byte := 0
  info : Word := 0
  payload : List Byte := []
  deriving DecidableEq, Repr

/-- An answer of a status alone. -/
def ans (st : Byte) : Answer := { status := st }

/-- OK with INFO. -/
def ansInfo (v : Nat) : Answer := { info := BitVec.ofNat 32 v }

/-! ## Items (R262 to R268) -/

/-- Number of the enabled group whose MEMBERS equals a mask (R183, R186). -/
def State.groupOf (s : State) (m : BitVec 8) : Option (Fin 4) :=
  (List.finRange 4).find? fun g => s.isOn (R.SWARM_GCFG_GEN g.val) && s.rd (R.SWARM_GCFG_MEMBERS g.val) == m.toNat
    && decide (2 ≤ popcount8 m.toNat)

/-- M of the cost (R260). -/
def Job.costUnits (j : Job) : Nat := if j.swarm then popcount8 j.chmask.toNat else 1

/-- PCOL. -/
def Job.pcol (j : Job) : Nat := getBits (j.word 0) 25 2

/-- The job of a descriptor, its cost fixed with the overhead in force: the one of the last step 4 (R260, R297, R328). -/
def State.newJob (s : State) (p : Port) (q : Nat) (desc : List Word) : Job :=
  let j : Job := { id := s.nextJob, port := p, queue := q, desc := desc }
  let ovh := j.costUnits * s.lim R.BUDG_OVH_OVH_UJ
  { j with cost := j.energyEst + ovh, ovh := ovh }

/-- The reserved fields and PPTR of a descriptor are zero (R260). -/
def Job.descOk (j : Job) : Bool :=
  getBits (j.word 0) 27 5 == 0 && getBits (j.word 1) 24 8 == 0 && getBits (j.word 3) 5 3 == 0 && j.word 6 == 0
    && getBits (j.word 7) 15 17 == 0

/-- Check 2 of R266, and the payload length of R265. -/
def State.itemOk (s : State) (j : Job) (n : Nat) (fin : Bool) : Bool :=
  let q := j.queue
  s.isOn (R.SCHED_QCFG_EN q) && j.cls == s.rd (R.SCHED_QCFG_CLASS q) && j.chmask != 0
    && (j.chmask &&& ~~~(BitVec.ofNat 8 (s.rd (R.SCHED_QCFG_ALLOW q)))) == 0
    && (if j.swarm then (s.groupOf j.chmask).isSome && j.coil == 0 else popcount8 j.chmask.toNat == 1)
    && s.isOn (R.RES_CFG_EN j.ringNo) && j.pcol != 3 && decide (j.plen ≤ 16384) && j.descOk
    && (if fin then n == j.plen else decide (n ≤ j.plen))
    && (!(s.qu q).shen || decide (j.cost ≤ (s.qu q).burst))

/-- Check 3 of R266 apart from the ring: depth and pools. -/
def State.itemRoom (s : State) (j : Job) : Bool :=
  decide (s.depth j.queue < s.rd (R.SCHED_QCFG_MAXDEPTH j.queue)) && s.pickSlot.isSome && (s.pickRun j.payUnits).isSome

/-- The marker of R271: colour 0 green, 1 yellow, 2 red, with its buckets charged and its colour counted. -/
def State.police (s : State) (j : Job) : State × Nat :=
  let p := j.port.val
  let aware := s.isOn (R.BUDG_PCFG_CAWARE p)
  if !s.isOn (R.BUDG_PCFG_PEN p) then (s, 0)
  else if (aware && j.pcol == 2) || decide ((s.pt p).tp < j.cost) then (s.bump (R.BUDG_PCNT_N_RED p), 2)
  else if (aware && j.pcol == 1) || decide ((s.pt p).tc < j.cost) then
    ((s.modPt p fun t => { t with tp := t.tp - j.cost }).bump (R.BUDG_PCNT_N_YELLOW p), 1)
  else (s.modPt p fun t => { t with tp := t.tp - j.cost, tc := t.tc - j.cost }, 0)

/-- An item is refused NO_SPACE or POLICED (R272, R295). -/
def State.refuseItem (s : State) (q : Nat) (st : Byte) : State × Answer := (s.bump (R.SCHED_QCNT_N_REFUSE q), ans st)

/-- Free what an open item holds (R264): its job, payload units and receipt unit. -/
def State.dropItem (s : State) (id : Nat) : State :=
  match s.job? id with
  | none => s
  | some j => (s.returnUnits j.ringNo j.units).dropJob id

/-- Discard the open item of a port (R264). -/
def State.discardOpen (s : State) (p : Nat) : State :=
  match (s.pt p).openItem with
  | none => s
  | some id => (s.dropItem id).modPt p fun t => { t with openItem := none }

/-- Take the descriptor, the payload units and the receipt unit, write PPTR and store the bytes received (R266). -/
def State.takeItem (s : State) (j : Job) (slot run colour : Nat) (bytes : List Byte) : State × Job :=
  let pptr := if j.plen = 0 then 0 else payBase + 32 * run
  let k : Job := { j with
    desc := j.desc.set 6 (BitVec.ofNat 32 pptr), slot := slot, got := bytes.length, colour := colour, state := .arriving }
  let s1 := (s.swrite (0x80000 + 32 * slot) (wordBytes k.desc)).swrite pptr bytes
  ({ s1.reserveUnits j.ringNo 1 with jobs := s1.jobs ++ [k], nextJob := s.nextJob + 1, fresh := s.fresh + 1 }, k)

/-- The item of a job becomes QUEUED at the tail of its queue (R267). -/
def State.enqueue (s : State) (id : Nat) : State :=
  match s.job? id with
  | none => s
  | some j =>
    let s1 := s.dropJob id
    { s1 with jobs := s1.jobs ++ [{ j with state := .queued, queuedNt := s.time.nt }] }.crossing j.queue

/-- INFO of a frame that opens or completes an item (R268). -/
def State.itemInfo (s : State) (q colour : Nat) : Answer := ansInfo (s.depth q + 2 ^ 16 * colour)

/-- A frame with NEW = 1 that passed its form checks (R264, R266, R271, R272). -/
def State.submitNew (s0 : State) (p : Port) (q : Nat) (fin : Bool) (bytes : List Byte) : State × Answer :=
  let s := (s0.discardOpen p.val).modPt p.val fun t => { t with discard := none }
  let j := s.newJob p q (leWords (bytes.take 32))
  let body := bytes.drop 32
  if s.queueOwner q != some p.val || s.ringOwner j.ringNo != some p.val then (s, ans stDenied)
  else if !s.itemOk j body.length fin then (s, ans stRange)
  else
    match s.itemRoom j, s.pickSlot, s.pickRun j.payUnits with
    | true, some slot, some run =>
      if s.ringFree j.ringNo < 1 then (s.bump (R.RES_CNT_N_FULL j.ringNo)).refuseItem q stNoSpace
      else
        let (s1, colour) := s.police j
        if colour = 2 ∨ (colour = 1 ∧ s1.rd (R.SCHED_QWM_YDEPTH q) ≤ s1.depth q) then
          let s2 := if fin then s1 else s1.modPt p.val fun t => { t with discard := some stPoliced }
          (s2.notify p.val 2).refuseItem q stPoliced
        else
          let (s2, k) := s1.takeItem j slot run colour body
          let s3 := if fin then s2.enqueue k.id else s2.modPt p.val fun t => { t with openItem := some k.id }
          (s3, s3.itemInfo q colour)
    | _, _, _ => s.refuseItem q stNoSpace

/-- A continuation (R262, R263, R265, R269, R454). -/
def State.submitMore (s : State) (p : Port) (q : Nat) (fin : Bool) (bytes : List Byte) : State × Answer :=
  match (s.pt p.val).discard, (s.pt p.val).openItem.bind s.job? with
  | some st, _ => (s, ans st)
  | none, none => (s, ans stRange)
  | none, some j =>
    let n := j.got + bytes.length
    if q ≠ j.queue then (s, ans stRange)
    else if s.queueOwner q ≠ some p.val then (s.discardOpen p.val, ans stDenied)
    else if j.plen < n ∨ (fin ∧ n < j.plen) then (s.discardOpen p.val, ans stRange)
    else
      let s1 := (s.swrite (j.pptr + j.got) bytes).modJob j.id fun k => { k with got := n }
      if !fin then (s1, {})
      else
        let s2 := (s1.modPt p.val fun t => { t with openItem := none }).enqueue j.id
        (s2, s2.itemInfo q j.colour)

/-- ARG bits that SUBMIT and QUEUE_FLUSH leave reserved are zero. -/
def queueArgOk (arg : Word) : Bool := getBits arg 6 2 == 0 && getBits arg 9 23 == 0

/-- A SUBMIT frame of port `p` (R262). -/
def State.submit (s : State) (p : Port) (arg : Word) (part fin : Bool) (bytes : List Byte) : State × Answer :=
  let q := getBits arg 0 6
  let new := bitOf arg.toNat 8
  if !queueArgOk arg || decide (4096 < bytes.length) then (s, ans stRange)
  else if new then
    if part == fin || decide (bytes.length < 32) then (s, ans stRange) else s.submitNew p q fin bytes
  else if !part || (!fin && bytes.isEmpty) then (s, ans stRange)
  else s.submitMore p q fin bytes

/-! ## Flush (R283 to R286) -/

/-- Step 1 of R284 for one port. -/
def State.flushOpen (s : State) (q p : Nat) : State :=
  match (s.pt p).openItem.bind s.job? with
  | none => s
  | some j =>
    if j.queue = q then (s.discardOpen p).modPt p fun t => { t with discard := some stFlushed } else s

/-- Ports with an open item for the queue. -/
def State.openPorts (s : State) (q : Nat) : List Nat :=
  [0, 1, 2, 3].filter fun p => (((s.pt p).openItem.bind s.job?).map fun j => j.queue) == some q

/-- Jobs that ABORT marks. -/
def State.abortable (s : State) (q : Nat) : List Job :=
  s.jobs.filter fun j => j.queue == q && j.ended.isNone && (j.state == .granted || j.state == .running || j.state == .waiting)

/-- QUEUE_FLUSH (R283, R284, R286). -/
def State.flushQueue (s : State) (p : Port) (arg : Word) : State × Answer :=
  let q := getBits arg 0 6
  if s.queueOwner q != some p.val then (s, ans stDenied)
  else if !queueArgOk arg then (s, ans stRange)
  else
    let opened := s.openPorts q
    let queued := s.jobs.filter fun j => j.queue == q && j.state == .queued
    let marked := if bitOf arg.toNat 8 then s.abortable q else []
    let s1 := s.each opened fun s p => s.flushOpen q p
    let s2 := s1.each queued fun s j => s.postReceipt j rcFlushed
    let s3 := s2.each marked fun s j => s.stopJob j rcAborted
    (s3, ansInfo (queued.length % 2 ^ 14 + 2 ^ 16 * opened.length + 2 ^ 24 * min 15 marked.length))

/-! ## Ring commands (R289, R290) -/

/-- Whole entries from a list, at most `k` of them and at most `room` bytes. -/
def takeEntries : Nat → Nat → List EntryBytes → List EntryBytes
  | 0, _, _ => []
  | _, _, [] => []
  | k + 1, room, e :: es => if e.length ≤ room then e :: takeEntries k (room - e.length) es else []

/-- RES_READ: MAXENT 0 means no limit. -/
def State.resRead (s : State) (r maxEnt : Nat) : State × Answer :=
  let g := s.ring r
  let unread := g.entries.drop g.rd
  let l := takeEntries (if maxEnt = 0 then unread.length else maxEnt) 4096 unread
  (s.modRing r fun g => { g with rd := g.rd + l.length },
    { info := BitVec.ofNat 32 (l.length + 2 ^ 16 * (unread.length - l.length)), payload := l.flatten })

/-- RES_MARK. -/
def State.resMark (s : State) (r : Nat) : State × Answer :=
  (s.modRing r fun g => { g with mark := some g.rd }, {})

/-- RES_REWIND. -/
def State.resRewind (s : State) (r : Nat) : State × Answer :=
  match (s.ring r).mark with
  | none => (s, ans stRange)
  | some m => (s.modRing r fun g => { g with rd := m }, {})

/-- The release of the `k` oldest entries: RD and MARK keep their entries, and a mark that is passed is lost. -/
def RingSt.release (g : RingSt) (k : Nat) : RingSt :=
  { g with entries := g.entries.drop k, rd := g.rd - k
           mark := g.mark.bind fun m => if m < k then none else some (m - k) }

/-- RES_RELEASE: COUNT 0 means all read entries. -/
def State.resRelease (s : State) (r count : Nat) : State × Answer :=
  let k := if count = 0 then (s.ring r).rd else count
  if (s.ring r).rd < k then (s, ans stRange) else (s.modRing r fun g => g.release k, {})

/-- A ring command of port `p`: `reserved` are the ARG bits that its opcode leaves reserved. -/
def State.ringCmd (s : State) (p : Port) (arg reserved : Word) (act : State → Nat → State × Answer) : State × Answer :=
  let r := getBits arg 0 5
  if s.ringOwner r != some p.val then (s, ans stDenied)
  else if !s.isOn (R.RES_CFG_EN r) || (arg &&& reserved) != 0 then (s, ans stRange)
  else act s r

end Sys2Proof.Machine
end

