-- ==== Sys2Proof/Machine/Power.lean ====
section
/-!
DEFINITION. Power states (chapter 12): entry handshake, wakes, the crystal, time across a sleep (R342 to R345), and the
rounds of Firefly.
-/

namespace Sys2Proof.Machine

/-- Change the power controller. -/
def State.modPwr (s : State) (g : PwrSt → PwrSt) : State := { s with pwr := g s.pwr }

/-! ## Cold resets (R458, R459) -/

/-- SYS_RSTCAUSE bit of a cold reset. -/
def coldCause : ColdKind → Nat
  | .por => 0 | .offexit => 1 | .pin => 2 | .system => 3

/-- A cold reset: everything at its reset value but the external flash, the pins and the commands that wait; only the
cause bit of the reset is set (R459, R463). -/
def State.coldReset (s : State) (k : ColdKind) : State :=
  let r : State := { State.reset with
    flash := { State.reset.flash with mem := s.flash.mem, cmd := s.flash.cmd, asleep := s.flash.asleep }
    boot := if s.vinOk && s.vddioOk && s.resetN then .crystal else .held
    vinOk := s.vinOk, vddioOk := s.vddioOk, resetN := s.resetN, fresh := s.fresh, pending := s.pending }
  { r with regs := [] }.wrWord R.SYS_RSTCAUSE (BitVec.ofNat 32 (2 ^ coldCause k))

/-! ## Power states (R387, R396) -/

/-- Code of a power state in TARGET, AUTO_STATE and FROM. -/
def PwrState.code : PwrState → Nat
  | .run => 0 | .idle => 1 | .sleep => 2 | .watch => 3 | .deep => 4 | .off => 5

/-- Power state of a code. -/
def pwrOf (k : Nat) : Option PwrState :=
  match k with
  | 1 => some .idle
  | 2 => some .sleep
  | 3 => some .watch
  | 4 => some .deep
  | 5 => some .off
  | _ => none

/-- Below IDLE. -/
def PwrState.low : PwrState → Bool
  | .run | .idle => false
  | .sleep | .watch | .deep | .off => true

/-- A sleep across which NT is carried by the LPO (chapter 10). -/
def PwrState.sleeps : PwrState → Bool
  | .sleep | .watch | .deep => true
  | .run | .idle | .off => false

/-- Firefly has a list to run in WATCH (R390, R396). -/
def State.watchReady (s : State) : Bool := s.isOn R.WATCH_CTL_EN && s.rd R.WATCH_CTL_NSTEP != 0

/-! ## Waking (R403, R404) -/

/-- Code of a wake source. -/
def WakeEv.code : WakeEv → Nat
  | .pin => 1 | .host _ => 2 | .timer => 3 | .watch _ => 4 | .emu _ => 5

/-- Lowest of the ports with a HOST event. -/
def lowPort (l : List WakeEv) : Nat :=
  (minDist (l.filterMap fun e => match e with | .host p => some p.val | _ => none)).getD 0

/-- Step of the first WATCH event. -/
def evStep (l : List WakeEv) : Nat :=
  (l.findSome? fun e => match e with | .watch k => some k.toNat | _ => none).getD 0

/-- Channel of the first EMU event. -/
def evCh (l : List WakeEv) : Nat := (l.findSome? fun e => match e with | .emu n => some n.val | _ => none).getD 0

/-- PWR_LAST_WAKE at the start of a wake (R403). -/
def State.recordWake (s : State) (from_ : PwrState) (l : List WakeEv) (early : Bool) : State :=
  let src := (minDist (l.map WakeEv.code)).getD 0
  let map := ((List.range 6).filter fun k => l.any fun e => e.code == k + 1).map fun k => 2 ^ k
  let s1 := (((s.wrWord R.PWR_LAST_WAKE 0).wr R.PWR_LAST_WAKE_SRC src).wr R.PWR_LAST_WAKE_SRCMAP map.sum).wr
    R.PWR_LAST_WAKE_FROM from_.code
  let s2 := ((s1.wr R.PWR_LAST_WAKE_PORT (lowPort l)).wr R.PWR_LAST_WAKE_STEP (evStep l)).wr R.PWR_LAST_WAKE_CH (evCh l)
  s2.wr R.PWR_LAST_WAKE_EARLY early.toNat

/-- The domains in the order in which a wake powers them up: PD_MEM with PD_ENG, then PD_CH0 to PD_CH7 (R404). -/
def wakeOrder : List Nat := [11, 10, 0, 1, 2, 3, 4, 5, 6, 7]

/-- N_WAKE, and N_EARLY and WATCH's own count where they apply, count a wake (R403). -/
def State.countWake (s : State) (from_ : PwrState) (early : Bool) : State :=
  let s1 := s.bump R.PWR_CNT_1_N_WAKE
  let s2 := if early then s1.bump R.PWR_CNT_1_N_EARLY else s1
  if from_ = .watch then s2.bump R.WATCH_CNT_1_N_WAKE else s2

/-- A wake from SLEEP, WATCH or DEEP starts (R403, R404). -/
def State.startWake (s : State) (l : List WakeEv) (early : Bool) : State :=
  let s1 := (s.recordWake s.pwr.state l early).countWake s.pwr.state early
  (s1.modPwr fun p => { p with
    state := .run, waking := true, lockDue := true, todo := wakeOrder, preBoundary := true
    wakeEvs := l, wakeFrom := s.pwr.state, wakeEarly := early, closing := false }).pmbOn

/-- A wake event while no domain is up yet: it joins the record where it fell in the cycle of the wake's first event (R403);
whether it did is a free value, log entry 98. -/
def State.joinWake (s : State) (ev : WakeEv) : State :=
  let (b, s1) := s.takeFresh Config.sameCycle
  if b then
    let l := s1.pwr.wakeEvs ++ [ev]
    (s1.recordWake s1.pwr.wakeFrom l s1.pwr.wakeEarly).modPwr fun p => { p with wakeEvs := l }
  else s1

/-- A wake event below IDLE. One that follows the commit point may still fall before the entry completes; whether it did is
a free value, log entry 134. A TIMER event never does: it counts from the commit point. -/
def State.wakeLow (s : State) (ev : WakeEv) : State :=
  if s.pwr.closing && ev != .timer then
    let (b, s1) := s.takeFresh Config.beforeClose
    s1.startWake [ev] b
  else s.startWake [ev] false

/-- A wake event acts: it is latched in an entry window, ends IDLE, or wakes the device (R389, R397, R401, R403). -/
def State.wakeEvent (s : State) (ev : WakeEv) : State :=
  match s.pwr.entry with
  | some _ => s.latchWake ev
  | none =>
    match s.pwr.state with
    | .idle => s.leaveIdle
    | .sleep | .watch | .deep => s.wakeLow ev
    | .run => if s.pwr.waking && s.pwr.todo == wakeOrder then s.joinWake ev else s
    | .off => s

/-! ## Entering a state (R397 to R400) -/

/-- Answer of a domain agent. -/
inductive AgentAns where
  | ack | wait | refuse (reason : Nat)
  deriving DecidableEq, Repr

/-- A job is QUEUED, ARRIVING or past admission. -/
def State.anyJob (s : State) : Bool := s.jobs.any fun j => j.state != .posted

/-- PD_CHn answers. A FAULT without a holder makes it wait. DEDUCED, log entry 40. -/
def State.chAgent (s : State) (e : Entry) (n : Nat) : AgentAns :=
  if s.listenHolds n then .refuse 3
  else if !e.drain && s.jobHolds n then .refuse 1
  else if !e.drain && s.maintHolds n then .refuse 5
  else if (s.ch n).field == .off && s.unheld n then .ack
  else .wait

/-- An LPO span is awaited: none of the source in use ended in the last second (R342, R398). -/
def State.spanAwaited (s : State) : Bool :=
  match if s.isOn R.TIME_LPO_SRC then s.time.spanR else s.time.spanX with
  | none => true
  | some t => decide (1000000000 < (s.time.nt - t).toNat)

/-- JPEND is set with JEN 1. -/
def State.journalDue (s : State) : Bool := s.emu.jpend && s.isOn R.EMU_CTL_JEN

/-- PD_ENG answers. -/
def State.engAgent (s : State) (e : Entry) : AgentAns :=
  if s.emu.arb != .free then .refuse 4
  else if e.target = .idle ∧ !e.drain ∧ s.anyJob then .refuse 2
  else if e.target = .off ∧ !e.drain ∧ s.journalDue then .refuse 6
  else if (List.range 4).any (fun p => !(s.pt p).held.isEmpty) then .wait
  else if s.flash.op.isSome || s.flash.win.isSome || s.flash.wip || s.flash.filling.isSome || s.emu.jwrite.isSome then .wait
  else if e.target.sleeps && s.spanAwaited then .wait
  else if (e.target = .idle ∧ s.anyJob) ∨ (e.target = .off ∧ s.journalDue) then .wait
  else .ack

/-- Answer of agent `k`: PD_CH0 to PD_CH7, PD_CRY, PD_SYN, PD_ENG, PD_MEM (R398). -/
def State.agentAnswer (s : State) (e : Entry) (k : Nat) : AgentAns :=
  if k < 8 then s.chAgent e k
  else if k = 8 then (if s.cry.queue.isEmpty && s.cry.ecc.isNone && s.cry.aes.isNone && s.cry.cmd.isNone then .ack else .wait)
  else if k = 9 then (match s.syn.state with | .locked | .lost => .ack | .off | .cal | .acq | .step => .wait)
  else if k = 10 then s.engAgent e
  else .ack

/-- Agents asked for a target, in order (R397). -/
def agentsOf (t : PwrState) : List Nat := if t = .idle then [8, 10] else List.range 12

/-- The switched domains go off: what R395 does not keep is lost, and NT passes to the LPO count. -/
def State.switchOff (s : State) : State :=
  let s1 := (s.modPwr fun p => { p with domOn := 0, xtal := false, preBoundary := true }).pmbOff
  let s2 : State := { s1 with
    syn := { s1.syn with state := .off }
    time := { s1.time with
      frozen := true, synco := none, slept := 0, rcUsed := s1.isOn R.TIME_LPO_SRC, lpoTol := s1.rd R.TIME_LPO_LPO_TOL_PPM }
    flash := { s1.flash with cache := [], fills := [], filling := none, invPend := false }
    budg := { s1.budg with restart := true } }
  (s2.modPmb fun p => { p with rail := 0 }).each (List.range 8) fun s n => s.clearFifos n

/-- The commit point (R399): the target is entered, and a latched event wakes the device at once (R401). -/
def State.commitEntry (s : State) (e : Entry) : State :=
  let s1 := (s.modPwr fun p => { p with entry := none, state := e.target }).bump R.PWR_CNT_0_N_ENTRY
  match e.target with
  | .run => s1
  | .idle => if e.latched.isEmpty then s1 else s1.leaveIdle
  | .off => if e.latched.contains .pin then s1.coldReset .offexit else { s1.switchOff with vddioOk := false }
  | .sleep | .watch | .deep =>
    let s2 := s1.switchOff
    if e.latched.isEmpty then s2.modPwr fun p => { p with closing := true } else s2.startWake e.latched true

/-- An entry is abandoned (R400). -/
def State.abandonEntry (s : State) (e : Entry) (reason : Nat) : State :=
  let s1 := (s.modPwr fun p => { p with entry := none }).wr R.PWR_STAT_REFUSE reason
  let s2 := (s1.wr R.PWR_STAT_RDOM e.agent).bump R.PWR_CNT_0_N_REFUSE
  if e.target.low then s2.notifyAll 12 else s2

/-- The controller asks agents in turn up to one that does not answer ACK (R397). -/
def State.askAgents (s : State) (e : Entry) : List Nat → State
  | [] => s.commitEntry e
  | k :: ks =>
    match s.agentAnswer e k with
    | .ack => State.askAgents s e ks
    | .wait => s.modPwr fun p => { p with entry := some { e with agent := k } }
    | .refuse r => s.abandonEntry { e with agent := k } r

/-- The controller goes on asking from the agent that answered WAIT. With no window open, the entry has completed. -/
def State.pollEntry (s : State) : State :=
  match s.pwr.entry with
  | none => s.modPwr fun p => { p with closing := false }
  | some e => s.askAgents e ((agentsOf e.target).filter fun k => decide (e.agent ≤ k))

/-- An entry is accepted, and its agents are asked (R397). REFUSE and RDOM are cleared: DEDUCED, log entry 41. -/
def State.beginEntry (s : State) (t : PwrState) (drain : Bool) : State :=
  let s1 := ((s.wr R.PWR_STAT_TARGET t.code).wr R.PWR_STAT_REFUSE 0).wr R.PWR_STAT_RDOM 0
  (s1.modPwr fun p => { p with entry := some { target := t, drain := drain, agent := 0 } }).pollEntry

/-- A POWER frame: its status, and the entry it starts (R396). -/
def State.powerFrame (s : State) (arg : Word) (payload : List Byte) : State × Answer :=
  match pwrOf (getBits arg 0 3) with
  | none => (s, ans stRange)
  | some t =>
    if arg &&& 0xFFFFFEF8 != 0 || !payload.isEmpty then (s, ans stRange)
    else if t = .watch ∧ !s.watchReady then (s, ans stRange)
    else if t = .off ∧ !s.isOn R.PWR_WAKEEN_PIN then (s, ans stRange)
    else if s.pwr.entry.isSome then (s, ans stBusy)
    else (s.beginEntry t (bitOf arg.toNat 8), ans stOk)

/-! ## Commands: entry -/

/-- Quiescent (R390). -/
def State.quiescent (s : State) : Bool :=
  !s.anyJob && s.maint.isEmpty && !s.romTest && (List.range 8).all (fun n => !s.listenHolds n) && s.emu.arb == .free && !s.emu.jpend
    && (List.range 4).all fun p => (s.pt p).held.isEmpty

/-- AUTO_ENTRY: AUTO_MS of quiescence have passed (R390). -/
def execAutoEntry (s : State) : Host.Outcome State Fault Refusal :=
  if s.isOn R.PWR_CTL_AUTO_EN && s.pwr.state == .run && s.pwr.entry.isNone && !s.pwr.waking && s.up
      && s.quiescent then
    match pwrOf (s.rd R.PWR_CTL_AUTO_STATE) with
    | none => .next s
    | some t => .next (s.beginEntry (if t = .watch ∧ !s.watchReady then .sleep else t) false)
  else .next s

/-- ENTRY_AGENT_POLL: the agent that answered WAIT is asked again (R397). -/
def execEntryAgentPoll (s : State) : Host.Outcome State Fault Refusal := .next s.pollEntry

/-- ENTRY_TIMEOUT: the commit point was not reached within ENTRY_MS (R400). -/
def execEntryTimeout (s : State) : Host.Outcome State Fault Refusal :=
  match s.pwr.entry with
  | none => .next s
  | some e => .next (s.abandonEntry e 7)

/-! ## Commands: wake events -/

/-- WAKE_PIN: an edge on WAKE; it counts where PIN is enabled and the edge has the polarity (R403). In OFF the event is
OFFEXIT. -/
def execWakePin (rising : Bool) (s : State) : Host.Outcome State Fault Refusal :=
  if s.isOn R.PWR_WAKEEN_PIN && rising != s.isOn R.PWR_WAKEEN_PIN_POL then .next (s.wakeEvent .pin) else .next s

/-- A fall of HnCS_N on port `p`: any frame ends IDLE; below IDLE and in an entry window the port must be enabled
(R389, R405). -/
def State.hostEdge (s : State) (p : Port) : State :=
  if s.pwr.state = .idle ∧ s.pwr.entry.isNone then s.leaveIdle
  else if bitOf (s.rd R.PWR_WAKEEN_HOST) p.val then s.wakeEvent (.host p)
  else s

/-- HOST_WAKE. -/
def execHostWake (p : Port) (s : State) : Host.Outcome State Fault Refusal := .next (s.hostEdge p)

/-- TIMER_WAKE: PWR_TIMER has expired since the commit point (R403). -/
def execTimerWake (s : State) : Host.Outcome State Fault Refusal :=
  if s.isOn R.PWR_WAKEEN_TIMER && s.rd R.PWR_TIMER_TIMER_MS != 0 && s.pwr.entry.isNone then .next (s.wakeEvent .timer)
  else .next s

/-! ## Commands: the wake sequence (R404, R407, R408) -/

/-- Domain `k` is on. -/
def State.powerDomain (s : State) (k : Nat) : State := s.modPwr fun p => { p with domOn := p.domOn ||| BitVec.ofNat 12 (2 ^ k) }

/-- The next domain of the order comes on; PD_MEM and PD_ENG come on together (R404). -/
def State.nextDomain (s : State) : State :=
  match s.pwr.todo with
  | [] => s
  | 11 :: 10 :: ks => ((s.powerDomain 11).powerDomain 10).modPwr fun p => { p with todo := ks }
  | k :: ks => (s.powerDomain k).modPwr fun p => { p with todo := ks }

/-- The crystal is to start: after a wake or a cold reset, until it runs, also where the device has gone on to IDLE (R404,
R408). -/
def State.crystalDue (s : State) : Bool := !s.pwr.state.low && !s.pwr.xtal && s.boot != .held && !s.thermHold

/-- CRYSTAL_STABLE: PD_SYN comes on and CAL is entered; XO_FAIL clears (R65, R404, R408). After a cold reset NT counts
from here, and the ROM self-test starts (R464, R480). -/
def execCrystalStable (s : State) : Host.Outcome State Fault Refusal :=
  if !s.crystalDue then .next s
  else
    let s1 := ((s.powerDomain 9).modPwr fun p => { p with xtal := true }).wr R.PWR_STAT_XO_FAIL 0
    .next { s1 with
      syn := { s1.syn with state := if s1.syn.state = .off then .cal else s1.syn.state }
      boot := if s1.boot = .crystal then .lock else s1.boot
      romTest := s1.romTest || s1.boot == .crystal }

/-- WAKE_DONE ends a wake; PWR_WTIME takes a free value (R407; log entry 14). -/
def State.wakeDone (s : State) : State :=
  let (t, s1) := s.takeFresh Config.wakeTime
  ((s1.modPwr fun p => { p with waking := false }).wr R.PWR_WTIME_WAKE_US t.toNat).notifyAll 12

/-- CRYSTAL_START_TIMEOUT: XO_FAIL sets, and a wake in progress ends with WAKE_DONE (R408). -/
def execCrystalStartTimeout (s : State) : Host.Outcome State Fault Refusal :=
  if !s.crystalDue then .next s
  else
    let s1 := s.setFlag R.PWR_STAT_XO_FAIL
    .next (if s1.pwr.waking then s1.wakeDone else s1)

/-! ## Time across a sleep (R342 to R345) -/

/-- Ratio of the LPO source in use, in 2⁻¹⁶ ns per tick. -/
def State.lpoRatio (s : State) : Nat := if s.isOn R.TIME_LPO_SRC then s.rd R.TIME_RCRATIO_RATIO else s.time.xtalRatio

/-- UNC rise of a sleep of `d` in 2⁻¹⁶ ns (R345); both cases are rounded up to a whole ns. -/
def State.sleepRise (s : State) (d : Nat) : Nat :=
  if s.time.rcUsed then ceilDiv (3 * d) (100 * 2 ^ 16) else ceilDiv (d * (s.time.lpoTol + 2)) (10 ^ 6 * 2 ^ 16)

/-- NT_RESUME: NT goes on from the converted ticks; outside FREE the time base is SLEPT (R338, R344, R345). -/
def execNtResume (ticks : Nat) (s : State) : Host.Outcome State Fault Refusal :=
  if !(s.time.frozen && s.pwr.xtal && s.pwr.state == .run) then .next s
  else
    let d := s.time.slept + ticks * s.lpoRatio
    let total := s.time.frac + d * 2 ^ 24
    let nt := s.time.nt + BitVec.ofNat 64 (total / 2 ^ 40)
    let free := s.time.q == .free
    let rise := if free then 0 else s.sleepRise d
    let s1 : State := { s with time := { s.time with
      nt := nt, frac := total % 2 ^ 40, frozen := false, slept := 0, uncNt := nt, uncFrac := 0
      q := if free then .free else .slept
      unc := satUnc (s.time.unc + rise) } }
    let s2 := (s1.wrSat R.TIME_SLPDUR_DUR_MS (d / (2 ^ 16 * 10 ^ 6))).wrSat R.TIME_SLPUNC_UNC_ADD rise
    let s3 := if free || s2.time.poor then s2 else { s2 with time := { s2.time with poor := true } }.notifyAll 8
    .next s3.settleGate

/-- The ratio of a source: LPO_RATIO where it is the one in use, RC_RATIO for the internal RC (R342). -/
def State.putRatio (s : State) (rc : Bool) (ratio : Nat) : State :=
  let s1 :=
    if rc then { s with time := { s.time with spanR := some s.time.nt } }.wrSat R.TIME_RCRATIO_RATIO ratio
    else { s with time := { s.time with spanX := some s.time.nt, xtalRatio := min ratio 0xFFFFFFFF } }
  if rc = s.isOn R.TIME_LPO_SRC then s1.wrSat R.TIME_LPORATIO_RATIO ratio else s1

/-- LPO_SPAN: a span of `ticks` ticks has lasted `spanNs` of NT (R342). -/
def execLpoSpan (rc : Bool) (ticks : Nat) (spanNs : Nat) (s : State) : Host.Outcome State Fault Refusal :=
  if !s.ntRuns || ticks = 0 then .next s
  else .next (s.putRatio rc (spanNs * 2 ^ 16 / ticks))

/-- The LPO source changes after `ticks` ticks of the one in use; within a sleep they are converted, and SWITCHED sets
(R343, R500). -/
def State.switchLpo (s : State) (rc : Bool) (ticks : Nat) : State :=
  if rc = s.isOn R.TIME_LPO_SRC ∨ s.pwr.state = .off then s
  else
    let s1 := if s.time.frozen then
        ({ s with time := { s.time with slept := s.time.slept + ticks * s.lpoRatio, rcUsed := true } } : State).setFlag
          R.TIME_LPO_SWITCHED
      else s
    s1.wr R.TIME_LPO_SRC rc.toNat

/-- LPO_FALLBACK: the internal RC takes over. -/
def execLpoFallback (ticks : Nat) (s : State) : Host.Outcome State Fault Refusal := .next (s.switchLpo true ticks)

/-- LPO_CRYSTAL_START: the LPO crystal runs again. -/
def execLpoCrystalStart (ticks : Nat) (s : State) : Host.Outcome State Fault Refusal := .next (s.switchLpo false ticks)

/-! ## Firefly rounds (R410, R414, R415) -/

/-- WATCH_ROUND: the steps of the list run, and in WATCH a detection may wake the device. -/
def execWatchRound (meas : List (Int × Int)) (s0 : State) : Host.Outcome State Fault Refusal :=
  let total := s0.rd R.WATCH_CTL_NSTEP
  let ms := meas.take total
  if !s0.isOn R.WATCH_CTL_EN || !s0.up then .next s0
  else
    let s := s0.openRound
    match s.pwr.state with
    | .watch =>
      match (s.modPwr fun p => { p with closing := false }).roundWatch total 0 ms with
      | (s1, none) => .next s1
      | (s1, some k) => .next (s1.startWake [.watch (BitVec.ofNat 6 k)] false)
    | .run | .idle => .next (if s.isOn R.WATCH_CTL_RUN_EN && !s.pwr.waking then s.roundAwake total 0 ms else s0)
    | .sleep | .deep | .off => .next s0

end Sys2Proof.Machine
end

