-- ==== Sys2Proof/Machine/Listen.lean ====
section
/-!
DEFINITION. Listen mode and the commissioning mailbox (chapter 11): field events, the card, the Type 4 Tag application, the
mailbox arbiter and the journal.
-/

namespace Sys2Proof.Machine

/-! ## Sequence numbers (R474) -/

/-- `b` is newer than `a`. -/
def newerSeq (b a : Nat) : Bool :=
  let d := (b + 0xFFFFFFFE - a % 0xFFFFFFFE) % 0xFFFFFFFE
  decide (1 ≤ d) && decide (d ≤ 0x7FFFFFFE)

/-- The newest of some numbers. -/
def newestSeq (l : List Nat) : Option Nat :=
  match (l.filter fun a => l.all fun b => !newerSeq b a).eraseDups with
  | [a] => some a
  | _ => l.foldl (fun m a => some (max (m.getD a) a)) none

/-- The successor of a number. -/
def succSeq (a : Nat) : Nat := if a = 0xFFFFFFFE then 1 else a + 1

/-! ## The mailbox (R375 to R380) -/

/-- Bytes of an NDEF file. -/
def bankSize : Nat := 8192

/-- The published bank and the shadow. -/
def State.published (s : State) : Memory := if s.emu.pub1 then s.emu.bank1 else s.emu.bank0
/-- The shadow bank. -/
def State.shadow (s : State) : Memory := if s.emu.pub1 then s.emu.bank0 else s.emu.bank1

/-- Change the mailbox. -/
def State.modEmu (s : State) (g : EmuSt → EmuSt) : State := { s with emu := g s.emu }

/-- Replace the shadow bank. -/
def State.setShadow (s : State) (m : Memory) : State :=
  s.modEmu fun e => if e.pub1 then { e with bank0 := m } else { e with bank1 := m }

/-- NLEN of a bank, most significant byte first (R373). -/
def nlenOf (m : Memory) : Nat := beNat (Memory.bytes m 0 2)

/-- Open a shadow: it becomes a copy of the published bank. -/
def State.openShadow (s : State) (a : Arbiter) : State := (s.setShadow s.published).modEmu fun e => { e with arb := a }

/-- The shadow is discarded (R375). -/
def State.discardShadow (s : State) : State := (s.modEmu fun e => { e with arb := .free }).bump R.EMU_CNT_1_N_DISCARD

/-- The card of channel `n` loses its open field shadow, if it holds one. -/
def State.dropField (s : State) (n : Nat) : State :=
  if s.emu.arb = .fieldOpen ∧ s.emu.ownCh.val = n then s.discardShadow else s

/-- Promotion (R379). A record that is being written is abandoned for the next slot (R383). -/
def State.promote (s : State) (wire : Bool) : State :=
  let s1 := s.modEmu fun e => { e with
    pub1 := !e.pub1, arb := .free, lastSrc := wire, pubNt := BitVec.ofNat 32 s.ntMs, jpend := true, jstop := false
    jnext := match e.jwrite with
      | none => e.jnext
      | some w => some ((w.slot + 1) % 4)
    jwrite := none }
  let s2 := (s1.bump R.EMU_CNT_0_N_PROMOTE).notifyAll 14
  if s2.isOn R.EMU_CTL_JEN then s2.leaveIdle else s2

/-- A mailbox command of port `p`: 1 OPEN, 2 COMMIT, 3 DISCARD, 4 REJOURNAL; its status. COMMIT and DISCARD of a port that
does not hold the lock do nothing and are answered OK: DEDUCED, log entry 43. -/
def State.mailCmd (s : State) (p : Port) (op : Nat) : State × Byte :=
  let owns := s.emu.arb == .wireOpen && s.emu.ownPort == p
  if op = 1 then
    match s.emu.arb with
    | .free => ((s.openShadow .wireOpen).modEmu fun e => { e with ownPort := p }, stOk)
    | .fieldOpen => (s, stBusy)
    | .wireOpen => (s, if owns then stOk else stBusy)
  else if op = 2 then
    if !owns then (s, stOk) else if 8190 < nlenOf s.shadow then (s, stRange) else (s.promote true, stOk)
  else if op = 3 then (if owns then s.discardShadow else s, stOk)
  else (s.modEmu fun e => { e with jpend := true, jstop := false }, stOk)

/-- WIRE_LOCK_EXPIRY: the wire lock timer expires (R375). -/
def execWireLockExpiry (s : State) : Host.Outcome State Fault Refusal :=
  .next (if s.emu.arb = .wireOpen then s.discardShadow else s)

/-! ## The card (R360 to R371) -/

/-- Card state as it stands: SUSPENDED while a job holds the channel, and OFF again once EN is 1 and none does (R368). -/
def State.cardState (s : State) (n : Nat) : CardState :=
  if s.jobHolds n then .suspended
  else if (s.card n).state = .suspended ∧ s.isOn R.EMU_CTL_EN then .off
  else (s.card n).state

/-- The device runs and no wake is in progress: listen mode answers (R363, R364). -/
def State.awake (s : State) : Bool :=
  (s.pwr.state == .run || s.pwr.state == .idle) && !s.pwr.waking && s.up

/-- The card of channel `n` can take a frame. -/
def State.cardHears (s : State) (n : Nat) : Bool := s.listens n && s.awake

/-- Cards of listen channels when EN changes (R368): cleared, they are SUSPENDED and an open field shadow goes; set, they are
OFF and armed afresh. -/
def State.emuEnabled (s : State) (on : Bool) : State :=
  s.each ((List.range 8).filter s.listens) fun s n =>
    if on then s.modCard n fun _ => {}
    else (s.dropField n).modCard n fun c => { c with state := .suspended }

/-- A job is granted on channels: the cards of listen channels among them are SUSPENDED (R362, R368). -/
def State.suspendCards (s : State) (m : BitVec 8) : State :=
  s.each ((List.range 8).filter fun n => bitOf m.toNat n && s.listens n) fun s n =>
    (s.dropField n).modCard n fun _ => { state := .suspended }

/-- The fixed UID (R369). -/
def State.fixedUid (s : State) : List Byte := leBytes 4 (s.rd R.EMU_UID_0_UID_LO) ++ leBytes 3 (s.rd R.EMU_UID_1_UID_HI)

/-- UID that a card presents after a field detection. -/
def State.drawUid (s : State) : List Byte × State :=
  if s.rd R.EMU_CTL_UIDMODE = 1 then (s.fixedUid, s)
  else
    let (r, s1) := s.takeFresh Config.randomUid
    (0x08 :: leBytes 3 r.toNat, s1)

/-- A field is detected on channel `n` (R361, R368). -/
def State.fieldOn (s : State) (n : Ch) : State :=
  let (u, s1) := s.drawUid
  let s2 := s1.modCard n.val fun _ => { state := .idle, field := true, uid := u }
  let s3 := (s2.setFlag R.EMU_STAT_FIELD_SEEN).notifyAll 13
  if s.pwr.state = .idle ∧ s.pwr.entry.isNone ∨ !s.isOn R.PWR_WAKEEN_EMU then s3 else s3.wakeEvent (.emu n)

/-- EMU_FIELD_DETECT: an armed channel detects a field; below IDLE it must be enabled as a wake source (R361, R364). -/
def execEmuFieldDetect (n : Ch) (s : State) : Host.Outcome State Fault Refusal :=
  let armed := s.listens n.val && s.isOn R.EMU_CTL_EN && !s.jobHolds n.val && !s.maintHolds n.val
    && s.cardState n.val == .off && s.up && s.pwr.state != .off
  .next (if armed && (!s.pwr.state.low || s.isOn R.PWR_WAKEEN_EMU) then s.fieldOn n else s)

/-- EMU_FIELD_LOSS (R361, R368). -/
def execEmuFieldLoss (n : Ch) (s : State) : Host.Outcome State Fault Refusal :=
  .next (if s.listenHolds n.val && s.pwr.state != .off then
    ((s.dropField n.val).modCard n.val fun _ => {}).notifyAll 13 else s)

/-- The load modulation of an answer at a rate (R365). -/
def loadModOf (rate : BitVec 2) : LoadMod := { coding := if rate = 0 then .manchesterOok else .bpsk, rate := rate }

/-- The card sends an answer at the rate in force, or none. -/
def State.cardSends (s : State) (n : Nat) (bs : List Byte) : State :=
  s.modCard n fun c => { c with ans := bs, load := if bs.isEmpty then none else some (loadModOf c.rate) }

/-- Any other valid frame in READY or ACTIVE (R368). -/
def State.otherFrame (s : State) (n : Nat) : State :=
  match s.cardState n with
  | .ready | .active => (s.modCard n fun c => { c with state := if c.fromHalt then .halt else .idle }).cardSends n []
  | .off | .idle | .halt | .protocol | .suspended => s

/-- A frame that a card takes in one state, and that is another valid frame in every other. -/
def State.cardFrame (s : State) (n : Ch) (st : CardState) (g : State → State) : Host.Outcome State Fault Refusal :=
  .next (if !s.cardHears n.val then s else if s.cardState n.val = st then g s else s.otherFrame n.val)

/-- ATQA (R366). -/
def atqaOf (uid : List Byte) : List Byte := if uid.length = 4 then [0x04, 0x00] else [0x44, 0x00]

/-- Entry to READY (R368). -/
def State.toReady (s : State) (n : Nat) (halt : Bool) : State :=
  (s.modCard n fun c => { c with state := .ready, fromHalt := halt, rate := 0 }).cardSends n (atqaOf (s.card n).uid)

/-- EMU_REQA (R357, R368). -/
def execEmuReqa (n : Ch) (s : State) : Host.Outcome State Fault Refusal :=
  s.cardFrame n .idle fun s => if s.listenOpen then s.toReady n.val false else s

/-- EMU_WUPA (R357, R368). -/
def execEmuWupa (n : Ch) (s : State) : Host.Outcome State Fault Refusal :=
  if s.cardState n.val = .halt then s.cardFrame n .halt fun s => if s.listenOpen then s.toReady n.val true else s
  else s.cardFrame n .idle fun s => if s.listenOpen then s.toReady n.val false else s

/-- UID bytes of the cascade level that SEL names. -/
def levelUid (uid : List Byte) (sel : Byte) : Option (List Byte) :=
  if uid.length = 4 then (if sel = 0x93 then some uid else none)
  else if sel = 0x93 then some (0x88 :: uid.take 3)
  else if sel = 0x95 then some (uid.drop 3)
  else none

/-- UID bytes of a level with their BCC, as bits. -/
def levelBits (l : List Byte) : List Bool := (l ++ [l.foldl (· ^^^ ·) 0]).flatMap byteBits

/-- EMU_ANTICOLLISION: the rest of the UID and BCC is sent (R368). -/
def execEmuAnticollision (n : Ch) (sel : Byte) (known : List Bool) (s : State) : Host.Outcome State Fault Refusal :=
  s.cardFrame n .ready fun s =>
    match levelUid (s.card n.val).uid sel with
    | none => s.otherFrame n.val
    | some l =>
      if known.length ≤ 32 ∧ (levelBits l).take known.length = known then
        s.cardSends n.val (bitsBytes 5 ((levelBits l).drop known.length))
      else s.otherFrame n.val

/-- EMU_SELECT: the SAK is sent, and the final level ends in ACTIVE (R366, R368). -/
def execEmuSelect (n : Ch) (sel : Byte) (uid : List Byte) (s : State) : Host.Outcome State Fault Refusal :=
  s.cardFrame n .ready fun s =>
    let u := (s.card n.val).uid
    if levelUid u sel ≠ some uid then s.otherFrame n.val
    else if u.length = 7 ∧ sel = 0x93 then s.cardSends n.val [0x04]
    else (s.modCard n.val fun c => { c with state := .active }).cardSends n.val [0x20]

/-- The ATS with its CRC_A (R366). -/
def atsOf (maxrate : Nat) : List Byte :=
  let b : List Byte := [0x05, 0x78, if maxrate = 0 then 0x00 else if maxrate = 1 then 0x11 else 0x33, 0x70, 0x02]
  b ++ leBytes 2 (crcA b)

/-- EMU_RATS (R366, R368). -/
def execEmuRats (n : Ch) (param : Byte) (s : State) : Host.Outcome State Fault Refusal :=
  s.cardFrame n .active fun s =>
    ((s.modCard n.val fun c => { c with
      state := .protocol, cid := param.setWidth 4, rate := 0, app := false, file := none, sigf := [], chain := [], blk := true }).cardSends
        n.val (atsOf (s.rd R.EMU_CTL_MAXRATE))).bump R.EMU_CNT_0_N_ACT

/-- EMU_PPS: rates up to MAXRATE are taken, and may differ as TA(1) lets them; any other PPS is not answered (R366, R367).
RATE shows the rate in which the card sends: DEDUCED, log entry 44. The answer itself still goes at the old rate, as
ISO/IEC 14443-4 has it: PRESUMED, log entry 99. -/
def execEmuPps (n : Ch) (dri dsi : BitVec 2) (s : State) : Host.Outcome State Fault Refusal :=
  s.cardFrame n .protocol fun s =>
    let m := s.rd R.EMU_CTL_MAXRATE
    if dri.toNat ≤ m ∧ dsi.toNat ≤ m then
      (s.cardSends n.val [0xD0 ||| (s.card n.val).cid.setWidth 8]).modCard n.val fun c => { c with rate := dsi }
    else s.cardSends n.val []

/-- EMU_HLTA (R368, R375). In PROTOCOL the card stays as it is, and an open field shadow goes. -/
def execEmuHlta (n : Ch) (s : State) : Host.Outcome State Fault Refusal :=
  if s.cardState n.val = .protocol then .next (if s.cardHears n.val then s.dropField n.val else s)
  else s.cardFrame n .active fun s => ((s.dropField n.val).modCard n.val fun c => { c with state := .halt }).cardSends n.val []

/-- S(DESELECT) (R368, R377). -/
def execSDeselect (n : Ch) (s : State) : Host.Outcome State Fault Refusal :=
  s.cardFrame n .protocol fun s => ((s.dropField n.val).modCard n.val fun c => { c with state := .halt }).cardSends n.val [0xC2]

/-- EMU_OTHER_FRAME (R368). -/
def execEmuOtherFrame (n : Ch) (s : State) : Host.Outcome State Fault Refusal :=
  .next (if s.cardHears n.val then s.otherFrame n.val else s)

/-! ## The Type 4 Tag application (R371 to R377) -/

/-- CHAINED_I_BLOCK: the data joins the pending C-APDU, of which no more than 262 bytes matter, and R(ACK) acknowledges it
(R374). The block number and R(ACK) are those of ISO/IEC 14443-4: PRESUMED, log entry 99. -/
def execChainedIBlock (n : Ch) (data : List Byte) (s : State) : Host.Outcome State Fault Refusal :=
  s.cardFrame n .protocol fun s => (s.modCard n fun c => { c with
    chain := (c.chain ++ data).take 262, blk := !c.blk }).cardSends n [if (s.card n).blk then 0xA2 else 0xA3]

/-- What a C-APDU does and answers: a state, data and a status word. -/
abbrev Apdu := State × List Byte × Nat

/-- The answer to a known instruction that R372 does not accept: a free status word. -/
def State.refuseApdu (s : State) : Apdu :=
  let (w, s1) := s.takeFresh Config.apduRefusal
  (s1, [], w.toNat)

/-- AID of the application (R372). -/
def ndefAid : List Byte := [0xD2, 0x76, 0x00, 0x00, 0x85, 0x01, 0x01]

/-- SELECT by name (R372). -/
def State.selectName (s : State) (n : Ch) (aid : List Byte) : Apdu :=
  if aid = ndefAid then (s.modCard n fun c => { c with app := true, file := none, sigf := [] }, [], 0x9000)
  else s.refuseApdu

/-- The signature file is present (R369). -/
def State.sigPresent (s : State) : Bool := s.rd R.EMU_CTL_UIDMODE != 0 && s.isOn R.EMU_CTL_SIGF

/-- Signature bytes of the record of R156: none when it is not valid (R5). -/
def State.sigBytes (s : State) : List Byte :=
  let len := (s.sb 0x164A00).toNat
  if len ≤ 64 ∧ (s.sbytes 0x164A02 14).all (· == 0) then s.sbytes 0x164A10 len else []

/-- The signature file (R371), from the record of R156. -/
def State.sigFile (s : State) : List Byte :=
  7 :: (s.fixedUid ++ [s.sb 0x164A01, BitVec.ofNat 8 s.sigBytes.length] ++ s.sigBytes)

/-- SELECT by file ID (R372). -/
def State.selectFile (s : State) (n : Ch) (f : Nat) : Apdu :=
  if !(s.card n).app then s.refuseApdu
  else if f = 0xE103 then (s.modCard n fun c => { c with file := some .cc }, [], 0x9000)
  else if f = s.rd R.EMU_FID_NFID then (s.modCard n fun c => { c with file := some .ndef }, [], 0x9000)
  else if f = s.rd R.EMU_FID_SFID ∧ s.sigPresent then
    (s.modCard n fun c => { c with file := some .sig, sigf := s.sigFile }, [], 0x9000)
  else (s, [], 0x6A82)

/-- The CC file (R373). -/
def State.ccFile (s : State) : List Byte :=
  [0x00, 0x0F, 0x20, 0x00, 0xF0, 0x00, 0xF0, 0x04, 0x06] ++ beBytes 2 (s.rd R.EMU_FID_NFID)
    ++ [0x20, 0x00, 0x00, if s.isOn R.EMU_CTL_FWP then 0xFF else 0x00]

/-- The NDEF file as the phone on channel `n` sees it (R376). -/
def State.phoneBank (s : State) (n : Ch) : Memory :=
  if s.emu.arb = .fieldOpen ∧ s.emu.ownCh = n then s.shadow else s.published

/-- Part of a file for READ BINARY; Le 0 asks for 256 bytes. -/
def readPart (f : List Byte) (off le : Nat) : List Byte × Nat :=
  if f.length ≤ off then ([], 0x6B00) else ((f.drop off).take (if le = 0 then 256 else le), 0x9000)

/-- Part of the NDEF file. -/
def readBank (m : Memory) (off le : Nat) : List Byte × Nat :=
  if bankSize ≤ off then ([], 0x6B00) else (Memory.bytes m off (min (if le = 0 then 256 else le) (bankSize - off)), 0x9000)

/-- READ BINARY (R372). -/
def State.readFile (s : State) (n : Ch) (off le : Nat) : Apdu :=
  match (s.card n).file with
  | none => s.refuseApdu
  | some .cc => (s, readPart s.ccFile off le)
  | some .ndef => (s, readBank (s.phoneBank n) off le)
  | some .sig => (s, readPart (s.card n).sigf off le)

/-- The write of an UPDATE BINARY into the shadow, and its promotion (R377). -/
def State.phoneWrite (s : State) (off : Nat) (data : List Byte) : Apdu :=
  let m := Memory.setBytes s.shadow off data
  if bankSize < off + data.length then (s, [], 0x6B00)
  else if 8190 < nlenOf m then (s, [], 0x6A80)
  else if off ≤ 1 ∧ !data.isEmpty ∧ nlenOf m ≠ 0 then ((s.setShadow m).promote false, [], 0x9000)
  else (s.setShadow m, [], 0x9000)

/-- UPDATE BINARY (R374 to R377). -/
def State.updateFile (s : State) (n : Ch) (off lc : Nat) (data : List Byte) : Apdu :=
  if lc ≠ data.length then (s, [], 0x6700)
  else if s.isOn R.EMU_CTL_FWP then (s, [], 0x6982)
  else if (s.card n).file ≠ some .ndef then s.refuseApdu
  else
    match s.emu.arb with
    | .wireOpen => (s, [], 0x6985)
    | .fieldOpen => if s.emu.ownCh = n then s.phoneWrite off data else (s, [], 0x6985)
    | .free => ((s.openShadow .fieldOpen).modEmu fun e => { e with ownCh := n }).phoneWrite off data

/-- A C-APDU of an unknown class or instruction (R372). -/
def State.unknownApdu (s : State) (cla : Byte) : Apdu := (s, [], if cla = 0 then 0x6D00 else 0x6E00)

/-- A C-APDU that chained blocks assembled (R372, R374). One too short for its header or its Lc is answered as a wrong length:
DEDUCED, log entry 99. -/
def State.runApdu (s : State) (n : Ch) : List Byte → Apdu
  | cla :: ins :: p1 :: p2 :: rest =>
    let off := 256 * p1.toNat + p2.toNat
    let lc := (rest.headD 0).toNat
    let data := rest.drop 1
    if cla ≠ 0 then s.unknownApdu cla
    else if ins = 0xA4 ∧ data.length < lc then (s, [], 0x6700)
    else if ins = 0xA4 ∧ p1 = 0x04 ∧ p2 = 0x00 then s.selectName n (data.take lc)
    else if ins = 0xA4 ∧ p1 = 0x00 ∧ p2 = 0x0C ∧ lc = 2 then s.selectFile n (beNat (data.take 2))
    else if ins = 0xA4 then s.refuseApdu
    else if ins = 0xB0 then s.readFile n off lc
    else if ins = 0xD6 then s.updateFile n off lc data
    else s.unknownApdu cla
  | _ => (s, [], 0x6700)

/-- A C-APDU in PROTOCOL (R374). Without chained blocks before it, it has `len` bytes and the meaning `g`. Behind chained
blocks, `tail` is what the last block adds to their bytes, and the whole is executed. -/
def State.apdu (s : State) (n : Ch) (len : Nat) (tail : List Byte) (g : State → Apdu) : Host.Outcome State Fault Refusal :=
  s.cardFrame n .protocol fun s =>
    let chain := (s.card n.val).chain
    let s1 := s.modCard n.val fun c => { c with chain := [], blk := !c.blk }
    let r := if 261 < (if chain.isEmpty then len else chain.length + tail.length) then (s1, [], 0x6700)
      else if chain.isEmpty then g s1
      else s1.runApdu n (chain ++ tail)
    r.1.cardSends n.val (r.2.1 ++ beBytes 2 r.2.2)

/-- SELECT_BY_NAME (R372). -/
def execSelectByName (n : Ch) (aid : List Byte) (s : State) : Host.Outcome State Fault Refusal :=
  s.apdu n (5 + aid.length) aid fun s => s.selectName n aid

/-- SELECT_BY_FILE_ID (R372). -/
def execSelectByFileId (n : Ch) (fid : BitVec 16) (s : State) : Host.Outcome State Fault Refusal :=
  s.apdu n 7 (beBytes 2 fid.toNat) fun s => s.selectFile n fid.toNat

/-- READ_BINARY (R372). -/
def execReadBinary (n : Ch) (off : BitVec 16) (le : Nat) (s : State) : Host.Outcome State Fault Refusal :=
  s.apdu n 5 [BitVec.ofNat 8 le] fun s => s.readFile n off.toNat le

/-- UPDATE_BINARY (R374 to R377). -/
def execUpdateBinary (n : Ch) (off : BitVec 16) (lc : Nat) (data : List Byte) (s : State) :
    Host.Outcome State Fault Refusal :=
  s.apdu n (5 + data.length) data fun s => s.updateFile n off.toNat lc data

/-- EMU_UNKNOWN_APDU (R372). -/
def execEmuUnknownApdu (n : Ch) (cla _ins : Byte) (s : State) : Host.Outcome State Fault Refusal :=
  s.apdu n 5 [] fun s => s.unknownApdu cla

/-! ## The journal (R381 to R385) -/

/-- Flash offset of journal slot `k`. -/
def slotBase (k : Nat) : Nat := 0x080000 + 0x4000 * k

/-- The header of slot `k`. -/
def State.slotHead (s : State) (k : Nat) : List Byte := s.fbytes (slotBase k) 32

/-- SEQ of a valid record in slot `k` (R381); a record with a reserved bit set is not valid (R5). -/
def State.slotSeq (s : State) (k : Nat) : Option Nat :=
  let h := s.slotHead k
  let seq := leNat ((h.drop 4).take 4)
  let len := leNat ((h.drop 8).take 2)
  let ok := h.take 4 == [0x53, 0x4C, 0x4D, 0x42] && leNat (h.drop 28) == (crc32 (h.take 28)).toNat
    && decide (1 ≤ seq) && decide (seq ≤ 0xFFFFFFFE) && decide (2 ≤ len) && decide (len ≤ 8192)
    && leNat ((h.drop 10).take 2) / 2 == 0 && leNat ((h.drop 20).take 8) == 0
  if ok && leNat ((h.drop 16).take 4) == (crc32 (s.fbytes (slotBase k + 0x100) len)).toNat then some seq else none

/-- The newest valid record: its slot and SEQ. -/
def State.newestRecord (s : State) : Option (Nat × Nat) :=
  let l := (List.range 4).filterMap fun k => (s.slotSeq k).map fun q => (k, q)
  (newestSeq (l.map Prod.snd)).bind fun q => l.find? fun x => x.2 == q

/-- Erase the 4 KiB sector at a flash offset. -/
def State.eraseSector (s : State) (off : Nat) : State :=
  { s with flash := { s.flash with
    mem := s.flash.mem.filter fun c => decide (c.1 < off) || decide (off + 4096 ≤ c.1) } }

/-- Program bytes: bits that are 0 stay 0 (R469). -/
def State.programBytes : State → Nat → List Byte → State
  | s, _, [] => s
  | s, a, b :: bs => State.programBytes (s.fset a (s.fb a &&& b)) (a + 1) bs

/-- The header of a record (R381). -/
def JWrite.header (w : JWrite) : List Byte :=
  let h := [0x53, 0x4C, 0x4D, 0x42] ++ leBytes 4 w.seq.toNat ++ leBytes 2 w.data.length ++ leBytes 1 w.src.toNat ++ [0]
    ++ leBytes 4 w.ntMs.toNat ++ leBytes 4 (crc32 w.data).toNat ++ List.replicate 8 0
  h ++ leBytes 4 (crc32 h).toNat

/-- Sectors that a record covers (R382). -/
def JWrite.sectors (w : JWrite) : Nat := (0x100 + w.data.length + 4095) / 4096

/-- Offset and bytes of flash command `k` of a record: its sectors, then its pages; none after the last (R382). -/
def State.jCommand (s : State) (w : JWrite) (k : Nat) : Option (Nat × Nat) :=
  let first := slotBase w.slot + 0x100
  if k < w.sectors then some (slotBase w.slot + 4096 * k, 4096)
  else
    let a := max first ((first / s.pageSize + (k - w.sectors)) * s.pageSize)
    let b := min (first + w.data.length) ((first / s.pageSize + (k - w.sectors) + 1) * s.pageSize)
    if a < b then some (a, b - a) else none

/-- Slot and SEQ that the writer takes (R382, R383). The next slot is never that of the record in force, which R385 leaves in
force until the commit point: DEDUCED, log entry 49. -/
def State.nextRecord (s : State) : Nat × Nat :=
  match s.newestRecord with
  | none => (s.emu.jnext.getD 0, 1)
  | some (k, q) =>
    let slot := s.emu.jnext.getD ((k + 1) % 4)
    (if slot = k then (k + 1) % 4 else slot, succSeq q)

/-- A record is due (R382). -/
def State.recordDue (s : State) : Bool :=
  s.isOn R.EMU_CTL_JEN && s.emu.jpend && !s.emu.jstop && s.pwr.state == .run && bitOf s.pwr.domOn.toNat 10 && s.up

/-- The port is free for a command of the journal: fills and host operations come first, and a run of a window write that has been
sent ends (R382, R470). -/
def State.journalTurn (s : State) : Bool :=
  s.flash.op.isNone && s.flash.filling.isNone && s.flash.fills.isEmpty && (s.flash.win.map fun w => w.busy) != some true

/-- JOURNAL_WRITE: steps 1 and 2 of R382; the header is still to come. The flash holds the record at once, and reports its
commands as in progress one after another: DESIGN CHOICE, log entry 100. -/
def execJournalWrite (s : State) : Host.Outcome State Fault Refusal :=
  if !(s.recordDue && s.emu.jwrite.isNone && s.journalTurn && !s.flash.wip) then .next s
  else
    let (slot, seq) := s.nextRecord
    let data := Memory.bytes s.published 0 (nlenOf s.published + 2)
    let w : JWrite := { slot := slot, seq := BitVec.ofNat 32 seq, data := data, src := s.emu.lastSrc, ntMs := s.emu.pubNt }
    let n := w.sectors
    let s1 := (s.each (List.range n) fun s i => s.eraseSector (slotBase slot + 4096 * i)).bump R.FLASH_CNT_N_SECTOR n
    let s2 := s1.bump R.FLASH_CNT_N_PAGE (s1.pagesOf (slotBase slot + 0x100) data.length)
    .next (((s2.programBytes (slotBase slot + 0x100) data).modFlash fun f => { f with
      asleep := false, cmd := s.jCommand w 0 }).modEmu fun e => { e with jwrite := some w })

/-- A record fails: the next slot is tried, up to three times in a row (R383). After the third, the writer takes its slot
afresh (R382). -/
def State.journalFails (s : State) (slot : Nat) : State :=
  let s1 := s.bump R.EMU_CNT_1_N_JFAIL
  let third := decide (2 ≤ s.emu.jfails)
  let s2 := s1.modEmu fun e => { e with
    jwrite := none, jnext := if third then none else some ((slot + 1) % 4), jstop := third, jfails := if third then 0 else e.jfails + 1 }
  if third then s2.setFlag R.EMU_STAT_JFAIL else s2

/-- JOURNAL_COMMIT: the record's other commands have ended, and the header is programmed and read back (R382, R383). What a
header that does not read back holds is a free value. -/
def execJournalCommit (good : Bool) (s : State) : Host.Outcome State Fault Refusal :=
  match s.emu.jwrite with
  | none => .next s
  | some w =>
    if !s.journalTurn then .next s
    else
      let s0 := s.modFlash fun f => { f with cmd := none }
      if good then
        .next ((((s0.programBytes (slotBase w.slot) w.header).bump R.FLASH_CNT_N_PAGE).wr R.EMU_JSEQ_SEQ w.seq.toNat).modEmu fun e =>
          { e with jwrite := none, jpend := false, jfails := 0, jnext := none })
      else
        let (bs, s1) := s0.takeFresh fun k => (List.range 32).map (Config.failedHeader k)
        .next (((s1.programBytes (slotBase w.slot) bs).bump R.FLASH_CNT_N_PAGE).journalFails w.slot)

end Sys2Proof.Machine
end

