-- ==== Sys2Proof/Machine/Maint.lean ====
section
/-!
DEFINITION. Maintenance (chapter 14, R480 to R484): when its jobs are granted, the drain of the synthesiser's work, and
how self-tests and coupling measurements end.
-/

namespace Sys2Proof.Machine

/-! ## Claims (R188, R320, R482) -/

/-- The claim on channel `n` ends, with every other claim of the same claimant. -/
def State.endClaim (s : State) (n : Nat) : State :=
  match (s.claimOf n).bind fun c => c.job with
  | some id => s.unclaim id
  | none => s.setClaim n none

/-- A claim replaces those on the channels of a mask. -/
def State.claimAll (s : State) (mask : BitVec 8) (c : Claim) : State :=
  let s1 := s.each (maskList mask) fun s n => s.endClaim n.val
  s1.each (maskList mask) fun s n => s.setClaim n.val (some c)

/-- The claim of a GOLD job. -/
def Claim.isGold (c : Claim) : Bool := c.cls == .gold

/-- MAINT_DRAIN_MAX in ns (R482). -/
def State.drainMaxNs (s : State) : Nat := s.rd R.SYS_MAINT_MAINT_DRAIN_MAX * 1000000

/-- A maintenance job that does not run has waited MAINT_DRAIN_MAX (R482, R483). -/
def State.overdue (s : State) (m : Maint) : Bool := !m.running && decide (s.drainMaxNs ≤ (s.time.nt - m.since).toNat)

/-- Change the maintenance job at a place of the queue. -/
def State.modMaint (s : State) (i : Nat) (g : Maint → Maint) : State :=
  match s.maint[i]? with
  | none => s
  | some m => { s with maint := s.maint.set i (g m) }

/-- A channel maintenance job that has waited MAINT_DRAIN_MAX claims its channels as a GOLD claim does: it replaces lower
claims, but no GOLD claim (R482). -/
def State.claimMaint (s : State) (i : Nat) : State :=
  match s.maint[i]? with
  | none => s
  | some m =>
    if s.overdue m && !m.kind.isSynth && !m.claims
        && (maskList m.mask).all fun n => ((s.claimOf n.val).map Claim.isGold) != some true then
      (s.claimAll m.mask { job := none, cls := .gold, gold := true }).modMaint i fun m => { m with claims := true }
    else s

/-- Channels that maintenance claims (DIAG_MAINT.CLAIMED). -/
def State.maintClaimed (s : State) : Nat :=
  ((List.range 8).filter fun n => match s.claimOf n with | some c => c.job.isNone | none => false).map (2 ^ ·) |>.sum

/-! ## Grants (R356, R481) -/

/-- Duration of a coupling measurement in ns (R201, R356). -/
def State.couplingNs (s : State) (mask : BitVec 8) : Nat :=
  let ms := (maskList mask).map fun c => c.val
  let col (n : Nat) : Nat := (s.rd (R.CH_TXTIME_RAMP_US n) + s.rd (R.CH_TXTIME_DOWN_US n)) * 1000 + 57760
  1947 + 1000 * (ms.map fun n => s.rd (R.CH_TXTIME_ANT_SETTLE_US n)).foldl max 0 + (ms.map col).sum

/-- Channel `n` lies in an open part of some class, whose remaining window covers a duration (R356). -/
def State.openFor (s : State) (n ns : Nat) : Bool := (List.range 4).any fun c => fitsWindow (s.remaining c n s.nt) ns

/-- A due maintenance job may be granted (R316, R356, R481). An image calibration runs only while the field is OFF (R84). A
coupling measurement also needs LOCK, without which no field comes on (R49). -/
def State.maintReady (s : State) (m : Maint) : Bool :=
  (maskList m.mask).all (fun n => s.unheld n.val && (m.claims || (s.claimOf n.val).isNone)
      && (m.kind != .imageCal || ((s.ch n.val).field == .off && !(s.ch n.val).antPend)))
    && (!m.isCoupling || (s.locked && s.budg.tstate != .hard
      && (maskList m.mask).all fun n => s.openFor n.val (s.couplingNs m.mask)))

/-- A coupling measurement starts: its members move to their positions (R199). -/
def State.startCoupling (s : State) (mask : BitVec 8) (g : Nat) : State :=
  s.each (maskList mask) fun s n => s.requestAnt n.val (getBits (s.rdWord (R.SWARM_GPOS g)) (4 * n.val) 3) true

/-- The job at a place of the queue is granted when it may be. -/
def State.grantMaint (s : State) (i : Nat) : State :=
  match s.maint[i]? with
  | none => s
  | some m =>
    if m.running || m.kind.isSynth || !s.maintReady m then s
    else
      let s1 := if m.claims then s.each (maskList m.mask) fun s n => s.setClaim n.val none else s
      let s2 := (s1.modBudg fun b => { b with quiet := false }).modMaint i fun m => { m with
        running := true, claims := false, amps := [], left := if m.isCoupling then (maskList m.mask).map fun c => c.val else [] }
      match m.kind with
      | .coupling g _ _ => s2.startCoupling m.mask g.val
      | .imageCal | .chTest | .recal | .phaseStep _ => s2

/-- No channel is held by a job or a maintenance job (R483). -/
def State.noneHeld (s : State) : Bool := (List.range 8).all fun n => !s.jobHolds n && !s.maintHolds n

/-- Places of the maintenance queue that are filled: it has 16 entries, and work that falls due while it is full joins it as
they become free (R480). DEDUCED, log entry 103. -/
def State.maintIdx (s : State) : List Nat := List.range (min 16 s.maint.length)

/-- The job at a place of the queue is served: a channel job by its channels, synthesiser work at a boundary at which no channel
is held (R481, R483). -/
def State.serveAt (s : State) (i : Nat) : State :=
  match s.maint[i]? with
  | none => s
  | some m =>
    if !m.kind.isSynth then s.grantMaint i
    else if !m.running && s.locked && s.noneHeld then s.startSynth
    else s

/-- Step 7 serves maintenance before any queue head, in queue order: a channel job granted before the synthesiser's work counts
as holding its channels for it (R481 to R483). DEDUCED, log entry 117. -/
def State.serveMaint (s : State) : State :=
  let idx := s.maintIdx
  ((s.each idx fun s i => s.claimMaint i).each idx fun s i => s.serveAt i).drainStart

/-! ## The drain (R483) -/

/-- MAINT_DRAIN_TIMEOUT: MAINT_DRAIN_MAX has passed: channel work claims, synthesiser work drains (R482, R483). -/
def execMaintDrainTimeout (s : State) : Host.Outcome State Fault Refusal :=
  let s1 := s.each s.maintIdx fun s i => s.claimMaint i
  if s1.drain.isNone && s1.locked && s1.maint.any fun m => m.kind.isSynth && s1.overdue m then
    .next (({ s1 with drain := some s1.time.nt }.bump R.DIAG_CNT_3_N_DRAIN).notifyAll 15).drainStart
  else .next s1

/-- The field of channel `n` ramps down at once, whatever it does; a field that settles stays (R483). -/
def State.forceDown (s : State) (n : Nat) : State :=
  if (s.ch n).field.live then
    (s.modCh n fun c => { c with calib := false, wantOn := false, wantOff := false, settleTicks := 0 }).startDown n
  else s.modCh n fun c => { c with wantOn := false, wantOff := false }

/-- DRAIN_FORCE: MAX_EXCH_US after the drain began, every field that is not OFF ramps down and its job ends as R52
gives; the synthesiser work starts once all fields are OFF (R483). -/
def execDrainForce (s : State) : Host.Outcome State Fault Refusal :=
  match s.drain with
  | none => .next s
  | some t =>
    if s.synthDue && decide (s.rd R.TIME_MAXEX_MAX_EXCH_US * 1000 ≤ (s.time.nt - t).toNat) then
      let on := (List.range 8).filter fun n => (s.ch n).field != .off
      let leads := (on.map fun n => s.leadAt n).eraseDups
      let s1 := (s.each on fun s n => s.forceDown n).each on fun s n => s.stopCoupling n
      .next (s1.each leads fun s n => s.faultJob n).drainStart
    else .next s

/-! ## Coupling measurements (R199 to R201) -/

/-- An entry of the matrix in 1/1024 V/A from an average in µV and an antenna current in mA; no current leaves a free
value. Truncated, and saturated to 16 bits: DESIGN CHOICE, log entry 47. -/
def couplingEntry (uv : Int) (ma : Nat) : Nat :=
  ofSigned 16 (clampInt (-32768) 32767 (if ma = 0 then Config.zeroCurrent uv else (uv * 1024).tdiv (1000 * (ma : Int))))

/-- Place of driver `j` and member `i` in the averages. -/
def avgAt (ms : List Nat) (avg : List (Int × Int)) (j i : Nat) : Int × Int :=
  avg.getD (ms.length * ms.idxOf j + ms.idxOf i) (0, 0)

/-- The entry C[i][j] of the slot, by the antenna current of column `j`; entries of channels that are no members are zero. -/
def Maint.matrixEntry (m : Maint) (avg : List (Int × Int)) (i j : Nat) : Nat :=
  let ms := (maskList m.mask).map fun c => c.val
  if ms.contains i && ms.contains j then
    let v := avgAt ms avg j i
    let ma := (m.amps.lookup j).getD 0
    couplingEntry v.1 ma + 2 ^ 16 * couplingEntry v.2 ma
  else 0

/-- The 512 bytes of a slot as a measurement writes them (R200). -/
def State.slotBytes (s : State) (m : Maint) (g mw : Nat) (avg : List (Int × Int)) (clipped : Bool) : List Byte :=
  let head := leBytes 4 (m.mask.toNat + 2 ^ 8 + 2 ^ 9 * clipped.toNat + 2 ^ 16 * ofSigned 16 s.tDie)
    ++ leBytes 4 (s.rdWord (R.SWARM_GPOS g)).toNat ++ leBytes 4 s.ntMs ++ leBytes 4 mw
  padTo 512 (head ++ (List.range 64).flatMap fun k => leBytes 4 (m.matrixEntry avg (k / 8) (k % 8)))

/-- The measurement has driven every member, and every field is OFF again. -/
def State.couplingOver (s : State) (m : Maint) : Bool :=
  m.running && m.isCoupling && m.left.isEmpty && (maskList m.mask).all fun n => (s.ch n.val).field == .off

/-- COUPLING_MEASUREMENT_DONE: the slot is written (R199 to R201). -/
def execCouplingMeasurementDone (avg : List (Int × Int)) (clipped : Bool) (s : State) : Host.Outcome State Fault Refusal :=
  match s.maint.find? fun m => s.couplingOver m with
  | none => .next s
  | some m =>
    match m.kind with
    | .coupling g slot mw =>
      let s1 := s.swrite (0x174000 + 0x200 * slot.toNat) (s.slotBytes m g.val mw.toNat avg clipped)
      let s2 := (s1.setFlag R.SWARM_CMDSTAT_DONE).wr R.SWARM_CMDSTAT_ERR (if clipped then 3 else 0)
      .next (s2.maintEnd fun x => x.running && x.isCoupling)
    | .imageCal | .chTest | .recal | .phaseStep _ => .next s

/-! ## Self-tests (R484) -/

/-- DIAG_TEST_DONE of the ROM test: pass or fail. -/
def State.romDone (s : State) (failed : Bool) : State :=
  let s1 := { s with romTest := false }.bump R.DIAG_CNT_4_N_MAINT
  if failed then ((s1.wr R.DIAG_STAT_ROM_OK 0).setFlag R.DIAG_STAT_ROM_FAIL).bump R.DIAG_CNT_4_N_ROMFAIL
  else s1.setFlag R.DIAG_STAT_ROM_OK

/-- The channel tests that run end: CHT_DONE and CHT_FAIL; each failure counts in N_ROMFAIL. -/
def State.chTestDone (s : State) (failed : BitVec 8) : State :=
  let done := s.maint.foldl (fun (a : BitVec 8) m => if m.running && m.kind == .chTest then a ||| m.mask else a) 0
  let s1 := (s.wr R.DIAG_STAT_CHT_DONE (s.rd R.DIAG_STAT_CHT_DONE ||| done.toNat)).wr R.DIAG_STAT_CHT_FAIL
    (s.rd R.DIAG_STAT_CHT_FAIL ||| (failed &&& done).toNat)
  let n := (s.maint.filter fun m => m.running && m.kind == .chTest).length
  (({ s1 with maint := s1.maint.filter fun m => !(m.running && m.kind == .chTest) } : State).bump R.DIAG_CNT_4_N_MAINT n).bump
    R.DIAG_CNT_4_N_ROMFAIL (popcount8 (failed &&& done).toNat)

/-- DIAG_TEST_DONE (R484). -/
def execDiagTestDone (rom : Bool) (failed : BitVec 8) (s : State) : Host.Outcome State Fault Refusal :=
  .next (if !s.engRuns then s else if rom then (if s.romTest then s.romDone (failed != 0) else s) else s.chTestDone failed)

end Sys2Proof.Machine
end

