-- ==== Sys2Proof/Machine/Sched.lean ====
section
/-!
DEFINITION. The beat boundary (R10): admission at step 7 (R273, R318 to R320), dispatch at step 8 (R217), the boundary
itself with its overrun (R13), and the hold sweep (R73).
-/

namespace Sys2Proof.Machine

/-! ## Declarations (R246 to R250, R258) -/

/-- The parameter that the WCX of a ROM routine follows (R258): SIG, RATE, COUNT or W2MAX in a parameter word, KIND or SIGARG, as
`pay`, in the payload. -/
def romFollows (id pw0 pw1 pay : Nat) : Nat :=
  match id with
  | 0x010 | 0x020 | 0x021 | 0x028 | 0x02C => bitsOf pw0 5 1
  | 0x014 => bitsOf pw0 0 3
  | 0x022 => bitsOf pw0 16 8
  | 0x030 | 0x031 | 0x035 => bitsOf pw1 24 8
  | 0x034 | 0x038 | 0x039 => pay
  | _ => 0

/-- KIND or SIGARG of a job whose WCX follows it (R258). -/
def State.payFollows (s : State) (j : Job) : Nat := if j.routine = 0x038 then (s.sigArg j).toNat else s.tagKind j

/-- Declarations of an ID whose entry is absent or not VALID (R248). -/
def noDecl : Decl := { wcx := 2 ^ 32 - 1 }

/-- Value f of a selector (R248). -/
def selectorValue (sel pw0 pw1 : Nat) : Nat :=
  let width := bitsOf sel 6 4
  let f := bitsOf (if bitOf sel 0 then pw1 else pw0) (bitsOf sel 1 5) width
  if width = 0 then 0 else if bitOf sel 10 then 2 ^ f else f

/-- A selector may have EXP only with a WIDTH of at most 4 (R247). -/
def selectorOk (sel : Nat) : Bool := !bitOf sel 10 || decide (bitsOf sel 6 4 ≤ 4)

/-- A directory entry, as eight words, is VALID (R247). -/
def entryValid (w : List Nat) : Bool :=
  let g (k : Nat) : Nat := w.getD k 0
  let addr := bitsOf (g 0) 0 24
  let ninst := bitsOf (g 1) 0 16
  bitOf (g 0) 25 && bitsOf (g 0) 27 5 == 0 && bitsOf (g 3) 11 21 == 0 && bitsOf (g 4) 10 6 == 0
    && bitsOf (g 4) 26 6 == 0 && bitsOf (g 5) 11 21 == 0 && g 6 == 0 && g 7 == 0
    && addr % 2 == 0 && selectorOk (bitsOf (g 3) 0 11) && selectorOk (bitsOf (g 5) 0 11)
    && decide (bitsOf (g 1) 16 16 < ninst)
    && (if bitOf (g 0) 24 then decide (addr + 2 * ninst ≤ 0x1000000)
        else decide (0x6000 ≤ addr) && decide (addr + 2 * ninst ≤ 0x20000))

/-- Words of the directory entry of an ID of at least 0x100 (R246). -/
def State.dirWords (s : State) (id : Nat) : List Nat := (List.range 8).map fun k => s.snat (0x140000 + 32 * (id - 0x100) + 4 * k) 4

/-- Declarations of a stored routine (R248). -/
def storeDecl (w : List Nat) (pw0 pw1 : Nat) : Decl :=
  let g (k : Nat) : Nat := w.getD k 0
  if !entryValid w then noDecl
  else
    { wcx := bitsOf (g 2) 0 16 + bitsOf (g 2) 16 16 * selectorValue (bitsOf (g 3) 0 11) pw0 pw1
      maxpay := min 1008 (bitsOf (g 4) 0 10 + bitsOf (g 4) 16 10 * selectorValue (bitsOf (g 5) 0 11) pw0 pw1)
      swarmOk := bitOf (g 0) 26, src := if bitOf (g 0) 24 then 2 else 1
      ninst := bitsOf (g 1) 0 16, entry := BitVec.ofNat 16 (bitsOf (g 1) 16 16), addr := bitsOf (g 0) 0 24, found := true }

/-- Declarations of a ROM routine: their numbers are free values (log entry 12). -/
def romDecl (id pw0 pw1 pay : Nat) : Decl :=
  { wcx := (Config.romWcx id (romFollows id pw0 pw1 pay)).toNat, maxpay := min 1008 (Config.romPay id pw0 pw1), swarmOk := decide (id = 0x02C)
    found := true }

/-- Declarations of a routine ID for parameter words, and the parameter in the payload (R248, R258). -/
def State.declareFor (s : State) (id pw0 pw1 pay : Nat) : Decl :=
  if 0x100 ≤ id then storeDecl (s.dirWords id) pw0 pw1 else if romIds.contains id then romDecl id pw0 pw1 pay else noDecl

/-- Declarations that a query shows: a parameter in the payload counts as 0. DEDUCED, log entry 12. -/
def State.declare (s : State) (id pw0 pw1 : Nat) : Decl := s.declareFor id pw0 pw1 0

/-- Declarations of a job (R15). -/
def State.declOf (s : State) (j : Job) : Decl :=
  s.declareFor j.routine (j.word 4).toNat (j.word 5).toNat (s.payFollows j)

/-! ## Step 3 (R354) -/

/-- Step 3: the record of the open channels and classes at the boundary's NT. -/
def State.step3 (s : State) : State :=
  let s1 := { s with gate := { s.gate with en := s.isOn R.GATE_CTL_EN } }
  { s1 with gate := { s1.gate with openRec := s1.openRecord s1.nt } }

/-! ## Admission checks (R318) -/

/-- The deadline has passed (R23). -/
def State.deadlinePassed (s : State) (j : Job) : Bool :=
  j.dlEn && decide ((s.ntUs - BitVec.ofNat 32 j.deadline).toNat < 2 ^ 31)

/-- The head was at the front without LOCK for SYN_HOLD_MAX (R72). -/
def State.heldOut (s : State) (j : Job) : Bool := decide (s.rd R.SYN_HOLD_SYN_HOLD_MAX * 1000 ≤ j.holdNs)

/-- Check A: the code with which a head is posted. -/
def State.expiry (s : State) (j : Job) : Option Byte :=
  if s.deadlinePassed j then some rcDeadline
  else if s.rd R.TIME_MAXEX_MAX_EXCH_US < (s.declOf j).wcx then some rcFault
  else if s.heldOut j then some rcSynTimeout
  else none

/-- Check B: admission is open. An entry window for a target below IDLE closes it (R397). -/
def State.admissionOpen (s : State) : Bool :=
  let entryLow := match s.pwr.entry with | some e => e.target.low | none => false
  s.locked && s.drain.isNone && !entryLow && !(s.budg.isOver && s.lim R.BUDG_CTL_PWR_EN != 0) && s.budg.tstate != .hard

/-- The head is of class GOLD. -/
def Job.isGold (j : Job) : Bool := j.cls == 0

/-- Power claim of a job in mW (R305). -/
def State.powerClaim (s : State) (j : Job) : Nat :=
  ((maskList j.chmask).map fun n =>
    ceilDiv ((1150 * s.rd (R.CH_TXPWR_CAP n.val) + 60000) * 100) (1000 * s.lim R.BUDG_CLAIM_VTX_EFF) + 45).sum

/-- ΔP of a job in 0.05 mW (R314). -/
def State.heatOf (s : State) (j : Job) : Nat := ((maskList j.chmask).map fun n => 2100 + 3 * s.rd (R.CH_TXPWR_CAP n.val)).sum

/-- Check E (R276, R277). -/
def State.shaperOk (s : State) (j : Job) : Bool := !(s.qu j.queue).shen || decide ((j.cost : Int) ≤ (s.qu j.queue).bal)

/-- Check F (R309). -/
def State.quotaOk (s : State) (j : Job) : Bool :=
  let p := j.port.val
  !s.isOn (R.BUDG_PCFG_QEN p)
    || (!(s.pt p).isOver && decide (s.usage p + j.cost ≤ s.rd (R.BUDG_QUOTA_QUOTA p)))

/-- Check G (R300). -/
def State.accountOk (s : State) (j : Job) : Bool :=
  decide ((if j.isGold then 0 else (s.lim R.BUDG_HRSV_RSV_UJ : Int)) ≤ s.budg.hb - j.cost)

/-- Check H (R306). -/
def State.powerOk (s : State) (j : Job) : Bool :=
  s.lim R.BUDG_CTL_PWR_EN == 0
    || decide (s.lim R.BUDG_PBASE_PIN_BASE + s.pclaim + s.powerClaim j + (if j.isGold then 0 else s.lim R.BUDG_PIN_RSV_MW)
        ≤ s.lim R.BUDG_PIN_PIN_MAX)

/-- Check I (R314): `dp` is the ΔP of the jobs granted earlier in the step. -/
def State.thermalOk (s : State) (j : Job) (dp : Nat) : Bool :=
  let t := s.predict (20 * s.budg.pdiss + dp + s.heatOf j)
  if s.lim R.BUDG_CTL_THM_EN = 0 then true
  else if j.isGold then
    s.budg.tstate != .hard
      && decide (t ≤ s.limS R.BUDG_TLIM_0_TJ_HARD * 2 ^ 28 - (s.lim R.BUDG_TLIM_1_GMARG : Int) * 2 ^ 32)
  else s.budg.tstate == .normal && decide (t ≤ s.limS R.BUDG_TLIM_0_TJ_SOFT * 2 ^ 28)

/-- Units of the result slot (R21). -/
def slotUnits (d : Decl) : Nat := 1 + ceilDiv d.maxpay 16

/-- Check J (R21): the receipt unit is already reserved. -/
def State.slotOk (s : State) (j : Job) (d : Decl) : Bool := decide (slotUnits d - j.units ≤ s.ringFree j.ringNo)

/-- Rank of a class: 0 is GOLD. -/
def JobClass.rank : JobClass → Nat
  | .gold => 0 | .silver => 1 | .bronze => 2 | .iron => 3

/-- A claim excludes a job: another's, of the job's class or a higher one (R188). -/
def Claim.excludes (c : Claim) (j : Job) : Bool := c.job != some j.id && decide (c.cls.rank ≤ j.cls)

/-- Check K for one channel (R318, R419). -/
def State.chanFree (s : State) (j : Job) (n : Nat) : Bool :=
  s.unheld n && !bitOf s.pmb.rail.toNat n && ((s.claimOf n).map fun c => c.excludes j) != some true

/-- The number of the first check of C to K that a head fails, counting A as 1; 0 when it passes all. -/
def State.failing (s : State) (j : Job) (d : Decl) (dp : Nat) : Nat :=
  let chs := maskList j.chmask
  if !chs.all fun n => bitOf s.gate.openRec.toNat (8 * j.cls + n.val) then 3
  else if !chs.all fun n => fitsWindow (s.remaining j.cls n.val s.nt) (d.wcx * 1000) then 4
  else if !s.shaperOk j then 5
  else if !s.quotaOk j then 6
  else if !s.accountOk j then 7
  else if !s.powerOk j then 8
  else if !s.thermalOk j dp then 9
  else if !s.slotOk j d then 10
  else if !chs.all fun n => s.chanFree j n.val then 11
  else 0

/-! ## Outcomes of the checks (R188, R189, R276, R319, R320) -/

/-- Each channel of a head is free of claims that a claim of the head may not replace. -/
def State.mayClaim (s : State) (j : Job) : Bool :=
  (maskList j.chmask).all fun n =>
    match s.claimOf n.val with
    | none => true
    | some c => c.job == some j.id || decide (j.cls < c.cls.rank)

/-- No channel of a head carries another's claim. -/
def State.noClaims (s : State) (j : Job) : Bool :=
  (maskList j.chmask).all fun n => match s.claimOf n.val with | none => true | some c => c.job == some j.id

/-- The head holds a claim on all its channels already. -/
def State.hasClaim (s : State) (j : Job) : Bool :=
  (maskList j.chmask).all fun n => (s.claimOf n.val).bind (fun c => c.job) == some j.id

/-- A head claims its channels; a claim of a swarm head that passes all but check K counts when it is placed (R188, R189,
R320). -/
def State.placeClaim (s : State) (j : Job) (k : Nat) (gold : Bool) : State :=
  let s1 := s.claimAll j.chmask { job := some j.id, cls := classOf j.cls, gold := gold }
  if j.swarm && k == 11 && !s.hasClaim j then s1.bump R.SWARM_CNT_1_N_CLAIM else s1

/-- The head holds a claim of R320. -/
def State.hasGoldClaim (s : State) (j : Job) : Bool :=
  s.hasClaim j && (maskList j.chmask).any fun n => ((s.claimOf n.val).map fun c => c.gold) == some true

/-- Claims after check `k` failed (R188, R189, R320). A claim of R320 lasts through checks C, D and K, also once GOLD_CLAIM
is 0. -/
def State.claimAfter (s : State) (j : Job) (k : Nat) : State :=
  let soft := k == 3 || k == 4 || k == 11
  if soft && j.isGold && s.lim R.BUDG_CTL_GOLD_CLAIM != 0 then (if s.mayClaim j then s.placeClaim j k true else s)
  else if soft && s.hasGoldClaim j then s
  else if k = 11 then (if j.swarm && !s.hasClaim j && s.noClaims j then s.placeClaim j k false else s)
  else s.unclaim j.id

/-- Check B fails: no head passes it, so every claim of a head ends (R189, R320, R327). DEDUCED, log entry 76. -/
def State.closedClaims (s : State) : State :=
  s.each (List.range 8) fun s n => if ((s.claimOf n).bind fun c => c.job).isSome then s.setClaim n none else s

/-- The counter of a failed check, if it has one. -/
def State.countFail (s : State) (j : Job) (k : Nat) : State :=
  match k with
  | 6 => s.bump (R.BUDG_QCNT_N_QDEFER j.port.val)
  | 7 => s.modBudg fun b => { b with nAcct := b.nAcct + 1 }
  | 8 => s.modBudg fun b => { b with nPwr := b.nPwr + 1 }
  | 9 => s.modBudg fun b => { b with nThm := b.nThm + 1 }
  | 10 => s.bump (R.RES_CNT_N_FULL j.ringNo)
  | _ => s

/-- ELIG after a head that came to check E (R276). -/
def State.showElig (s : State) (j : Job) (k : Nat) : State :=
  if k = 3 ∨ k = 4 then s else s.modQu j.queue fun u => { u with elig := k != 5 }

/-- A head is granted: every item is taken at once (R319). -/
def State.grant (s : State) (j : Job) (d : Decl) : State :=
  let shen := (s.qu j.queue).shen
  let s1 := (s.reserveUnits j.ringNo (slotUnits d - j.units)).modJob j.id fun k => { k with
    state := .granted, mask := k.chmask, units := max k.units (slotUnits d), decl := d, ntStart := s.ntUs
    claim := s.powerClaim j, shaped := shen, remain := k.cost }
  let s2 := s1.addHb (-(j.cost : Int))
  let s3 := if shen then s2.addBal j.queue (-(j.cost : Int)) else s2
  ((s3.bump (R.SCHED_QCNT_N_ADMIT j.queue)).unclaim j.id).suspendCards j.chmask

/-- Step 7 in progress: ΔP granted so far in 0.05 mW, the last deferral, and whether a job was granted. -/
structure Admission where
  s : State
  dp : Nat := 0
  lastQ : Nat := 0
  lastK : Nat := 0
  any : Bool := false

/-- One head with checks C to K: the queue, when it is granted. -/
def Admission.consider (a : Admission) (j : Job) : Admission × Bool :=
  let d := a.s.declOf j
  let k := a.s.failing j d a.dp
  let s1 := a.s.showElig j k
  if k = 0 then ({ a with s := s1.grant j d, dp := a.dp + a.s.heatOf j, any := true }, true)
  else ({ a with s := (s1.countFail j k).claimAfter j k, lastQ := j.queue, lastK := k }, false)

/-- The heads of one class in order; RR rotates past the first grant (R273). -/
def Admission.serveClass (a : Admission) (c : Nat) (heads : List Job) : Admission :=
  let step (x : Admission × Option Nat) (j : Job) : Admission × Option Nat :=
    match x.1.consider j with
    | (b, true) => (b, some (x.2.getD j.queue))
    | (b, false) => (b, x.2)
  match heads.foldl step (a, none) with
  | (b, none) => b
  | (b, some q) => { b with s := { b.s with rr := b.s.rr.setIfInBounds c ((q + 1) % 64) } }

/-- The queue heads of a class in the order of R273. -/
def State.headsOf (s : State) (c : Nat) : List Job :=
  let r := s.rr.toList.getD c 0
  (((List.range 64).map fun i => (r + i) % 64).filter fun q => s.rd (R.SCHED_QCFG_CLASS q) == c).filterMap s.headOf

/-- Check A of the heads of a class: those that expire are posted, the others remain (R318). -/
def State.expireClass (s : State) (heads : List Job) : State × List Job :=
  heads.foldl (fun x j => match x.1.expiry j with
    | none => (x.1, x.2 ++ [j])
    | some rc => (x.1.postReceipt j rc, x.2)) (s, [])

/-- Check A for every class in turn. -/
def State.expireAll (s : State) : State × List (Nat × List Job) :=
  let all := [0, 1, 2, 3].map fun c => (c, s.headsOf c)
  all.foldl (fun x h => let r := x.1.expireClass h.2; (r.1, x.2 ++ [(h.1, r.2)])) (s, [])

/-- Checks C to K of the remaining heads (R273, R318, R319). -/
def State.admitHeads (s : State) (heads : List (Nat × List Job)) : State :=
  let a := heads.foldl (fun (a : Admission) h => a.serveClass h.1 h.2) { s := s }
  let s1 := (a.s.wr R.BUDG_ADM_QUEUE a.lastQ).wr R.BUDG_ADM_CHECK a.lastK
  if a.any then s1.railRaise else s1

/-- Step 7 (R273, R318 to R320, R481). -/
def State.step7 (s : State) : State :=
  let (s1, heads) := s.serveMaint.expireAll
  if s1.admissionOpen then s1.admitHeads heads else s1.closedClaims.admitHeads []

/-! ## Step 8: dispatch (R11, R186, R196, R217) -/

/-- The fault that the first instruction of a swarm job takes (R186, R196, R245). -/
def State.swarmFault (s : State) (j : Job) (g : Option (Fin 4)) : Option Byte :=
  if !j.swarm then none
  else
    match g with
    | none => some 13
    | some g =>
      if !j.decl.swarmOk then some 14
      else if !s.patOk (s.rd (R.SWARM_GCFG_PAT_DEF g.val)) j.mask then some 8
      else none

/-- General registers at dispatch (R217). -/
def Job.startRegs (j : Job) : Vector Word 8 :=
  #v[j.word 4, j.word 5, if j.plen = 0 then 0 else j.word 6, BitVec.ofNat 32 j.plen, j.ntStart, j.chmask.setWidth 32,
    BitVec.ofNat 32 (if j.swarm then 0 else j.coil), 0]

/-- The fault that the first instruction of a job takes: of a swarm job, or the parameter error of a ROM routine (R245, R253). -/
def State.firstFault (s : State) (j : Job) (g : Option (Fin 4)) : Option Byte :=
  (s.swarmFault j g).orElse fun _ => if s.romBad j then some 15 else none

/-- The sequencer of the lead as a dispatch sets it (R217, R242). -/
def Job.startSeq (j : Job) (old : Seq) (zero : Bool) (detail : BitVec 16) (f : Option Byte) : Seq :=
  { g := j.startRegs, pc := j.decl.entry, scratch := if zero then [] else old.scratch, detail := detail, ypend := true
    run := .run, firstFault := f }

/-- A channel of a job that is dispatched: its FIFOs, events and contexts clear (R107, R111, R115). -/
def Chan.clearFor (c : Chan) (ctl : BitVec 16) : Chan :=
  { c with txf := {}, rxf := {}, ev := none, txReq := none, txNow := none, lastExch := none, swTarget := none, muted := false, w := 0,
           settleTicks := 0, inv := { ctl0 := ctl } }

/-- One granted job starts. -/
def State.dispatch (s : State) (j : Job) : State :=
  let n := j.lead
  let g := if j.swarm then s.groupOf j.mask else none
  let f := s.swarmFault j g
  let ctl : BitVec 16 := (s.rdWord R.INV_CTL).setWidth 16
  let (detail, s0) := s.takeFresh Config.initialDetail
  let s1 := s0.each (maskList j.mask) fun s m => s.modCh m.val fun c => c.clearFor ctl
  let s1' := s1.modSeq n fun q => j.startSeq q (s.isOn (R.CSQ_CTL_ZERO_LOCAL n)) detail (s.firstFault j g)
  let s2 := if s.firstFault j g = none then s1'.modWrite j fun w => w else s1'
  let s3 := (s2.modJob j.id fun k => { k with state := .running, group := g }).wr (R.CSQ_STAT_SRC n) j.decl.src.toNat
  let s4 := s3.wr (R.CSQ_STAT_ROUTINE n) j.routine
  match g, f with
  | some k, none => (s4.takePattern (s.rd (R.SWARM_GCFG_PAT_DEF k.val)) j.mask).railRaise
  | _, _ => s4

/-- A sequencer that is blocked when step 8 ends clears YPEND (R242). -/
def Seq.stepEight (q : Seq) : Seq :=
  match q.run with
  | .blocked _ => { q with ypend := false }
  | .idle | .run => q

/-- Step 8. -/
def State.step8 (s : State) : State :=
  let s1 := s.each (s.jobs.filter fun j => j.state == .granted) fun s j => s.dispatch j
  s1.each (List.range 8) fun s n => s.modSeq n Seq.stepEight

/-! ## The boundary -/

/-- A new BEAT_US takes force at a boundary that is a multiple of it (R9); the beats that exchanges reserve from here on are of
the new period (R17). -/
def State.switchBeat (s : State) : State :=
  let us := s.rd R.TIME_BEAT_BEAT_US
  if us ≠ 0 ∧ s.nt % (us * 1000) = 0 then
    ({ s with time := { s.time with beatUs := us } } : State).each (List.range 8) fun t n => t.modCh n fun c =>
      if us * 1000 = s.beatNs then c else c.regrid s.nt s.nt s.beatNs (us * 1000) c.busyEnd
  else s

/-- Steps 2 to 8 (R10). -/
def laterSteps : List (State → State) :=
  [State.step2, State.step3, State.step4, State.compareWatch, State.step6, State.step7, State.step8]

/-- A boundary of which `k` steps end before the next one comes. When `k` is less than 8 it is a beat overrun: the step in
progress is completed, and the rest is not run (R10, R13). -/
def State.boundary (s : State) (k : Nat) : State :=
  let s2 := (laterSteps.take k).foldl (fun s f => f s) s.step1.switchBeat
  if k < 8 then (s2.bump R.DIAG_CNT_0_N_BKOVR).notifyAll 6 else s2

/-- A multiple of the beat is reached in RUN after start-up. -/
def State.atBeat (s : State) (nt : BitVec 64) : Bool :=
  s.up && s.pwr.state == .run && s.ntRuns && nt.toNat % s.beatNs == 0 && decide (s.nt ≤ nt.toNat)

/-- BEAT_BOUNDARY (R9 to R13). After a wake the first one falls after LOCK. -/
def execBeatBoundary (nt : BitVec 64) (steps : Nat) (s : State) : Host.Outcome State Fault Refusal :=
  if s.atBeat nt && decide (s.time.minNt ≤ nt) && (!s.pwr.preBoundary || s.locked) then
    let s1 := (s.advanceTo nt).modPwr fun p => { p with preBoundary := false }
    .next ({ s1 with time := { s1.time with minNt := nt + 1 } }.boundary steps)
  else .next s

/-- HOLD_SWEEP: after a wake and before the first boundary, heads that timed out on LOCK are posted (R73). -/
def execHoldSweep (nt : BitVec 64) (s : State) : Host.Outcome State Fault Refusal :=
  if s.atBeat nt && s.pwr.preBoundary then
    let s1 := s.advanceTo nt
    let heads := ((List.range 64).filterMap s1.headOf).filter fun j => s1.heldOut j
    .next (s1.each heads fun s j => s.postReceipt j rcSynTimeout)
  else .next s

end Sys2Proof.Machine
end

