-- ==== Sys2Proof/Machine/SeqCode.lean ====
section
/-!
DEFINITION. The instruction words of the channel sequencers (R219 to R225, R231, R237): the halfword of each
instruction, and which halfwords are defined.
-/

namespace Sys2Proof.Machine

/-- Format with a register in [11:9], one in [8:6] and a function in [5:0]. -/
def regsWord (major a b fn : Nat) : Nat := major * 2 ^ 12 + a * 2 ^ 9 + b * 2 ^ 6 + fn

/-- Format with eight bits in [7:0] and a function or condition in [11:8]. -/
def byteWord (major fn imm : Nat) : Nat := major * 2 ^ 12 + fn * 2 ^ 8 + imm

/-- Halfword of an instruction of group SYS. -/
def sysWord (sub ra : Nat) : Nat := sub * 2 ^ 6 + ra * 2 ^ 3

/-- Halfword of FCTL (R222). -/
def fctlWord (rx : Bool) (op : Nat) : Nat := regsWord 0xA 0 5 (32 * rx.toNat + op)

/-- Immediate and memory instructions, and control flow, as halfwords. -/
def codeWord : Instr → Option Nat
  | .seqNop _ => some (sysWord 0 0)
  | .yield _ => some (sysWord 1 0)
  | .ret _ => some (sysWord 2 0)
  | .seqFault _ => some (sysWord 3 0)
  | .wait _ ra => some (sysWord 4 ra.val)
  | .time _ ra => some (sysWord 5 ra.val)
  | .jr _ ra => some (sysWord 6 ra.val)
  | .movi _ rd imm => some (0x1000 + rd.val * 2 ^ 9 + imm.toNat)
  | .movx _ rd imm => some (0x2000 + rd.val * 2 ^ 9 + imm.toNat)
  | .mov _ rd rs => some (regsWord 3 rd.val rs.val 0)
  | .add _ rd rs => some (regsWord 3 rd.val rs.val 1)
  | .sub _ rd rs => some (regsWord 3 rd.val rs.val 2)
  | .and _ rd rs => some (regsWord 3 rd.val rs.val 3)
  | .or _ rd rs => some (regsWord 3 rd.val rs.val 4)
  | .xor _ rd rs => some (regsWord 3 rd.val rs.val 5)
  | .shl _ rd rs => some (regsWord 3 rd.val rs.val 6)
  | .shr _ rd rs => some (regsWord 3 rd.val rs.val 7)
  | .asr _ rd rs => some (regsWord 3 rd.val rs.val 8)
  | .mul _ rd rs => some (regsWord 3 rd.val rs.val 9)
  | .cmp _ rd rs => some (regsWord 3 rd.val rs.val 10)
  | .tst _ rd rs => some (regsWord 3 rd.val rs.val 11)
  | .not _ rd rs => some (regsWord 3 rd.val rs.val 12)
  | .addi _ rd imm => some (regsWord 4 rd.val 0 imm.toNat)
  | .subi _ rd imm => some (regsWord 4 rd.val 1 imm.toNat)
  | .shli _ rd imm => some (regsWord 4 rd.val 2 imm.toNat)
  | .shri _ rd imm => some (regsWord 4 rd.val 3 imm.toNat)
  | .btst _ rd bit => some (regsWord 4 rd.val 4 bit.toNat)
  | .bset _ rd bit => some (regsWord 4 rd.val 5 bit.toNat)
  | .bclr _ rd bit => some (regsWord 4 rd.val 6 bit.toNat)
  | .cmpi _ rd imm => some (regsWord 4 rd.val 7 imm.toNat)
  | .beq _ ofs => some (byteWord 5 0 ofs.toNat)
  | .bne _ ofs => some (byteWord 5 1 ofs.toNat)
  | .blo _ ofs => some (byteWord 5 2 ofs.toNat)
  | .bhs _ ofs => some (byteWord 5 3 ofs.toNat)
  | .blt _ ofs => some (byteWord 5 4 ofs.toNat)
  | .bge _ ofs => some (byteWord 5 5 ofs.toNat)
  | .bmi _ ofs => some (byteWord 5 6 ofs.toNat)
  | .bpl _ ofs => some (byteWord 5 7 ofs.toNat)
  | .jmp _ ofs => some (0x6000 + ofs.toNat)
  | .call _ ofs => some (0x7000 + ofs.toNat)
  | .ld _ rd rs size off => some (regsWord 8 rd.val rs.val (16 * size.val + off.toNat))
  | .st _ r rs size off => some (regsWord 9 r.val rs.val (16 * size.val + off.toNat))
  | .pushb _ r => some (regsWord 0xA r.val 0 0)
  | .pushw _ r => some (regsWord 0xA r.val 1 0)
  | .popb _ r => some (regsWord 0xA r.val 2 0)
  | .popw _ r => some (regsWord 0xA r.val 3 0)
  | .peek _ r imm => some (regsWord 0xA r.val 4 imm.toNat)
  | .fctlMark _ rx => some (fctlWord rx 0)
  | .fctlRewind _ rx => some (fctlWord rx 1)
  | .fctlRelease _ rx => some (fctlWord rx 2)
  | .fctlDrop _ rx => some (fctlWord rx 3)
  | .avail _ r rx => some (regsWord 0xA r.val 6 rx.toNat)
  | .poph _ r => some (regsWord 0xA r.val 7 0)
  | .fon _ => some (regsWord 0xB 0 0 0)
  | .foff _ => some (regsWord 0xB 0 0 1)
  | .ant _ rs => some (regsWord 0xB 0 rs.val 2)
  | .pwr _ rs => some (regsWord 0xB 0 rs.val 3)
  | .tx _ rs => some (regsWord 0xB 0 rs.val 4)
  | .rx _ rd => some (regsWord 0xB rd.val 0 5)
  | .xch _ rd rs => some (regsWord 0xB rd.val rs.val 6)
  | .rxto _ rs => some (regsWord 0xB 0 rs.val 7)
  | .rawb _ rs => some (regsWord 0xB 0 rs.val 8)
  | .pat _ rs => some (regsWord 0xB 0 rs.val 9)
  | .txst _ rd => some (regsWord 0xB rd.val 0 10)
  | .invo _ ra rb => some (regsWord 0xC ra.val rb.val 0)
  | .invs _ rd => some (regsWord 0xC rd.val 0 1)
  | .inve _ rd => some (regsWord 0xC rd.val 0 2)
  | .sigq _ ra rb => some (regsWord 0xC ra.val rb.val 3)
  | .resq _ ra => some (regsWord 0xC ra.val 0 4)
  | .cryw _ => some (regsWord 0xC 0 0 5)
  | .cryr _ rd rs => some (regsWord 0xC rd.val rs.val 6)
  | .outb _ r => some (regsWord 0xD r.val 0 0)
  | .outh _ r => some (regsWord 0xD r.val 0 1)
  | .outw _ r => some (regsWord 0xD r.val 0 2)
  | .outrec _ r => some (regsWord 0xD r.val 0 3)
  | .outsum _ => some (regsWord 0xD 0 0 4)
  | .post _ r => some (regsWord 0xD r.val 0 5)
  | .det _ r => some (regsWord 0xD r.val 0 6)
  | .endr _ r => some (regsWord 0xD r.val 0 7)
  | .olen _ r => some (regsWord 0xD r.val 0 8)
  | .pushi _ imm => some (byteWord 0xE 0 imm.toNat)
  | .outi _ imm => some (byteWord 0xE 1 imm.toNat)
  | .waitus _ imm => some (byteWord 0xE 2 imm.toNat)
  | .airt _ imm => some (byteWord 0xE 3 imm.toNat)
  | .airr _ imm => some (byteWord 0xE 4 imm.toNat)
  | .endJob _ rc => some (byteWord 0xE 5 rc.toNat)
  | .deti _ imm => some (byteWord 0xE 6 imm.toNat)
  | .pati _ imm => some (byteWord 0xE 7 imm.toNat)
  | _ => none

/-- The halfword is an instruction (R219): major group, function, field values, and fields that must be 0. An unused
field counts as reserved; DEDUCED, log entry 28. -/
def definedWord (w : Nat) : Bool :=
  let a := bitsOf w 9 3
  let b := bitsOf w 6 3
  let lo := bitsOf w 0 6
  match w / 2 ^ 12 with
  | 0x0 => bitsOf w 0 3 == 0 && bitsOf w 6 6 ≤ 6 && (4 ≤ bitsOf w 6 6 || bitsOf w 3 3 == 0)
  | 0x1 | 0x2 | 0x6 | 0x7 => true
  | 0x3 => lo ≤ 12
  | 0x4 => lo < 32 || b == 0 || b == 1 || b == 7
  | 0x5 => bitsOf w 8 4 ≤ 7
  | 0x8 | 0x9 => lo < 48
  | 0xA =>
    if b = 4 then true
    else if b = 5 then a == 0 && bitsOf w 2 3 == 0
    else if b = 6 then lo ≤ 1
    else lo == 0
  | 0xB =>
    let usesA := lo == 5 || lo == 6 || lo == 10
    let usesB := lo == 2 || lo == 3 || lo == 4 || lo == 6 || lo == 7 || lo == 8 || lo == 9
    lo ≤ 10 && (usesA || a == 0) && (usesB || b == 0)
  | 0xC => lo ≤ 6 && (lo != 5 || a == 0) && (lo == 0 || lo == 3 || lo == 6 || b == 0)
  | 0xD => lo ≤ 8 && b == 0 && (lo != 4 || a == 0)
  | 0xE =>
    let fn := bitsOf w 8 4
    fn ≤ 7 && (fn != 3 || bitsOf w 7 1 == 0) && (fn != 4 || bitsOf w 6 2 == 0)
  | _ => false

end Sys2Proof.Machine
end

