-- ==== Sys2Proof/Machine/RomCode.lean ====
section
/-!
DEFINITION. What the code of a ROM routine does not do (R101, R142, R143, R163, R164, R169, R170, R172 to R178, R253 to R258). The
code of the ROM is not in the manual, so any command may name its next instruction; one that the rules exclude is not
the next instruction. DEDUCED, log entry 29.
-/

namespace Sys2Proof.Machine

/-! ## Frames -/

/-- GUARD has passed since the field entered ON, or the first command has been sent (R253); a sweep waits so at each position. -/
def State.guardPassed (s : State) (n : Nat) (j : Job) : Bool :=
  (j.rom.firstNt.isSome && (j.routine != 0x028 || j.rom.cmdVisit == j.rom.visits))
    || (match (s.ch n).onNt with | none => false | some t => decide (t.toNat + j.guardNs ≤ s.nt))

/-- Air configuration of a ROM routine: TXMODE and RXMODE (R224, R254, R257). RATE is ignored for ISO/IEC 14443 A. -/
def State.romAir (s : State) (j : Job) : Nat × Nat :=
  let rate := s.romRate j
  if s.romIsV j then (8 + (s.mod100 j).toNat, 8 + rate)
  else if j.isInventory && s.romProto j == 1 then (4 + rate, 4 + rate)
  else (0, 0)

/-- The air configuration in force is that of the routine. -/
def State.inRomAir (s : State) (n : Nat) (j : Job) : Bool :=
  ((s.ch n).seq.txMode.toNat, (s.ch n).seq.rxMode.toNat) == s.romAir j

/-- CRC kind of the frames of the routine's tag (R96). -/
def State.romCrc (s : State) (j : Job) : Nat := if s.romIsV j then 3 else 1

/-- A frame that an inventory routine sends itself: a signature read or a token read of the tag at hand (R256). For
ISO/IEC 14443 A the tag is selected; for ISO/IEC 14443 B none is given. -/
def State.inventoryFrame (s : State) (n : Nat) (j : Job) (f : List Byte) : Bool :=
  let c := (s.ch n).inv
  !j.rom.check.id.isEmpty && (s.romProto j != 0 || (c.phase == .aSighted && (!c.ident || c.asSelect))) && s.romProto j != 1
    && (s.ch n).seq.txCrc.toNat == s.romCrc j && s.inRomAir n j
    && (match s.romSend j f with | .sig | .token => true | _ => false)

/-- W4 of the block at hand has come to its end (R172). -/
def WriteCtx.w4Over (w : WriteCtx) (j : Job) (retry : Nat) : Bool := !w.w4Due j || (w.vfy == 2 && decide (retry < w.reads))

/-- The signature that a write routine asks for first has come out well (R164). -/
def Job.verified (j : Job) : Bool := !j.reqSig || j.sigValid

/-- The signature and the resolution that a write routine asks for first have come out well (R164, R169). -/
def Job.cleared (j : Job) : Bool := j.verified && (!j.reqRes || j.tokResolved)

/-- The frame reads data of the tag that are neither its signature nor its token. -/
def State.readsData (s : State) (j : Job) (f : List Byte) : Bool :=
  (match s.romSend j f with | .sig | .token => false | _ => true)
    && ((classifyFrame (s.tagKind j) f).frame == .read || readsBlocks (s.tagKind j) f)

/-- A frame that a ROM write routine sends (R164, R169, R170, R172 to R177). -/
def State.writerFrame (s : State) (n : Nat) (j : Job) (f : List Byte) (bits : Nat) : Bool :=
  let w := j.write
  let kind := s.tagKind j
  let retry := s.retryOf j
  let opened := s.w3Open j
  let v := w.nextBlock
  let x := s.writeCmd j f
  (s.ch n).seq.cont == (w.eofDue || opened) && (j.verified || !s.readsData j f) &&
    (if bits = 0 then w.eofDue && decide (w.endNt + 1000000 * s.w2maxMs j ≤ s.nt)
     else if w.eofDue then false
     else
      match x.frame with
      | .w1 => !opened && v.rc.isNone && v.step == 0 && w.w4Over j retry && j.cleared && (kind != 2 || j.rom.filed)
          && (!j.preRead || (v.preHere && v.block == x.block))
          && (kind != 1 || s.headV j j.opt1 f) && ((s.wantAt j v x.block x.data.length).map fun t => fitsWant t x.data) == some true
      | .again => opened && w.rc.isSome
      | .wtx => !(w.cur == .w1) || (opened && w.rc.isNone)
      | .read =>
        !opened && (if w.w4Due j then x.block == w.block && decide (w.reads ≤ retry)
          else if w.unsettled then
            w.closed && s.retryLive j && x.block == w.block && decide (max w.closeNt w.probeNt + j.probeNs ≤ s.nt)
              && (kind == 1 || w.woken == 2)
          else v.rc.isNone && v.step == 0 && (j.routine == 0x035 || (j.preRead && s.dueAt j v == some x.block)))
      | .none | .eof => !opened)

/-- A read of blocks of 0x022: the next of the COUNT blocks from BLOCK on, at most RETRY times again (R258); or a read of 0x034, from
BLOCK on. -/
def State.readFrame (s : State) (j : Job) (f : List Byte) : Bool :=
  let x := classifyFrame (s.tagKind j) f
  let at' := if readsBlocks (s.tagKind j) f then (f.getD 10 0).toNat else x.block
  let n := if readsBlocks (s.tagKind j) f then (f.getD 11 0).toNat + 1 else 1
  if j.routine = 0x022 then
    !j.rom.refused && at' == j.romBlock + j.rom.nread && decide (j.rom.nread + n ≤ j.romCount) && decide (j.rom.tries ≤ bitsOf j.pw1 0 8)
  else j.routine == 0x034 && decide (j.romBlock ≤ at')

/-- A frame that wakes, halts or singles out tags of ISO/IEC 14443 A. -/
def activates (f : List Byte) : Bool := deselects f || f.headD 0 == 0x93 || f.headD 0 == 0x95 || f.headD 0 == 0x97

/-- A frame of a single-tag routine that asks no data of the tag: activation, the blocks of ISO/IEC 14443-4 that carry no command, the
CC file of Type 4, and the commands of ISO/IEC 15693 that find, select and quiet tags. -/
def plainFrame (kind : Nat) (f : List Byte) : Bool :=
  if kind = 1 then [0x01, 0x02, 0x25, 0x26, 0x2B].contains (f.getD 1 0)
  else if kind = 0 then activates f
  else
    match iBlockBody f with
    | some b => b[1]? == some 0xB0
    | none => activates f || f.headD 0 == 0xE0 || bitOf (f.headD 0).toNat 7

/-- A frame of a single-tag routine is one that its kind and routine allow: a signature or a token read where they are asked for, a
read of blocks or of a file, W1 of a write routine, and what finds the tag (R256 to R258). -/
def State.tagFrame (s : State) (j : Job) (f : List Byte) : Bool :=
  let kind := s.tagKind j
  match s.romSend j f with
  | .sig | .token => true
  | .read => j.isWriter || s.readFrame j f
  | .pick | .file | .otherFile => true
  | .other =>
    (j.isWriter && (classifyFrame kind f).frame == .w1) || (j.routine != 0x022 && plainFrame kind f)

/-- A frame that a ROM routine sends: an FSDI of at most 0xA (R106), no block to a card whose FWI is above the cap (R95), in
the air configuration and with the CRC of its kind, to a tag that is selected, and what its routine owes. -/
def State.romFrame (s : State) (n : Nat) (j : Job) (f : List Byte) (bits : Nat) : Bool :=
  if j.isInventory then s.inventoryFrame n j f
  else
    let kind := s.tagKind j
    let x := s.writeCmd j f
    let block := kind == 2 && (iBlockBody f).isSome
    let asks := block || x.frame != .none || s.romSend j f != .other
    let capped := block && (j.rom.fwi.map fun k => decide ((s.payByte j 15).toNat % 16 < k)) == some true
    let selects := kind != 1 && f.getD 1 0 == 0x70 && (f.headD 0 == 0x93 || f.headD 0 == 0x95 || f.headD 0 == 0x97)
    s.inRomAir n j && !(f.headD 0 == 0xE0 && decide (0xB0 ≤ (f.getD 1 0).toNat)) && !capped
      && (!selects || (selectFrames (s.tagId j)).contains f)
      && (!asks || bits == 0 || (s.ch n).seq.txCrc.toNat == s.romCrc j)
      && (!asks || kind == 1 || s.romSend j f == .pick || s.tagSelected j)
      && (kind != 1 || x.frame != .read && !readsBlocks 1 f || s.headV j false f)
      && (if bits = 0 then j.isWriter else s.tagFrame j f) && (!j.isWriter || s.writerFrame n j f bits)

/-! ## Inventories, requests and results -/

/-- INVO configuration of an inventory routine (R232, R254). -/
def State.romCfg (s : State) (j : Job) : Nat :=
  s.romProto j + 4 * j.romWake.toNat + 8 * (s.romSlots16 j).toNat + 16 * j.romPriv.toNat + 32 * (bitOf j.pw0 14).toNat
    + 2 ^ 16 * (if bitOf j.pw0 14 then bitsOf j.pw0 16 8 else 0)

/-- A limit of the inventory has been reached (R257). -/
def State.limitReached (s : State) (j : Job) : Bool := j.rom.limit || s.timeLimit j

/-- INVO of an inventory routine: one inventory, or one at each position of a sweep (R143, R254). A single-tag routine that checks
a signature or resolves a token holds its tag by one (R235). -/
def State.romInvo (s : State) (n : Nat) (j : Job) (ra rb : GReg) : Bool :=
  let q := (s.ch n).seq
  let cfg := (q.getG ra).toNat
  s.inRomAir n j &&
    (if j.isInventory then
      cfg == s.romCfg j && (q.getG rb).toNat == j.pw1 && decide (j.rom.opened < if j.routine = 0x028 then j.rom.visits else 1)
        && !s.limitReached j
     else
      (j.wantsSig || j.wantsTok) && cfg - 4 * bitsOf cfg 2 1 == (if s.romIsV j then 2 else 0) + 16 && (q.getG rb).toNat == 0)

/-- Entry that the sighting at hand has, or comes to have: that of the held one, or the entry sighted with its identifier. -/
def State.entryAtHand (s : State) (n : Nat) (j : Job) : Option Nat :=
  let c := (s.ch n).inv
  match c.held with
  | some h => (match h.result with | some r => r.2 | none => s.findTab h.sight)
  | none => c.sighted.find? fun i => (s.tab i).id == j.rom.check.id

/-- The token of the held sighting did not resolve (R158). -/
def InvCtx.unresolved (c : InvCtx) : Bool := (c.held.map fun h => (h.result.map Prod.fst) == some false) == some true

/-- The token of the held sighting is being resolved. -/
def InvCtx.resolving (c : InvCtx) : Bool := (c.held.map fun h => h.asked && h.result.isNone) == some true

/-- A verification is called for: of an entry with SIG_OK and SIG_BAD at 0, or of every entry with RECHECK (R164). -/
def State.callsSig (s : State) (n : Nat) (j : Job) : Bool :=
  j.recheck || (match s.entryAtHand n j with | some i => !((s.tab i).sigOk || (s.tab i).sigBad) | none => (s.ch n).inv.held.isSome)

/-- The inventory routine still owes the tag at hand a token read and its resolution, or a signature read and its verification
(R158, R163, R164, R254). An ISO/IEC 14443 A tag that is not selected can be asked for neither. -/
def State.checkOwed (s : State) (n : Nat) (j : Job) : Bool :=
  let c := (s.ch n).inv
  let k := j.rom.check
  let reads := match s.romProto j with
    | 0 => c.phase == .aSighted && (!c.ident || c.asSelect)
    | 2 => true
    | _ => false
  let tokOwed := j.romPriv && (!k.tokTried || (k.tok.isSome && !k.resq))
  let sigOwed := j.romSig && !c.unresolved && (c.resolving || (s.callsSig n j && (!k.sigTried || (k.sig.isSome && !k.sigq))))
  j.isInventory && reads && !k.id.isEmpty && !j.rom.checked.contains k.id && !s.limitReached j && (tokOwed || sigOwed)

/-- The identities of the job that have no record yet (R142). -/
def Job.unreported (j : Job) (c : InvCtx) : List TagIdent := c.ids.filter fun x => !j.rom.recorded.contains x

/-- An identity of the job that has no record and no entry any more, or never had one (R142). -/
def State.lostIdent (s : State) (n : Nat) (j : Job) : Option TagIdent :=
  let c := (s.ch n).inv
  (j.unreported c).find? fun x => c.sighted.all fun i => (s.tab i).ident != x

/-- The identity whose record an OUTREC of a ROM inventory emits (R142, R235): that of an entry, that of the held sighting, or one that
has no entry where the register names none. -/
def State.recordKey (s : State) (n : Nat) (j : Job) (v : Nat) : Option TagIdent :=
  let c := (s.ch n).inv
  if v < heldHandle then
    if c.sighted.contains v then some (s.tab v).ident else if s.tabValid v then none else s.lostIdent n j
  else if v ≠ heldHandle then none
  else
    match c.held with
    | none => s.lostIdent n j
    | some h =>
      match h.result with
      | none => if c.phase == .closed && !h.asked then some (identityOf { h.sight with volatile := true }) else none
      | some (_, none) => s.lostIdent n j
      | some (_, some i) => some (s.tab i).ident

/-- A held sighting that END merges has no record yet (R133, R235). -/
def Job.heldUnreported (j : Job) (c : InvCtx) : Bool :=
  match c.held with
  | none => false
  | some h => h.result.isNone && (h.asked || !j.rom.recorded.contains (identityOf { h.sight with volatile := true }))

/-- The failed POST has been retried for PWAIT beats (R257). -/
def State.postOver (s : State) (j : Job) : Bool := decide ((s.payByte j 6).toNat < j.rom.postFails)

/-- The bytes at RD are those that a good read gave. -/
def Chan.holdsRead (c : Chan) (d : List Byte) : Bool :=
  decide (d.length ≤ c.rxf.readable rxSize) && c.rxf.peek rxSize 0 d.length == d

/-- A register of SIGQ or RESQ names the tag of a single-tag job, in the table or held. -/
def State.namesTag (s : State) (n : Nat) (j : Job) (v : Nat) : Bool :=
  if v < heldHandle then
    s.tabValid v && ((s.tab v).id == s.tagId j || (j.tokResolved && v == j.resolvedIndex))
  else v == heldHandle && ((s.ch n).inv.held.map fun h => h.sight.id) == some (s.tagId j)

/-- A signature request of a ROM routine (R158, R163, R164, R256): over the bytes after the flags byte of a good read, and in an
inventory for the tag at hand where a verification is called for. -/
def State.romSigq (s : State) (n : Nat) (j : Job) (v k : Nat) : Bool :=
  let c := s.ch n
  let named :=
    if j.isInventory then
      !c.inv.resolving && s.callsSig n j
        && (if v < heldHandle then s.entryAtHand n j == some v && s.tabValid v else v == heldHandle && c.inv.held.isSome)
    else s.namesTag n j v
  match j.rom.check.sig with
  | none => false
  | some d => j.wantsSig && named && !j.rom.check.sigq && k == min 64 d.length && c.holdsRead (d.take 64)

/-- A resolution request of a ROM routine: over the token that was read of the held tag (R158, R256). -/
def State.romResq (s : State) (n : Nat) (j : Job) : Bool :=
  let c := s.ch n
  match j.rom.check.tok with
  | none => false
  | some d => j.wantsTok && !j.rom.check.resq && c.holdsRead d
      && (c.inv.held.map fun h => h.sight.id) == some (s.readId j)

/-- The last exchange of a single-tag routine has failed, or its own inventory has not found the tag (R101). -/
def State.romFailed (s : State) (n : Nat) (j : Job) : Bool :=
  match j.rom.lastEv with
  | none => decide (0 < j.rom.opened) && (s.ch n).inv.phase == .closed
  | some e => j.rom.refused || (e != 0 && e != 2)

/-- A write routine has nothing left to do (R164, R169, R170, R172, R173, R175 to R177). -/
def State.writerEnds (s : State) (n : Nat) (j : Job) : Bool :=
  let w := j.write
  w.w4Over j (s.retryOf j) && !s.w3Open j && !(w.unsettled && s.retryLive j) && !w.eofDue &&
    (match w.rc with
     | some rc => rc != rcDone || s.allDone j w
     | none => w.step == 0 && (s.romFailed n j || ((j.outcome 1 3).isSome && j.reqSig && !j.sigValid)
        || ((j.outcome 4 5).isSome && j.reqRes && !j.tokResolved) || (j.routine == 0x035 && s.noNdef j)))

/-- An inventory routine has nothing left to do: its inventories are closed, at every position of a sweep, and every identity has
its record, as far as the ring takes them (R133, R142, R255, R257). -/
def State.inventoryEnds (s : State) (n : Nat) (j : Job) : Bool :=
  let c := s.ch n
  c.inv.phase == .closed && c.seq.out.head? == some .summary
    && (s.limitReached j || j.rom.opened == (if j.routine = 0x028 then (s.payByte j 11).toNat else 1))
    && (s.postOver j
      || (!s.mergesDue j.id && (j.unreported c.inv).isEmpty && !j.heldUnreported c.inv && decide (countRecords c.seq.out ≤ j.maxRec)))

/-- END or ENDR of a ROM routine: nothing that its rules owe is left to do. In wind-up it ends at once (R230). -/
def State.romEnds (s : State) (n : Nat) (j : Job) : Bool :=
  (s.ch n).seq.windup ||
    (if j.isInventory then s.inventoryEnds n j
     else if j.isWriter then s.writerEnds n j
     else if j.routine = 0x022 then
      decide (j.romCount ≤ j.rom.nread) || j.rom.refused || (s.romFailed n j && decide (bitsOf j.pw1 0 8 < j.rom.tries))
     else if j.routine = 0x034 then (s.ndefMsg j).isSome || s.noNdef j || s.romFailed n j
     else if j.routine = 0x038 then (j.outcome 1 3).isSome || (j.rom.check.sig.isNone && s.romFailed n j)
     else (j.outcome 4 5).isSome || (j.rom.check.tok.isNone && s.romFailed n j))

/-- An instruction in group RES of an inventory routine, by its function (R142, R143, R257). -/
def State.romResult (s : State) (n : Nat) (j : Job) (fn : Nat) (a : GReg) : Bool :=
  let c := s.ch n
  let recs := countRecords c.seq.out
  match fn with
  | 0 | 1 | 2 => false
  | 3 => c.seq.out.head? == some .summary && decide (recs < 31)
      && ((s.recordKey n j (c.seq.getG a).toNat).map fun x => !j.rom.recorded.contains x) == some true
  | 4 => c.seq.out.isEmpty
  | 5 => !s.postOver j && !j.rom.postTried
      && ((recs == 31 && !(j.unreported c.inv).isEmpty) || (c.inv.phase == .closed && decide (j.maxRec < recs)))
  | _ => true

/-- A position request of a sweep (R255): the next one, the field being OFF and the inventory at the position before it closed. -/
def State.romAnt (s : State) (n : Nat) (j : Job) (v : Nat) : Bool :=
  (s.ch n).inv.phase == .closed && (s.ch n).field == .off && j.rom.opened == j.rom.visits
    && decide (j.rom.visits < (s.payByte j 11).toNat) && v % 16 == 8 + (s.payByte j (12 + j.rom.visits)).toNat

/-- The code of the ROM routine of a job may hold the instruction `w` next. A write routine leaves DETAIL and payload as R179 has them. -/
def State.romMakes (s : State) (j : Job) (w : Nat) : Bool :=
  let n := j.lead
  let q := (s.ch n).seq
  let c := (s.ch n).inv
  let fn := w % 64
  let a : GReg := Fin.ofNat 8 (w / 512 % 8)
  let b : GReg := Fin.ofNat 8 (w / 64 % 8)
  if !j.isRom then true
  else
    match w / 4096 with
    | 0xB =>
      if fn = 4 ∨ fn = 6 then
        let bits := (q.getG b).toNat % 2 ^ 16
        s.guardPassed n j && s.romFrame n j (s.sentBody n j bits) bits
      else if fn = 2 ∧ j.routine = 0x028 then s.romAnt n j (q.getG b).toNat
      else true
    | 0xC =>
      match fn with
      | 0 => s.romInvo n j a b
      | 1 => s.guardPassed n j && !(j.isInventory && c.phase != .ended && s.limitReached j) && !s.checkOwed n j
      | 2 => (!j.isInventory || c.phase == .ended || s.limitReached j) && !s.checkOwed n j
      | 3 => s.romSigq n j (q.getG a).toNat (q.getG b).toNat
      | 4 => s.romResq n j
      | _ => true
    | 0xD =>
      if fn = 7 then s.romEnds n j
      else if j.isInventory then s.romResult n j fn a
      else if j.isWriter then 8 ≤ fn
      else 3 ≤ fn && fn != 5
    | 0xE =>
      match w / 256 % 16 with
      | 1 => !j.isInventory && !j.isWriter
      | 5 => s.romEnds n j
      | 6 => !j.isWriter
      | _ => true
    | _ => true

end Sys2Proof.Machine
end

