-- ==== Sys2Proof/Machine/SeqCore.lean ====
section
/-!
DEFINITION. The frame of every sequencer instruction (R216, R219, R230, R242 to R245): when it executes, what it counts,
which faults its fetch takes, and the operations that the instructions share.
-/

namespace Sys2Proof.Machine

/-! ## Fetch (R219, R245, R250, R251) -/

/-- Byte offset of the instruction at PC, from the store or from the flash window. -/
def Job.codeAt (j : Job) (pc : BitVec 16) : Nat := j.decl.addr + 2 * pc.toNat

/-- Cache line of the instruction at PC. -/
def Job.codeLine (j : Job) (pc : BitVec 16) : Nat := j.codeAt pc / 32

/-- The instruction at PC lies in the code area or in the flash window (FCODE 12). -/
def Job.codeInside (j : Job) (pc : BitVec 16) : Bool :=
  match j.decl.src.toNat with
  | 0 => true
  | 1 => decide (0x6000 ≤ j.codeAt pc) && decide (j.codeAt pc + 2 ≤ 0x20000)
  | _ => decide (j.codeAt pc + 2 ≤ 0x1000000)

/-- The halfword fetched at PC is `w`. The code of the ROM is not in the manual: a ROM routine fetches whatever
instruction the command names, but none that the rules of its catalogue exclude. A flash routine fetches only from a line that the routine cache holds. Log entry 29. -/
def State.fetches (s : State) (j : Job) (pc : BitVec 16) (w : Nat) : Bool :=
  match j.decl.src.toNat with
  | 0 => s.romMakes j w
  | 1 => s.snat (0x140000 + j.codeAt pc) 2 == w
  | _ =>
    match s.flash.cache.find? fun x => x.line == j.codeLine pc with
    | none => false
    | some x => leNat ((x.data.drop (j.codeAt pc % 32)).take 2) == w

/-- A hit makes its line the most recently used one (R251). -/
def State.touchLine (s : State) (j : Job) (pc : BitVec 16) : State :=
  if j.decl.src = 2 then
    let l := j.codeLine pc
    s.modFlash fun f => { f with cache := f.cache.filter (fun x => x.line == l) ++ f.cache.filter fun x => x.line != l }
  else s

/-- The job whose sequencer `n` may execute its next instruction: running, not ended, not blocked. -/
def State.runsOn (s : State) (n : Nat) : Option Job :=
  match s.jobLead n with
  | none => none
  | some j => if j.state == .running && j.ended.isNone && (s.ch n).seq.run == .run then some j else none

/-- A limit on executing holds the sequencer: 2,048 instructions without a yield (R244), or 256 in wind-up (R230). -/
def Seq.spent (q : Seq) : Bool := (q.ypend && decide (2048 ≤ q.ycnt)) || (q.windup && decide (256 ≤ q.windN))

/-- Counts of an executed instruction (R242, R244, R259). -/
def State.countInstr (s : State) (n : Nat) (yields : Bool) : State :=
  let q := (s.ch n).seq
  let y := if q.ypend then q.ycnt + 1 else q.ycnt
  let s1 := s.modSeq n fun q => { q with
    icnt := q.icnt + 1, ycnt := y, ypend := q.ypend && !yields, windN := if q.windup then q.windN + 1 else q.windN }
  if yields then s1.keepMax (R.CSQ_YMAX_YMAX n) y else s1

/-- One instruction of sequencer `n` with halfword `w`. -/
def State.instr (s : State) (n w : Nat) (yields : Bool) (body : State → Job → State) : State :=
  match s.runsOn n with
  | none => s
  | some j =>
    let q := (s.ch n).seq
    if q.spent then s
    else
      match q.firstFault with
      | some f => s.seqFault n f
      | none =>
        if j.decl.src ≠ 0 ∧ j.decl.ninst ≤ q.pc.toNat then s.seqFault n 10
        else if !j.codeInside q.pc then s.seqFault n 12
        else if !s.fetches j q.pc w then s
        else body ((s.touchLine j q.pc).countInstr n yields) j

/-! ## Operations on the registers and flags (R220) -/

/-- An instruction that only changes the sequencer's own registers. -/
def State.pure (s : State) (n w : Nat) (yields : Bool) (g : Seq → Seq) : State :=
  s.instr n w yields fun s _ => s.modSeq n fun q => (g q).resume

/-- Set N and Z by a result. -/
def Seq.setNZ (q : Seq) (v : Word) : Seq := { q with fn := v.msb, fz := v == 0 }

/-- Flags of an addition. -/
def Seq.addFlags (q : Seq) (x y : Word) : Seq :=
  { q.setNZ (x + y) with
    fc := decide (2 ^ 32 ≤ x.toNat + y.toNat), fv := x.msb == y.msb && (x + y).msb != x.msb }

/-- Flags of a subtraction: C is the borrow. -/
def Seq.subFlags (q : Seq) (x y : Word) : Seq :=
  { q.setNZ (x - y) with fc := decide (x.toNat < y.toNat), fv := x.msb != y.msb && (x - y).msb != x.msb }

/-- Write a result and set N and Z by it. -/
def Seq.putNZ (q : Seq) (rd : GReg) (v : Word) : Seq := (q.setNZ v).setG rd v

/-- Add to a register. -/
def Seq.doAdd (q : Seq) (rd : GReg) (y : Word) : Seq := (q.addFlags (q.getG rd) y).setG rd (q.getG rd + y)

/-- Subtract from a register. -/
def Seq.doSub (q : Seq) (rd : GReg) (y : Word) : Seq := (q.subFlags (q.getG rd) y).setG rd (q.getG rd - y)

/-- C after a shift: the last bit shifted out, unchanged for a shift of 0. -/
def Seq.shiftC (q : Seq) (k : Nat) (c : Bool) : Seq := if k = 0 then q else { q with fc := c }

/-- Shift a register left. -/
def Seq.doShl (q : Seq) (rd : GReg) (k : Nat) : Seq :=
  (q.shiftC k (bitOf (q.getG rd).toNat (32 - k))).putNZ rd (q.getG rd <<< k)

/-- Shift a register right, filling with zeros. -/
def Seq.doShr (q : Seq) (rd : GReg) (k : Nat) : Seq :=
  (q.shiftC k (bitOf (q.getG rd).toNat (k - 1))).putNZ rd (q.getG rd >>> k)

/-- Shift a register right, filling with the sign. -/
def Seq.doAsr (q : Seq) (rd : GReg) (k : Nat) : Seq :=
  (q.shiftC k (bitOf (q.getG rd).toNat (k - 1))).putNZ rd ((q.getG rd).sshiftRight k)

/-- Shift amount of a register: bits [4:0]. -/
def Seq.amount (q : Seq) (rs : GReg) : Nat := (q.getG rs).toNat % 32

/-- Branch by an offset in instructions, relative to the next one, when the condition holds. -/
def Seq.branch (q : Seq) (taken : Bool) (ofs : BitVec 16) : Seq := if taken then { q with pc := q.pc + ofs } else q

/-! ## Data space (R218) -/

/-- First address of the local scratch. -/
def localBase : Nat := 0xFFFFFF00

/-- An access of `n` bytes at `a` lies in a range. -/
def inRange (a n lo hi : Nat) : Bool := decide (lo ≤ a) && decide (a + n ≤ hi)

/-- A data access may read (R218). -/
def Job.mayRead (j : Job) (a n : Nat) : Bool :=
  inRange a n 0 0x80000 || inRange a n j.pptr (j.pptr + j.plen) || inRange a n 0x174000 0x180000
    || inRange a n 0x180000 0x200000 || inRange a n localBase (2 ^ 32)

/-- A data access may write (R218). -/
def mayWrite (a n : Nat) : Bool := inRange a n 0x180000 0x200000 || inRange a n localBase (2 ^ 32)

/-- Address of LD and ST. -/
def Seq.dataAddr (q : Seq) (rs : GReg) (size : Fin 3) (off : BitVec 4) : Nat :=
  ((q.getG rs).toNat + off.toNat * 2 ^ size.val) % 2 ^ 32

/-- Value that LD loads. -/
def State.load (s : State) (q : Seq) (a n : Nat) : Nat :=
  if localBase ≤ a then leNat (Memory.bytes q.scratch (a - localBase) n) else s.snat a n

/-- Store of ST. -/
def State.store (s : State) (n a k v : Nat) : State :=
  if localBase ≤ a then s.modSeq n fun q => { q with scratch := Memory.setBytes q.scratch (a - localBase) (leBytes k v) }
  else s.swriteNat a k v

/-! ## FIFO operations (R103, R222) -/

/-- Write bytes to the TX FIFO; beyond free space is FCODE 5. -/
def State.push (s : State) (n : Nat) (bs : List Byte) : State :=
  if (s.ch n).txf.space txSize < bs.length then s.seqFault n 5
  else s.modCh n fun c => { c with txf := c.txf.append bs, seq := c.seq.resume }

/-- Read `k` bytes of the RX FIFO; beyond the readable bytes is FCODE 5. -/
def State.pop (s : State) (n : Nat) (r : GReg) (k : Nat) : State :=
  let f := (s.ch n).rxf
  if f.readable rxSize < k then s.seqFault n 5
  else
    let v := leNat (f.peek rxSize 0 k)
    s.modCh n fun c => { c with rxf := c.rxf.skip rxSize k, seq := (c.seq.setG r (BitVec.ofNat 32 v)).resume }

/-- Apply an operation to the pointers of one FIFO. -/
def State.onFifo (s : State) (n : Nat) (rx : Bool) (g : Fifo → Nat → Fifo) : State :=
  s.modCh n fun c => if rx then { c with rxf := g c.rxf rxSize, seq := c.seq.resume }
    else { c with txf := g c.txf txSize, seq := c.seq.resume }

/-- One of the FIFOs. -/
def Chan.fifo (c : Chan) (rx : Bool) : Fifo := if rx then c.rxf else c.txf

/-- Block the sequencer. -/
def State.block (s : State) (n : Nat) (b : Block) : State := s.modSeq n fun q => { q with run := .blocked b }

/-- An instruction that returns at once in wind-up, with an event where it has one (R230). -/
def State.airBody (n : Nat) (wind : Seq → Seq) (body : State → Job → State) (s : State) (j : Job) : State :=
  if (s.ch n).seq.windup then s.modSeq n wind else body s j

end Sys2Proof.Machine
end

