-- ==== Sys2Proof/Machine/SeqBasic.lean ====
section
/-!
DEFINITION. The sequencer's SYS, arithmetic, branch, memory, FIFO and immediate instructions (R221 to R223).
-/

namespace Sys2Proof.Machine

/-! ## SYS -/

/-- NOP. -/
def execSeqNop (n : Ch) (s : State) : Host.Outcome State Fault Refusal :=
  .next (s.pure n.val (sysWord 0 0) false id)

/-- YIELD (R242). -/
def execYield (n : Ch) (s : State) : Host.Outcome State Fault Refusal :=
  .next (s.pure n.val (sysWord 1 0) true id)

/-- RET: an empty stack is FCODE 3. -/
def execRet (n : Ch) (s : State) : Host.Outcome State Fault Refusal :=
  .next (s.instr n.val (sysWord 2 0) false fun s _ =>
    match (s.ch n.val).seq.stack with
    | [] => s.seqFault n.val 3
    | a :: rest => s.modSeq n.val fun q => { q with pc := a, stack := rest })

/-- FAULT: FCODE 15. -/
def execSeqFault (n : Ch) (s : State) : Host.Outcome State Fault Refusal :=
  .next (s.instr n.val (sysWord 3 0) false fun s _ => s.seqFault n.val 15)

/-- WAIT ra: block for ra[23:0] µs. -/
def execWait (n : Ch) (ra : GReg) (s : State) : Host.Outcome State Fault Refusal :=
  .next (s.instr n.val (sysWord 4 ra.val) true fun s _ => s.block n.val .wait)

/-- WAIT_EXPIRY: the time of WAIT or WAITUS expires. -/
def execWaitExpiry (n : Ch) (s : State) : Host.Outcome State Fault Refusal :=
  .next (s.resumeIf n.val .wait)

/-- TIME ra. -/
def execTime (n : Ch) (ra : GReg) (s : State) : Host.Outcome State Fault Refusal :=
  .next (s.pure n.val (sysWord 5 ra.val) false fun q => q.setG ra s.ntUs)

/-- JR ra. -/
def execJr (n : Ch) (ra : GReg) (s : State) : Host.Outcome State Fault Refusal :=
  .next (s.instr n.val (sysWord 6 ra.val) false fun s _ =>
    s.modSeq n.val fun q => { q with pc := (q.getG ra).setWidth 16 })

/-! ## Moves and arithmetic -/

/-- MOVI rd, s9. -/
def execMovi (n : Ch) (rd : GReg) (imm : BitVec 9) (s : State) : Host.Outcome State Fault Refusal :=
  .next (s.pure n.val (0x1000 + rd.val * 2 ^ 9 + imm.toNat) false fun q => q.setG rd (imm.signExtend 32))

/-- MOVX rd, u9. -/
def execMovx (n : Ch) (rd : GReg) (imm : BitVec 9) (s : State) : Host.Outcome State Fault Refusal :=
  .next (s.pure n.val (0x2000 + rd.val * 2 ^ 9 + imm.toNat) false fun q =>
    q.setG rd ((q.getG rd <<< 9) ||| imm.setWidth 32))

/-- MOV rd, rs. -/
def execMov (n : Ch) (rd rs : GReg) (s : State) : Host.Outcome State Fault Refusal :=
  .next (s.pure n.val (regsWord 3 rd.val rs.val 0) false fun q => q.putNZ rd (q.getG rs))

/-- ADD rd, rs. -/
def execAdd (n : Ch) (rd rs : GReg) (s : State) : Host.Outcome State Fault Refusal :=
  .next (s.pure n.val (regsWord 3 rd.val rs.val 1) false fun q => q.doAdd rd (q.getG rs))

/-- SUB rd, rs. -/
def execSub (n : Ch) (rd rs : GReg) (s : State) : Host.Outcome State Fault Refusal :=
  .next (s.pure n.val (regsWord 3 rd.val rs.val 2) false fun q => q.doSub rd (q.getG rs))

/-- AND rd, rs. -/
def execAnd (n : Ch) (rd rs : GReg) (s : State) : Host.Outcome State Fault Refusal :=
  .next (s.pure n.val (regsWord 3 rd.val rs.val 3) false fun q => q.putNZ rd (q.getG rd &&& q.getG rs))

/-- OR rd, rs. -/
def execOr (n : Ch) (rd rs : GReg) (s : State) : Host.Outcome State Fault Refusal :=
  .next (s.pure n.val (regsWord 3 rd.val rs.val 4) false fun q => q.putNZ rd (q.getG rd ||| q.getG rs))

/-- XOR rd, rs. -/
def execXor (n : Ch) (rd rs : GReg) (s : State) : Host.Outcome State Fault Refusal :=
  .next (s.pure n.val (regsWord 3 rd.val rs.val 5) false fun q => q.putNZ rd (q.getG rd ^^^ q.getG rs))

/-- SHL rd, rs. -/
def execShl (n : Ch) (rd rs : GReg) (s : State) : Host.Outcome State Fault Refusal :=
  .next (s.pure n.val (regsWord 3 rd.val rs.val 6) false fun q => q.doShl rd (q.amount rs))

/-- SHR rd, rs. -/
def execShr (n : Ch) (rd rs : GReg) (s : State) : Host.Outcome State Fault Refusal :=
  .next (s.pure n.val (regsWord 3 rd.val rs.val 7) false fun q => q.doShr rd (q.amount rs))

/-- ASR rd, rs. -/
def execAsr (n : Ch) (rd rs : GReg) (s : State) : Host.Outcome State Fault Refusal :=
  .next (s.pure n.val (regsWord 3 rd.val rs.val 8) false fun q => q.doAsr rd (q.amount rs))

/-- MUL rd, rs: the low 32 bits. -/
def execMul (n : Ch) (rd rs : GReg) (s : State) : Host.Outcome State Fault Refusal :=
  .next (s.pure n.val (regsWord 3 rd.val rs.val 9) false fun q => q.putNZ rd (q.getG rd * q.getG rs))

/-- CMP rd, rs. -/
def execCmp (n : Ch) (rd rs : GReg) (s : State) : Host.Outcome State Fault Refusal :=
  .next (s.pure n.val (regsWord 3 rd.val rs.val 10) false fun q => q.subFlags (q.getG rd) (q.getG rs))

/-- TST rd, rs: the flags of AND. -/
def execTst (n : Ch) (rd rs : GReg) (s : State) : Host.Outcome State Fault Refusal :=
  .next (s.pure n.val (regsWord 3 rd.val rs.val 11) false fun q => q.setNZ (q.getG rd &&& q.getG rs))

/-- NOT rd, rs. -/
def execNot (n : Ch) (rd rs : GReg) (s : State) : Host.Outcome State Fault Refusal :=
  .next (s.pure n.val (regsWord 3 rd.val rs.val 12) false fun q => q.putNZ rd (~~~ (q.getG rs)))

/-- ADDI rd, imm6. -/
def execAddi (n : Ch) (rd : GReg) (imm : BitVec 6) (s : State) : Host.Outcome State Fault Refusal :=
  .next (s.pure n.val (regsWord 4 rd.val 0 imm.toNat) false fun q => q.doAdd rd (imm.setWidth 32))

/-- SUBI rd, imm6. -/
def execSubi (n : Ch) (rd : GReg) (imm : BitVec 6) (s : State) : Host.Outcome State Fault Refusal :=
  .next (s.pure n.val (regsWord 4 rd.val 1 imm.toNat) false fun q => q.doSub rd (imm.setWidth 32))

/-- SHLI rd, imm. -/
def execShli (n : Ch) (rd : GReg) (imm : BitVec 5) (s : State) : Host.Outcome State Fault Refusal :=
  .next (s.pure n.val (regsWord 4 rd.val 2 imm.toNat) false fun q => q.doShl rd imm.toNat)

/-- SHRI rd, imm. -/
def execShri (n : Ch) (rd : GReg) (imm : BitVec 5) (s : State) : Host.Outcome State Fault Refusal :=
  .next (s.pure n.val (regsWord 4 rd.val 3 imm.toNat) false fun q => q.doShr rd imm.toNat)

/-- BTST rd, bit: Z is 1 when the bit is 0. -/
def execBtst (n : Ch) (rd : GReg) (bit : BitVec 5) (s : State) : Host.Outcome State Fault Refusal :=
  .next (s.pure n.val (regsWord 4 rd.val 4 bit.toNat) false fun q =>
    { q with fz := !bitOf (q.getG rd).toNat bit.toNat })

/-- BSET rd, bit. -/
def execBset (n : Ch) (rd : GReg) (bit : BitVec 5) (s : State) : Host.Outcome State Fault Refusal :=
  .next (s.pure n.val (regsWord 4 rd.val 5 bit.toNat) false fun q =>
    q.setG rd (q.getG rd ||| BitVec.ofNat 32 (2 ^ bit.toNat)))

/-- BCLR rd, bit. -/
def execBclr (n : Ch) (rd : GReg) (bit : BitVec 5) (s : State) : Host.Outcome State Fault Refusal :=
  .next (s.pure n.val (regsWord 4 rd.val 6 bit.toNat) false fun q =>
    q.setG rd (q.getG rd &&& ~~~ (BitVec.ofNat 32 (2 ^ bit.toNat))))

/-- CMPI rd, imm6. -/
def execCmpi (n : Ch) (rd : GReg) (imm : BitVec 6) (s : State) : Host.Outcome State Fault Refusal :=
  .next (s.pure n.val (regsWord 4 rd.val 7 imm.toNat) false fun q => q.subFlags (q.getG rd) (imm.setWidth 32))

/-! ## Branches -/

/-- BEQ: Z. -/
def execBeq (n : Ch) (ofs : BitVec 8) (s : State) : Host.Outcome State Fault Refusal :=
  .next (s.pure n.val (byteWord 5 0 ofs.toNat) false fun q => q.branch q.fz (ofs.signExtend 16))

/-- BNE: not Z. -/
def execBne (n : Ch) (ofs : BitVec 8) (s : State) : Host.Outcome State Fault Refusal :=
  .next (s.pure n.val (byteWord 5 1 ofs.toNat) false fun q => q.branch (!q.fz) (ofs.signExtend 16))

/-- BLO: C. -/
def execBlo (n : Ch) (ofs : BitVec 8) (s : State) : Host.Outcome State Fault Refusal :=
  .next (s.pure n.val (byteWord 5 2 ofs.toNat) false fun q => q.branch q.fc (ofs.signExtend 16))

/-- BHS: not C. -/
def execBhs (n : Ch) (ofs : BitVec 8) (s : State) : Host.Outcome State Fault Refusal :=
  .next (s.pure n.val (byteWord 5 3 ofs.toNat) false fun q => q.branch (!q.fc) (ofs.signExtend 16))

/-- BLT: N differs from V. -/
def execBlt (n : Ch) (ofs : BitVec 8) (s : State) : Host.Outcome State Fault Refusal :=
  .next (s.pure n.val (byteWord 5 4 ofs.toNat) false fun q => q.branch (q.fn != q.fv) (ofs.signExtend 16))

/-- BGE: N equals V. -/
def execBge (n : Ch) (ofs : BitVec 8) (s : State) : Host.Outcome State Fault Refusal :=
  .next (s.pure n.val (byteWord 5 5 ofs.toNat) false fun q => q.branch (q.fn == q.fv) (ofs.signExtend 16))

/-- BMI: N. -/
def execBmi (n : Ch) (ofs : BitVec 8) (s : State) : Host.Outcome State Fault Refusal :=
  .next (s.pure n.val (byteWord 5 6 ofs.toNat) false fun q => q.branch q.fn (ofs.signExtend 16))

/-- BPL: not N. -/
def execBpl (n : Ch) (ofs : BitVec 8) (s : State) : Host.Outcome State Fault Refusal :=
  .next (s.pure n.val (byteWord 5 7 ofs.toNat) false fun q => q.branch (!q.fn) (ofs.signExtend 16))

/-- JMP s12. -/
def execJmp (n : Ch) (ofs : BitVec 12) (s : State) : Host.Outcome State Fault Refusal :=
  .next (s.pure n.val (0x6000 + ofs.toNat) false fun q => q.branch true (ofs.signExtend 16))

/-- CALL s12: a ninth return address is FCODE 2. -/
def execCall (n : Ch) (ofs : BitVec 12) (s : State) : Host.Outcome State Fault Refusal :=
  .next (s.instr n.val (0x7000 + ofs.toNat) false fun s _ =>
    if 8 ≤ (s.ch n.val).seq.stack.length then s.seqFault n.val 2
    else s.modSeq n.val fun q => ({ q with stack := (q.pc + 1) :: q.stack }.branch true (ofs.signExtend 16)).resume)

/-! ## Loads and stores (R218) -/

/-- LD rd, [rs + off]: outside R218 or misaligned is FCODE 4. -/
def execLd (n : Ch) (rd rs : GReg) (size : Fin 3) (off : BitVec 4) (s : State) : Host.Outcome State Fault Refusal :=
  .next (s.instr n.val (regsWord 8 rd.val rs.val (16 * size.val + off.toNat)) false fun s j =>
    let q := (s.ch n.val).seq
    let a := q.dataAddr rs size off
    if a % 2 ^ size.val ≠ 0 ∨ !j.mayRead a (2 ^ size.val) then s.seqFault n.val 4
    else s.modSeq n.val fun q => (q.setG rd (BitVec.ofNat 32 (s.load q a (2 ^ size.val)))).resume)

/-- ST r, [rs + off]. -/
def execSt (n : Ch) (r rs : GReg) (size : Fin 3) (off : BitVec 4) (s : State) : Host.Outcome State Fault Refusal :=
  .next (s.instr n.val (regsWord 9 r.val rs.val (16 * size.val + off.toNat)) false fun s _ =>
    let q := (s.ch n.val).seq
    let a := q.dataAddr rs size off
    if a % 2 ^ size.val ≠ 0 ∨ !mayWrite a (2 ^ size.val) then s.seqFault n.val 4
    else (s.store n.val a (2 ^ size.val) (q.getG r).toNat).modSeq n.val Seq.resume)

/-! ## FIFO instructions (R222) -/

/-- PUSHB r. -/
def execPushb (n : Ch) (r : GReg) (s : State) : Host.Outcome State Fault Refusal :=
  .next (s.instr n.val (regsWord 0xA r.val 0 0) false fun s _ =>
    s.push n.val (leBytes 1 ((s.ch n.val).seq.getG r).toNat))

/-- PUSHW r. -/
def execPushw (n : Ch) (r : GReg) (s : State) : Host.Outcome State Fault Refusal :=
  .next (s.instr n.val (regsWord 0xA r.val 1 0) false fun s _ =>
    s.push n.val (leBytes 4 ((s.ch n.val).seq.getG r).toNat))

/-- POPB r. -/
def execPopb (n : Ch) (r : GReg) (s : State) : Host.Outcome State Fault Refusal :=
  .next (s.instr n.val (regsWord 0xA r.val 2 0) false fun s _ => s.pop n.val r 1)

/-- POPW r. -/
def execPopw (n : Ch) (r : GReg) (s : State) : Host.Outcome State Fault Refusal :=
  .next (s.instr n.val (regsWord 0xA r.val 3 0) false fun s _ => s.pop n.val r 4)

/-- POPH r. -/
def execPoph (n : Ch) (r : GReg) (s : State) : Host.Outcome State Fault Refusal :=
  .next (s.instr n.val (regsWord 0xA r.val 7 0) false fun s _ => s.pop n.val r 2)

/-- PEEK r, imm6. -/
def execPeek (n : Ch) (r : GReg) (imm : BitVec 6) (s : State) : Host.Outcome State Fault Refusal :=
  .next (s.instr n.val (regsWord 0xA r.val 4 imm.toNat) false fun s _ =>
    let f := (s.ch n.val).rxf
    if f.readable rxSize ≤ imm.toNat then s.seqFault n.val 5
    else s.modSeq n.val fun q => (q.setG r (BitVec.ofNat 32 (leNat (f.peek rxSize imm.toNat 1)))).resume)

/-- FCTL MARK. -/
def execFctlMark (n : Ch) (rx : Bool) (s : State) : Host.Outcome State Fault Refusal :=
  .next (s.instr n.val (fctlWord rx 0) false fun s _ => s.onFifo n.val rx fun f _ => f.setMark)

/-- FCTL REWIND: no valid mark is FCODE 5 (R103). -/
def execFctlRewind (n : Ch) (rx : Bool) (s : State) : Host.Outcome State Fault Refusal :=
  .next (s.instr n.val (fctlWord rx 1) false fun s _ =>
    if ((s.ch n.val).fifo rx).mvalid then s.onFifo n.val rx fun f _ => { f with rd := f.mark } else s.seqFault n.val 5)

/-- FCTL RELEASE. -/
def execFctlRelease (n : Ch) (rx : Bool) (s : State) : Host.Outcome State Fault Refusal :=
  .next (s.instr n.val (fctlWord rx 2) false fun s _ => s.onFifo n.val rx Fifo.release)

/-- FCTL DROP. -/
def execFctlDrop (n : Ch) (rx : Bool) (s : State) : Host.Outcome State Fault Refusal :=
  .next (s.instr n.val (fctlWord rx 3) false fun s _ => s.onFifo n.val rx Fifo.dropAll)

/-- AVAIL r. -/
def execAvail (n : Ch) (r : GReg) (rx : Bool) (s : State) : Host.Outcome State Fault Refusal :=
  .next (s.instr n.val (regsWord 0xA r.val 6 rx.toNat) false fun s _ =>
    let v := ((s.ch n.val).fifo rx).readable (if rx then rxSize else txSize)
    s.modSeq n.val fun q => (q.setG r (BitVec.ofNat 32 v)).resume)

/-! ## Immediate instructions (R223) -/

/-- PUSHI imm8. -/
def execPushi (n : Ch) (imm : Byte) (s : State) : Host.Outcome State Fault Refusal :=
  .next (s.instr n.val (byteWord 0xE 0 imm.toNat) false fun s _ => s.push n.val [imm])

/-- OUTI imm8. -/
def execOuti (n : Ch) (imm : Byte) (s : State) : Host.Outcome State Fault Refusal :=
  .next (s.pure n.val (byteWord 0xE 1 imm.toNat) false fun q => q.emit (.byte imm))

/-- WAITUS imm8. -/
def execWaitus (n : Ch) (imm : Byte) (s : State) : Host.Outcome State Fault Refusal :=
  .next (s.instr n.val (byteWord 0xE 2 imm.toNat) true fun s _ => s.block n.val .wait)

/-- AIRT imm8: bit 7 is reserved (FCODE 1). -/
def execAirt (n : Ch) (imm : Byte) (s : State) : Host.Outcome State Fault Refusal :=
  .next (s.instr n.val (byteWord 0xE 3 imm.toNat) false fun s _ =>
    if 128 ≤ imm.toNat then s.seqFault n.val 1
    else (s.modSeq n.val fun q => { q.resume with
      txMode := imm.extractLsb' 0 4, txCrc := imm.extractLsb' 4 2, cont := bitOf imm.toNat 6 }).contGone n.val)

/-- AIRR imm8: bits 6 and 7 are reserved (FCODE 1). -/
def execAirr (n : Ch) (imm : Byte) (s : State) : Host.Outcome State Fault Refusal :=
  .next (s.instr n.val (byteWord 0xE 4 imm.toNat) false fun s _ =>
    if 64 ≤ imm.toNat then s.seqFault n.val 1
    else s.modSeq n.val fun q => { q.resume with rxMode := imm.extractLsb' 0 4, rxCrc := imm.extractLsb' 4 2 })

/-- DETI imm8. -/
def execDeti (n : Ch) (imm : Byte) (s : State) : Host.Outcome State Fault Refusal :=
  .next (s.pure n.val (byteWord 0xE 6 imm.toNat) false fun q => { q with detail := imm.setWidth 16 })

/-- UNDEFINED_INSTRUCTION: the halfword fetched is no instruction: FCODE 1 (R219). -/
def execUndefinedInstruction (n : Ch) (w : BitVec 16) (s : State) : Host.Outcome State Fault Refusal :=
  .next (if definedWord w.toNat then s else s.instr n.val w.toNat false fun s _ => s.seqFault n.val 1)

end Sys2Proof.Machine
end

