-- ==== Sys2Proof/Machine/SeqAir.lean ====
section
/-!
DEFINITION. The sequencer's air, engine, CRY and result instructions (R225 to R241), and the events of its limits and of
the routine cache.
-/

namespace Sys2Proof.Machine

/-! ## Air instructions (R225 to R230) -/

/-- Return of an air instruction without an event. -/
def windNone (q : Seq) : Seq := q.resume

/-- A member's field is in FAULT: a field-on request is refused (R49). -/
def State.teamFault (s : State) (n : Nat) : Bool := (s.team n).any fun m => (s.ch m).field == .fault

/-- Position of channel `m` in a group (R183). -/
def State.groupPos (s : State) (g : Nat) (m : Nat) : Nat := getBits (s.rdWord (R.SWARM_GPOS g)) (4 * m) 3

/-- A field-on request waits on every member; in a swarm job the group's positions shift first (R191, R226). -/
def State.requestOn (s : State) (n : Nat) (j : Job) : State :=
  let s1 := s.each (s.team n) fun s m => s.modCh m fun c => { c with wantOn := true }
  let s2 :=
    match j.group with
    | none => s1
    | some g => s1.each (s1.team n) fun s m => s.requestAnt m (s.groupPos g.val m) true
  (s2.block n .fon).tryRamp n

/-- FON (R226). -/
def State.doFon (s : State) (n : Nat) (j : Job) : State :=
  if s.teamFault n then s.seqFault n 6
  else if s.teamAll n fun _ c => c.field == .on && !c.wantOff then s.modSeq n Seq.resume
  else if !s.locked && s.teamAll n fun _ c => c.field == .off && !c.antPend then s.refuseOn n
  else if s.teamAll n fun _ c => c.field == .off || c.field == .settle then s.requestOn n j
  else s.block n .fon

/-- FON: field on. -/
def execFon (n : Ch) (s : State) : Host.Outcome State Fault Refusal :=
  .next (s.instr n.val (regsWord 0xB 0 0 0) true (State.airBody n.val windNone fun s j => s.doFon n.val j))

/-- FOFF: field off; blocks until OFF. -/
def execFoff (n : Ch) (s : State) : Host.Outcome State Fault Refusal :=
  .next (s.instr n.val (regsWord 0xB 0 0 1) true (State.airBody n.val windNone fun s _ =>
    if s.teamAll n.val fun _ c => c.field == .off then s.modSeq n.val Seq.resume
    else (s.each (s.team n.val) fun s m => s.stopField m).block n.val .foff))

/-- ANT rs (R61, R226). -/
def execAnt (n : Ch) (rs : GReg) (s : State) : Host.Outcome State Fault Refusal :=
  .next (s.instr n.val (regsWord 0xB 0 rs.val 2) true (State.airBody n.val windNone fun s j =>
    let v := ((s.ch n.val).seq.getG rs).toNat
    if j.group.isSome then s.seqFault n.val 8
    else if (s.ch n.val).field != .off then s.seqFault n.val 6
    else ((s.requestAnt n.val (v % 8) (bitOf v 3)).modRom j fun r => { r with visits := r.visits + 1 }).block n.val .ant))

/-- PWR rs: the per-job target of R39. -/
def execPwr (n : Ch) (rs : GReg) (s : State) : Host.Outcome State Fault Refusal :=
  .next (s.instr n.val (regsWord 0xB 0 rs.val 3) true (State.airBody n.val windNone fun s j =>
    if j.group.isSome then s.seqFault n.val 8
    else
      let v := ((s.ch n.val).seq.getG rs).toNat % 2 ^ 12
      (s.modJob j.id fun k => { k with target := some v }).railRaise.modSeq n.val Seq.resume))

/-- The checks of a TX of `bits` bits (R224, R226 to R228, R512): the fault it takes, if any. -/
def State.txFault (s : State) (n : Nat) (j : Job) (bits : Nat) : Option Byte :=
  let c := s.ch n
  let q := c.seq
  if 12 ≤ q.txMode.toNat ∨ 14 ≤ q.rxMode.toNat then some 1
  else if q.rxMode = 13 ∧ q.rawb = 0 then some 7
  else if c.field = .off then some 6
  else if bits = 0 ∧ q.txMode.toNat < 8 then some 7
  else if bits % 8 ≠ 0 ∧ q.txCrc ≠ 0 then some 7
  else if c.txf.readable txSize < ceilDiv bits 8 then some 5
  else if q.cont ∧ !j.started then some 7
  else none

/-- The transmit request of a TX. -/
def State.txReqOf (s : State) (n : Nat) (j : Job) (bits : Nat) : TxReq :=
  let q := (s.ch n).seq
  let body := s.sentBody n j bits
  let crc := if bits = 0 then [] else frameCrc q.txCrc.toNat body
  { bytes := body ++ crc, bits := bits + 8 * crc.length, fifo := ceilDiv bits 8, engine := false, cont := q.cont
    txMode := q.txMode.toNat, rxMode := q.rxMode.toNat, rxCrc := q.rxCrc.toNat, rxto := q.rxto.toNat, rawb := q.rawb.toNat }

/-- TX of lead `n`, followed by an RX when `rd` is given (R227, R228). CONT and RXTO hold for one frame. -/
def State.doTx (s : State) (n : Nat) (j : Job) (bits : Nat) (rd : Option GReg) : State :=
  match s.txFault n j bits with
  | some f => s.seqFault n f
  | none =>
    let s1 := s.modCh n fun c => { c with
      txReq := some (s.txReqOf n j bits), seq := { c.seq with cont := false, rxto := 0, run := .blocked (.tx rd) } }
    s1.tryTx n

/-- TX rs. -/
def execTx (n : Ch) (rs : GReg) (s : State) : Host.Outcome State Fault Refusal :=
  .next (s.instr n.val (regsWord 0xB 0 rs.val 4) true (State.airBody n.val windNone fun s j =>
    s.doTx n.val j (((s.ch n.val).seq.getG rs).toNat % 2 ^ 16) none))

/-- RX rd: the event held, or the one to come; with no window opened since the last, FCODE 7 (R229). -/
def execRx (n : Ch) (rd : GReg) (s : State) : Host.Outcome State Fault Refusal :=
  .next (s.instr n.val (regsWord 0xB rd.val 0 5) true (State.airBody n.val (fun q => q.takeEvent rd 8 false) fun s _ =>
    let c := s.ch n.val
    match c.ev, c.win with
    | some _, _ => s.collectEvent n.val rd
    | none, some w => if w.done || w.engine || w.taken then s.seqFault n.val 7 else s.collectEvent n.val rd
    | none, none => s.seqFault n.val 7))

/-- XCH rd, rs: TX rs, then RX rd. -/
def execXch (n : Ch) (rd rs : GReg) (s : State) : Host.Outcome State Fault Refusal :=
  .next (s.instr n.val (regsWord 0xB rd.val rs.val 6) true (State.airBody n.val (fun q => q.takeEvent rd 8 false) fun s j =>
    s.doTx n.val j (((s.ch n.val).seq.getG rs).toNat % 2 ^ 16) (some rd)))

/-- RXTO rs. -/
def execRxto (n : Ch) (rs : GReg) (s : State) : Host.Outcome State Fault Refusal :=
  .next (s.instr n.val (regsWord 0xB 0 rs.val 7) true (State.airBody n.val windNone fun s _ =>
    s.modSeq n.val fun q => { q.resume with rxto := (q.getG rs).setWidth 24 }))

/-- RAWB rs: outside 1 to 64 is FCODE 7. -/
def execRawb (n : Ch) (rs : GReg) (s : State) : Host.Outcome State Fault Refusal :=
  .next (s.instr n.val (regsWord 0xB 0 rs.val 8) true (State.airBody n.val windNone fun s _ =>
    let v := ((s.ch n.val).seq.getG rs).toNat % 128
    if v = 0 ∨ 64 < v then s.seqFault n.val 7
    else s.modSeq n.val fun q => { q.resume with rawb := BitVec.ofNat 7 v }))

/-- Select pattern `p`, or block until the field is OFF or ON (R196, R230). -/
def State.doPat (s : State) (n : Nat) (j : Job) (p : BitVec 6) : State :=
  if j.group.isNone then s.seqFault n 8
  else if (s.teamAll n fun _ c => c.field == .on) || (s.teamAll n fun _ c => c.field == .off) then s.selectPattern n p.toNat
  else s.block n (.pattern p)

/-- PAT rs. -/
def execPat (n : Ch) (rs : GReg) (s : State) : Host.Outcome State Fault Refusal :=
  .next (s.instr n.val (regsWord 0xB 0 rs.val 9) true (State.airBody n.val windNone fun s j =>
    s.doPat n.val j (((s.ch n.val).seq.getG rs).setWidth 6)))

/-- PATI imm8: bits 7:6 select nothing. -/
def execPati (n : Ch) (imm : Byte) (s : State) : Host.Outcome State Fault Refusal :=
  .next (s.instr n.val (byteWord 0xE 7 imm.toNat) true (State.airBody n.val windNone fun s j =>
    s.doPat n.val j (imm.setWidth 6)))

/-- Code of a field state in CHn_TXSTAT. -/
def FieldState.code : FieldState → Nat
  | .off => 0 | .settle => 1 | .ramp => 2 | .on => 3 | .mod => 4 | .rxw => 5 | .down => 6 | .fault => 7

/-- CHn_TXSTAT as read. -/
def State.txStat (s : State) (n : Nat) : Word := setBits (s.rdWord (R.CH_TXSTAT n)) 0 3 (s.ch n).field.code

/-- TXST rd. -/
def execTxst (n : Ch) (rd : GReg) (s : State) : Host.Outcome State Fault Refusal :=
  .next (s.instr n.val (regsWord 0xB rd.val 0 10) true (State.airBody n.val windNone fun s _ =>
    s.modSeq n.val fun q => (q.setG rd (s.txStat n.val)).resume))

/-! ## The inventory engine (R231 to R235) -/

/-- INVO ra, rb: an open context is FCODE 16; a reserved bit or protocol 3 is FCODE 1. The job's counts go on. -/
def execInvo (n : Ch) (ra rb : GReg) (s : State) : Host.Outcome State Fault Refusal :=
  .next (s.instr n.val (regsWord 0xC ra.val rb.val 0) false fun s j =>
    let c := s.ch n.val
    let cfg := c.seq.getG ra
    let ov := c.seq.getG rb
    let mask : BitVec 16 := ov.extractLsb' 16 16
    if c.inv.phase != .closed then s.seqFault n.val 16
    else if getBits cfg 0 2 = 3 ∨ getBits cfg 6 10 ≠ 0 ∨ getBits cfg 24 8 ≠ 0 then s.seqFault n.val 1
    else (s.modRom j fun r => { r with opened := r.opened + 1 }).modCh n.val fun c => { c with seq := c.seq.resume, inv := { c.inv with
      phase := .start, cfg := cfg, ctl := (c.inv.ctl0 &&& ~~~ mask) ||| (ov.setWidth 16 &&& mask)
      txMode := c.seq.txMode, rxMode := c.seq.rxMode, cur := {}, stack := [], asSelect := false, good := 0, coll := 0
      empty := 0, cand := none, found := [], pushes := [], quiet := [], waiting := false, goDue := false } })

/-- INVS rd: with no open context FCODE 16; a held sighting that no RESQ followed is merged (R234, R235). -/
def execInvs (n : Ch) (rd : GReg) (s : State) : Host.Outcome State Fault Refusal :=
  .next (s.instr n.val (regsWord 0xC rd.val 0 1) true (State.airBody n.val
    (fun q => q.takeInvs rd (endWord rcFault) true) fun s j =>
    if (s.ch n.val).inv.phase == .closed then s.seqFault n.val 16
    else ((s.releaseHeld n.val j.id).block n.val (.invs rd)).invsGo n.val))

/-- INVE rd: the context closes; rd is the RC of R133. Sightings of the last round are merged (R133); one that is held stays so,
until the next INVS or the end of the job (R235). -/
def execInve (n : Ch) (rd : GReg) (s : State) : Host.Outcome State Fault Refusal :=
  .next (s.instr n.val (regsWord 0xC rd.val 0 2) false fun s j =>
    let s1 := s.releaseFound n.val j.id
    let c := (s1.ch n.val).inv
    let left := match c.phase with
      | .closed | .ended => c.stackLeft
      | _ => c.stackLeft + c.nodesPending
    let rc := match c.phase with
      | .ended => c.endRc
      | _ => ({ c with stackLeft := left } : InvCtx).rcNow
    s1.modCh n.val fun c => { c with
      inv := { c.inv with phase := .closed, stackLeft := left, stack := [] }, seq := (c.seq.setG rd (rc.setWidth 32)).resume })

/-! ## CRY (R231, R235, R236) -/

/-- The entry that SIGQ names: an index, or the held sighting's, or its handle; none is FCODE 16 (R235). -/
def InvCtx.sigEntry (c : InvCtx) (v : Nat) : Option (Option Nat) :=
  if v < heldHandle then some (some v)
  else if v ≠ heldHandle then none
  else
    c.held.map fun h =>
      match h.result with
      | none => some h.handle
      | some (true, i) => i
      | some (false, _) => none

/-- The handle of the held sighting, when a register names it. -/
def InvCtx.heldNamed (c : InvCtx) (v : Nat) : Option Nat := if v = heldHandle then c.held.map fun h => h.handle else none

/-- SIGQ ra, rb. A request over a token that stayed unresolved is not made (R158). -/
def execSigq (n : Ch) (ra rb : GReg) (s : State) : Host.Outcome State Fault Refusal :=
  .next (s.instr n.val (regsWord 0xC ra.val rb.val 3) true (State.airBody n.val windNone fun s j =>
    let c := s.ch n.val
    let k := (c.seq.getG rb).toNat
    match c.inv.sigEntry (c.seq.getG ra).toNat with
    | none => s.seqFault n.val 16
    | some e =>
      if 64 < k then s.seqFault n.val 16
      else if c.rxf.readable rxSize < k then s.seqFault n.val 5
      else
        let d := c.rxf.peek rxSize 0 k
        let s1 := (s.modRom j fun r => { r with check := { r.check with sigq := true } }).modCh n.val fun c => { c with
          rxf := c.rxf.skip rxSize k }
        match e with
        | none => s1.modSeq n.val Seq.resume
        | some i => s1.request n.val (s1.sigReq j i (c.inv.heldNamed (c.seq.getG ra).toNat) d)))

/-- RESQ ra: 16 bytes at RD. -/
def execResq (n : Ch) (ra : GReg) (s : State) : Host.Outcome State Fault Refusal :=
  .next (s.instr n.val (regsWord 0xC ra.val 0 4) true (State.airBody n.val windNone fun s j =>
    let c := s.ch n.val
    match c.inv.held with
    | none => s.seqFault n.val 16
    | some h =>
      if (c.seq.getG ra).toNat ≠ heldHandle then s.seqFault n.val 16
      else if c.rxf.readable rxSize < 16 then s.seqFault n.val 5
      else
        let d := c.rxf.peek rxSize 0 16
        let s1 := (s.modRom j fun r => { r with check := { r.check with resq := true } }).modCh n.val fun c => { c with
          rxf := c.rxf.skip rxSize 16, inv := { c.inv with held := some { h with asked := true } } }
        s1.request n.val (resReq j h d)))

/-- CRYW: block until every CRY request of the job has delivered. -/
def execCryw (n : Ch) (s : State) : Host.Outcome State Fault Refusal :=
  .next (s.instr n.val (regsWord 0xC 0 0 5) true fun s j =>
    if s.cryOutstanding j.id then s.block n.val .cryw else s.modSeq n.val Seq.resume)

/-- CRYR rd, rs: the last outcome for an entry, or for the sighting that is held now (R236); none for any other value. -/
def execCryr (n : Ch) (rd rs : GReg) (s : State) : Host.Outcome State Fault Refusal :=
  .next (s.instr n.val (regsWord 0xC rd.val rs.val 6) false fun s j =>
    let r := ((s.ch n.val).seq.getG rs).toNat
    let e := if r < heldHandle then some r else (s.ch n.val).inv.heldNamed r
    let v := ((e.bind fun e => j.cryLog.find? fun x => x.1 == e).map Prod.snd).getD 0
    s.modSeq n.val fun q => (q.setG rd v).resume)

/-! ## Results (R237 to R241) -/

/-- OUTB r. -/
def execOutb (n : Ch) (r : GReg) (s : State) : Host.Outcome State Fault Refusal :=
  .next (s.pure n.val (regsWord 0xD r.val 0 0) false fun q => q.emitBytes (leBytes 1 (q.getG r).toNat))

/-- OUTH r. -/
def execOuth (n : Ch) (r : GReg) (s : State) : Host.Outcome State Fault Refusal :=
  .next (s.pure n.val (regsWord 0xD r.val 0 1) false fun q => q.emitBytes (leBytes 2 (q.getG r).toNat))

/-- OUTW r. -/
def execOutw (n : Ch) (r : GReg) (s : State) : Host.Outcome State Fault Refusal :=
  .next (s.pure n.val (regsWord 0xD r.val 0 2) false fun q => q.emitBytes (leBytes 4 (q.getG r).toNat))

/-- The record of a sighting that no entry holds; a ROM routine emits it for an identity of the job that has none (R142). -/
def State.lostRecord (s : State) (n : Nat) (j : Job) (unres : Bool) : OutItem :=
  match if j.isRom then s.lostIdent n j else none with
  | none => .image (droppedRecord unres)
  | some x => .image (droppedRecord ((s.ch n).inv.unresIds.contains x))

/-- The record that OUTREC appends for a value of its register (R235, R238); none is FCODE 16. -/
def State.recordFor (s : State) (n : Nat) (j : Job) (v : Nat) : Option OutItem :=
  let c := (s.ch n).inv
  if v < heldHandle then
    some (if s.tabValid v then .record v else s.lostRecord n j (c.unres.contains v))
  else if v ≠ heldHandle then none
  else
    match c.held with
    | none => some (s.lostRecord n j false)
    | some h =>
      match h.result with
      | none => some (.record h.handle)
      | some (_, some i) => some (.record i)
      | some (resolved, none) => some (.image (droppedRecord (!resolved)))

/-- OUTREC r. -/
def execOutrec (n : Ch) (r : GReg) (s : State) : Host.Outcome State Fault Refusal :=
  .next (s.instr n.val (regsWord 0xD r.val 0 3) false fun s j =>
    let v := ((s.ch n.val).seq.getG r).toNat
    match s.recordFor n.val j v with
    | none => s.seqFault n.val 16
    | some it =>
      ((s.modRom j fun k => { k with recorded := (s.recordKey n.val j v).toList ++ k.recorded }).modSeq n.val fun q => (q.emit it).resume).refill n.val)

/-- OUTSUM. -/
def execOutsum (n : Ch) (s : State) : Host.Outcome State Fault Refusal :=
  .next (s.pure n.val (regsWord 0xD 0 0 4) false fun q => q.emit .summary)

/-- POST r: blocks until every image is filled (R238, R239). -/
def execPost (n : Ch) (r : GReg) (s : State) : Host.Outcome State Fault Refusal :=
  .next (s.instr n.val (regsWord 0xD r.val 0 5) true fun s _ => ((s.refill n.val).block n.val (.post r)).unblock n.val)

/-- DET r. -/
def execDet (n : Ch) (r : GReg) (s : State) : Host.Outcome State Fault Refusal :=
  .next (s.pure n.val (regsWord 0xD r.val 0 6) false fun q => { q with detail := (q.getG r).setWidth 16 })

/-- END with a code: one that R241 does not allow is FCODE 9. A sighting that is still held is merged as volatile first,
so that an image that waits for it can be filled (R235, R238). DEDUCED, log entry 68. -/
def State.endWith (s : State) (n : Nat) (rc : Byte) : State :=
  if endAllowed rc then
    let s1 := match s.jobLead n with
      | none => s
      | some j => s.releaseHeld n j.id
    ((s1.refill n).block n (.ending rc)).unblock n
  else s.seqFault n 9

/-- END imm8. -/
def execEndJob (n : Ch) (rc : Byte) (s : State) : Host.Outcome State Fault Refusal :=
  .next (s.instr n.val (byteWord 0xE 5 rc.toNat) true fun s _ => s.endWith n.val rc)

/-- ENDR r. -/
def execEndr (n : Ch) (r : GReg) (s : State) : Host.Outcome State Fault Refusal :=
  .next (s.instr n.val (regsWord 0xD r.val 0 7) true fun s _ => s.endWith n.val (((s.ch n.val).seq.getG r).setWidth 8))

/-- OLEN r. -/
def execOlen (n : Ch) (r : GReg) (s : State) : Host.Outcome State Fault Refusal :=
  .next (s.pure n.val (regsWord 0xD r.val 0 8) false fun q => q.setG r (BitVec.ofNat 32 q.outBytesLen))

/-! ## Limits (R230, R244) and the gate wait (R355) -/

/-- YIELD_MISSED: 2,048 instructions without a yield: BEAT_OVERRUN (R244). -/
def execYieldMissed (n : Ch) (s : State) : Host.Outcome State Fault Refusal :=
  .next (match s.runsOn n.val with
    | none => s
    | some j =>
      let q := (s.ch n.val).seq
      if q.ypend && decide (2048 ≤ q.ycnt) then (s.bump R.DIAG_CNT_0_N_OVR).endJobInForce j.id rcOverrun true else s)

/-- WINDUP_EXPIRY: 256 instructions of wind-up without END: FCODE 11 (R230). -/
def execWindupExpiry (n : Ch) (s : State) : Host.Outcome State Fault Refusal :=
  .next (match s.runsOn n.val with
    | none => s
    | some _ =>
      let q := (s.ch n.val).seq
      if q.windup && decide (256 ≤ q.windN) then s.seqFault n.val 11 else s)

/-- Largest RAMP_US among the channels of a job (R355). -/
def State.rampUs (s : State) (j : Job) : Nat := (maskList j.mask).foldl (fun a n => max a (s.rd (R.CH_TXTIME_RAMP_US n.val))) 0

/-- WAITING_RESUME: the window of every channel fits, so the field of the waiting job ramps up; the new ramp costs one
further overhead (R16, R355). -/
def execWaitingResume (n : Ch) (nt : BitVec 64) (s : State) : Host.Outcome State Fault Refusal :=
  let s1 := s.advanceTo nt
  .next (match s1.jobLead n.val with
    | none => s1
    | some j =>
      let off := s1.teamAll n.val fun _ c => c.field == .off && !c.antPend && !c.wantOn
      if j.state == .waiting && j.ended.isNone && off && s1.locked && s1.exchangeFits j (s1.rampUs j + 14) then
        let s2 := s1.modJob j.id fun k => { k with exchBeat := k.exchBeat + 1, exchAll := k.exchAll + 1 }
        (s2.each (s2.team n.val) fun s m => s.modCh m fun c => { c with wantOn := true }).tryRamp n.val
      else s1)

/-! ## The routine cache (R251, R252) -/

/-- Most recently used lines that a set keeps: four ways of 64 sets. -/
def keepWays (cache : List CacheLine) (l : CacheLine) : List CacheLine :=
  let others := cache.filter fun x => x.line != l.line
  let set := (others.filter fun x => x.line % 64 == l.line % 64).take 3
  l :: others.filter fun x => x.line % 64 != l.line % 64 || set.contains x

/-- ROUTINE_CACHE_FILL: the instruction of sequencer `n` lies in a line that the cache lacks, or its fill can start. -/
def execRoutineCacheFill (n : Ch) (s : State) : Host.Outcome State Fault Refusal :=
  .next (match s.runsOn n.val with
    | none => s.startFill
    | some j =>
      let q := (s.ch n.val).seq
      let l := j.codeLine q.pc
      if j.decl.src = 2 ∧ q.pc.toNat < j.decl.ninst ∧ s.flash.cache.all (fun x => x.line != l) then
        let s1 := if s.flash.wip then s.bump R.CSQ_CCNT_N_FWAIT else s
        ({ s1 with flash := { s1.flash with fills := s1.flash.fills ++ [(n, l)] } }.block n.val .fetch).startFill
      else s.startFill)

/-- CACHE_FILL_DONE: the line is in the cache, its sequencer fetches, a pending invalidation takes place, and the next
fill starts. -/
def execCacheFillDone (s : State) : Host.Outcome State Fault Refusal :=
  match s.flash.filling with
  | none => .next s
  | some (n, l) =>
    let cache := if s.flash.invPend then [] else keepWays s.flash.cache ⟨l, s.fbytes (32 * l) 32⟩
    let s1 : State := { s with flash := { s.flash with filling := none, cache := cache, invPend := false } }
    let s2 := if s1.blockOf n.val = some .fetch then s1.modSeq n.val fun q => { q with run := .run } else s1
    .next s2.startFill

end Sys2Proof.Machine
end

