-- ==== Sys2Proof/Machine/RegRead.lean ====
section
/-!
DEFINITION. Register reads (R6, R442 to R446): the stored word, with the fields that show structured state composed at the
read, and what a read changes.
-/

namespace Sys2Proof.Machine

/-- A word with a field set. -/
def Fld.put (f : Fld) (v : Nat) (w : Word) : Word := setBits w f.lo f.w v

/-- A word with a one-bit field set. -/
def Fld.flag (f : Fld) (b : Bool) (w : Word) : Word := f.put b.toNat w

/-- A word with a field set to the value, or to its greatest value when that is smaller. -/
def Fld.sat (f : Fld) (v : Nat) (w : Word) : Word := f.put (min v (2 ^ f.w - 1)) w

/-! ## Protection (R447, R449) -/

/-- PRIV of a port. -/
def State.priv (s : State) (p : Nat) : Nat := s.rd (R.PROT_PCFG_PRIV p)

/-- The port that is OWNER (R452). -/
def State.ownerPort (s : State) : Nat := ((List.range 4).find? fun p => s.priv p == 2).getD 0

/-- The address lies among the port's own HOST registers. -/
def ownHost (p a : Nat) : Bool := decide (0x200 + 0x80 * p ≤ a) && decide (a < 0x280 + 0x80 * p)

/-- The port may read the word of a block (R447, R449). -/
def State.mayReadReg (s : State) (p : Nat) (b : RegBlock) (a : Nat) : Bool :=
  s.priv p == 2 || (b == .host && ownHost p a) || bitOf (s.rd (R.PROT_RMASK_RMASK p)) b.bit

/-- The port may write the word of a block (R447, R449, R451). -/
def State.mayWriteReg (s : State) (p : Nat) (b : RegBlock) (a : Nat) : Bool :=
  s.priv p == 2
    || (b != .prot && ((b == .host && ownHost p a)
      || (s.priv p == 1 && b != .host && bitOf (s.rd (R.PROT_WMASK_WMASK p)) b.bit)))

/-! ## Composed fields -/

/-- HOSTn registers (R456). -/
def State.hostWord (s : State) (n : Nat) (a : Nat) (w : Word) : Word :=
  let t := s.pt n
  if a = R.HOST_STAT n then
    (R.HOST_STAT_LAST_SEQ n).put t.lastSeq.toNat ((R.HOST_STAT_MODE n).flag t.mode3
      ((R.HOST_STAT_INFRAME n).flag (!t.held.isEmpty)
        ((R.HOST_STAT_OPEN n).flag t.openItem.isSome ((R.HOST_STAT_DISCARD n).flag t.discard.isSome w))))
  else if a = R.HOST_NPEND n then (R.HOST_NPEND_PEND n).put (s.pendSet n) w
  else w

/-- PROT registers (R457). -/
def State.protWord (s : State) (a : Nat) (w : Word) : Word :=
  if a = R.PROT_STAT then R.PROT_STAT_OWNER.put s.ownerPort (R.PROT_STAT_COMMITTED.flag s.committed w) else w

/-- PWR registers (R423). -/
def State.pwrWord (s : State) (a : Nat) (w : Word) : Word :=
  if a = R.PWR_STAT then
    R.PWR_STAT_PHASE.put (if s.pwr.entry.isSome then 1 else if s.pwr.waking then 2 else 0)
      (R.PWR_STAT_DOMON.put s.pwr.domOn.toNat w)
  else w

/-- Code of a synthesiser state. -/
def SynState.code : SynState → Nat
  | .off => 0 | .cal => 1 | .acq => 2 | .locked => 3 | .step => 4 | .lost => 5

/-- RATE in 0.001 ppm, rounded to the nearest (R332): log entry 61. -/
def trimOf (rate : Int) : Int := (2 * rate * 10 ^ 9 + 2 ^ 32) / 2 ^ 33

/-- SYN registers (R75). -/
def State.synWord (s : State) (a : Nat) (w : Word) : Word :=
  if a = R.SYN_STAT then R.SYN_STAT_STATE.put s.syn.state.code (R.SYN_STAT_LOCK.flag s.locked w)
  else if a = R.SYN_FTRIM then
    if s.isOn R.SYN_CTL_DISC then R.SYN_FTRIM_TRIM.put (ofSigned 24 (trimOf (s.rdS R.TIME_RATE_RATE))) w else 0
  else w

/-- Code of a time state. -/
def TimeQ.code : TimeQ → Nat
  | .free => 0 | .set => 1 | .track => 2 | .holdover => 3 | .slept => 4

/-- TIME registers as port `p` reads them (R331, R358, R446). -/
def State.timeWord (s : State) (p a : Nat) (w : Word) : Word :=
  let t := s.time
  if a = R.TIME_NT_LO then t.nt.setWidth 32
  else if a = R.TIME_NT_HI then (s.pt p).ntHi
  else if a = R.TIME_NT_FR then (s.pt p).ntFr
  else if a = R.TIME_QUALITY then BitVec.ofNat 32 t.unc
  else if a = R.TIME_STAT then
    R.TIME_STAT_STATE.put t.q.code (R.TIME_STAT_POOR.flag t.poor (R.TIME_STAT_ARMED.flag t.armed.isSome
      (R.TIME_STAT_AMBIG.flag t.ambig w)))
  else w

/-- GATE registers (R359). -/
def State.gateWord (s : State) (a : Nat) (w : Word) : Word :=
  let g := s.gate
  let chg := g.chg.getD 0
  let shown := g.list.getD (s.rd R.GATE_OPIDX_IDX) (0, 0)
  if a = R.GATE_STAT then
    R.GATE_STAT_PEND.flag g.chg.isSome (R.GATE_STAT_HELD.flag s.gateHeld (R.GATE_STAT_OPLEN.put g.list.length
      (R.GATE_STAT_CUR.put (if g.list.isEmpty then 0 else s.opList.cur s.nt) w)))
  else if a = R.GATE_OPBASE_LO then g.base.setWidth 32
  else if a = R.GATE_OPBASE_HI then (g.base >>> 32).setWidth 32
  else if a = R.GATE_OPCYCLE then BitVec.ofNat 32 g.cycle
  else if a = R.GATE_CHG_LO then chg.setWidth 32
  else if a = R.GATE_CHG_HI then (chg >>> 32).setWidth 32
  else if a = R.GATE_OPENT then shown.1
  else if a = R.GATE_OPMASK then shown.2
  else if a = R.GATE_OPEN then g.openRec
  else w

/-- The head of a queue costs more than BURST (R274). -/
def State.stuck (s : State) (q : Nat) : Bool :=
  (s.qu q).shen && match s.headOf q with | none => false | some j => decide ((s.qu q).burst < j.cost)

/-- Registers of queue `q` (R294, R295). -/
def State.schedWord (s : State) (q a : Nat) (w : Word) : Word :=
  let u := s.qu q
  if a = R.SCHED_QBAL q then
    BitVec.ofInt 32 (if u.shen then u.bal else (u.burst : Int))
  else if a = R.SCHED_QSTAT q then
    (R.SCHED_QSTAT_DEPTH q).put (s.depth q) ((R.SCHED_QSTAT_STUCK q).flag (s.stuck q)
      ((R.SCHED_QSTAT_WM_COUNT q).sat u.wmCount ((R.SCHED_QSTAT_ELIG q).flag u.elig
        ((R.SCHED_QSTAT_OPEN q).flag (!(s.openPorts q).isEmpty) w))))
  else if a = R.SCHED_QDLY q then (R.SCHED_QDLY_HDLY q).sat u.hdly w
  else w

/-- Code of a thermal state. -/
def TState.code : TState → Nat
  | .normal => 0 | .soft => 1 | .hard => 2

/-- BUDG registers (R328); the others show what step 4 stored. -/
def State.budgWord (s : State) (a : Nat) (w : Word) : Word :=
  if a = R.BUDG_TSTAT then R.BUDG_TSTAT_TSTATE.put s.budg.tstate.code w else w

/-- Registers of ring `r` (R296). -/
def State.resWord (s : State) (r a : Nat) (w : Word) : Word :=
  let g := s.ring r
  if a = R.RES_SPACE r then (R.RES_SPACE_FREE r).put (s.ringFree r) ((R.RES_SPACE_RESV r).put g.resv w)
  else if a = R.RES_ENT r then
    (R.RES_ENT_UNREL r).put g.entries.length ((R.RES_ENT_UNREAD r).put (g.entries.length - g.rd)
      ((R.RES_ENT_MVALID r).flag g.mark.isSome w))
  else w

/-- Pointer registers of a FIFO: write position and read pointer, or mark and release boundary (R103). -/
def Fifo.word (f : Fifo) (size : Nat) (second : Bool) : Word :=
  if second then BitVec.ofNat 32 (f.mark + f.mvalid.toNat * 2 * size + f.rel * 2 ^ 16)
  else BitVec.ofNat 32 (f.wrPos size + f.rd * 2 ^ 16)

/-- Registers of channel `n` (R75, R109). -/
def State.chWord (s : State) (n a : Nat) (w : Word) : Word :=
  let c := s.ch n
  if a = R.CH_TXSTAT n then s.txStat n
  else if a = R.CH_PHASE n then (R.CH_PHASE_PH_NOW n).put (s.phaseNow n).toNat w
  else if a = R.CH_ANT n then
    (R.CH_ANT_CUR_POS n).put c.curPos.toNat ((R.CH_ANT_CUR_EN n).flag c.curEn ((R.CH_ANT_PEND n).flag c.antPend w))
  else if a = R.CH_VTXNEED n then
    (R.CH_VTXNEED_VTX_NEED n).put (if c.field == .off then 0 else s.vtxNeedOf n) w
  else if a = R.CH_WSDATA n then BitVec.ofNat 32 (leNat ((c.shaping.drop (s.rd (R.CH_WSIDX_IDX n))).take 4))
  else if a = R.CH_RXSTAT n then (R.CH_RXSTAT_WIN n).flag (s.winOpen n) ((R.CH_RXSTAT_GAIN_NOW n).put (s.gainNow n) w)
  else if a = R.CH_TXFIFO_A n then c.txf.word txSize false
  else if a = R.CH_TXFIFO_B n then c.txf.word txSize true
  else if a = R.CH_RXFIFO_A n then c.rxf.word rxSize false
  else if a = R.CH_RXFIFO_B n then c.rxf.word rxSize true
  else w

/-- INV registers (R144). -/
def State.invWord (s : State) (a : Nat) (w : Word) : Word :=
  if a = R.INV_CMDSTAT then R.INV_CMDSTAT_BUSY.flag s.invCmd.isSome w
  else if a = R.INV_STAT then R.INV_STAT_USED.put s.tabUsed.length (R.INV_STAT_MQ.put s.mergeQ.length w)
  else w

/-- CRY registers (R181). -/
def State.cryWord (s : State) (a : Nat) (w : Word) : Word :=
  if a = R.CRY_CMDSTAT then R.CRY_CMDSTAT_BUSY.flag s.cry.cmd.isSome w
  else if a = R.CRY_STAT then
    R.CRY_STAT_QDEPTH.put s.cry.queue.length (R.CRY_STAT_ECC_BUSY.flag s.cry.eccBusy
      (R.CRY_STAT_AES_BUSY.flag s.cry.aes.isSome w))
  else w

/-- A coupling measurement is queued or running (R199). -/
def State.measuring (s : State) : Bool := s.maint.any Maint.isCoupling

/-- Channels under a claim of a swarm job (R188). -/
def State.swarmClaimed (s : State) : Nat :=
  ((List.range 8).filter fun n => ((s.claimOf n).bind fun c => c.job).isSome).map (2 ^ ·) |>.sum

/-- SWARM registers (R214, R215). -/
def State.swarmWord (s : State) (a : Nat) (w : Word) : Word :=
  if a = R.SWARM_CMDSTAT then R.SWARM_CMDSTAT_BUSY.flag s.measuring w
  else if a = R.SWARM_STAT then
    R.SWARM_STAT_CLAIMED.put s.swarmClaimed (R.SWARM_STAT_LQ.put (s.locQ.length - 1) w)
  else w

/-- CSQn_STAT.STATE. -/
def Seq.stateCode (q : Seq) : Nat :=
  if q.windup then 3 else match q.run with | .idle => 0 | .run => 1 | .blocked _ => 2

/-- Registers of sequencer `n` and of the routine cache (R259). -/
def State.csqWord (s : State) (n a : Nat) (w : Word) : Word :=
  let q := (s.ch n).seq
  if a = R.CSQ_CACHE then R.CSQ_CACHE_INV.flag s.flash.invPend (R.CSQ_CACHE_FILLING.flag s.flash.filling.isSome w)
  else if 8 ≤ n then w
  else if a = R.CSQ_STAT n then (R.CSQ_STAT_STATE n).put q.stateCode w
  else if a = R.CSQ_PC n then
    (R.CSQ_PC_PC n).put q.pc.toNat ((R.CSQ_PC_SP n).put q.stack.length
      ((R.CSQ_PC_FLAGS n).put (bitsNat [q.fv, q.fc, q.fz, q.fn]) w))
  else if a = R.CSQ_YCNT n then (R.CSQ_YCNT_YCNT n).sat q.ycnt ((R.CSQ_YCNT_YPEND n).flag q.ypend w)
  else if a = R.CSQ_ICNT n then q.icnt
  else w

/-- Detected steps of one half of the list. -/
def State.nowBits (s : State) (from_ : Nat) : Word :=
  BitVec.ofNat 32 (bitsNat ((List.range 32).map fun i => (s.wstep (from_ + i)).now))

/-- WATCH registers (R424). -/
def State.watchWord (s : State) (a : Nat) (w : Word) : Word :=
  let st := s.wstep (s.rd R.WATCH_SIDX_IDX)
  if a = R.WATCH_SCFG then st.nextCfg.getD st.scfg
  else if a = R.WATCH_SBASE then st.nextBase.getD st.sbase
  else if a = R.WATCH_SMEAS then st.smeas
  else if a = R.WATCH_NOW_0 then s.nowBits 0
  else if a = R.WATCH_NOW_1 then s.nowBits 32
  else if a = R.WATCH_STAT then
    R.WATCH_STAT_CUR.put s.watch.cur.toNat (R.WATCH_STAT_LAST_DET.put s.watch.lastDet.toNat w)
  else w

/-- Code of a card state. -/
def CardState.code : CardState → Nat
  | .off => 0 | .idle => 1 | .ready => 2 | .active => 3 | .halt => 4 | .protocol => 5 | .suspended => 6

/-- Code of the mailbox arbiter. -/
def Arbiter.code : Arbiter → Nat
  | .free => 0 | .fieldOpen => 1 | .wireOpen => 2

/-- State, field and rate of a listen channel, if there is one. -/
def State.cardShown (s : State) (n : Option Nat) : Nat × Bool × Nat :=
  match n with
  | none => (0, false, 0)
  | some n => ((s.cardState n).code, (s.card n).field, (s.card n).rate.toNat)

/-- EMU registers (R385). -/
def State.emuWord (s : State) (a : Nat) (w : Word) : Word :=
  let e := s.emu
  let l := (List.range 8).filter s.listens
  let x := s.cardShown l.head?
  let y := s.cardShown (l.drop 1).head?
  if a = R.EMU_STAT then
    R.EMU_STAT_CST_A.put x.1 (R.EMU_STAT_CST_B.put y.1 (R.EMU_STAT_FIELD_A.flag x.2.1 (R.EMU_STAT_FIELD_B.flag y.2.1
      (R.EMU_STAT_RATE_A.put x.2.2 (R.EMU_STAT_RATE_B.put y.2.2 w)))))
  else if a = R.EMU_MBSTAT then
    R.EMU_MBSTAT_STATE.put e.arb.code (R.EMU_MBSTAT_OWNCH.put e.ownCh.val (R.EMU_MBSTAT_OWNPORT.put e.ownPort.val
      (R.EMU_MBSTAT_JPEND.flag e.jpend (R.EMU_MBSTAT_JBUSY.flag e.jwrite.isSome (R.EMU_MBSTAT_LAST_SRC.flag e.lastSrc
        (R.EMU_MBSTAT_PUB_NLEN.put (nlenOf s.published) w))))))
  else w

/-- FLASH registers (R486). -/
def State.flashWord (s : State) (a : Nat) (w : Word) : Word :=
  if a = R.FLASH_STAT then R.FLASH_STAT_BUSY.flag s.flash.op.isSome w else w

/-- Code of a state of the rail controller. -/
def PmbState.code : PmbState → Nat
  | .off => 0 | .ton => 1 | .setup => 2 | .ready => 3 | .change => 4 | .fault => 5

/-- PMB registers (R425). -/
def State.pmbWord (s : State) (a : Nat) (w : Word) : Word :=
  let p := s.pmb
  if a = R.PMB_VSET then R.PMB_VSET_CMD.put p.cmd (R.PMB_VSET_OK.put p.ok w)
  else if a = R.PMB_VREAD then R.PMB_VREAD_DEMAND.put p.demand w
  else if a = R.PMB_STAT then R.PMB_STAT_STATE.put p.state.code (R.PMB_STAT_VTXEN.flag p.vtxen w)
  else if a = R.PMB_RAW then R.PMB_RAW_BUSY.flag p.raw.isSome w
  else w

/-- A self-test is queued or running (R487). -/
def State.testing (s : State) : Bool := s.romTest || s.maint.any fun m => m.kind == .chTest

/-- DIAG registers (R487). -/
def State.diagWord (s : State) (a : Nat) (w : Word) : Word :=
  if a = R.DIAG_STAT then R.DIAG_STAT_BUSY.flag s.testing w
  else if a = R.DIAG_MAINT then
    R.DIAG_MAINT_NPEND.put (min 16 (s.maint.length + s.romTest.toNat)) (R.DIAG_MAINT_DRAIN.flag s.drain.isSome
      (R.DIAG_MAINT_SYNWAIT.flag s.synthDue (R.DIAG_MAINT_CLAIMED.put s.maintClaimed w)))
  else w

/-- What a register of a block shows. -/
def State.shownWord (s : State) (p a : Nat) (w : Word) : RegBlock → Word
  | .sys => w
  | .host => s.hostWord ((a - 0x200) / 0x80) a w
  | .prot => s.protWord a w
  | .pwr => s.pwrWord a w
  | .syn => s.synWord a w
  | .time => s.timeWord p a w
  | .gate => s.gateWord a w
  | .sched => s.schedWord ((a - 0x1000) / 0x20) a w
  | .budg => s.budgWord a w
  | .res => s.resWord ((a - 0x1A00) / 0x10) a w
  | .ch n => s.chWord n a w
  | .inv => s.invWord a w
  | .cry => s.cryWord a w
  | .swarm => s.swarmWord a w
  | .csq => s.csqWord ((a - 0x2E00) / 0x20) a w
  | .watch => s.watchWord a w
  | .emu => s.emuWord a w
  | .flash => s.flashWord a w
  | .pmb => s.pmbWord a w
  | .diag => s.diagWord a w

/-- Value that port `p` reads at register address `a`; reserved offsets and holes read zero (R5, R442). -/
def State.regValue (s : State) (p a : Nat) : Word :=
  match Machine.blockOf a, rowAt a with
  | some b, some _ => s.shownWord p a (s.rdWord a) b
  | _, _ => 0

/-! ## Reads -/

/-- The index of the shaping table moves on (R48). -/
def State.nextShape (s : State) (n : Nat) : State := s.wr (R.CH_WSIDX_IDX n) ((s.rd (R.CH_WSIDX_IDX n) + 4) % 128)

/-- What a read of a register changes: latches (R446), the shaping index (R48), and RC fields (R6). -/
def State.afterRead (s : State) (p a : Nat) (b : RegBlock) (r : RegRow) : State :=
  let s1 := if r.rc = 0 then s else s.wrWord a (s.rdWord a &&& ~~~r.rc)
  match b with
  | .ch n => if a = R.CH_WSDATA n then s1.nextShape n else s1
  | .time =>
    if a = R.TIME_NT_LO then
      s1.modPt p fun t => { t with
        ntHi := (s.time.nt >>> 32).setWidth 32, ntFr := BitVec.ofNat 32 (s.time.frac / 2 ^ 24) }
    else s1
  | _ => s1

/-- Read of one register word by port `p`: the value, its status and the state (R442, R443). -/
def State.readReg (s : State) (p a : Nat) : Word × Byte × State :=
  if 0x3FFC < a then (0, stRange, s)
  else
    match Machine.blockOf a with
    | none => (0, stOk, s)
    | some b =>
      if !s.mayReadReg p b a then (0, stDenied, s)
      else
        match rowAt a with
        | none => (0, stOk, s)
        | some r => (s.regValue p a, stOk, s.afterRead p a b r)

end Sys2Proof.Machine
end

