-- ==== Sys2Proof/Machine/RegWrite.lean ====
section
/-!
DEFINITION. Register writes (R6, R442, R443, R510): the checks of a word, the bits it changes, and what the write of each
command register starts.
-/

namespace Sys2Proof.Machine

/-! ## Ranges -/

/-- A value lies in the stated range of its field. -/
def FldRange.ok (r : FldRange) (w : Word) : Bool :=
  decide (r.min ≤ getBits w r.lo r.w) && decide (getBits w r.lo r.w ≤ r.max)

/-- Sum of SIZE over the enabled rings once ring `r` holds configuration `w` (R288). -/
def State.ringSum (s : State) (r : Nat) (w : Word) : Nat :=
  ((List.range 32).map fun k => if k = r then (if bitOf w.toNat 15 then getBits w 0 15 else 0) else s.ringSize k).sum

/-- A ring configuration keeps both rules of R288. -/
def State.ringCfgOk (s : State) (r : Nat) (w : Word) : Bool :=
  decide (s.ringSum r w ≤ 16384) && (!bitOf w.toNat 15 || decide (64 ≤ getBits w 0 15))

/-- Group configuration `w` of group `g` keeps R183. -/
def State.groupCfgOk (s : State) (g : Nat) (w : Word) : Bool :=
  let m := getBits w 0 8
  !bitOf w.toNat 8 || (decide (2 ≤ popcount8 m) && (List.range 4).all fun k =>
    k == g || !(s.isOn (R.SWARM_GCFG_GEN k) && s.rd (R.SWARM_GCFG_MEMBERS k) == m))

/-- The limits keep TJ_SOFT + 2 °C ≤ TJ_HARD ≤ TJ_SHUT − 5 °C (R328). -/
def thermalOrder (soft hard shut : Nat) : Bool := decide (soft + 32 ≤ hard) && decide (hard + 80 ≤ shut)

/-- FIND names an identifier that the table can hold (R144). -/
def State.findOk (s : State) : Bool :=
  let n := s.rd R.INV_KEY_2_IDLEN
  (n == 4 || n == 7 || n == 8 || n == 10) && decide (s.rd R.INV_KEY_2_PROTO ≤ 2)

/-- File identifiers of EMU_FID (R385). -/
def fidOk (w : Word) : Bool :=
  let n := getBits w 0 16
  let f := getBits w 16 16
  n != 0xE103 && n != 0 && n != 0xFFFF && f != n && f != 0xE103

/-- Ranges that a row cannot state field by field. -/
def State.jointOk (s : State) (a : Nat) (w : Word) : RegBlock → Bool
  | .time =>
    if a = R.TIME_BEAT then getBits w 0 12 % 125 == 0
    else if a = R.TIME_RATE then decide (-858993 ≤ w.toInt) && decide (w.toInt ≤ 858993)
    else true
  | .gate =>
    !(a == R.GATE_CTL && bitOf w.toNat 0 && !s.isOn R.GATE_CTL_EN && s.gate.list.isEmpty)
  | .budg =>
    if a = R.BUDG_HBURST then decide (s.rd R.BUDG_HRSV_RSV_UJ ≤ getBits w 0 31)
    else if a = R.BUDG_HRSV then decide (getBits w 0 31 ≤ s.rd R.BUDG_HBURST_H_BURST)
    else if a = R.BUDG_PIN then decide (getBits w 16 16 ≤ getBits w 0 16)
    else if a = R.BUDG_TLIM_0 then thermalOrder (getBits w 0 16) (getBits w 16 16) (s.rd R.BUDG_TLIM_1_TJ_SHUT)
    else if a = R.BUDG_TLIM_1 then
      thermalOrder (s.rd R.BUDG_TLIM_0_TJ_SOFT) (s.rd R.BUDG_TLIM_0_TJ_HARD) (getBits w 0 16)
    else true
  | .res => if a = R.RES_CFG ((a - 0x1A00) / 0x10) then s.ringCfgOk ((a - 0x1A00) / 0x10) w else true
  | .ch n => if a = R.CH_WSIDX n then getBits w 0 7 % 4 == 0 else true
  | .inv => if a = R.INV_CMD && getBits w 0 4 == 1 then s.findOk else true
  | .swarm =>
    if 0x2C10 ≤ a ∧ a < 0x2C20 then s.groupCfgOk ((a - 0x2C10) / 4) w
    else if a = R.SWARM_LOCB_0 ∨ a = R.SWARM_LOCB_1 then decide (toSigned 16 (getBits w 0 16) ≤ toSigned 16 (getBits w 16 16))
    else true
  | .emu =>
    if a = R.EMU_CTL then decide (popcount8 (getBits w 8 8) ≤ 2)
    else if a = R.EMU_UID_0 then getBits w 0 8 != 0x88 && getBits w 0 8 != 0x08
    else if a = R.EMU_FID then fidOk w
    else true
  | .pmb => if a = R.PMB_VLIM then decide (getBits w 0 16 ≤ getBits w 16 16) else true
  | .sys | .host | .prot | .pwr | .syn | .sched | .cry | .csq | .watch | .flash | .diag => true

/-- Every field of the word lies in its stated range. -/
def State.inRange (s : State) (a : Nat) (w : Word) (b : RegBlock) (r : RegRow) : Bool :=
  r.ranges.all (fun x => x.ok w) && s.jointOk a w b

/-! ## Writes that a block turns away -/

/-- Registers of channel `n` that R75 and R109 close while the channel is held. -/
def heldRegs (n : Nat) : List Nat :=
  [R.CH_TXPWR n, R.CH_TXAMP n, R.CH_TXTIME n, R.CH_TXLOAD n, R.CH_TXLOOP n, R.CH_WSIDX n, R.CH_WSDATA n, R.CH_WSSTEP n,
    R.CH_PHASE n, R.CH_ANT n, R.CH_CCCTL n, R.CH_CCIQ n, R.CH_RXCTL n, R.CH_RXLO n, R.CH_RXTHR n, R.CH_RXTIME n,
    R.CH_RXIQ n] ++ (List.range 8).map (R.CH_CCPOS n)

/-- A channel register is closed: R48, R75, R109. -/
def State.chBusy (s : State) (n a : Nat) : Bool :=
  (s.chanHeld n && (heldRegs n).contains a)
    || ((a == R.CH_WSDATA n || a == R.CH_WSSTEP n) && (s.ch n).field != .off)

/-- A write of SCHED_QCFG changes CLASS or ALLOW of a queue that is in use (R294). -/
def State.queueBusy (s : State) (q : Nat) (w : Word) : Bool :=
  (getBits w 1 2 != s.rd (R.SCHED_QCFG_CLASS q) || getBits w 8 8 != s.rd (R.SCHED_QCFG_ALLOW q))
    && s.jobs.any fun j => j.queue == q

/-- A ring is in use (R288). -/
def State.ringBusy (s : State) (r : Nat) : Bool :=
  (s.ring r).resv != 0 || (s.ring r).used != 0 || s.jobs.any fun j => j.ringNo == r

/-- A listen channel is held. -/
def State.anyListenHeld (s : State) : Bool := (List.range 8).any s.listenHolds

/-- A write of EMU_CTL changes what a held listen channel fixes (R369, R386). -/
def State.emuBusy (s : State) (a : Nat) (w : Word) : Bool :=
  s.anyListenHeld &&
    ((a == R.EMU_CTL && (getBits w 8 8 != s.rd R.EMU_CTL_CHMASK || getBits w 6 2 != s.rd R.EMU_CTL_MAXRATE
        || getBits w 2 2 != s.rd R.EMU_CTL_UIDMODE))
      || a == R.EMU_UID_0 || a == R.EMU_UID_1 || (a == R.EMU_FID && w != s.rdWord R.EMU_FID))

/-- A job, or a running measurement, holds a member of group `g` (R184, R199). -/
def State.groupHeld (s : State) (g : Nat) : Bool :=
  (List.range 8).any fun n => bitOf (s.rd (R.SWARM_GCFG_MEMBERS g)) n && s.chanHeld n

/-- A write that its block turns away as a whole, with the status (BUSY or DENIED). -/
def State.turnedAway (s : State) (a : Nat) (w : Word) : RegBlock → Option Byte
  | .time => if a = R.TIME_RATE && s.isOn R.TIME_CTL_SERVO then some stBusy else none
  | .gate =>
    let admin := a == R.GATE_ABASE_LO || a == R.GATE_ABASE_HI || a == R.GATE_ACYCLE || a == R.GATE_ALEN
      || decide (0xE00 ≤ a)
    if admin && s.gate.chg.isSome then some stBusy else none
  | .sched =>
    let q := (a - 0x1000) / 0x20
    if a = R.SCHED_QCFG q && s.queueBusy q w then some stBusy else none
  | .res => if a = R.RES_CFG ((a - 0x1A00) / 0x10) && s.ringBusy ((a - 0x1A00) / 0x10) then some stBusy else none
  | .ch n => if s.chBusy n a then some stBusy else none
  | .inv =>
    if s.invCmd.isSome && (a == R.INV_CMD || a == R.INV_KEY_0 || a == R.INV_KEY_1 || a == R.INV_KEY_2) then some stBusy
    else none
  | .cry =>
    if s.isOn R.CRY_CTL_KEY_LOCK && (a == R.CRY_CMD || a == R.CRY_PRIV) then some stDenied
    else if a = R.CRY_CMD && s.cry.cmd.isSome then some stBusy
    else none
  | .swarm =>
    if a = R.SWARM_CMD && s.measuring then some stBusy
    else if 0x2C10 ≤ a ∧ a < 0x2C30 ∧ s.groupHeld ((a - 0x2C10) / 4 % 4) then some stBusy
    else none
  | .emu => if s.emuBusy a w then some stBusy else none
  | .pmb =>
    if a = R.PMB_CTL && (w ^^^ s.rdWord a) &&& 0x7F06 != 0 && s.pmb.state != .off && s.pmb.state != .fault then some stBusy
    else none
  | .flash => if s.flash.op.isSome && (a == R.FLASH_CFG || a == R.FLASH_TMO) then some stBusy else none
  | .diag => if a = R.DIAG_CMD && s.testing then some stBusy else none
  | .sys | .host | .prot | .pwr | .syn | .budg | .csq | .watch => none

/-! ## Fields -/

/-- The word of a write as its ranges are checked: after the commit an RWL field keeps its value, whatever is written to it
(R510). -/
def RegRow.effective (r : RegRow) (committed : Bool) (old w : Word) : Word :=
  if committed then (w &&& ~~~r.rwl) ||| (old &&& r.rwl) else w

/-- The stored word after a write (R6): RW bits, RWL bits before the commit, and W1C bits. -/
def RegRow.stored (r : RegRow) (committed : Bool) (old w : Word) : Word :=
  let m := r.rw ||| (if committed then 0 else r.rwl)
  (old &&& ~~~(m ||| (w &&& r.w1c))) ||| (w &&& m)

/-- Store the fields of a write; after the commit, a change of an RWL field is refused (R510). -/
def State.storeFields (s : State) (a : Nat) (r : RegRow) (w : Word) : State × Byte :=
  let old := s.rdWord a
  (s.wrWord a (r.stored s.committed old w), if s.committed && (old ^^^ w) &&& r.rwl != 0 then stDenied else stOk)

/-! ## Actions -/

/-- Image calibration and self-tests queue one maintenance job for a channel. -/
def State.queueChan (s : State) (k : MaintKind) (n : Nat) : State :=
  s.addMaint { kind := k, mask := BitVec.ofNat 8 (2 ^ n), since := s.time.nt }

/-- A recalibration is queued, unless one is due, or runs and has its band calibration still before it (R67). -/
def State.queueRecal (s : State) : State :=
  if s.maint.any fun m => m.kind == .recal && (!m.running || s.syn.state == .cal) then s else s.addMaint { kind := .recal, mask := 0, since := s.time.nt }

/-- SYN_CTL: RECAL queues a recalibration; setting DISC begins a new measurement (R67, R75). -/
def State.synCtlWritten (s : State) (was : Bool) (w : Word) : State :=
  let s1 := if s.isOn R.SYN_CTL_DISC && !was then s.wr R.SYN_PHERR_VALID 0 else s
  if bitOf w.toNat 8 then (s1.setFlag R.SYN_CTL_RECAL).queueRecal else s1

/-- An image calibration of channel `n` is queued, unless one is due or runs (R85, R109): that one which runs serves a new request
too: DESIGN CHOICE, log entry 129. -/
def State.queueImageCal (s : State) (n : Nat) : State :=
  if s.maint.any fun m => m.kind == .imageCal && bitOf m.mask.toNat n then s else s.queueChan .imageCal n

/-- IQCAL sets and queues a calibration. -/
def State.iqCalWritten (s : State) (n : Nat) (w : Word) : State :=
  if bitOf w.toNat 8 then (s.setFlag (R.CH_RXIQCAL_IQCAL n)).queueImageCal n else s

/-- A write of CHn_WSDATA (R46, R48). -/
def State.writeShape (s : State) (n : Nat) (w : Word) : State :=
  let k := s.rd (R.CH_WSIDX_IDX n)
  (s.modCh n fun c => { c with
    shape := some (c.shaping.take k ++ leBytes 4 w.toNat ++ c.shaping.drop (k + 4)) }).nextShape n

/-- INV_CMD: the command starts (R144). -/
def State.startInvCmd (s : State) (w : Word) : State :=
  { s with invCmd := some (BitVec.ofNat 4 (getBits w 0 4), BitVec.ofNat 14 (getBits w 16 14)) }.wr R.INV_CMDSTAT_DONE 0

/-- CRY_CMD: the command starts, and PD_CRY powers up for it (R181, R394). -/
def State.startCryCmd (s : State) (w : Word) : State :=
  ({ s with cry := { s.cry with cmd := some (BitVec.ofNat 4 (getBits w 0 4), BitVec.ofNat 5 (getBits w 8 5)) } }.wr
    R.CRY_CMDSTAT_DONE 0).powerCry

/-- VALID of a matrix slot is cleared (R201). -/
def State.spoilSlot (s : State) (slot : Nat) : State :=
  let a := 0x174001 + 0x200 * slot
  s.swrite a [s.sb a &&& 0xFE]

/-- MEASURE: a coupling measurement is queued; a group that is not enabled ends it at once with ERR 1 (R199, R201, R214). -/
def State.startMeasure (s : State) (g : Nat) (slot : BitVec 3) (mw : BitVec 12) : State :=
  let m := BitVec.ofNat 8 (s.rd (R.SWARM_GCFG_MEMBERS g))
  if s.isOn (R.SWARM_GCFG_GEN g) && decide (2 ≤ popcount8 m.toNat) then
    (((s.wr R.SWARM_CMDSTAT_DONE 0).wr R.SWARM_CMDSTAT_ERR 0).spoilSlot slot.toNat).addMaint
      { kind := .coupling (Fin.ofNat 4 g) slot mw, mask := m, since := s.time.nt }
  else (s.wr R.SWARM_CMDSTAT_ERR 1).setFlag R.SWARM_CMDSTAT_DONE

/-- CSQ_QWCX and CSQ_QRES are recomputed (R259). -/
def State.queryDecl (s : State) : State :=
  let d := s.declare (s.rd R.CSQ_QID_ID) (s.rd R.CSQ_QPW0_PW0) (s.rd R.CSQ_QPW1_PW1)
  (((((s.wrSat R.CSQ_QWCX_WCX d.wcx).wr R.CSQ_QRES_MAXPAY d.maxpay).wr R.CSQ_QRES_FOUND d.found.toNat).wr
    R.CSQ_QRES_SWARM_OK d.swarmOk.toNat).wr R.CSQ_QRES_OVER (decide (s.rd R.TIME_MAXEX_MAX_EXCH_US < d.wcx)).toNat)

/-- CSQ_CACHE.INV: every line goes, once a fill in progress ends (R252). -/
def State.dropCache (s : State) : State :=
  if s.flash.filling.isSome then { s with flash := { s.flash with invPend := true } }
  else { s with flash := { s.flash with cache := [] } }

/-- Writing 1 to WM_HIT also clears WM_COUNT (R281). -/
def State.wmHitCleared (s : State) (q : Nat) (w : Word) : State :=
  if bitOf w.toNat 14 then s.modQu q fun u => { u with wmCount := 0 } else s

/-- Outside RUN a new BEAT_US takes force at once (R9): DEDUCED, log entry 62. A record of the image writes it as a host in RUN does:
DESIGN CHOICE, log entry 107. -/
def State.beatWritten (s : State) : State :=
  if s.pwr.state = .run then s else { s with time := { s.time with beatUs := s.rd R.TIME_BEAT_BEAT_US } }

/-- EMU_CTL: a change of EN acts on the cards (R368). -/
def State.emuCtlWritten (s : State) (was : Bool) : State :=
  if s.isOn R.EMU_CTL_EN = was then s else s.emuEnabled (s.isOn R.EMU_CTL_EN)

/-- PMB_CTL: EN starts the rail, or brings it down (R421). A record of the image starts it only after BOOT (R478). -/
def State.pmbCtlWritten (s : State) : State :=
  if s.isOn R.PMB_CTL_EN then (if s.up then s.pmbOn else s) else if s.pmb.state = .off then s else s.pmbOff

/-- PMB_CMD (R421, R422). -/
def State.pmbCmd (s : State) (w : Word) : State × Byte :=
  if getBits w 0 4 = 1 then (s.pmbRecover, stOk) else s.pmbRaw (getBits w 0 4) (BitVec.ofNat 8 (getBits w 8 8)) (BitVec.ofNat 16 (getBits w 16 16))

/-- WATCH_CMD (R413, R424). -/
def State.watchCmd (s : State) (w : Word) : State :=
  let one := bitOf w.toNat 8
  let k := getBits w 16 6
  if getBits w 0 4 = 1 then s.captureSteps one k else s.clearSteps one k

/-- DIAG_CMD: the ROM test, or one test for each channel of CHMASK (R480, R484). -/
def State.diagCmd (s : State) (w : Word) : State :=
  if getBits w 0 4 = 1 then { s with romTest := true }.leaveIdle
  else
    ((s.wr R.DIAG_STAT_CHT_DONE 0).wr R.DIAG_STAT_CHT_FAIL 0).each
      ((List.range 8).filter fun n => bitOf (getBits w 8 8) n) fun s n => s.queueChan .chTest n

/-- GATE_CTL: CANCEL, then SWAP (R349, R351). A SWAP that is refused leaves the register as it was. -/
def State.gateCtlWrite (s : State) (r : RegRow) (w : Word) : State × Byte :=
  let swap := bitOf w.toNat 8
  let cancel := bitOf w.toNat 9
  if swap && !cancel && s.gate.chg.isSome then (s, stBusy)
  else
    let s1 := if cancel then { s with gate := { s.gate with chg := none, chgEn := false } } else s
    if swap && !s1.adminOk then (s1, stRange)
    else
      let s2 := (s1.storeFields R.GATE_CTL r w).1
      (if swap then s2.startSwap false else s2, stOk)

/-- What a write starts beyond its fields; `old` is the word before it. -/
def State.acted (s : State) (a : Nat) (old w : Word) : RegBlock → State
  | .syn => if a = R.SYN_CTL then s.synCtlWritten (bitOf old.toNat 0) w else s
  | .time =>
    if a = R.TIME_BEAT then s.beatWritten
    else if a = R.TIME_CTL && !s.isOn R.TIME_CTL_SYNCO_EN then s.endSynco
    else s
  | .sched => if a = R.SCHED_QSTAT ((a - 0x1000) / 0x20) then s.wmHitCleared ((a - 0x1000) / 0x20) w else s
  | .budg =>
    if a = R.BUDG_QUOTA ((a - 0x1900) / 0x40) ∧ 0x1900 ≤ a then s.quotaWritten ((a - 0x1900) / 0x40) else s
  | .ch n =>
    if a = R.CH_WSDATA n then s.writeShape n w
    else if a = R.CH_ANT n then s.requestAnt n (getBits w 0 3) (bitOf w.toNat 3)
    else if a = R.CH_RXIQCAL n then s.iqCalWritten n w
    else s.railRaise
  | .inv => if a = R.INV_CMD then s.startInvCmd w else s
  | .cry => if a = R.CRY_CMD then s.startCryCmd w else s
  | .swarm =>
    if a = R.SWARM_CMD then
      s.startMeasure (getBits w 4 2) (BitVec.ofNat 3 (getBits w 8 3)) (BitVec.ofNat 12 (getBits w 16 12))
    else s
  | .csq =>
    if a = R.CSQ_QID || a = R.CSQ_QPW0 || a = R.CSQ_QPW1 then s.queryDecl
    else if a = R.CSQ_CACHE && bitOf w.toNat 0 then s.dropCache
    else s
  | .watch =>
    if a = R.WATCH_SCFG then s.writeCfg (s.rd R.WATCH_SIDX_IDX) w
    else if a = R.WATCH_SBASE then s.writeBase (s.rd R.WATCH_SIDX_IDX) w
    else if a = R.WATCH_CMD then s.watchCmd w
    else s
  | .emu => if a = R.EMU_CTL then s.emuCtlWritten (bitOf old.toNat 0) else s
  | .pmb => if a = R.PMB_CTL then s.pmbCtlWritten else s
  | .diag => if a = R.DIAG_CMD then s.diagCmd w else s
  | .sys | .host | .prot | .pwr | .gate | .res | .flash => s

/-- Registers whose words live in structured state: their fields are not stored in the register file. -/
def windowReg (a : Nat) : RegBlock → Bool
  | .ch n => a == R.CH_WSDATA n
  | .watch => a == R.WATCH_SCFG || a == R.WATCH_SBASE
  | _ => false

/-- A write that its register takes, range and block checks passed. -/
def State.takeWrite (s : State) (p : Port) (a : Nat) (w : Word) (b : RegBlock) (r : RegRow) : State × Byte :=
  if a = R.GATE_CTL then s.gateCtlWrite r w
  else if a = R.EMU_MBCMD then s.mailCmd p (getBits w 0 4)
  else if a = R.PMB_CMD then s.pmbCmd w
  else if windowReg a b then (s.acted a 0 w b, stOk)
  else
    let old := s.rdWord a
    let x := s.storeFields a r w
    (x.1.acted a old w b, x.2)

/-- Write of a word whose rights are checked; PROT is apart (R451). -/
def State.writeChecked (s : State) (p : Port) (a : Nat) (w : Word) : State × Byte :=
  match Machine.blockOf a, rowAt a with
  | some b, some r =>
    if r.rw ||| r.rwl ||| r.w1c ||| r.wo = 0 then (s, stOk)
    else if !s.inRange a (r.effective s.committed (s.rdWord a) w) b r then (s, stRange)
    else match s.turnedAway a w b with
      | some st => (s, st)
      | none => s.takeWrite p a w b r
  | _, _ => (s, stOk)

/-! ## PROT (R451 to R454) -/

/-- A PROT word of a frame: its index in the frame, address and value. -/
structure ProtWord where
  idx : Nat
  addr : Nat
  val : Word
  deriving DecidableEq, Repr

/-- PRIV that the words of a frame give port `q`. -/
def protPriv (ws : List ProtWord) (q : Nat) : Option Nat :=
  (ws.find? fun x => x.addr == R.PROT_PCFG q).map fun x => getBits x.val 0 2

/-- The ports that the words of a frame of OWNER `p` make OWNER, when they leave exactly one (R452). -/
def newOwner (p : Nat) (ws : List ProtWord) : Option Nat :=
  match [0, 1, 2, 3].filter fun q => protPriv ws q == some 2 with
  | [] => if (protPriv ws p).isNone then some p else none
  | [q] => some q
  | _ => none

/-- The stored word of a PROT register after a frame. -/
def State.putProt (s : State) (x : ProtWord) : State :=
  match rowAt x.addr with
  | none => s
  | some r => s.wrWord x.addr (r.stored s.committed (s.rdWord x.addr) x.val)

/-- The protection table: every PROT word that a write sets. -/
def protTable : List Nat :=
  (List.range 4).flatMap (fun p => [R.PROT_PCFG p, R.PROT_RMASK p, R.PROT_WMASK p, R.PROT_MMASK p])
    ++ (List.range 8).map R.PROT_QOWN ++ (List.range 4).map R.PROT_ROWN

/-- The commit is asked for. -/
def commits (ws : List ProtWord) : Bool := ws.any fun x => x.addr == R.PROT_CTL && bitOf x.val.toNat 0

/-- The PROT words of one frame of OWNER `p` take effect together; `none` when they may not (R452). -/
def State.applyProt (s : State) (p : Nat) (ws : List ProtWord) : Option State :=
  if ws.isEmpty then some s
  else
    match newOwner p ws with
    | none => none
    | some q =>
      let s1 := ws.foldl (fun s x => s.putProt x) s
      let s2 := if q = p then s1 else s1.wr (R.PROT_PCFG_PRIV p) 1
      let sets := commits ws && !s.committed
      let s3 : State := { s2 with committed := s2.committed || commits ws }
      some (if sets || protTable.any (fun a => s2.rdWord a != s.rdWord a) then s3.notifyAll 18 else s3)

/-! ## Words of a frame (R443, R444) -/

/-- A refused word counts when it is DENIED, and PROT_DENY keeps it (R456, R457). -/
def State.noteDenied (s : State) (p : Nat) (opc : Byte) (a : Nat) : State :=
  ((((s.bump (R.HOST_CNT_2_N_DENIED p)).wr R.PROT_DENY_PORT p).wr R.PROT_DENY_OPC opc.toNat).wr R.PROT_DENY_ADDR a)

/-- The statuses of a frame's words: the index of the lowest-addressed refused one, and its status (R444). -/
abbrev Refusals := Option (Nat × Byte)

/-- The lower of two refusals. -/
def lowerRefusal (a b : Refusals) : Refusals :=
  match a, b with
  | none, b => b
  | some x, none => some x
  | some x, some y => if y.1 < x.1 then some y else some x

/-- A word refused with a status joins the refusals. -/
def refusalOf (k : Nat) (st : Byte) : Refusals := if st = stOk then none else some (k, st)

/-- A frame's writes so far. -/
structure WriteRun where
  s : State
  ref : Refusals := none
  prot : List ProtWord := []
  deriving DecidableEq, Repr

/-- A word that ended with a status. -/
def WriteRun.note (r : WriteRun) (p : Port) (k a : Nat) (s : State) (st : Byte) : WriteRun :=
  { r with s := if st = stDenied then s.noteDenied p.val 0x11 a else s, ref := lowerRefusal r.ref (refusalOf k st) }

/-- Word `k` of a REG_WRITE, at address `a`. -/
def WriteRun.word (r : WriteRun) (p : Port) (k a : Nat) (w : Word) : WriteRun :=
  if 0x3FFC < a then r.note p k a r.s stRange
  else
    match Machine.blockOf a with
    | none => r
    | some b =>
      if !r.s.mayWriteReg p.val b a then r.note p k a r.s stDenied
      else if b = .prot then
        match rowAt a with
        | none => r
        | some row =>
          if row.rw ||| row.wo = 0 then r
          else if !r.s.inRange a w b row then r.note p k a r.s stRange
          else { r with prot := r.prot ++ [⟨k, a, w⟩] }
      else
        let x := r.s.writeChecked p a w
        r.note p k a x.1 x.2

/-- Words `k` and on of a REG_WRITE. -/
def WriteRun.words (r : WriteRun) (p : Port) : Nat → Nat → List Word → WriteRun
  | _, _, [] => r
  | k, a, w :: ws => (r.word p k a w).words p (k + 1) (a + 4) ws

/-- The PROT words of the frame take effect last: they apply to later frames (R451). -/
def WriteRun.finish (r : WriteRun) (p : Port) : WriteRun :=
  match r.s.applyProt p.val r.prot with
  | some s => { r with s := s }
  | none => { r with ref := lowerRefusal r.ref (r.prot.head?.map fun x => (x.idx, stRange)) }

/-- REG_WRITE of consecutive words (R442 to R444, R451). -/
def State.regWrite (s : State) (p : Port) (a : Nat) (ws : List Word) : State × Refusals :=
  let r := (({ s := s } : WriteRun).words p 0 a ws).finish p
  (r.s, r.ref)

/-- A frame's reads so far, with the addresses of the words that were denied. -/
structure ReadRun where
  s : State
  ref : Refusals := none
  out : List Word := []
  denied : List Nat := []
  deriving DecidableEq, Repr

/-- Word `k` of a REG_READ. -/
def ReadRun.word (r : ReadRun) (p : Port) (k a : Nat) : ReadRun :=
  let x := r.s.readReg p.val a
  { s := x.2.2
    ref := lowerRefusal r.ref (refusalOf k x.2.1)
    out := r.out ++ [x.1]
    denied := if x.2.1 = stDenied then r.denied ++ [a] else r.denied }

/-- Words `k` to `k + n - 1` of a REG_READ. -/
def ReadRun.words (r : ReadRun) (p : Port) : Nat → Nat → Nat → ReadRun
  | _, _, 0 => r
  | k, a, n + 1 => (r.word p k a).words p (k + 1) (a + 4) n

/-- REG_READ of consecutive words (R442 to R446). Its own denied words are events of the cycle in which it samples, so they
appear at the next read only (R6, R445). -/
def State.regReadRun (s : State) (p : Port) (a n : Nat) : List Word × State × Refusals :=
  let r := ({ s := s } : ReadRun).words p 0 a n
  (r.out, r.s.each r.denied fun s a => s.noteDenied p.val 0x10 a, r.ref)

end Sys2Proof.Machine
end

