-- ==== Sys2Proof/Machine/MemAccess.lean ====
section
/-!
DEFINITION. The MEM space as the host sees it (R28, R29, R448 to R449): the regions, the mailbox views, the flash window and
its programming.
-/

namespace Sys2Proof.Machine

/-! ## Regions -/

/-- Number of the region of an address, in the order of R28; none outside every region. -/
def memRegion (a : Nat) : Option Nat :=
  if a < 0x80000 then some 0
  else if a < 0xC0000 then some 1
  else if a < 0x100000 then some 2
  else if a < 0x140000 then some 3
  else if a < 0x160000 then some 4
  else if a < 0x170000 then some 5
  else if a < 0x174000 then some 6
  else if a < 0x180000 then some 7
  else if a < 0x200000 then some 8
  else if 0x1000000 ≤ a ∧ a < 0x2000000 then some 9
  else none

/-- MREAD lets the port read the region (R449). -/
def State.mayReadMem (s : State) (p k : Nat) : Bool := s.priv p == 2 || bitOf (s.rd (R.PROT_MMASK_MREAD p)) k

/-- MWRITE lets the port write the region (R449). -/
def State.mayWriteMem (s : State) (p k : Nat) : Bool :=
  s.priv p == 2 || (s.priv p == 1 && bitOf (s.rd (R.PROT_MMASK_MWRITE p)) k)

/-- The port holds the wire lock (R376). -/
def State.ownsMailbox (s : State) (p : Nat) : Bool := s.emu.arb == .wireOpen && s.emu.ownPort.val == p

/-! ## The flash window (R468 to R470) -/

/-- First byte of the flash window. -/
def winBase : Nat := 0x1000000

/-- The window is closed: a flash operation runs or the flash reports write-in-progress (R468), or a record of the journal
or another window write is being programmed (R470). -/
def State.winClosed (s : State) : Bool :=
  s.flash.op.isSome || s.flash.wip || s.flash.win.isSome || s.emu.jwrite.isSome

/-- Two ranges of addresses meet. -/
def meets (a n b m : Nat) : Bool := decide (a < b + m) && decide (b < a + n) && decide (0 < n) && decide (0 < m)

/-- Bytes of an image slot. -/
def slotBytesLen : Nat := 0x40000

/-- An erase or program of the range is barred: the slot of the image in force, or the journal while JEN is 1 (R384, R470). -/
def State.flashBarred (s : State) (off n : Nat) : Bool :=
  (s.boot == .started && !s.isOn R.SYS_BOOT_NOIMG && meets off n (slotBytesLen * s.rd R.SYS_BOOT_SLOT) slotBytesLen)
    || (s.isOn R.EMU_CTL_JEN && meets off n 0x80000 0x10000)

/-- A range of the store (`src` 1) or of the flash (`src` 2) holds code latched by a job (R250). -/
def State.codeLatched (s : State) (src : BitVec 2) (off n : Nat) : Bool :=
  s.jobs.any fun j => j.state.holds && j.decl.src == src && meets off n j.decl.addr (2 * j.decl.ninst)

/-! ## Reads -/

/-- Ring storage reads zero until an entry has been posted; where the device then places entries is not stated, so its bytes
are free. -/
def State.ringWord (s : State) (a : Nat) : Word :=
  if s.ringsUsed then BitVec.ofNat 32 (leNat ((List.range 4).map fun i => Config.ringByte s.fresh (a + i))) else 0

/-- One word of the MEM space as port `p` reads it, with its status (R28, R29, R378, R448, R468). -/
def State.memWord (s : State) (p a : Nat) : Word × Byte :=
  match memRegion a with
  | none => (0, stRange)
  | some k =>
    if !s.mayReadMem p k then (0, stDenied)
    else
      match k with
      | 3 => (s.ringWord a, stOk)
      | 5 => (if a < 0x164000 then 0 else BitVec.ofNat 32 (s.snat a 4), stOk)
      | 6 =>
        if a < 0x172000 then (BitVec.ofNat 32 (leNat (Memory.bytes s.published (a - 0x170000) 4)), stOk)
        else if s.ownsMailbox p then (BitVec.ofNat 32 (leNat (Memory.bytes s.shadow (a - 0x172000) 4)), stOk)
        else (0, stDenied)
      | 9 =>
        if s.density ≤ a - winBase then (0, stRange)
        else if s.winClosed then (0, stBusy)
        else (BitVec.ofNat 32 (leNat (s.fbytes (a - winBase) 4)), stOk)
      | _ => (BitVec.ofNat 32 (s.snat a 4), stOk)

/-- A frame's reads so far: the words, the refusals, and the state. -/
structure MemRun where
  s : State
  ref : Refusals := none
  out : List Word := []
  /-- Words that the frame programs into the flash: index, offset, bytes. -/
  prog : List WinRun := []
  /-- The window answered BUSY. -/
  wbusy : Bool := false
  /-- The window was read. -/
  wread : Bool := false
  deriving DecidableEq, Repr

/-- A word that ended with a status. -/
def MemRun.note (r : MemRun) (p : Nat) (opc : Byte) (k : Nat) (st : Byte) : MemRun :=
  { r with s := if st = stDenied then r.s.noteDenied p opc 0 else r.s, ref := lowerRefusal r.ref (refusalOf k st) }

/-- Word `k` of a MEM_READ. -/
def MemRun.read (r : MemRun) (p k a : Nat) : MemRun :=
  let x := r.s.memWord p a
  let r1 := r.note p 0x20 k x.2
  { r1 with
    out := r1.out ++ [x.1]
    wbusy := r1.wbusy || (decide (winBase ≤ a) && x.2 == stBusy), wread := r1.wread || (decide (winBase ≤ a) && x.2 == stOk) }

/-- Words `k` and on of a MEM_READ. -/
def MemRun.reads (r : MemRun) (p : Nat) : Nat → Nat → Nat → MemRun
  | _, _, 0 => r
  | k, a, n + 1 => (r.read p k a).reads p (k + 1) (a + 4) n

/-- A window access answered BUSY counts (R486); a window access wakes a flash in deep power-down (R471). -/
def MemRun.close (r : MemRun) : State :=
  let s1 := if r.wbusy then r.s.bump R.FLASH_ECNT_N_WBUSY else r.s
  if r.wread || !r.prog.isEmpty then s1.modFlash fun f => { f with asleep := false } else s1

/-- MEM_READ of `n` words (R448): the words, the state and the refusals. -/
def State.memRead (s : State) (p a n : Nat) : List Word × State × Refusals :=
  let r := ({ s := s } : MemRun).reads p 0 a n
  let s1 := r.close
  let s2 := if s.ringsUsed && s.mayReadMem p 3 && meets a (4 * n) 0x100000 0x40000 then { s1 with fresh := s1.fresh + 1 } else s1
  (r.out, s2, r.ref)

/-! ## Writes -/

/-- A byte of the swarm region is part of a table: bytes 272 to 511 of a matrix slot are reserved (R200, R213). -/
def swarmTable (a : Nat) : Bool :=
  (decide (0x174000 ≤ a) && decide (a < 0x175000) && decide ((a - 0x174000) % 512 < 272))
    || (decide (0x175000 ≤ a) && decide (a < 0x175C00)) || (decide (0x176000 ≤ a) && decide (a < 0x176442))

/-- Bytes of a word, with their addresses. -/
def wordCells (a : Nat) (w : Word) : List (Nat × Byte) := ((List.range 4).map (a + ·)).zip (leBytes 4 w.toNat)

/-- A running coupling measurement writes the slot of the address (R213). -/
def State.slotMeasured (s : State) (a : Nat) : Bool :=
  s.maint.any fun m => match m.kind with
    | .coupling _ slot _ => m.running && decide (0x174000 + 0x200 * slot.toNat ≤ a) && decide (a < 0x174200 + 0x200 * slot.toNat)
    | .imageCal | .chTest | .recal | .phaseStep _ => false

/-- A word of the swarm tables (R213). -/
def State.swarmMem (s : State) (a : Nat) (w : Word) : State × Byte :=
  let cells := wordCells a w
  if s.slotMeasured a then (s, stBusy)
  else if cells.all (fun c => !swarmTable c.1) || cells.any fun c => !swarmTable c.1 && c.2 != 0 then (s, stRange)
  else (s.swrite a (leBytes 4 w.toNat), stOk)

/-- Number of the public key that a word of the key tables belongs to (R150). -/
def keyOfWord (a : Nat) : Option Nat :=
  if 0x164000 ≤ a ∧ a < 0x164800 then some ((a - 0x164000) / 64)
  else if 0x164800 ≤ a ∧ a < 0x164A00 then some ((a - 0x164800) / 16)
  else none

/-- PKVALID of the key that a word touches is cleared (R155). -/
def State.spoilKey (s : State) (a : Nat) : State :=
  match keyOfWord a with
  | none => s
  | some k => s.wr R.CRY_PKVALID_VALID (s.rd R.CRY_PKVALID_VALID &&& (2 ^ 32 - 1 - 2 ^ k))

/-- A word of the key tables (R150 to R155). -/
def State.keyMem (s : State) (a : Nat) (w : Word) : State × Byte :=
  if 0x164A50 ≤ a then (s, stRange)
  else if s.isOn R.CRY_CTL_KEY_LOCK then (s, stDenied)
  else ((s.swrite a (leBytes 4 w.toNat)).spoilKey a, stOk)

/-- A word of the mailbox views (R378). -/
def State.mailMem (s : State) (p a : Nat) (w : Word) : State × Byte :=
  if 0x172000 ≤ a ∧ s.ownsMailbox p then (s.setShadow (Memory.setBytes s.shadow (a - 0x172000) (leBytes 4 w.toNat)), stOk)
  else (s, stDenied)

/-- Status of a word written to the flash window (R250, R468, R470). -/
def State.winStatus (s : State) (off : Nat) : Byte :=
  if s.density ≤ off then stRange
  else if s.winClosed then stBusy
  else if s.flashBarred off 4 then stDenied
  else if s.codeLatched 2 off 4 then stBusy
  else stOk

/-- A word joins the runs of a window write: the last run goes on when the word follows it within its page (R469). -/
def joinRun (page : Nat) (runs : List WinRun) (k off : Nat) (bs : List Byte) : List WinRun :=
  match runs.getLast? with
  | some x =>
    if x.off + x.data.length = off ∧ x.off / page = off / page then runs.dropLast ++ [{ x with data := x.data ++ bs }]
    else runs ++ [⟨k, off, bs⟩]
  | none => [⟨k, off, bs⟩]

/-- A word written to a region other than the flash window, masks passed (R28, R29). -/
def State.memStore (s : State) (p k a : Nat) (w : Word) : State × Byte :=
  match k with
  | 0 | 1 | 2 | 3 => (s, stDenied)
  | 4 => if s.codeLatched 1 (a - 0x140000) 4 then (s, stBusy) else (s.swrite a (leBytes 4 w.toNat), stOk)
  | 5 => s.keyMem a w
  | 6 => s.mailMem p a w
  | 7 => s.swarmMem a w
  | _ => (s.swrite a (leBytes 4 w.toNat), stOk)

/-- Word `k` of a MEM_WRITE. -/
def MemRun.write (r : MemRun) (p k a : Nat) (w : Word) : MemRun :=
  match memRegion a with
  | none => r.note p 0x21 k stRange
  | some 9 =>
    if !r.s.mayWriteMem p 9 then r.note p 0x21 k stDenied
    else
      let st := r.s.winStatus (a - winBase)
      if st = stOk then { r with prog := joinRun r.s.pageSize r.prog k (a - winBase) (leBytes 4 w.toNat) }
      else
        let r1 := r.note p 0x21 k st
        { r1 with wbusy := r1.wbusy || st == stBusy }
  | some g =>
    if !r.s.mayWriteMem p g then r.note p 0x21 k stDenied
    else
      let x := r.s.memStore p g a w
      { r with s := x.1 }.note p 0x21 k x.2

/-- Words `k` and on of a MEM_WRITE. -/
def MemRun.writes (r : MemRun) (p : Nat) : Nat → Nat → List Word → MemRun
  | _, _, [] => r
  | k, a, w :: ws => (r.write p k a w).writes p (k + 1) (a + 4) ws

/-- MEM_WRITE of words (R448): a write into the window goes on with the flash (R469). -/
def State.memWrite (s : State) (p : Port) (a : Nat) (ws : List Word) : State × Refusals :=
  let r := ({ s := s } : MemRun).writes p.val 0 a ws
  let s1 := r.close
  if r.prog.isEmpty then (s1, r.ref)
  else (s1.modFlash fun f => { f with win := some { port := p, runs := r.prog, ref := r.ref } }, r.ref)

end Sys2Proof.Machine
end

