-- ==== Sys2Proof/Machine/Flash.lean ====
section
/-!
DEFINITION. The flash port (chapter 14, R466 to R476): flash operations, the commands that erase and program, writes
through the window, and the check of a configuration image.
-/

namespace Sys2Proof.Machine

/-! ## Images (R473 to R476) -/

/-- A record of an image (R475). -/
structure ImgRec where
  typ : Nat
  rarg : Nat
  body : List Byte
  deriving DecidableEq, Repr

/-- The records that fill a byte string exactly; `none` when they do not, or when byte 1 of a record header is not zero or
its BLEN is no multiple of 4. -/
def parseRecords : Nat → List Byte → Option (List ImgRec)
  | _, [] => some []
  | 0, _ => none
  | k + 1, t :: z :: b0 :: b1 :: r0 :: r1 :: r2 :: r3 :: rest =>
    let n := leNat [b0, b1]
    if z ≠ 0 ∨ n % 4 ≠ 0 ∨ rest.length < n then none
    else (parseRecords k (rest.drop n)).map fun l => ⟨t.toNat, leNat [r0, r1, r2, r3], rest.take n⟩ :: l
  | _ + 1, _ => none

/-- BLEN of a record. -/
def ImgRec.blen (r : ImgRec) : Nat := r.body.length

/-- The little-endian number of `n` bytes at offset `i` of the body. -/
def ImgRec.num (r : ImgRec) (i n : Nat) : Nat := leNat ((r.body.drop i).take n)

/-- Words of a directory entry in the body of a ROUTINE record. -/
def ImgRec.entry (r : ImgRec) : List Nat := (List.range 8).map fun k => r.num (4 * k) 4

/-- The code of a ROUTINE record is written into the store: LOC is 0 (R475). -/
def ImgRec.codeStored (r : ImgRec) : Bool := !bitOf (r.num 0 4) 24

/-- Byte offset of the code in the store. -/
def ImgRec.codeOfs (r : ImgRec) : Nat := bitsOf (r.num 0 4) 0 24

/-- RARG, BLEN and targets of a record fit its type (R475, R476). DEDUCED in detail: log entry 63. -/
def ImgRec.ok (r : ImgRec) : Bool :=
  let n := r.blen
  match r.typ with
  | 0 => r.rarg == 0
  | 1 => r.rarg % 4 == 0 && decide (r.rarg < 0x4000) && decide (r.rarg + n ≤ 0x4000)
  | 2 =>
    r.rarg % 4 == 0 && ((decide (0x140000 ≤ r.rarg) && decide (r.rarg < 0x160000) && decide (r.rarg + n ≤ 0x160000))
      || (decide (0x180000 ≤ r.rarg) && decide (r.rarg < 0x200000) && decide (r.rarg + n ≤ 0x200000)))
  | 3 =>
    decide (0x100 ≤ r.rarg) && decide (r.rarg ≤ 0x3FF) && decide (32 ≤ n)
      && (!r.codeStored || (decide (0x6000 ≤ r.codeOfs) && decide (r.codeOfs < 0x20000) && decide (r.codeOfs + (n - 32) ≤ 0x20000)))
  | 4 =>
    let kind := bitsOf r.rarg 0 2
    let first := bitsOf r.rarg 16 11
    r.rarg == kind + first * 2 ^ 16
      && ((kind == 0 && n % 16 == 0 && decide (first < 1024) && decide (first + n / 16 ≤ 1024))
        || (kind == 1 && n % 80 == 0 && decide (first < 32) && decide (first + n / 80 ≤ 32))
        || (kind == 2 && n == 80 && first == 0))
  | 5 => decide (r.rarg ≤ 1) && decide (16 ≤ n) && decide (r.num 12 4 ≤ 64) && n == 16 + 8 * r.num 12 4
  | 6 => decide (r.rarg ≤ 1) && n == 112
  | 7 => r.rarg % 4 == 0 && decide (r.rarg < 0xC000) && decide (r.rarg + n ≤ 0xC000)
  | 8 => decide (r.rarg ≤ 63) && n % 8 == 0 && decide (r.rarg + n / 8 ≤ 64)
  | _ => false

/-- Every record is right, and a PROT record is the last one (R476). -/
def recordsOk : List ImgRec → Bool
  | [] => true
  | r :: rs => r.ok && (r.typ != 6 || rs.isEmpty) && recordsOk rs

/-- Flash offset of an image slot. -/
def imgBase (slot : Nat) : Nat := slotBytesLen * slot

/-- The little-endian number of `n` bytes at offset `i` of a slot. -/
def State.imgNum (s : State) (slot i n : Nat) : Nat := leNat (s.fbytes (imgBase slot + i) n)

/-- LEN of the image of a slot. -/
def State.imgLen (s : State) (slot : Nat) : Nat := s.imgNum slot 12 4

/-- What the header of a slot fails (R476): 0 nothing, 1 MAGIC, FMT, SEQ or a reserved byte, 2 HWID, 3 LEN. DEDUCED where
SEQ and the reserved bytes count: log entry 63. -/
def State.headWhy (s : State) (slot : Nat) : Nat :=
  let seq := s.imgNum slot 8 4
  let len := s.imgLen slot
  if s.fbytes (imgBase slot) 4 != [0x53, 0x4C, 0x54, 0x48] || s.imgNum slot 4 2 != 1 || s.imgNum slot 6 2 != 0
      || seq == 0 || seq == 0xFFFFFFFF || s.imgNum slot 20 40 != 0 then 1
  else if s.imgNum slot 16 4 != 0x884000B0 then 2
  else if decide (len < 72) || decide (262144 < len) || len % 4 != 0 then 3
  else 0

/-- The records of the image of a slot. -/
def State.imgRecords (s : State) (slot : Nat) : Option (List ImgRec) :=
  let n := s.imgLen slot - 64
  parseRecords n (s.fbytes (imgBase slot + 64) n)

/-- ICRC of the image of a slot is right (R473). -/
def State.icrcOk (s : State) (slot : Nat) : Bool :=
  s.imgNum slot 60 4
    == (crc32 (s.fbytes (imgBase slot) 60 ++ s.fbytes (imgBase slot + 64) (s.imgLen slot - 64))).toNat

/-- Why the image of a slot is not valid (R476), as FLASH_IMG.WHY gives it; 0 when it is valid. -/
def State.imgWhy (s : State) (slot : Nat) : Nat :=
  if s.headWhy slot ≠ 0 then s.headWhy slot
  else if !s.icrcOk slot then 4
  else match s.imgRecords slot with
    | none => 5
    | some l => if recordsOk l then 0 else 5

/-- The result of a check goes to FLASH_IMG and FLASH_SEQ (R471, R486). -/
def State.noteImage (s : State) (slot why : Nat) : State :=
  let seq := if s.headWhy slot = 0 then s.imgNum slot 8 4 else 0
  if slot = 0 then
    ((s.wr R.FLASH_IMG_A_VALID (decide (why = 0)).toNat).wr R.FLASH_IMG_WHY_A why).wr R.FLASH_SEQA_SEQ seq
  else ((s.wr R.FLASH_IMG_B_VALID (decide (why = 0)).toNat).wr R.FLASH_IMG_WHY_B why).wr R.FLASH_SEQB_SEQ seq

/-! ## Flash operations (R470 to R472) -/

/-- An accepted operation runs; DONE and ERR clear, and a flash in deep power-down is woken (R471, R472). -/
def State.startFlashOp (s : State) (o : FlashOp) : State :=
  let s1 := ((s.wr R.FLASH_STAT_OP o.opc.toNat).wr R.FLASH_STAT_DONE 0).wr R.FLASH_STAT_ERR 0
  s1.modFlash fun f => { f with op := some o, asleep := false }

/-- An operation on a range of the flash: RANGE, then DENIED, then BUSY, and otherwise it starts (R470 to R472). The order is
DEDUCED: log entry 64. -/
def State.offerFlashOp (s : State) (o : FlashOp) (bytes : Nat) (ok erases writes : Bool) : State × Answer :=
  if !ok || decide (s.density < o.off + bytes) then (s, ans stRange)
  else if writes && s.flashBarred o.off bytes then (s, ans stDenied)
  else if s.flash.op.isSome || (erases && s.codeLatched 2 o.off bytes) then (s, ans stBusy)
  else (s.startFlashOp o, ans stOk)

/-- FL_INFO: JEDEC ID, geometry, density, page size and erase opcode (R471). -/
def State.infoBytes (s : State) : List Byte :=
  leBytes 3 (s.rd R.FLASH_ID_JEDEC) ++ leBytes 1 (s.rdWord R.FLASH_GEOM).toNat ++ leBytes 4 s.density ++ leBytes 2 s.pageSize
    ++ leBytes 1 (s.rd R.FLASH_GEOM_ERASE4K) ++ List.replicate 5 0

/-- FL_INFO frame. -/
def State.flInfo (s : State) (arg : Word) : State × Answer :=
  if arg ≠ 0 then (s, ans stRange)
  else if s.flash.op.isSome then (s, ans stBusy)
  else (s.modFlash fun f => { f with asleep := false }, { payload := s.infoBytes })

/-- FL_ERASE frame. -/
def State.flErase (s : State) (p : Port) (arg : Word) : State × Answer :=
  let n := getBits arg 12 12 + 1
  s.offerFlashOp { opc := 1, port := p, off := 4096 * getBits arg 0 12, left := n } (4096 * n) (getBits arg 24 8 == 0)
    true true

/-- FL_PROGRAM frame. -/
def State.flProgram (s : State) (p : Port) (arg : Word) (data : List Byte) : State × Answer :=
  s.offerFlashOp { opc := 2, port := p, off := getBits arg 0 24, left := data.length, data := data } data.length
    (getBits arg 24 8 == 0 && !data.isEmpty && decide (data.length ≤ 4096)) false true

/-- FL_CRC frame; a payload too short for the length is out of range. -/
def State.flCrc (s : State) (p : Port) (arg : Word) (data : List Byte) : State × Answer :=
  let n := leNat (data.take 4)
  s.offerFlashOp { opc := 3, port := p, off := getBits arg 0 24, left := n } n
    (getBits arg 24 8 == 0 && decide (4 ≤ data.length) && decide (1 ≤ n) && decide (n ≤ 16777216)) false false

/-- IMG_CHECK frame; `left` of the operation is the slot. -/
def State.imgCheck (s : State) (p : Port) (arg : Word) : State × Answer :=
  s.offerFlashOp { opc := 4, port := p, off := 0, left := getBits arg 0 1 } 0 (getBits arg 1 31 == 0) false false

/-- FL_ABORT frame: the operation stops after its current command, with ERR 3; without one there is nothing to stop. -/
def State.flAbort (s : State) (arg : Word) : State × Answer :=
  if arg ≠ 0 then (s, ans stRange)
  else
    match s.flash.op with
    | none => (s, ans stOk)
    | some o => (s.modFlash fun f => { f with op := some { o with err := if o.err = 0 then 3 else o.err } }, ans stOk)

/-- FL_SLEEP frame. -/
def State.flSleep (s : State) (p : Port) (arg : Word) : State × Answer :=
  s.offerFlashOp { opc := 6, port := p, off := 0, left := 0 } 0 (arg == 0) false false

/-- FL_RESET frame: the software reset is sent once the flash reports no write-in-progress, since the port interrupts no command
and sends none before a command that a reset cut off from its sender has ended (R460, R470, R471). -/
def State.flReset (s : State) (arg : Word) : State × Answer :=
  if arg ≠ 0 ∨ !s.isOn R.FLASH_GEOM_SRST then (s, ans stRange)
  else if s.flash.op.isSome then (s, ans stBusy)
  else (s.modFlash fun f => { f with asleep := false }, ans stOk)

/-! ## Erase and program commands (R469 to R471) -/

/-- Bytes that a command did not end as it should hold free values. -/
def State.spoilFlash (s : State) (off n : Nat) : State :=
  let (bs, s1) := s.takeFresh fun k => (List.range n).map fun i => Config.cutByte k (off + i)
  s1.modFlash fun f => { f with
    mem := ((List.range n).zip bs).foldl (fun m x => sput flashDefault m (off + x.1) x.2) f.mem }

/-- Bytes of the header of slot `k` that a range covers. -/
def headerPart (k off n : Nat) : Nat × Nat :=
  let a := max off (imgBase k)
  (a, min (off + n) (imgBase k + 64) - a)

/-- The header of slot `k` was cut within a range: an image whose ICRC its bytes happen to match loses a bit of them, so that it
fails (R479). -/
def State.breakHeader (s : State) (off n k : Nat) : State :=
  let p := headerPart k off n
  if p.2 ≠ 0 ∧ s.headWhy k = 0 ∧ s.icrcOk k then s.fset p.1 (s.fb p.1 ^^^ 1) else s

/-- A command that did not end as it should: its bytes are free values, and no image header that it cut is valid (R479). -/
def State.cutRange (s : State) (off n : Nat) : State := (s.spoilFlash off n).each [0, 1] fun s k => s.breakHeader off n k

/-- Lines of the routine cache that a write through the window covers go (R252). -/
def State.dropLines (s : State) (off n : Nat) : State :=
  s.modFlash fun f => { f with cache := f.cache.filter fun l => !meets (32 * l.line) 32 off n }

/-- Bytes of the next page program of an operation (R471). -/
def State.pageRun (s : State) (o : FlashOp) : List Byte := o.data.take (s.pageSize - o.off % s.pageSize)

/-- The next erase or program of an operation is sent. -/
def State.sendUnit (s : State) (o : FlashOp) : State :=
  if o.opc = 1 then
    (s.eraseSector o.off).modFlash fun f => { f with op := some { o with busy := true }, cmd := some (o.off, 4096) }
  else
    let run := s.pageRun o
    (s.programBytes o.off run).modFlash fun f => { f with
      op := some { o with busy := true }, cmd := some (o.off, run.length) }

/-- An error of the flash shows at once (R469, R486). -/
def State.flashError (s : State) (err : Nat) : State := (s.setFlag R.FLASH_STAT_ERR_SEEN).bump R.FLASH_ECNT_N_ERR |>.wr R.FLASH_STAT_ERR err

/-- The reply of port `p` takes its outcome once its window write has ended (R439, R444, R469). -/
def State.settleReply (s : State) (p : Port) (ref : Option (Nat × Byte)) : State :=
  let st := (ref.map Prod.snd).getD stOk
  let info : Word := BitVec.ofNat 32 ((ref.map Prod.fst).getD 0xFFFF)
  s.modPt p.val fun t => { t with
    cached := { t.cached with status := st, info := info }, carried := { t.carried with status := st, info := info } }

/-- A window write has ended. -/
def State.endWindow (s : State) (w : WinWrite) (ref : Option (Nat × Byte)) : State :=
  (s.modFlash fun f => { f with win := none }).settleReply w.port ref

/-- A window write stops with ERR 1 or 2: its run and those after it are refused with RANGE (R469). -/
def State.stopWindow (s : State) (w : WinWrite) (err : Nat) : State :=
  (s.flashError err).endWindow w (lowerRefusal w.ref (w.runs.head?.map fun x => (x.idx, stRange)))

/-- The next run of a window write is programmed. -/
def State.sendRun (s : State) (w : WinWrite) : State :=
  match w.runs with
  | [] => s.endWindow w w.ref
  | x :: _ =>
    ((s.programBytes x.off x.data).dropLines x.off x.data.length).modFlash fun f => { f with
      win := some { w with busy := true }, cmd := some (x.off, x.data.length) }

/-- An operation whose unit has ended. -/
def State.unitDone (s : State) (o : FlashOp) (n : Nat) : State :=
  let o1 : FlashOp := { o with
    busy := false, done := o.done + 1, off := o.off + n, left := o.left - (if o.opc = 1 then 1 else n), data := o.data.drop n }
  (s.modFlash fun f => { f with op := some o1 }).bump (if o.opc = 1 then R.FLASH_CNT_N_SECTOR else R.FLASH_CNT_N_PAGE)

/-- A window write whose run has ended: the next one is due, or the write has ended. -/
def State.runDone (s : State) (w : WinWrite) : State :=
  let s1 := s.bump R.FLASH_CNT_N_PAGE
  match w.runs with
  | _ :: x :: rest => s1.modFlash fun f => { f with win := some { w with runs := x :: rest, busy := false } }
  | _ => s1.endWindow w w.ref

/-- The flash operation whose command runs inside the flash. -/
def FlashSt.opRuns (f : FlashSt) : Option FlashOp := f.op.bind fun o => if o.busy then some o else none
/-- The window write whose command runs inside the flash. -/
def FlashSt.winRuns (f : FlashSt) : Option WinWrite := f.win.bind fun w => if w.busy then some w else none

/-- Write-in-progress has cleared (R469): what sent the command goes on. -/
def State.cmdDone (s : State) (n : Nat) : State :=
  let s1 := s.modFlash fun f => { f with cmd := none }
  let s2 :=
    match s1.flash.opRuns, s1.flash.winRuns with
    | some o, _ => s1.unitDone o n
    | none, some w => s1.runDone w
    | none, none => s1.modEmu fun e => { e with jwrite := e.jwrite.map fun w : JWrite => { w with step := w.step + 1 } }
  s2.startFill

/-- Limit in ms of the command in progress: of a page program, or of a sector erase (R469). -/
def State.cmdLimit (s : State) : Nat :=
  let page := match s.flash.opRuns, s.flash.winRuns with
    | some o, _ => o.opc == 2
    | none, some _ => true
    | none, none => (s.emu.jwrite.map fun w : JWrite => decide (w.sectors ≤ w.step)) == some true
  if page then s.rd R.FLASH_TMO_PP_MAX_MS else s.rd R.FLASH_TMO_SE_MAX_MS

/-- The limit of the command in progress has passed: the operation or window write that sent it stops with ERR 1, and a
journal record fails (R383). A command that a reset cut off from its sender is waited for no longer (R460). -/
def State.cmdTimeout (s : State) (off n : Nat) : State :=
  match s.flash.opRuns, s.flash.winRuns with
  | some o, _ => (s.spoilFlash off n).modFlash fun f => { f with op := some { o with busy := false, err := 1 } }
  | none, some w => (s.spoilFlash off n).stopWindow w 1
  | none, none => match s.emu.jwrite with
    | some w => (s.spoilFlash off n).journalFails w.slot
    | none => (s.spoilFlash off n).modFlash fun f => { f with cmd := none }

/-- The next command of a journal record: without WEL the record fails (R383). -/
def State.sendJournal (s : State) (w : JWrite) (wel : Bool) : State :=
  match s.jCommand w w.step with
  | none => s
  | some c => if wel then s.modFlash fun f => { f with cmd := some c } else s.journalFails w.slot

/-- The next command that is due, given WEL: operations come before the journal, and the journal before window writes, which
wait while a record is due or being written (R470). -/
def State.sendNext (s : State) (wel : Bool) : State :=
  match s.flash.op, s.emu.jwrite, s.flash.win with
  | some o, _, _ =>
    if (o.opc == 1 || o.opc == 2) && o.left != 0 && o.err == 0 then
      (if wel then s.sendUnit o else s.modFlash fun f => { f with op := some { o with err := 2 } })
    else s
  | none, some w, _ => s.sendJournal w wel
  | none, none, some w => if s.recordDue then s else if wel then s.sendRun w else s.stopWindow w 2
  | none, none, none => s

/-- What a read of the status `sr` does, `ms` after the command it waits for (R469). A due command follows write enable and a
status with WEL; a fill in progress keeps the port (R470). -/
def State.pollFlash (s : State) (sr : Byte) (ms : Nat) : State :=
  if s.pwr.state.low || s.boot == .held || s.flash.filling.isSome then s
  else
    let s1 := s.wr R.FLASH_STAT_SR sr.toNat
    let busy := bitOf sr.toNat 0
    match s1.flash.cmd with
    | some (off, n) => if !busy then s1.cmdDone n else if s1.cmdLimit ≤ ms then s1.cmdTimeout off n else s1
    | none => if busy then s1 else s1.sendNext (bitOf sr.toNat 1)

/-! ## The end of an operation (R472) -/

/-- A running operation has come to its end. One that erases and programs nothing takes its turn after the command in
progress (R470). -/
def State.opEnded (s : State) (o : FlashOp) : Bool :=
  if o.opc = 1 ∨ o.opc = 2 then !o.busy && (o.left == 0 || o.err != 0) else s.flash.cmd.isNone

/-- What the operation leaves when it ends: FLASH_RES, the image checked, or the flash asleep (R471, R472). -/
def State.flashResult (s : State) (o : FlashOp) : State :=
  match o.opc.toNat with
  | 1 | 2 => s.wr R.FLASH_RES_RES o.done
  | 3 => if o.err = 0 then s.wr R.FLASH_RES_RES (crc32 (s.fbytes o.off o.left)).toNat else s
  | 4 => if o.err = 0 then s.noteImage o.left (s.imgWhy o.left) else s
  | 6 => if o.err = 0 then s.modFlash fun f => { f with asleep := true } else s
  | _ => s

/-- FLASH_OP_DONE: DONE sets, FLASH_RES holds the result, and FLASH_DONE goes to the port that issued the operation. -/
def execFlashOpDone (s : State) : Host.Outcome State Fault Refusal :=
  match s.flash.op with
  | none => .next s
  | some o =>
    if !s.opEnded o then .next s
    else
      let s1 := (s.modFlash fun f => { f with op := none }).flashResult o
      let s2 := if o.err = 0 then s1 else s1.flashError o.err
      .next ((s2.setFlag R.FLASH_STAT_DONE).notify o.port.val 16)

end Sys2Proof.Machine
end

