-- ==== Sys2Proof/Machine/Startup.lean ====
section
/-!
DEFINITION. Resets, thermal shutdown and start-up (R311 to R317, R458 to R465, R477, R478, R385).
-/

namespace Sys2Proof.Machine

/-! ## Flash commands that a reset or a power loss cuts (R460, R479) -/

/-- The supply of the flash has failed: a command in progress leaves free values. -/
def State.cutFlash (s : State) : State :=
  match s.flash.cmd with
  | none => s
  | some (off, n) => (s.cutRange off n).modFlash fun f => { f with cmd := none }

/-- The command in progress programs, and does not erase. -/
def State.programs (s : State) : Bool :=
  match s.flash.opRuns with
  | some o => o.opc == 2
  | none => s.flash.winRuns.isSome

/-- A reset cuts the header program of an image in progress: the part of the header that it covers stays partly programmed
(R479). Every other command ends inside the flash (R460). DEDUCED, log entry 118. -/
def State.cutHeader (s : State) : State :=
  match s.flash.cmd with
  | none => s
  | some (off, n) =>
    s.each [0, 1] fun s k =>
      let p := headerPart k off n
      if s.programs && p.2 != 0 then s.cutRange p.1 p.2 else s

/-! ## WARM resets (R459, R462) -/

/-- A CLEAR or CLEAR_ALL that a reset interrupts leaves each entry freed or as it was. -/
def State.cutClear (s : State) : State :=
  match s.invCmd with
  | none => s
  | some (op, _) =>
    let s1 := { s with invCmd := none }.wr R.INV_CMDSTAT_DONE 0
    if op = 5 ∨ op = 6 then
      let hit := s1.tabUsed.filter fun i => (op == 6 || !(s1.tab i).lock) && Config.clearReached s1.fresh i
      { s1.each hit State.freeTab with fresh := s1.fresh + 1 }
    else s1

/-- A channel as a WARM reset leaves it: its field OFF, its sequencer, FIFOs and inventory context cleared; registers stay, the
position and enable that CHn_ANT shows among them (R459; log entry 96), and the last measurement of the cancellation. Whether an
exchange that the reset cuts has ended, and owes its overhead (R18), the spec does not say: it is dropped uncounted, DESIGN
CHOICE, log entry 125. -/
def Chan.warm (c : Chan) : Chan :=
  { ({} : Chan) with
    curPos := c.curPos, curEn := c.curEn, shape := c.shape, eFrac := c.eFrac, eMark := c.eMark, onNs := c.onNs, actNs := c.actNs
    airOut := c.airOut, airBits := c.airBits, gain := c.gain, iqTemp := c.iqTemp, calIQ := c.calIQ }

/-- A port as a WARM reset leaves it: LAST_SEQ stays, the replies become the null reply, and the discard state ends. A write that a
privacy search held goes with the search: DESIGN CHOICE, log entry 101. -/
def PortSt.warm (t : PortSt) : PortSt :=
  { t with heldWrite := none, cached := {}, carried := {}, assigned := {}, building := false, discard := none }

/-- A job past admission is to be posted with LOST_BY_RESET. DETAIL is not stated: a free value. -/
def Job.lose (j : Job) (detail : BitVec 16) : Job :=
  match j.state with
  | .running | .waiting | .finishing =>
    let e : EndRec := { rc := rcLost, part := j.ended.isNone, receipt := false, cut := false, detail := detail, payload := [] }
    { j with marked := none, ended := some e }
  | .arriving | .queued | .granted | .posted => j

/-- Maintenance work waits to run again; synthesiser work goes on. -/
def Maint.warm (m : Maint) : Maint :=
  if m.kind.isSynth then m else { m with running := false, claims := false, left := [] }

/-- The first rows of a WARM reset: what it clears (R459, R462). -/
def State.warmClear (s0 : State) : State :=
  let s := (s0.each (List.range 4) fun s p => s.discardOpen p).cutClear
  let s1 := (if s.emu.arb = .free then s else s.discardShadow).pmbOff
  let (d, s2) := s1.takeFresh Config.receiptDetail
  let s3 := (s2.each (List.range 4) fun s p => s.modPt p PortSt.warm).each (List.range 8) fun s n => s.modCh n Chan.warm
  { s3 with
    jobs := s3.jobs.map fun j => j.lose d
    claims := .replicate 8 none
    mergeQ := [], cry := {}, locQ := []
    cards := .replicate 8 {}
    emu := { s3.emu with jwrite := none }
    syn := { s3.syn with shift := none }
    bootDisc := none
    pwr := { s3.pwr with entry := none, preBoundary := true }
    pmb := { s3.pmb with raw := none, rail := 0 }
    flash := { s3.flash with
      op := none, win := none, cache := [], fills := [], filling := none, invPend := false }
    maint := s3.maint.map Maint.warm }

/-- Jobs past admission whose final entry is not written, in queue order, then in grant order. -/
def State.lostJobs (s : State) : List Job :=
  (List.range 64).flatMap fun q => s.jobs.filter fun j => j.queue == q && j.state.holds

/-- The LOST_BY_RESET entry of a job; of a job that never started, a receipt entry (R19, R26; log entry 65). -/
def State.postLost (s : State) (j : Job) : State :=
  match j.ended with
  | some e => s.postFinal j e
  | none => s.postReceipt j rcLost

/-- The last rows of a WARM reset: the entries, the rail's 1 ms of VTXEN low, and BOOT (R459, R462). -/
def State.warmPost (s : State) : State :=
  let s1 := s.each s.lostJobs State.postLost
  (s1.modPmb fun p => { p with holdLow := s1.isOn R.PMB_CTL_EN }).notifyAll 17

/-- A WARM reset by a RESET frame of a port (R459 to R463). -/
def State.warmReset (s : State) (p : Port) : State :=
  let s1 := (s.cutHeader.setFlag R.SYS_RSTCAUSE_WARM).wr R.SYS_RSTCAUSE_PORT p.val
  (s1.bump R.SYS_RSTCNT_N_WARM).warmClear.warmPost

/-- A SYSTEM reset by a RESET frame of a port (R459, R463). -/
def State.systemReset (s : State) (p : Port) : State := (s.cutHeader.coldReset .system).wr R.SYS_RSTCAUSE_PORT p.val

/-! ## The supply and RESET_N (R458, R492, R495) -/

/-- The internal reset releases once VIN is valid, VDDIO is good and RESET_N is high (R458, R492). -/
def State.release (s : State) : State :=
  if s.boot = .held ∧ s.vinOk ∧ s.vddioOk ∧ s.resetN then { s with boot := .crystal } else s

/-- VIN or the core comes back. VDDIO stands above its threshold where VDDIO_GOOD came meanwhile; otherwise it may stand there or
not, since the supplies may be applied and removed in any order (R492), and which holds is a free value, log entry 119. -/
def State.powerVddio (s : State) : State :=
  let (b, s1) := s.takeFresh Config.vddioHigh
  { s1 with vddioOk := s1.vddioOk || b }

/-- POR: VIN rises through its valid threshold. -/
def execPor (s : State) : Host.Outcome State Fault Refusal :=
  .next (({ s.cutFlash.powerVddio with vinOk := true } : State).coldReset .por)

/-- BROWN_OUT: VIN falls below the brown-out threshold, and the device is held in reset until the next POR. What VDDIO does
meanwhile is not known: log entry 119. -/
def execBrownOut (s : State) : Host.Outcome State Fault Refusal :=
  .next (({ s.cutFlash with vinOk := false, vddioOk := false } : State).coldReset .por)

/-- OFFEXIT: a PIN event ends OFF. -/
def execOffexit (s : State) : Host.Outcome State Fault Refusal :=
  .next (if s.pwr.state = .off ∧ s.isOn R.PWR_WAKEEN_PIN then s.powerVddio.coldReset .offexit else s)

/-- PIN_RESET: RESET_N is low; the device stays in reset until it rises. The level acts on a powered device only: in OFF RESET_N
is ignored (R489). -/
def execPinReset (s : State) : Host.Outcome State Fault Refusal :=
  let s1 : State := { s with resetN := false }
  .next (if s.pwr.state = .off ∨ !s.vinOk then s1 else s1.cutHeader.coldReset .pin)

/-- RESET_N_RELEASE. -/
def execResetNRelease (s : State) : Host.Outcome State Fault Refusal := .next ({ s with resetN := true } : State).release

/-- VDDIO_GOOD: VDDIO rises through its threshold. -/
def execVddioGood (s : State) : Host.Outcome State Fault Refusal := .next ({ s with vddioOk := true } : State).release

/-! ## Temperatures (R67, R85, R311, R315 to R317) -/

/-- The crossing of TJ_HARD: HARD, THERM_HARD, fields that are ON ramp down, and jobs end; a field whose exchange is in progress
between two of its windows stays until that has ended (R170, R315, R316). -/
def State.enterHard (s : State) : State :=
  let s1 := ((s.modBudg fun b => { b with tstate := .hard }).setFlag R.BUDG_TSTAT_HARD_SEEN).notifyAll 5
  let s2 := s1.each ((List.range 8).filter fun n => (s1.ch n).field == .on && s1.noExchange (s1.leadAt n)) State.stopField
  (s2.each s2.jobs fun s j => match s.job? j.id with
    | none => s
    | some k => s.stopJob k rcThermal).pauseCoupling

/-- Thermal shutdown (R317): a WARM reset that holds the device; the synthesiser is OFF. -/
def State.thermalShut (s : State) : State :=
  let s1 := ((s.setFlag R.SYS_RSTCAUSE_THERMAL).bump R.SYS_RSTCNT_N_THERM).warmClear
  let s2 := (s1.setSyn .off).modBudg fun b => { b with tstate := .hard, restart := true }
  { s2 with thermHold := true }

/-- Drift of the die since the last band calibration queues a recalibration (R67). -/
def State.driftRecal (s : State) : State :=
  let cal := s.syn.state != .off && s.syn.state != .cal
  if cal && decide (16 * s.rd R.SYN_TDRIFT_RECAL_DT ≤ (s.tDie - s.rdS R.SYN_STAT_CAL_TEMP).natAbs) then s.queueRecal else s

/-- Drift of the die since its last image calibration queues one for channel `n` (R85). -/
def State.driftImage (s : State) (n : Nat) : State :=
  if 16 * s.rd (R.CH_RXIQCAL_IQ_DT n) ≤ (s.tDie - (s.ch n).iqTemp).natAbs then s.queueImageCal n else s

/-- THERMAL_SAMPLE: the five sensors (R311, R315). -/
def execThermalSample (s0 s1 s2 s3 s4 : BitVec 16) (s : State) : Host.Outcome State Fault Refusal :=
  if s.boot == .held || s.pwr.state.low then .next s
  else
    let t := s.modBudg fun b => { b with sens := [s0.toInt, s1.toInt, s2.toInt, s3.toInt, s4.toInt] }
    if t.thermHold then .next t
    else
      let t1 := if t.budg.tstate != .hard && decide (t.limS R.BUDG_TLIM_0_TJ_HARD ≤ t.tDie) then t.enterHard else t
      if t1.limS R.BUDG_TLIM_1_TJ_SHUT ≤ t1.tDie then .next t1.thermalShut
      else if t1.boot == .started then .next (t1.driftRecal.each (List.range 8) State.driftImage)
      else .next t1

/-- THERMAL_RESET_RELEASE: T_DIE is below TJ_SHUT − 20 °C, and the reset goes on; the synthesiser locks from OFF (R317,
R459, R462). A shutdown during start-up goes on from its lock: DEDUCED, log entry 65. -/
def execThermalResetRelease (s : State) : Host.Outcome State Fault Refusal :=
  if s.thermHold && decide (s.tDie < s.limS R.BUDG_TLIM_1_TJ_SHUT - 320) then
    let s1 := { s with thermHold := false }.setSyn (if s.pwr.xtal then .cal else .off)
    .next (match s1.boot with
      | .started => s1.warmPost
      | .held | .crystal => s1
      | .lock | .imageCal | .flashWait => { s1 with boot := .lock })
  else .next s

/-! ## Lock and image calibration (R65, R85, R407, R464) -/

/-- SYN_LOCK: the lock window has held for 64 reference cycles; a wake is done, and start-up goes on, with the all-zero switch
word of R62 (log entry 135). -/
def execSynLock (us : BitVec 16) (s : State) : Host.Outcome State Fault Refusal :=
  if (s.syn.state == .acq || s.syn.state == .lost) && s.pwr.xtal && !s.thermHold then
    let s1 := s.becomeLocked us
    let s2 := if s1.pwr.lockDue then (s1.modPwr fun p => { p with lockDue := false }).wakeDone else s1
    .next (if s2.boot = .lock then { s2 with boot := .imageCal, bootCal := 0xFF, syn := { s2.syn with shift := some 0 } } else s2)
  else .next s

/-- The image calibration of start-up ends on channel `n`; after the last one, start-up waits for the flash. -/
def State.bootCalEnd (s : State) (n : Ch) : State :=
  let left := s.bootCal &&& ~~~(BitVec.ofNat 8 (2 ^ n.val))
  { s with bootCal := left, boot := if left = 0 then .flashWait else .imageCal }

/-- IMAGE_CALIBRATION_END (R84, R85). -/
def execImageCalibrationEnd (n : Ch) (g p : BitVec 12) (irrA irrB : BitVec 8) (s : State) :
    Host.Outcome State Fault Refusal :=
  if s.boot == .imageCal && bitOf s.bootCal.toNat n.val then .next ((s.imageCalDone n.val g p irrA irrB).bootCalEnd n)
  else if s.imageCalRuns n.val then .next ((s.imageCalDone n.val g p irrA irrB).imageCalOver n.val)
  else .next s

/-! ## Discovery (R467) -/

/-- DISC_OK: the signature is right, the table has a 4 KiB erase, and it requires no 4-byte addresses. -/
def discOk (d : FlashDisc) : Bool := d.sfdp && d.erase4k.isSome && !d.addr4

/-- What discovery finds. -/
def State.discover (s : State) (d : FlashDisc) : State :=
  let ok := discOk d
  let s1 := (s.wr R.FLASH_ID_JEDEC d.jedec.toNat).wr R.FLASH_GEOM_DISC_OK ok.toNat
  let dens := if ok then max 20 (min 24 d.densLog2) else 20
  let page := if ok then min 15 (d.pageLog2.getD 8) else 8
  let s2 := (s1.wr R.FLASH_GEOM_DENS_LOG2 dens).wr R.FLASH_GEOM_PAGE_LOG2 page
  let erase := if ok then (d.erase4k.getD 0x20).toNat else 0x20
  let s3 := (s2.wr R.FLASH_GEOM_ERASE4K erase).wr R.FLASH_GEOM_SRST (ok && d.srst).toNat
  s3.modFlash fun f => { f with asleep := false }

/-! ## The loader (R477, R478) -/

/-- The first record that failed: index, status and TYPE. -/
abbrev RecErr := Option (Nat × Byte × Nat)

/-- Registers that a refused word of a frame changes stay as they are for words of the image: no port sent them. -/
def State.keepDenials (s old : State) : State :=
  let p := old.ownerPort
  (s.wrWord R.PROT_DENY (old.rdWord R.PROT_DENY)).wrWord (R.HOST_CNT_2 p) (old.rdWord (R.HOST_CNT_2 p))

/-- Words written to registers as the OWNER, and the status of the first refused one. -/
def State.loadRegs (s : State) (a : Nat) (ws : List Word) : State × Byte :=
  let x := s.regWrite (Fin.ofNat 4 s.ownerPort) a ws
  (x.1.keepDenials s, (x.2.map Prod.snd).getD stOk)

/-- The first of two statuses that is not OK. -/
def firstBad (a b : Byte) : Byte := if a = stOk then b else a

/-- Apply a write to each word of a list, ascending; the first bad status stands. -/
def State.loadWords (s : State) (g : State → Nat → Word → State × Byte) (a : Nat) (ws : List Word) : State × Byte :=
  ((List.range ws.length).zip ws).foldl
    (fun x w => let y := g x.1 (a + 4 * w.1) w.2; (y.1, firstBad x.2 y.2)) (s, stOk)

/-- A public key of a KEYS record: key, descriptor, validation (R155). -/
def State.loadKey (s : State) (k : Nat) (bytes : List Byte) : State × Byte :=
  let x := s.loadWords State.keyMem (0x164000 + 64 * k) (leWords (bytes.take 64))
  let y := x.1.loadWords State.keyMem (0x164800 + 16 * k) (leWords ((bytes.drop 64).take 16))
  let st := firstBad x.2 y.2
  if st ≠ stOk then (y.1, st) else (y.1.validateKey k, if y.1.keyCheck k = 0 then stOk else 0xFF)

/-- A KEYS record. -/
def State.loadKeys (s : State) (r : ImgRec) : State × Byte :=
  let first := bitsOf r.rarg 16 11
  match bitsOf r.rarg 0 2 with
  | 0 => s.loadWords State.keyMem (0x160000 + 16 * first) (leWords r.body)
  | 1 =>
    (List.range (r.blen / 80)).foldl
      (fun x i => let y := x.1.loadKey (first + i) ((r.body.drop (80 * i)).take 80); (y.1, firstBad x.2 y.2)) (s, stOk)
  | _ => s.loadWords State.keyMem 0x164A00 (leWords r.body)

/-- Change time of the loader's SWAP until BOOT gives the reference instant (R351). -/
def bootSwap : BitVec 64 := BitVec.allOnes 64

/-- Words of the administrative list of a GATE record, with their registers. -/
def ImgRec.gateWords (r : ImgRec) : List (Nat × Word) :=
  [R.GATE_ABASE_LO, R.GATE_ABASE_HI, R.GATE_ACYCLE, R.GATE_ALEN].zip (leWords (r.body.take 16))
    ++ (List.range (r.num 12 4)).flatMap fun k =>
      [(R.GATE_ENTRY k, BitVec.ofNat 32 (r.num (16 + 8 * k) 4)), (R.GATE_EMASK k, BitVec.ofNat 32 (r.num (20 + 8 * k) 4))]

/-- A GATE record: the administrative list, then a SWAP (R351). -/
def State.loadGate (s : State) (r : ImgRec) : State × Byte :=
  let x := r.gateWords.foldl (fun x w => let y := x.1.loadRegs w.1 [w.2]; (y.1, firstBad x.2 y.2)) (s, stOk)
  let st := if x.1.gate.chg.isSome then stBusy else if x.1.adminOk then stOk else stRange
  let s1 : State := if st = stOk then
      { x.1 with gate := { x.1.gate with chg := some bootSwap, chgEn := bitOf r.rarg 0 } }
    else x.1
  (s1, firstBad x.2 st)

/-- A PROT record: 28 words together, then the commit (R453, R475). -/
def State.loadProt (s : State) (r : ImgRec) : State × Byte :=
  let x := s.loadRegs 0x410 (leWords r.body)
  if bitOf r.rarg 0 then
    let y := x.1.loadRegs R.PROT_CTL [1]
    (y.1, firstBad x.2 y.2)
  else x

/-- A ROUTINE record: the directory entry, and the code when it lies in the store (R475). -/
def State.loadRoutine (s : State) (r : ImgRec) : State :=
  let s1 := s.swrite (0x140000 + 32 * (r.rarg - 0x100)) (r.body.take 32)
  if r.codeStored then s1.swrite (0x140000 + r.codeOfs) (r.body.drop 32) else s1

/-- A WATCH record: SCFG and SBASE of each step (R409, R475). -/
def State.loadWatch (s : State) (r : ImgRec) : State :=
  s.each (List.range (r.blen / 8)) fun s i =>
    (s.writeCfg (r.rarg + i) (BitVec.ofNat 32 (r.num (8 * i) 4))).writeBase (r.rarg + i) (BitVec.ofNat 32 (r.num (8 * i + 4) 4))

/-- One record is applied, with the first status that is not OK (R475, R478). -/
def State.loadRecord (s : State) (r : ImgRec) : State × Byte :=
  match r.typ with
  | 1 => s.loadRegs r.rarg (leWords r.body)
  | 2 => (s.swrite r.rarg r.body, stOk)
  | 3 => (s.loadRoutine r, stOk)
  | 4 => s.loadKeys r
  | 5 => s.loadGate r
  | 6 => s.loadProt r
  | 7 => s.loadWords State.swarmMem (0x174000 + r.rarg) (leWords r.body)
  | 8 => (s.loadWatch r, stOk)
  | _ => (s, stOk)

/-- The records are applied in order; the first that fails in part is kept. -/
def State.loadRecords : State → Nat → RecErr → List ImgRec → State × RecErr
  | s, _, e, [] => (s, e)
  | s, k, e, r :: rs =>
    let x := s.loadRecord r
    x.1.loadRecords (k + 1) (if e.isNone && x.2 != stOk then some (k, x.2, r.typ) else e) rs

/-- The candidate slot (R477). -/
def State.candidate (s : State) : Option Nat :=
  match s.headWhy 0, s.headWhy 1 with
  | 0, 0 => if newestSeq [s.imgNum 0 8 4, s.imgNum 1 8 4] = some (s.imgNum 0 8 4) then some 0 else some 1
  | 0, _ => some 0
  | _, 0 => some 1
  | _, _ => none

/-- The image to apply, and whether the first candidate was invalid. -/
def State.chooseImage (s : State) : Option Nat × Bool :=
  match s.candidate with
  | none => (none, false)
  | some k => if s.imgWhy k = 0 then (some k, false) else if s.imgWhy (1 - k) = 0 then (some (1 - k), true) else (none, true)

/-- What start-up shows of slot `k`: a slot that is no candidate is read no further than its header. -/
def State.bootWhy (s : State) (k : Nat) : Nat :=
  let first := s.candidate == some k
  let tried := first || s.chooseImage.2
  if s.headWhy k ≠ 0 then s.headWhy k else if tried then s.imgWhy k else 6

/-- The records of the image chosen are applied (R477, R478). -/
def State.applyImage (s : State) : State :=
  let (img, alt) := s.chooseImage
  let s1 := ((s.noteImage 0 (s.bootWhy 0)).noteImage 1 (s.bootWhy 1)).wr R.SYS_BOOT_ALT alt.toNat
  match img with
  | none => s1.setFlag R.SYS_BOOT_NOIMG
  | some k =>
    let s2 := (s1.wr R.SYS_BOOT_SLOT k).wr R.SYS_BOOTSEQ_SEQ (s.imgNum k 8 4)
    match s2.loadRecords 0 none ((s.imgRecords k).getD []) with
    | (s3, none) => s3
    | (s3, some (i, st, t)) =>
      (((s3.setFlag R.SYS_BOOT_RECERR).wr R.SYS_BOOTERR_INDEX i).wr R.SYS_BOOTERR_STATUS st.toNat).wr R.SYS_BOOTERR_TYPE t

/-- The newest valid record of the journal is loaded into the published bank (R385). -/
def State.loadJournal (s : State) : State :=
  match s.newestRecord with
  | none => s
  | some (k, q) =>
    let len := leNat (s.fbytes (slotBase k + 8) 2)
    let bank := Memory.setBytes [] 0 (s.fbytes (slotBase k + 0x100) len)
    ((s.modEmu fun e => { e with bank0 := bank, bank1 := [], pub1 := false }).wr R.EMU_JSEQ_SEQ q).setFlag R.SYS_BOOT_JLOAD

/-- Step 8 of start-up: host scratch is cleared, BOOT is the one pending notice, the loader's SWAP takes its reference
instant, and the rail may start (R351, R459, R464, R478). -/
def State.raiseBoot (s : State) : State :=
  let (t, s1) := s.takeFresh Config.bootTime
  let s2 : State := { s1 with
    boot := .started, sram := s1.sram.filter fun c => decide (c.1 < 0x180000) || decide (0x200000 ≤ c.1) }
  let s3 := ((s2.wr R.SYS_BOOTT_BOOT_US t.toNat).setFlag R.SYS_BOOT_READY).each (List.range 4) fun s p =>
    s.wr (R.HOST_NPEND_PEND p) (noticeBit 17)
  let s4 := if s3.gate.chg = some bootSwap then s3.startSwap true else s3
  s4.pmbOn

/-- Steps 4 to 8 of start-up: discovery, the image, the journal, BOOT (R464). The switch word of R62 has been shifted before the
image is read. -/
def State.finishBoot (s : State) (d : FlashDisc) : State :=
  (({ s with bootDisc := none, syn := { s.syn with shift := none } } : State).discover d).applyImage.loadJournal.raiseBoot

/-- FLASH_POWERUP_WAIT_END: start-up goes on to its end, unless the flash still reports write-in-progress: it then waits for that
to clear (R460, R464). -/
def execFlashPowerupWaitEnd (d : FlashDisc) (s : State) : Host.Outcome State Fault Refusal :=
  if s.boot == .flashWait && !s.thermHold && s.bootDisc.isNone then
    .next (if s.flash.wip then { s with bootDisc := some d } else s.finishBoot d)
  else .next s

/-- FLASH_STATUS_POLL: a read of the status (R460, R469); at start-up, discovery follows once write-in-progress has cleared or its
limit has passed. -/
def execFlashStatusPoll (sr : Byte) (ms : Nat) (s : State) : Host.Outcome State Fault Refusal :=
  let s1 := s.pollFlash sr ms
  .next (match s1.bootDisc with
    | some d => if s1.boot == .flashWait && !s1.thermHold && !s1.flash.wip then s1.finishBoot d else s1
    | none => s1)

end Sys2Proof.Machine
end

