-- ==== Sys2Proof/Machine/Ports.lean ====
section
/-!
DEFINITION. Host frames (chapter 13, R426 to R446): the reply window, CRC and sequence checks, protection, and what each
opcode does. Several rows of the table name one opcode: the ARG and TAG of the frame say which form it is.
-/

namespace Sys2Proof.Machine

/-! ## Replies on HnSDO (R431 to R433) -/

/-- SEQ of a TAG. -/
def seqOf (tag : Byte) : BitVec 4 := tag.setWidth 4

/-- A reply as the window carries it: header, payload and CRC (R432, R433). -/
def Reply.wire (r : Reply) (p : Nat) : List Byte :=
  let b := [r.status, r.tag] ++ leBytes 2 r.payload.length ++ leBytes 4 r.info.toNat ++ r.payload
  b ++ leBytes 4 (crc32c ([BitVec.ofNat 8 (p + 0x80), (seqOf r.tag).setWidth 8] ++ b)).toNat

/-- The cut reply that a window of LEN bytes carries in place of one that does not fit (R432). -/
def Reply.cutTo (r : Reply) (len : Nat) : Reply :=
  { r with
    status := stTrunc, info := BitVec.ofNat 32 (r.payload.length + 2 ^ 16 * r.status.toNat), payload := r.payload.take (len - 4) }

/-- The reply window of a frame of LEN bytes (R431, R432). -/
def Reply.window (r : Reply) (p len : Nat) : List Byte :=
  padTo (8 + len) (if r.payload.length + 4 ≤ len then r.wire p
    else if 4 ≤ len then (r.cutTo len).wire p
    else [stTrunc, r.tag])

/-- The preamble of a frame (R431). -/
def State.preamble (s : State) (p : Nat) : List Byte :=
  let m := s.pendMasked p
  let b := (s.pt p).lastSeq.toNat + 16 * (s.attn p).toNat + 32 * s.pwr.waking.toNat + 64 * s.committed.toNat
  [0xA5, BitVec.ofNat 8 b] ++ leBytes 2 m

/-- Payload bytes of a frame that count: its LEN. -/
def bodyOf (f : Frame) : List Byte := f.payload.take f.len.toNat

/-- Bytes clocked during the frame: the header, the payload, and the CRC after a payload of LEN bytes or more, where HnCS_N
did not rise earlier (R429). -/
def bytesClocked (f : Frame) : Nat :=
  let n := if f.payload.length < f.len.toNat then 8 + f.payload.length else 12 + f.payload.length
  match f.rise with
  | some k => min k n
  | none => n

/-- HnCS_N rose before the frame was whole (R429). -/
def isRunt (f : Frame) : Bool := decide (bytesClocked f < 12 + f.len.toNat)

/-- CRC of a command (R433). -/
def hostCrc (opc : Byte) (f : Frame) : Word :=
  crc32c ([BitVec.ofNat 8 f.port.val, (seqOf f.tag).setWidth 8, opc, f.tag] ++ leBytes 2 f.len.toNat
    ++ leBytes 4 f.arg.toNat ++ bodyOf f)

/-- The frame passes the checks of R429. -/
def frameOk (opc : Byte) (f : Frame) : Bool := !isRunt f && decide (f.len.toNat ≤ 4100) && f.crc == hostCrc opc f

/-- The reply of the window is cut: by LEN, or by the rise of HnCS_N (R432). -/
def cutBy (r : Reply) (f : Frame) : Bool :=
  decide (f.len.toNat < r.payload.length + 4) || decide (bytesClocked f < r.payload.length + 16)

/-- HnSDO during a frame: preamble and window, as far as the frame is clocked, and zeros after the window (R429, R431,
R432). -/
def State.sendWindow (s : State) (f : Frame) : State :=
  let p := f.port.val
  let r := (s.pt p).carried
  let all := s.preamble p ++ r.window p f.len.toNat
  let sdo := all.take (bytesClocked f) ++ List.replicate (bytesClocked f - all.length) 0
  let s1 := s.modPt p fun t => { t with assigned := r, sdo := sdo, mode3 := f.mode3 }
  if cutBy r f then s1.bump (R.HOST_CNT_2_N_TRUNC p) else s1

/-! ## Privileges (R440, R449) -/

/-- The opcode is defined (R440). -/
def knownOpc (opc : Nat) : Bool :=
  [0x00, 0x0F, 0x10, 0x11, 0x20, 0x21, 0x30, 0x34, 0x38, 0x39, 0x3A, 0x3B, 0x40, 0x41, 0x50, 0x60, 0x70].contains opc
    || (decide (0x80 ≤ opc) && decide (opc ≤ 0x87))

/-- The right that an OPERATOR needs for an opcode, as a field of PCFG (R449). -/
def rightOf (p opc : Nat) : Option Fld :=
  match opc with
  | 0x50 => some (R.PROT_PCFG_R_TIME p)
  | 0x60 => some (R.PROT_PCFG_R_POWER p)
  | 0x70 => some (R.PROT_PCFG_R_RESET p)
  | _ => if 0x80 ≤ opc then some (R.PROT_PCFG_R_FLASH p) else none

/-- The opcode is open to every port: its words, rings or notices are checked one by one (R440, R441). -/
def openOpc (opc : Nat) : Bool := [0x00, 0x10, 0x11, 0x20, 0x38, 0x39, 0x3A, 0x3B, 0x40, 0x41].contains opc

/-- The privilege and rights of a port allow an opcode (R441, R449). -/
def State.mayOpc (s : State) (p opc : Nat) : Bool :=
  openOpc opc || s.priv p == 2 || (s.priv p == 1 && match rightOf p opc with
    | none => true
    | some f => s.isOn f)

/-! ## Opcodes -/

/-- STATUS and INFO of a multi-word frame (R444). -/
def wordsAnswer (ref : Refusals) (payload : List Byte) : Answer :=
  { status := (ref.map Prod.snd).getD stOk, info := BitVec.ofNat 32 ((ref.map Prod.fst).getD 0xFFFF), payload := payload }

/-- NOP (R440). -/
def State.nopFrame (s : State) (p : Nat) (arg : Word) : State × Answer :=
  (s, if arg ≠ 0 then ans stRange else ansInfo (s.pendMasked p))

/-- NOTICE_READ (R440). -/
def State.noticeRead (s : State) (p : Nat) (arg : Word) : State × Answer :=
  (s, if arg ≠ 0 then ans stRange else ansInfo (s.pendSet p))

/-- NOTICE_ACK (R32, R440). -/
def State.noticeAck (s : State) (p : Nat) (arg : Word) : State × Answer :=
  if getBits arg 19 13 ≠ 0 then (s, ans stRange)
  else
    let s1 := s.wr (R.HOST_NPEND_PEND p) (s.pend p &&& (2 ^ 19 - 1 - getBits arg 0 19))
    (s1, ansInfo (s1.pendSet p))

/-- REG_READ (R440, R442). -/
def State.regReadFrame (s : State) (p : Port) (arg : Word) : State × Answer :=
  let n := getBits arg 16 11
  let a := getBits arg 0 14
  if getBits arg 14 2 ≠ 0 ∨ getBits arg 27 5 ≠ 0 ∨ n = 0 ∨ 1024 < n ∨ a % 4 ≠ 0 then (s, ans stRange)
  else
    let x := s.regReadRun p a n
    (x.2.1, wordsAnswer x.2.2 (wordBytes x.1))

/-- The payload is data in whole words (R440). -/
def wordData (body : List Byte) : Bool := body.length % 4 == 0 && decide (4 ≤ body.length) && decide (body.length ≤ 4096)

/-- REG_WRITE (R440, R442). -/
def State.regWriteFrame (s : State) (p : Port) (arg : Word) (body : List Byte) : State × Answer :=
  let a := getBits arg 0 14
  if getBits arg 14 18 ≠ 0 ∨ a % 4 ≠ 0 ∨ !wordData body then (s, ans stRange)
  else
    let x := s.regWrite p a (leWords body)
    (x.1, wordsAnswer x.2 [])

/-- MEM_READ (R440, R448). -/
def State.memReadFrame (s : State) (p : Port) (arg : Word) (body : List Byte) : State × Answer :=
  let a := getBits arg 0 25
  let n := leNat (body.take 4)
  if getBits arg 25 7 ≠ 0 ∨ a % 4 ≠ 0 ∨ body.length < 4 ∨ n % 4 ≠ 0 ∨ n < 4 ∨ 4096 < n then (s, ans stRange)
  else
    let x := s.memRead p.val a (n / 4)
    (x.2.1, wordsAnswer x.2.2 (wordBytes x.1))

/-- MEM_WRITE (R440, R448). -/
def State.memWriteFrame (s : State) (p : Port) (arg : Word) (body : List Byte) : State × Answer :=
  let a := getBits arg 0 25
  if getBits arg 25 7 ≠ 0 ∨ a % 4 ≠ 0 ∨ !wordData body then (s, ans stRange)
  else
    let x := s.memWrite p a (leWords body)
    (x.1, wordsAnswer x.2 [])

/-- NT just before a step, as the reply carries it (R333). -/
def ntReply (t : BitVec 64) : Answer := { payload := leBytes 8 t.toNat }

/-- TIME_SET OFFSET: a result that would wrap is refused (R333). -/
def State.offsetTime (s : State) (v : BitVec 64) (unc : Nat) : State × Answer :=
  let t : Int := s.time.nt.toNat + v.toInt
  if t < 0 ∨ 2 ^ 64 ≤ t then (s, ans stRange) else (s.setTime (s.time.nt + v) s.time.frac unc, ntReply s.time.nt)

/-- TIME_SET (R333). -/
def State.timeSet (s : State) (arg : Word) (body : List Byte) : State × Answer :=
  let v := BitVec.ofNat 64 (leNat (body.take 8))
  let unc : Word := BitVec.ofNat 32 (leNat ((body.drop 8).take 4))
  if body.length ≠ 16 ∨ getBits arg 2 30 ≠ 0 ∨ leNat (body.drop 12) ≠ 0 then (s, ans stRange)
  else
    match getBits arg 0 2 with
    | 0 => (s.setTime v 0 unc.toNat, ntReply s.time.nt)
    | 1 => ({ s with time := { s.time with armed := some (v, unc) } }, {})
    | 2 => s.offsetTime v unc.toNat
    | _ => ({ s with time := { s.time with armed := none } }, {})

/-- The flash operations (R471). -/
def State.flashFrame (s : State) (p : Port) (opc : Nat) (arg : Word) (body : List Byte) : State × Answer :=
  match opc with
  | 0x80 => s.flInfo arg
  | 0x81 => s.flErase p arg
  | 0x82 => s.flProgram p arg body
  | 0x83 => s.flCrc p arg body
  | 0x84 => s.imgCheck p arg
  | 0x85 => s.flAbort arg
  | 0x86 => s.flSleep p arg
  | _ => s.flReset arg

/-- What a defined opcode other than RESET does: its own checks and its effect (R441). -/
def State.opFrame (s : State) (p : Port) (opc : Nat) (tag : Byte) (arg : Word) (body : List Byte) : State × Answer :=
  match opc with
  | 0x00 => s.nopFrame p.val arg
  | 0x10 => s.regReadFrame p arg
  | 0x11 => s.regWriteFrame p arg body
  | 0x20 => s.memReadFrame p arg body
  | 0x21 => s.memWriteFrame p arg body
  | 0x30 => s.submit p arg (bitOf tag.toNat 4) (bitOf tag.toNat 5) body
  | 0x34 => s.flushQueue p arg
  | 0x38 => s.ringCmd p arg 0xFFFF00E0 fun s r => s.resRead r (getBits arg 8 8)
  | 0x39 => s.ringCmd p arg 0xFFFFFFE0 State.resMark
  | 0x3A => s.ringCmd p arg 0xFFFFFFE0 State.resRewind
  | 0x3B => s.ringCmd p arg 0x0000FFE0 fun s r => s.resRelease r (getBits arg 16 16)
  | 0x40 => s.noticeRead p.val arg
  | 0x41 => s.noticeAck p.val arg
  | 0x50 => s.timeSet arg body
  | 0x60 => s.powerFrame arg body
  | _ => s.flashFrame p opc arg body

/-! ## Execution (R435, R441) -/

/-- Opcodes whose words are noted one by one when they are refused (R443). -/
def wordOpc (opc : Nat) : Bool := opc == 0x10 || opc == 0x11 || opc == 0x20 || opc == 0x21

/-- A frame that ended DENIED as a whole counts (R456, R457). -/
def State.noteFrame (s : State) (p opc : Nat) (x : Answer) : State :=
  if x.status = stDenied ∧ !wordOpc opc then s.noteDenied p (BitVec.ofNat 8 opc) 0 else s

/-- The checks of R441 before the opcode's own: the status that ends the frame. -/
def State.preCheck (s : State) (p opc : Nat) (tag : Byte) : Option Byte :=
  if !knownOpc opc then some stBadOpc
  else if getBits (tag.setWidth 32) 4 2 ≠ 0 ∧ opc ≠ 0x30 then some stRange
  else if s.pwr.waking ∧ (opc = 0x60 ∨ 0x80 ≤ opc) then some stWaking
  else if !s.mayOpc p opc then some stDenied
  else none

/-- A RESET frame that passed the checks; its reply is not delivered (R437, R461). -/
def State.resetFrame (s : State) (p : Port) (arg : Word) : State × Option Answer :=
  if getBits arg 1 31 ≠ 0 then (s, some (ans stRange))
  else if bitOf arg.toNat 0 then (s.systemReset p, none)
  else (s.warmReset p, none)

/-- A frame executes: the state, and its answer unless that is never delivered. -/
def State.execute (s : State) (p : Port) (opc : Nat) (tag : Byte) (arg : Word) (body : List Byte) : State × Option Answer :=
  match s.preCheck p.val opc tag with
  | some st => (if st = stDenied then s.noteDenied p.val (BitVec.ofNat 8 opc) 0 else s, some (ans st))
  | none =>
    if opc = 0x70 then s.resetFrame p arg
    else
      let x := s.opFrame p opc tag arg body
      (x.1.noteFrame p.val opc x.2, some x.2)

/-- The reply that an answer makes; NOPAY drops its payload (R430, R432). -/
def replyOf (opc : Byte) (tag : Byte) (x : Answer) : Reply :=
  { status := x.status, tag := tag, info := x.info, payload := if bitOf tag.toNat 7 then [] else x.payload, opc := opc }

/-- The next frame of port `p` carries a reply. -/
def State.carry (s : State) (p : Nat) (r : Reply) : State := s.modPt p fun t => { t with carried := r, building := true }

/-- An executed frame: LAST_SEQ takes its SEQ, its reply is cached and carried, and N_FRAME counts it (R435). A SYSTEM reset
leaves the port as reset leaves it. -/
def State.executed (s : State) (opc : Byte) (f : Frame) : State :=
  let p := f.port.val
  let s1 := s.modPt p fun t => { t with lastSeq := seqOf f.tag }
  match s1.execute f.port opc.toNat f.tag f.arg (bodyOf f) with
  | (s2, some x) =>
    let r := replyOf opc f.tag x
    ((s2.modPt p fun t => { t with cached := r }).carry p r).bump (R.HOST_CNT_0_N_FRAME p)
  | (s2, none) => if s2.boot = .started then s2.bump (R.HOST_CNT_0_N_FRAME p) else s2

/-- The rising edge of HnCS_N (R435). -/
def State.riseFrame (s : State) (opc : Byte) (f : Frame) (before : Reply) : State :=
  let p := f.port.val
  let seq := seqOf f.tag
  let last := (s.pt p).lastSeq
  let bare (st : Byte) : Reply := { status := st, tag := f.tag, opc := opc }
  if !frameOk opc f then (s.carry p (bare stCrcBad)).bump (R.HOST_CNT_0_N_CRCBAD p)
  else if opc = 0x0F then s.carry p before
  else if bitOf f.tag.toNat 6 then (if opc = 0x00 then s.executed opc f else s.carry p (bare stSeqBad))
  else if seq = last then (s.carry p (s.pt p).cached).bump (R.HOST_CNT_1_N_RETRY p)
  else if seq ≠ last + 1 then (s.carry p (bare stSeqBad)).bump (R.HOST_CNT_1_N_SEQBAD p)
  else s.executed opc f

/-! ## RDY (R151, R402, R405, R438, R464) -/

/-- The ports take frames: the device is up, in RUN or IDLE, and PD_ENG is on (R402, R405, R438, R464). -/
def State.portReady (s : State) : Bool :=
  s.up && (s.pwr.state == .run || s.pwr.state == .idle) && bitOf s.pwr.domOn.toNat 10

/-- The reply to the port's last frame still waits for a window write (R439, R469), or for a write of AES keys that a privacy search
holds in the frame buffer (R151). -/
def State.replyWaits (s : State) (p : Port) : Bool :=
  (s.flash.win.map fun w => w.port == p) == some true || (s.pt p.val).heldWrite.isSome

/-- A frame at port `p` goes past its first boundary. -/
def State.takes (s : State) (p : Port) : Bool := s.portReady && !s.replyWaits p

/-- HnRDY of port `p` (R426, R438): low while the port takes no frame, while a reply is built, and at a frame that waits. -/
def State.rdyPin (s : State) (p : Port) : Bool :=
  s.takes p && !(s.pt p.val).building && (s.pt p.val).held.isEmpty

/-- The frame is a MEM_WRITE that executes and writes AES keys while a privacy search runs: the write is held (R151). -/
def State.keyHeld (s : State) (opc : Byte) (f : Frame) : Bool :=
  let p := f.port.val
  let a := getBits f.arg 0 25
  opc == 0x21 && s.cry.aes.isSome && frameOk opc f && !bitOf f.tag.toNat 6 && seqOf f.tag == (s.pt p).lastSeq + 1
    && (s.preCheck p 0x21 f.tag).isNone && getBits f.arg 25 7 == 0 && a % 4 == 0 && wordData (bodyOf f)
    && meets a (bodyOf f).length 0x160000 0x4000 && s.mayWriteMem p 5 && !s.isOn R.CRY_CTL_KEY_LOCK

/-- A stall of port `p` has ended: its length is a free value, log entry 14. -/
def State.stallEnd (s : State) (p : Nat) : State :=
  let (us, s1) := s.takeFresh Config.stallUs
  s1.keepMax (R.HOST_STALL_STALL_MAX p) us.toNat

/-- A frame stalls at its first boundary, after those that already wait at the port (R438). -/
def State.holdFrame (s : State) (opc : Byte) (f : Frame) : State :=
  (s.modPt f.port.val fun t => { t with held := t.held ++ [(opc, f)] }).bump (R.HOST_STALL_N_STALL f.port.val)

/-- The write of a frame stays in the frame buffer: the frame counts as executed, and its reply waits (R151, R435). -/
def State.holdWrite (s : State) (opc : Byte) (f : Frame) : State :=
  s.modPt f.port.val fun t => { t with lastSeq := seqOf f.tag, building := true, heldWrite := some (opc, f) }

/-- The search has ended: the write that it held at port `p` is done, and its reply made. -/
def State.finishWrite (s : State) (p : Port) : State :=
  match (s.pt p.val).heldWrite with
  | none => s
  | some (opc, f) => if s.cry.aes.isSome then s else (s.modPt p.val fun t => { t with heldWrite := none }).executed opc f

/-- A frame is clocked: its window, and the rise of HnCS_N; with `hold` its write stays in the frame buffer. -/
def State.clockFrame (s : State) (opc : Byte) (f : Frame) (hold : Bool) : State :=
  let p := f.port.val
  let t := (s.modPt p fun t => { t with building := false }).sendWindow f
  if hold then t.holdWrite opc f else t.riseFrame opc f (s.pt p).assigned

/-- The first frame that waits at port `p` is clocked, unless something still holds it. -/
def State.releaseOne (s : State) (p : Port) : State :=
  match (s.pt p.val).held with
  | [] => s
  | (opc, f) :: rest =>
    if s.takes p then
      ((s.modPt p.val fun t => { t with held := rest }).stallEnd p.val).clockFrame opc f (s.keyHeld opc f)
    else s

/-- The frames that wait at port `p` are clocked as far as nothing holds them. -/
def State.releasePort (s : State) (p : Port) : State :=
  s.each (List.range (s.pt p.val).held.length) fun s _ => s.releaseOne p

/-- In port order, the write that a search held at a port is done, and the frame that waits there is clocked where nothing holds it
any more (R151, R434). -/
def State.releaseAll (s : State) : State := s.each [0, 1, 2, 3] fun s p => (s.finishWrite p).releaseOne p

/-- The stall at boundary 0 while the reply to the port's last frame is built (R438, R439). -/
def State.stallBuild (s : State) (p : Nat) : State :=
  if (s.pt p).building then (s.bump (R.HOST_STALL_N_STALL p)).stallEnd p else s

/-- A host frame: the fall of HnCS_N, the stall at boundary 0, the window, and the rise. A frame waits while its port takes
none and while an earlier one waits; before BOOT and in OFF the port ignores it (R464, R489). A command carries a whole frame,
so whatever holds the frame buffer does so before its first boundary, and no later one stalls (log entry 101). -/
def State.frame (s0 : State) (opc : Byte) (f : Frame) : State :=
  let p := f.port.val
  let s := (if s0.up then s0.hostEdge f.port else s0).releasePort f.port
  if s.takes f.port && (s.pt p).held.isEmpty then (s.stallBuild p).clockFrame opc f (s.keyHeld opc f)
  else if s.boot == .started && s.pwr.state != .off then s.holdFrame opc f
  else s

/-! ## Commands: frames -/

/-- NOP. -/
def execNop (f : Frame) (s : State) : Host.Outcome State Fault Refusal := .next (s.frame 0x00 f)
/-- NOP with RESYNC. -/
def execNopResync (f : Frame) (s : State) : Host.Outcome State Fault Refusal := .next (s.frame 0x00 f)
/-- LAST_REPLY. -/
def execLastReply (f : Frame) (s : State) : Host.Outcome State Fault Refusal := .next (s.frame 0x0F f)
/-- REG_READ. -/
def execRegRead (f : Frame) (s : State) : Host.Outcome State Fault Refusal := .next (s.frame 0x10 f)
/-- REG_WRITE. -/
def execRegWrite (f : Frame) (s : State) : Host.Outcome State Fault Refusal := .next (s.frame 0x11 f)
/-- MEM_READ. -/
def execMemRead (f : Frame) (s : State) : Host.Outcome State Fault Refusal := .next (s.frame 0x20 f)
/-- MEM_WRITE. -/
def execMemWrite (f : Frame) (s : State) : Host.Outcome State Fault Refusal := .next (s.frame 0x21 f)
/-- SUBMIT of a single-frame item. -/
def execSubmitSingle (f : Frame) (s : State) : Host.Outcome State Fault Refusal := .next (s.frame 0x30 f)
/-- SUBMIT opening a multi-frame item. -/
def execSubmitOpen (f : Frame) (s : State) : Host.Outcome State Fault Refusal := .next (s.frame 0x30 f)
/-- SUBMIT continuation. -/
def execSubmitCont (f : Frame) (s : State) : Host.Outcome State Fault Refusal := .next (s.frame 0x30 f)
/-- SUBMIT final continuation. -/
def execSubmitFinal (f : Frame) (s : State) : Host.Outcome State Fault Refusal := .next (s.frame 0x30 f)
/-- QUEUE_FLUSH. -/
def execQueueFlush (f : Frame) (s : State) : Host.Outcome State Fault Refusal := .next (s.frame 0x34 f)
/-- QUEUE_FLUSH with ABORT. -/
def execQueueFlushAbort (f : Frame) (s : State) : Host.Outcome State Fault Refusal := .next (s.frame 0x34 f)
/-- RES_READ. -/
def execResRead (f : Frame) (s : State) : Host.Outcome State Fault Refusal := .next (s.frame 0x38 f)
/-- RES_MARK. -/
def execResMark (f : Frame) (s : State) : Host.Outcome State Fault Refusal := .next (s.frame 0x39 f)
/-- RES_REWIND. -/
def execResRewind (f : Frame) (s : State) : Host.Outcome State Fault Refusal := .next (s.frame 0x3A f)
/-- RES_RELEASE. -/
def execResRelease (f : Frame) (s : State) : Host.Outcome State Fault Refusal := .next (s.frame 0x3B f)
/-- NOTICE_READ. -/
def execNoticeRead (f : Frame) (s : State) : Host.Outcome State Fault Refusal := .next (s.frame 0x40 f)
/-- NOTICE_ACK. -/
def execNoticeAck (f : Frame) (s : State) : Host.Outcome State Fault Refusal := .next (s.frame 0x41 f)
/-- TIME_SET NOW. -/
def execTimeSetNow (f : Frame) (s : State) : Host.Outcome State Fault Refusal := .next (s.frame 0x50 f)
/-- TIME_SET AT_SYNCI. -/
def execTimeSetAtSynci (f : Frame) (s : State) : Host.Outcome State Fault Refusal := .next (s.frame 0x50 f)
/-- TIME_SET OFFSET. -/
def execTimeSetOffset (f : Frame) (s : State) : Host.Outcome State Fault Refusal := .next (s.frame 0x50 f)
/-- TIME_SET DISARM. -/
def execTimeSetDisarm (f : Frame) (s : State) : Host.Outcome State Fault Refusal := .next (s.frame 0x50 f)
/-- POWER with TARGET IDLE. -/
def execPowerIdle (f : Frame) (s : State) : Host.Outcome State Fault Refusal := .next (s.frame 0x60 f)
/-- POWER with TARGET SLEEP. -/
def execPowerSleep (f : Frame) (s : State) : Host.Outcome State Fault Refusal := .next (s.frame 0x60 f)
/-- POWER with TARGET WATCH. -/
def execPowerWatch (f : Frame) (s : State) : Host.Outcome State Fault Refusal := .next (s.frame 0x60 f)
/-- POWER with TARGET DEEP. -/
def execPowerDeep (f : Frame) (s : State) : Host.Outcome State Fault Refusal := .next (s.frame 0x60 f)
/-- POWER with TARGET OFF. -/
def execPowerOff (f : Frame) (s : State) : Host.Outcome State Fault Refusal := .next (s.frame 0x60 f)
/-- RESET with KIND 0. -/
def execResetWarm (f : Frame) (s : State) : Host.Outcome State Fault Refusal := .next (s.frame 0x70 f)
/-- RESET with KIND 1. -/
def execResetSystem (f : Frame) (s : State) : Host.Outcome State Fault Refusal := .next (s.frame 0x70 f)
/-- FL_INFO. -/
def execFlInfo (f : Frame) (s : State) : Host.Outcome State Fault Refusal := .next (s.frame 0x80 f)
/-- FL_ERASE. -/
def execFlErase (f : Frame) (s : State) : Host.Outcome State Fault Refusal := .next (s.frame 0x81 f)
/-- FL_PROGRAM. -/
def execFlProgram (f : Frame) (s : State) : Host.Outcome State Fault Refusal := .next (s.frame 0x82 f)
/-- FL_CRC. -/
def execFlCrc (f : Frame) (s : State) : Host.Outcome State Fault Refusal := .next (s.frame 0x83 f)
/-- IMG_CHECK. -/
def execImgCheck (f : Frame) (s : State) : Host.Outcome State Fault Refusal := .next (s.frame 0x84 f)
/-- FL_ABORT. -/
def execFlAbort (f : Frame) (s : State) : Host.Outcome State Fault Refusal := .next (s.frame 0x85 f)
/-- FL_SLEEP. -/
def execFlSleep (f : Frame) (s : State) : Host.Outcome State Fault Refusal := .next (s.frame 0x86 f)
/-- FL_RESET. -/
def execFlReset (f : Frame) (s : State) : Host.Outcome State Fault Refusal := .next (s.frame 0x87 f)
/-- A frame with the opcode `opc`, undefined in R440. -/
def execBadOpc (opc : Byte) (f : Frame) (s : State) : Host.Outcome State Fault Refusal := .next (s.frame opc f)

/-! ## Commands: the end of a stall -/

/-- REPLY_BUILD_DONE: the reply to the port's last frame is built; a window write or a held write builds it when it ends (R151,
R439). A frame that waits at the port goes on. -/
def execReplyBuildDone (p : Port) (s : State) : Host.Outcome State Fault Refusal :=
  .next (if s.replyWaits p then s else (s.modPt p.val fun t => { t with building := false }).releaseOne p)

/-- DOMAIN_POWER_UP: the next domain of the order (R404). With PD_ENG, frames that wait are clocked (R402, R405), and PMBus
work goes on. -/
def execDomainPowerUp (s : State) : Host.Outcome State Fault Refusal :=
  .next (if s.pwr.todo.head? = some 11 then s.nextDomain.pmbEngineOn.releaseAll else s.nextDomain)

/-- PRIVACY_SEARCH_DONE: the search ends; a write of AES keys that it held is done before the next search starts (R151,
R168). -/
def execPrivacySearchDone (lat : Nat) (s : State) : Host.Outcome State Fault Refusal :=
  .next (match s.searchEnd lat with
    | none => s
    | some t => t.releaseAll.startCry.retryRequests.delivered)

end Sys2Proof.Machine
end

