-- ==== Sys2Proof/Machine/Pins.lean ====
section
/-!
DEFINITION. What the pins show in each power state (R489): levels of the digital outputs, the bridges, the receivers and the
regulators, as functions of the state between two commands.
-/

namespace Sys2Proof.Machine

/-- What a digital output shows; `active` is a line that follows the bits of a transfer in progress. -/
inductive PinLevel where
  | low | high | hiZ | active
  deriving DecidableEq, Repr

/-- What the bridge of a channel does: a clamp is switched between high impedance and its resistance in Ω with the subcarrier
(R365), and `ping` is the drive of Firefly from VDDA at a level LVL (R411). -/
inductive BridgePin where
  | hiZ | gtx | driven | clamp (ohm : Nat) | ping (lvl : Nat)
  deriving DecidableEq, Repr

/-- Mode of the core buck at SW. -/
inductive BuckMode where
  | off | pwm | pulseFrequency
  deriving DecidableEq, Repr

/-- A level of a logic value. -/
def pinLevel (b : Bool) : PinLevel := if b then .high else .low

/-- A digital output that every state but OFF drives. -/
def State.outPin (s : State) (b : Bool) : PinLevel := if s.pwr.state = .off then .hiZ else pinLevel b

/-- HnRDY. -/
def State.rdyLevel (s : State) (p : Port) : PinLevel := s.outPin (s.rdyPin p)

/-- HnATTN_N: an open-drain pin releases its high level (R426). -/
def State.attnLevel (s : State) (p : Port) : PinLevel :=
  if s.attn p.val then s.outPin false else if s.isOn (R.HOST_CFG_ATTN_OD p.val) then .hiZ else s.outPin true

/-- HnSDO is driven while HnCS_N is low (R426, R428): between frames, only at one that waits in RUN or IDLE, before its first
bit. -/
def State.sdoDriven (s : State) (p : Port) : Bool := !s.pwr.state.low && !(s.pt p.val).held.isEmpty

/-- SYNCO (R337). -/
def State.syncoLevel (s : State) : PinLevel := s.outPin s.syncoHigh

/-- A serial output: active while a transfer runs in RUN or IDLE, at its idle level otherwise. -/
def State.busPin (s : State) (busy idle : Bool) : PinLevel :=
  if busy && !s.pwr.state.low then .active else s.outPin idle

/-- ASCK, ASDO and ASLE: low between switch words, of which the first is the all-zero one of start-up (R59, R62). -/
def State.switchLevel (s : State) : PinLevel := s.busPin s.syn.shift.isSome false

/-- ASCK, ASDO and ASLE before step `k` of a round of Firefly runs: the watch unit shifts a word where the step's channel is not
latched as the step needs, and the shift begins and ends within the round's command (R62, R410). -/
def State.pingSwitchLevel (s : State) (k : Nat) : PinLevel :=
  let w := s.wstep k
  if ((s.ch w.ch).curPos, (s.ch w.ch).curEn) = w.pos then s.switchLevel else .active

/-- The flash port clocks a command: it reads a line for the routine cache, or sends a command and polls its status (R469, R470).
Before the flash power-up wait has ended it is silent; in step 4 of start-up it polls a write in progress (R460, R464). -/
def State.flashClocks (s : State) : Bool :=
  match s.boot with
  | .started => s.flash.filling.isSome || s.flash.wip || s.flash.op.isSome
  | .flashWait => s.bootDisc.isSome
  | .held | .crystal | .lock | .imageCal => false

/-- FSCK and FSDO: low between commands. -/
def State.flashLevel (s : State) : PinLevel := s.busPin s.flashClocks false

/-- FCS_N: high between commands. -/
def State.flashSelectLevel (s : State) : PinLevel := s.busPin s.flashClocks true

/-- PMSCL and PMSDA: open-drain lines, released unless the rail controller or a raw access has a transaction to make (R416,
R421). -/
def State.pmbusLevel (s : State) : PinLevel :=
  let busy := s.pmb.raw.isSome || s.pmb.state == .setup || s.pmb.state == .change
  if busy && !s.pwr.state.low && s.boot == .started then .active else .hiZ

/-- VTXEN (R421). -/
def State.vtxenLevel (s : State) : PinLevel := pinLevel (s.pmb.vtxen && s.pwr.state != .off)

/-- A listen channel is armed (R360). -/
def State.armed (s : State) (n : Nat) : Bool := s.listens n && s.isOn R.EMU_CTL_EN && !s.jobHolds n && !s.maintHolds n

/-- TXAn and TXBn between two commands. A channel whose domain is off stays at high impedance, as it does while the device is held
in reset; a thermal shutdown puts every leg to GTX (R317), and a swarm member of weight 0 keeps its legs there (R193). An
armed listen channel is at high impedance, or switches its clamp while its card has an answer (R360, R365; log entry 120). -/
def State.bridge (s : State) (n : Ch) : BridgePin :=
  if s.pwr.state.low || s.boot == .held || !bitOf s.pwr.domOn.toNat n.val then .hiZ
  else if s.thermHold then .gtx
  else if s.armed n.val then (if (s.card n.val).load.isSome then .clamp (s.rd R.EMU_LM_LM_R) else .hiZ)
  else if (s.ch n.val).field.live && !s.silent n.val then .driven
  else .gtx

/-- TXAn and TXBn while step `k` of a round of Firefly drives its ping, which begins and ends within the round's command: the
step's channel is driven at its LVL, and any other in WATCH is at high impedance (R411). -/
def State.pingBridge (s : State) (k : Nat) (n : Ch) : BridgePin :=
  if (s.wstep k).ch = n.val then .ping (getBits (s.wstep k).scfg 24 2) else s.bridge n

/-- RXPn and RXNn are biased at half of VDDA; in WATCH only within a round. -/
def State.rxBiased (s : State) : Bool := !s.pwr.state.low

/-- RXPn and RXNn during step `k` of a round: in WATCH, those of the step's own channel are biased (R411). -/
def State.pingRxBiased (s : State) (k : Nat) (n : Ch) : Bool :=
  s.rxBiased || (s.pwr.state == .watch && (s.wstep k).ch == n.val)

/-- VTXpp and GTXpp supply the bridges from the end of start-up on; otherwise they are not loaded. -/
def State.vtxLoaded (s : State) : Bool := s.vinOk && s.boot == .started && !s.pwr.state.low

/-- SW: the mode of the core buck. -/
def State.buckMode (s : State) : BuckMode :=
  if !s.vinOk then .off
  else
    match s.pwr.state with
    | .run | .idle => .pwm
    | .sleep | .deep | .watch => .pulseFrequency
    | .off => .off

/-- VCORE in mV. -/
def State.vcoreMv (s : State) : Nat :=
  if !s.vinOk then 0
  else
    match s.pwr.state with
    | .run | .idle | .sleep | .watch => 1100
    | .deep => 750
    | .off => 0

/-- VDDA in mV; in WATCH it is on only within a round. -/
def State.vddaMv (s : State) : Nat := if s.vinOk && !s.pwr.state.low then 3300 else 0

/-- VDDA in mV during a round of Firefly. -/
def State.roundVddaMv (s : State) : Nat := if s.vinOk && s.pwr.state == .watch then 3300 else s.vddaMv

/-- VAON in mV. -/
def State.vaonMv (s : State) : Nat := if s.vinOk && s.pwr.state != .off then 1800 else 0

/-- The main oscillator at XI and XO is on. -/
def State.mainOsc (s : State) : Bool := s.vinOk && !s.pwr.state.low

/-- The LPO oscillator at LXI and LXO is on. -/
def State.lpoOsc (s : State) : Bool := s.vinOk && s.pwr.state != .off

end Sys2Proof.Machine
end

