-- ==== Sys2Proof/Machine/HostRegs.lean ====
section
/-!
DEFINITION. Writes of one register by a host port. Each is the REG_WRITE frame of one word that follows the port's last
frame, so its checks, its status and its reply are those of the frame (R442 to R444). A row that names fields writes the
other fields of the register as they stand. Log entry 67.
-/

namespace Sys2Proof.Machine

/-- The frame of an opcode with the port's next SEQ and a right CRC. -/
def State.nextFrame (s : State) (p : Port) (opc : Byte) (arg : Word) (body : List Byte) : Frame :=
  let f : Frame :=
    { port := p, tag := ((s.pt p.val).lastSeq + 1).setWidth 8, len := BitVec.ofNat 16 body.length, arg := arg, payload := body
      crc := 0, rise := none, mode3 := (s.pt p.val).mode3 }
  { f with crc := hostCrc opc f }

/-- Port `p` writes a word to a register. -/
def State.writeOne (s : State) (p : Port) (a : Nat) (w : Word) : State :=
  s.frame 0x11 (s.nextFrame p 0x11 (BitVec.ofNat 32 a) (leBytes 4 w.toNat))

/-- Port `p` reads the word of a register. -/
def State.readOne (s : State) (p : Port) (a : Nat) : State :=
  s.frame 0x10 (s.nextFrame p 0x10 (BitVec.ofNat 32 (a + 2 ^ 16)) (List.replicate 8 0))

/-- The writable fields of a register as they stand. -/
def State.keptWord (s : State) (a : Nat) : Word :=
  match rowAt a with
  | some r => s.rdWord a &&& (r.rw ||| r.rwl)
  | none => 0

/-- A register with a field set and its other fields as they stand. -/
def State.fieldWord (s : State) (f : Fld) (v : Nat) : Word := f.put v (s.keptWord f.addr)

/-- Port `p` writes a field. -/
def State.writeField (s : State) (p : Port) (f : Fld) (v : Nat) : State := s.writeOne p f.addr (s.fieldWord f v)

/-- PROT_WRITE: the word at an offset of the PROT block. -/
def execProtWrite (p : Port) (ofs : BitVec 8) (w : Word) (s : State) : Host.Outcome State Fault Refusal :=
  .next (s.writeOne p (0x400 + ofs.toNat) w)
/-- PROT_COMMIT. -/
def execProtCommit (p : Port) (s : State) : Host.Outcome State Fault Refusal := .next (s.writeOne p R.PROT_CTL 1)
/-- BEAT_US. -/
def execBeatUsWrite (p : Port) (us : BitVec 12) (s : State) : Host.Outcome State Fault Refusal :=
  .next (s.writeField p R.TIME_BEAT_BEAT_US us.toNat)
/-- TIME_RATE. -/
def execTimeRateWrite (p : Port) (rate : Word) (s : State) : Host.Outcome State Fault Refusal :=
  .next (s.writeOne p R.TIME_RATE rate)
/-- CHn_ANT. -/
def execChnAntWrite (p : Port) (n : Ch) (pos : BitVec 3) (en : Bool) (s : State) : Host.Outcome State Fault Refusal :=
  .next (s.writeOne p (R.CH_ANT n.val) (BitVec.ofNat 32 (pos.toNat + 8 * en.toNat)))
/-- CHn_WSDATA: a write, or a read where there is no word. -/
def execChnWsdataAccess (p : Port) (n : Ch) (w : Option Word) (s : State) : Host.Outcome State Fault Refusal :=
  .next (match w with
    | some w => s.writeOne p (R.CH_WSDATA n.val) w
    | none => s.readOne p (R.CH_WSDATA n.val))
/-- SYN_CTL.RECAL. -/
def execRecal (p : Port) (s : State) : Host.Outcome State Fault Refusal := .next (s.writeField p R.SYN_CTL_RECAL 1)
/-- CHn_RXIQCAL.IQCAL. -/
def execIqcal (p : Port) (n : Ch) (s : State) : Host.Outcome State Fault Refusal :=
  .next (s.writeField p (R.CH_RXIQCAL_IQCAL n.val) 1)

/-- INV_CMD with an operation and an index (R144). -/
def State.writeInv (s : State) (p : Port) (op index : Nat) : State :=
  s.writeOne p R.INV_CMD (BitVec.ofNat 32 (op + 2 ^ 16 * index))
/-- FIND. -/
def execFind (p : Port) (s : State) : Host.Outcome State Fault Refusal := .next (s.writeInv p 1 0)
/-- FREE. -/
def execFree (p : Port) (index : BitVec 14) (s : State) : Host.Outcome State Fault Refusal := .next (s.writeInv p 2 index.toNat)
/-- LOCK. -/
def execLock (p : Port) (index : BitVec 14) (s : State) : Host.Outcome State Fault Refusal := .next (s.writeInv p 3 index.toNat)
/-- UNLOCK. -/
def execUnlock (p : Port) (index : BitVec 14) (s : State) : Host.Outcome State Fault Refusal :=
  .next (s.writeInv p 4 index.toNat)
/-- CLEAR. -/
def execClear (p : Port) (s : State) : Host.Outcome State Fault Refusal := .next (s.writeInv p 5 0)
/-- CLEAR_ALL. -/
def execClearAll (p : Port) (s : State) : Host.Outcome State Fault Refusal := .next (s.writeInv p 6 0)

/-- CRY_CMD with an operation and a key (R181). -/
def State.writeCry (s : State) (p : Port) (op key : Nat) : State :=
  s.writeOne p R.CRY_CMD (BitVec.ofNat 32 (op + 2 ^ 8 * key))
/-- VALIDATE. -/
def execValidate (p : Port) (key : BitVec 5) (s : State) : Host.Outcome State Fault Refusal := .next (s.writeCry p 1 key.toNat)
/-- INVALIDATE. -/
def execInvalidate (p : Port) (key : BitVec 5) (s : State) : Host.Outcome State Fault Refusal :=
  .next (s.writeCry p 2 key.toNat)
/-- VALIDATE_ALL. -/
def execValidateAll (p : Port) (s : State) : Host.Outcome State Fault Refusal := .next (s.writeCry p 3 0)
/-- ZERO_AES. -/
def execZeroAes (p : Port) (s : State) : Host.Outcome State Fault Refusal := .next (s.writeCry p 4 0)
/-- SWARM_CMD MEASURE (R199). -/
def execMeasure (p : Port) (group : BitVec 2) (slot : BitVec 3) (mw : BitVec 12) (s : State) :
    Host.Outcome State Fault Refusal :=
  .next (s.writeOne p R.SWARM_CMD (BitVec.ofNat 32 (1 + 2 ^ 4 * group.toNat + 2 ^ 8 * slot.toNat + 2 ^ 16 * mw.toNat)))
/-- CSQ_QID, CSQ_QPW0 or CSQ_QPW1 (R259). -/
def execDeclarationQuery (p : Port) (which : BitVec 2) (w : Word) (s : State) : Host.Outcome State Fault Refusal :=
  .next (s.writeOne p (if which = 0 then R.CSQ_QID else if which = 1 then R.CSQ_QPW0 else R.CSQ_QPW1) w)
/-- CSQ_CACHE.INV (R252). -/
def execCacheInvalidate (p : Port) (s : State) : Host.Outcome State Fault Refusal := .next (s.writeOne p R.CSQ_CACHE 1)
/-- SCHED_QSTAT_q.WM_HIT (R282). -/
def execWmHitClear (p : Port) (q : BitVec 6) (s : State) : Host.Outcome State Fault Refusal :=
  .next (s.writeField p (R.SCHED_QSTAT_WM_HIT q.toNat) 1)
/-- BUDG_QUOTA of port `who` (R310). -/
def execQuotaWrite (p who : Port) (quota : BitVec 31) (s : State) : Host.Outcome State Fault Refusal :=
  .next (s.writeField p (R.BUDG_QUOTA_QUOTA who.val) quota.toNat)
/-- GATE_CTL.SWAP (R349). -/
def execSwap (p : Port) (s : State) : Host.Outcome State Fault Refusal := .next (s.writeField p R.GATE_CTL_SWAP 1)
/-- GATE_CTL.CANCEL (R351). -/
def execCancel (p : Port) (s : State) : Host.Outcome State Fault Refusal := .next (s.writeField p R.GATE_CTL_CANCEL 1)
/-- EMU_CTL.EN (R368). -/
def execEmuEnableWrite (p : Port) (en : Bool) (s : State) : Host.Outcome State Fault Refusal :=
  .next (s.writeField p R.EMU_CTL_EN en.toNat)
/-- EMU_MBCMD OPEN (R375). -/
def execMbOpen (p : Port) (s : State) : Host.Outcome State Fault Refusal := .next (s.writeOne p R.EMU_MBCMD 1)
/-- EMU_MBCMD COMMIT (R379, R380). -/
def execMbCommit (p : Port) (s : State) : Host.Outcome State Fault Refusal := .next (s.writeOne p R.EMU_MBCMD 2)
/-- EMU_MBCMD DISCARD (R375). -/
def execMbDiscard (p : Port) (s : State) : Host.Outcome State Fault Refusal := .next (s.writeOne p R.EMU_MBCMD 3)
/-- EMU_MBCMD REJOURNAL (R383). -/
def execRejournal (p : Port) (s : State) : Host.Outcome State Fault Refusal := .next (s.writeOne p R.EMU_MBCMD 4)

/-- WATCH_CMD with an operation (R413, R424). -/
def State.writeWatch (s : State) (p : Port) (op : Nat) (one : Bool) (step : BitVec 6) : State :=
  s.writeOne p R.WATCH_CMD (BitVec.ofNat 32 (op + 2 ^ 8 * one.toNat + 2 ^ 16 * step.toNat))
/-- WATCH_CMD CAPTURE. -/
def execCapture (p : Port) (one : Bool) (step : BitVec 6) (s : State) : Host.Outcome State Fault Refusal :=
  .next (s.writeWatch p 1 one step)
/-- WATCH_CMD CLEAR. -/
def execWatchClear (p : Port) (one : Bool) (step : BitVec 6) (s : State) : Host.Outcome State Fault Refusal :=
  .next (s.writeWatch p 2 one step)
/-- WATCH_SBASE of the step of WATCH_SIDX (R413). -/
def execSbaseWrite (p : Port) (w : Word) (s : State) : Host.Outcome State Fault Refusal := .next (s.writeOne p R.WATCH_SBASE w)

/-- PMB_CMD with an operation, a command code and data (R422). -/
def State.writePmb (s : State) (p : Port) (op : Nat) (code : Byte) (data : BitVec 16) : State :=
  s.writeOne p R.PMB_CMD (BitVec.ofNat 32 (op + 2 ^ 8 * code.toNat + 2 ^ 16 * data.toNat))
/-- PMB_CMD RECOVER (R421). -/
def execRecover (p : Port) (s : State) : Host.Outcome State Fault Refusal := .next (s.writePmb p 1 0 0)
/-- PMB_CMD READ_BYTE. -/
def execReadByte (p : Port) (code : Byte) (s : State) : Host.Outcome State Fault Refusal := .next (s.writePmb p 2 code 0)
/-- PMB_CMD READ_WORD. -/
def execReadWord (p : Port) (code : Byte) (s : State) : Host.Outcome State Fault Refusal := .next (s.writePmb p 3 code 0)
/-- PMB_CMD WRITE_BYTE. -/
def execWriteByte (p : Port) (code : Byte) (data : BitVec 16) (s : State) : Host.Outcome State Fault Refusal :=
  .next (s.writePmb p 4 code data)
/-- PMB_CMD WRITE_WORD. -/
def execWriteWord (p : Port) (code : Byte) (data : BitVec 16) (s : State) : Host.Outcome State Fault Refusal :=
  .next (s.writePmb p 5 code data)
/-- PMB_CMD SEND_BYTE. -/
def execSendByte (p : Port) (code : Byte) (s : State) : Host.Outcome State Fault Refusal := .next (s.writePmb p 6 code 0)
/-- DIAG_CMD ROMTEST (R484). -/
def execRomtest (p : Port) (s : State) : Host.Outcome State Fault Refusal := .next (s.writeOne p R.DIAG_CMD 1)
/-- DIAG_CMD CHTEST (R484). -/
def execChtest (p : Port) (mask : BitVec 8) (s : State) : Host.Outcome State Fault Refusal :=
  .next (s.writeOne p R.DIAG_CMD (BitVec.ofNat 32 (2 + 2 ^ 8 * mask.toNat)))

end Sys2Proof.Machine
end

