-- ==== Sys2Proof/Machine/Dispatch.lean ====
section
/-!
DEFINITION. What each command does to everything but the queue: one arm per constructor, each a direct call of
its meaning.
-/

namespace Sys2Proof.Machine

def exec (i : Instr) (s : State) : Host.Outcome State Fault Refusal :=
  match i with
  | .nop f => Sys2Proof.Machine.execNop f s
  | .nopResync f => Sys2Proof.Machine.execNopResync f s
  | .lastReply f => Sys2Proof.Machine.execLastReply f s
  | .regRead f => Sys2Proof.Machine.execRegRead f s
  | .regWrite f => Sys2Proof.Machine.execRegWrite f s
  | .memRead f => Sys2Proof.Machine.execMemRead f s
  | .memWrite f => Sys2Proof.Machine.execMemWrite f s
  | .submitSingle f => Sys2Proof.Machine.execSubmitSingle f s
  | .submitOpen f => Sys2Proof.Machine.execSubmitOpen f s
  | .submitCont f => Sys2Proof.Machine.execSubmitCont f s
  | .submitFinal f => Sys2Proof.Machine.execSubmitFinal f s
  | .queueFlush f => Sys2Proof.Machine.execQueueFlush f s
  | .queueFlushAbort f => Sys2Proof.Machine.execQueueFlushAbort f s
  | .resRead f => Sys2Proof.Machine.execResRead f s
  | .resMark f => Sys2Proof.Machine.execResMark f s
  | .resRewind f => Sys2Proof.Machine.execResRewind f s
  | .resRelease f => Sys2Proof.Machine.execResRelease f s
  | .noticeRead f => Sys2Proof.Machine.execNoticeRead f s
  | .noticeAck f => Sys2Proof.Machine.execNoticeAck f s
  | .timeSetNow f => Sys2Proof.Machine.execTimeSetNow f s
  | .timeSetAtSynci f => Sys2Proof.Machine.execTimeSetAtSynci f s
  | .timeSetOffset f => Sys2Proof.Machine.execTimeSetOffset f s
  | .timeSetDisarm f => Sys2Proof.Machine.execTimeSetDisarm f s
  | .powerIdle f => Sys2Proof.Machine.execPowerIdle f s
  | .powerSleep f => Sys2Proof.Machine.execPowerSleep f s
  | .powerWatch f => Sys2Proof.Machine.execPowerWatch f s
  | .powerDeep f => Sys2Proof.Machine.execPowerDeep f s
  | .powerOff f => Sys2Proof.Machine.execPowerOff f s
  | .resetWarm f => Sys2Proof.Machine.execResetWarm f s
  | .resetSystem f => Sys2Proof.Machine.execResetSystem f s
  | .flInfo f => Sys2Proof.Machine.execFlInfo f s
  | .flErase f => Sys2Proof.Machine.execFlErase f s
  | .flProgram f => Sys2Proof.Machine.execFlProgram f s
  | .flCrc f => Sys2Proof.Machine.execFlCrc f s
  | .imgCheck f => Sys2Proof.Machine.execImgCheck f s
  | .flAbort f => Sys2Proof.Machine.execFlAbort f s
  | .flSleep f => Sys2Proof.Machine.execFlSleep f s
  | .flReset f => Sys2Proof.Machine.execFlReset f s
  | .replyBuildDone p => Sys2Proof.Machine.execReplyBuildDone p s
  | .protWrite p ofs w => Sys2Proof.Machine.execProtWrite p ofs w s
  | .protCommit p => Sys2Proof.Machine.execProtCommit p s
  | .beatUsWrite p us => Sys2Proof.Machine.execBeatUsWrite p us s
  | .timeRateWrite p rate => Sys2Proof.Machine.execTimeRateWrite p rate s
  | .chnAntWrite p n pos en => Sys2Proof.Machine.execChnAntWrite p n pos en s
  | .chnWsdataAccess p n w => Sys2Proof.Machine.execChnWsdataAccess p n w s
  | .recal p => Sys2Proof.Machine.execRecal p s
  | .iqcal p n => Sys2Proof.Machine.execIqcal p n s
  | .find p => Sys2Proof.Machine.execFind p s
  | .free p index => Sys2Proof.Machine.execFree p index s
  | .lock p index => Sys2Proof.Machine.execLock p index s
  | .unlock p index => Sys2Proof.Machine.execUnlock p index s
  | .clear p => Sys2Proof.Machine.execClear p s
  | .clearAll p => Sys2Proof.Machine.execClearAll p s
  | .validate p key => Sys2Proof.Machine.execValidate p key s
  | .invalidate p key => Sys2Proof.Machine.execInvalidate p key s
  | .validateAll p => Sys2Proof.Machine.execValidateAll p s
  | .zeroAes p => Sys2Proof.Machine.execZeroAes p s
  | .measure p group slot mw => Sys2Proof.Machine.execMeasure p group slot mw s
  | .declarationQuery p which w => Sys2Proof.Machine.execDeclarationQuery p which w s
  | .cacheInvalidate p => Sys2Proof.Machine.execCacheInvalidate p s
  | .wmHitClear p q => Sys2Proof.Machine.execWmHitClear p q s
  | .quotaWrite p who quota => Sys2Proof.Machine.execQuotaWrite p who quota s
  | .swap p => Sys2Proof.Machine.execSwap p s
  | .cancel p => Sys2Proof.Machine.execCancel p s
  | .emuEnableWrite p en => Sys2Proof.Machine.execEmuEnableWrite p en s
  | .mbOpen p => Sys2Proof.Machine.execMbOpen p s
  | .mbCommit p => Sys2Proof.Machine.execMbCommit p s
  | .mbDiscard p => Sys2Proof.Machine.execMbDiscard p s
  | .rejournal p => Sys2Proof.Machine.execRejournal p s
  | .capture p one step => Sys2Proof.Machine.execCapture p one step s
  | .watchClear p one step => Sys2Proof.Machine.execWatchClear p one step s
  | .sbaseWrite p w => Sys2Proof.Machine.execSbaseWrite p w s
  | .recover p => Sys2Proof.Machine.execRecover p s
  | .readByte p code => Sys2Proof.Machine.execReadByte p code s
  | .readWord p code => Sys2Proof.Machine.execReadWord p code s
  | .writeByte p code data => Sys2Proof.Machine.execWriteByte p code data s
  | .writeWord p code data => Sys2Proof.Machine.execWriteWord p code data s
  | .sendByte p code => Sys2Proof.Machine.execSendByte p code s
  | .pmbRawDone data failed => Sys2Proof.Machine.execPmbRawDone data failed s
  | .romtest p => Sys2Proof.Machine.execRomtest p s
  | .chtest p mask => Sys2Proof.Machine.execChtest p mask s
  | .diagTestDone rom failed => Sys2Proof.Machine.execDiagTestDone rom failed s
  | .beatBoundary nt steps => Sys2Proof.Machine.execBeatBoundary nt steps s
  | .holdSweep nt => Sys2Proof.Machine.execHoldSweep nt s
  | .seqNop n => Sys2Proof.Machine.execSeqNop n s
  | .yield n => Sys2Proof.Machine.execYield n s
  | .ret n => Sys2Proof.Machine.execRet n s
  | .seqFault n => Sys2Proof.Machine.execSeqFault n s
  | .wait n ra => Sys2Proof.Machine.execWait n ra s
  | .waitExpiry n => Sys2Proof.Machine.execWaitExpiry n s
  | .time n ra => Sys2Proof.Machine.execTime n ra s
  | .jr n ra => Sys2Proof.Machine.execJr n ra s
  | .movi n rd imm => Sys2Proof.Machine.execMovi n rd imm s
  | .movx n rd imm => Sys2Proof.Machine.execMovx n rd imm s
  | .mov n rd rs => Sys2Proof.Machine.execMov n rd rs s
  | .add n rd rs => Sys2Proof.Machine.execAdd n rd rs s
  | .sub n rd rs => Sys2Proof.Machine.execSub n rd rs s
  | .and n rd rs => Sys2Proof.Machine.execAnd n rd rs s
  | .or n rd rs => Sys2Proof.Machine.execOr n rd rs s
  | .xor n rd rs => Sys2Proof.Machine.execXor n rd rs s
  | .shl n rd rs => Sys2Proof.Machine.execShl n rd rs s
  | .shr n rd rs => Sys2Proof.Machine.execShr n rd rs s
  | .asr n rd rs => Sys2Proof.Machine.execAsr n rd rs s
  | .mul n rd rs => Sys2Proof.Machine.execMul n rd rs s
  | .cmp n rd rs => Sys2Proof.Machine.execCmp n rd rs s
  | .tst n rd rs => Sys2Proof.Machine.execTst n rd rs s
  | .not n rd rs => Sys2Proof.Machine.execNot n rd rs s
  | .addi n rd imm => Sys2Proof.Machine.execAddi n rd imm s
  | .subi n rd imm => Sys2Proof.Machine.execSubi n rd imm s
  | .shli n rd imm => Sys2Proof.Machine.execShli n rd imm s
  | .shri n rd imm => Sys2Proof.Machine.execShri n rd imm s
  | .btst n rd bit => Sys2Proof.Machine.execBtst n rd bit s
  | .bset n rd bit => Sys2Proof.Machine.execBset n rd bit s
  | .bclr n rd bit => Sys2Proof.Machine.execBclr n rd bit s
  | .cmpi n rd imm => Sys2Proof.Machine.execCmpi n rd imm s
  | .beq n ofs => Sys2Proof.Machine.execBeq n ofs s
  | .bne n ofs => Sys2Proof.Machine.execBne n ofs s
  | .blo n ofs => Sys2Proof.Machine.execBlo n ofs s
  | .bhs n ofs => Sys2Proof.Machine.execBhs n ofs s
  | .blt n ofs => Sys2Proof.Machine.execBlt n ofs s
  | .bge n ofs => Sys2Proof.Machine.execBge n ofs s
  | .bmi n ofs => Sys2Proof.Machine.execBmi n ofs s
  | .bpl n ofs => Sys2Proof.Machine.execBpl n ofs s
  | .jmp n ofs => Sys2Proof.Machine.execJmp n ofs s
  | .call n ofs => Sys2Proof.Machine.execCall n ofs s
  | .ld n rd rs size off => Sys2Proof.Machine.execLd n rd rs size off s
  | .st n r rs size off => Sys2Proof.Machine.execSt n r rs size off s
  | .pushb n r => Sys2Proof.Machine.execPushb n r s
  | .pushw n r => Sys2Proof.Machine.execPushw n r s
  | .popb n r => Sys2Proof.Machine.execPopb n r s
  | .popw n r => Sys2Proof.Machine.execPopw n r s
  | .poph n r => Sys2Proof.Machine.execPoph n r s
  | .peek n r imm => Sys2Proof.Machine.execPeek n r imm s
  | .fctlMark n rx => Sys2Proof.Machine.execFctlMark n rx s
  | .fctlRewind n rx => Sys2Proof.Machine.execFctlRewind n rx s
  | .fctlRelease n rx => Sys2Proof.Machine.execFctlRelease n rx s
  | .fctlDrop n rx => Sys2Proof.Machine.execFctlDrop n rx s
  | .avail n r rx => Sys2Proof.Machine.execAvail n r rx s
  | .pushi n imm => Sys2Proof.Machine.execPushi n imm s
  | .outi n imm => Sys2Proof.Machine.execOuti n imm s
  | .waitus n imm => Sys2Proof.Machine.execWaitus n imm s
  | .airt n imm => Sys2Proof.Machine.execAirt n imm s
  | .airr n imm => Sys2Proof.Machine.execAirr n imm s
  | .endJob n rc => Sys2Proof.Machine.execEndJob n rc s
  | .deti n imm => Sys2Proof.Machine.execDeti n imm s
  | .pati n imm => Sys2Proof.Machine.execPati n imm s
  | .fon n => Sys2Proof.Machine.execFon n s
  | .foff n => Sys2Proof.Machine.execFoff n s
  | .ant n rs => Sys2Proof.Machine.execAnt n rs s
  | .pwr n rs => Sys2Proof.Machine.execPwr n rs s
  | .tx n rs => Sys2Proof.Machine.execTx n rs s
  | .rx n rd => Sys2Proof.Machine.execRx n rd s
  | .xch n rd rs => Sys2Proof.Machine.execXch n rd rs s
  | .rxto n rs => Sys2Proof.Machine.execRxto n rs s
  | .rawb n rs => Sys2Proof.Machine.execRawb n rs s
  | .pat n rs => Sys2Proof.Machine.execPat n rs s
  | .txst n rd => Sys2Proof.Machine.execTxst n rd s
  | .invo n ra rb => Sys2Proof.Machine.execInvo n ra rb s
  | .invs n rd => Sys2Proof.Machine.execInvs n rd s
  | .inve n rd => Sys2Proof.Machine.execInve n rd s
  | .sigq n ra rb => Sys2Proof.Machine.execSigq n ra rb s
  | .resq n ra => Sys2Proof.Machine.execResq n ra s
  | .cryw n => Sys2Proof.Machine.execCryw n s
  | .cryr n rd rs => Sys2Proof.Machine.execCryr n rd rs s
  | .outb n r => Sys2Proof.Machine.execOutb n r s
  | .outh n r => Sys2Proof.Machine.execOuth n r s
  | .outw n r => Sys2Proof.Machine.execOutw n r s
  | .outrec n r => Sys2Proof.Machine.execOutrec n r s
  | .outsum n => Sys2Proof.Machine.execOutsum n s
  | .post n r => Sys2Proof.Machine.execPost n r s
  | .det n r => Sys2Proof.Machine.execDet n r s
  | .endr n r => Sys2Proof.Machine.execEndr n r s
  | .olen n r => Sys2Proof.Machine.execOlen n r s
  | .yieldMissed n => Sys2Proof.Machine.execYieldMissed n s
  | .windupExpiry n => Sys2Proof.Machine.execWindupExpiry n s
  | .waitingResume n nt => Sys2Proof.Machine.execWaitingResume n nt s
  | .finalEntryWrite n => Sys2Proof.Machine.execFinalEntryWrite n s
  | .settleEnd n => Sys2Proof.Machine.execSettleEnd n s
  | .rampEnd n => Sys2Proof.Machine.execRampEnd n s
  | .calibrationEnd n iv q resDb us => Sys2Proof.Machine.execCalibrationEnd n iv q resDb us s
  | .openAntennaCheck n iMa => Sys2Proof.Machine.execOpenAntennaCheck n iMa s
  | .modEnd n => Sys2Proof.Machine.execModEnd n s
  | .sofDetect n meas fdt => Sys2Proof.Machine.execSofDetect n meas fdt s
  | .frameEnd n r => Sys2Proof.Machine.execFrameEnd n r s
  | .responseTimeout n => Sys2Proof.Machine.execResponseTimeout n s
  | .windowClose n => Sys2Proof.Machine.execWindowClose n s
  | .downEnd n => Sys2Proof.Machine.execDownEnd n s
  | .loopTick n pMw iMa vtxMv dI dQ => Sys2Proof.Machine.execLoopTick n pMw iMa vtxMv dI dQ s
  | .overcurrent n => Sys2Proof.Machine.execOvercurrent n s
  | .vtxlow pair => Sys2Proof.Machine.execVtxlow pair s
  | .synLock us => Sys2Proof.Machine.execSynLock us s
  | .phaseStepRelock us => Sys2Proof.Machine.execPhaseStepRelock us s
  | .imageCalibrationEnd n g p irrA irrB => Sys2Proof.Machine.execImageCalibrationEnd n g p irrA irrB s
  | .agerVisit index => Sys2Proof.Machine.execAgerVisit index s
  | .ecdsaDone latUs => Sys2Proof.Machine.execEcdsaDone latUs s
  | .privacySearchDone lat => Sys2Proof.Machine.execPrivacySearchDone lat s
  | .couplingMeasurementDone avg clipped => Sys2Proof.Machine.execCouplingMeasurementDone avg clipped s
  | .routineCacheFill n => Sys2Proof.Machine.execRoutineCacheFill n s
  | .synciEdge ts ph => Sys2Proof.Machine.execSynciEdge ts ph s
  | .slewEnd nt => Sys2Proof.Machine.execSlewEnd nt s
  | .holdoverTimeout nt => Sys2Proof.Machine.execHoldoverTimeout nt s
  | .uncUpdate nt => Sys2Proof.Machine.execUncUpdate nt s
  | .syncoPulse nt => Sys2Proof.Machine.execSyncoPulse nt s
  | .lpoSpan rc ticks spanNs => Sys2Proof.Machine.execLpoSpan rc ticks spanNs s
  | .lpoFallback ticks => Sys2Proof.Machine.execLpoFallback ticks s
  | .gateChange nt => Sys2Proof.Machine.execGateChange nt s
  | .emuFieldDetect n => Sys2Proof.Machine.execEmuFieldDetect n s
  | .emuFieldLoss n => Sys2Proof.Machine.execEmuFieldLoss n s
  | .emuReqa n => Sys2Proof.Machine.execEmuReqa n s
  | .emuWupa n => Sys2Proof.Machine.execEmuWupa n s
  | .emuAnticollision n sel known => Sys2Proof.Machine.execEmuAnticollision n sel known s
  | .emuSelect n sel uid => Sys2Proof.Machine.execEmuSelect n sel uid s
  | .emuRats n param => Sys2Proof.Machine.execEmuRats n param s
  | .emuPps n dri dsi => Sys2Proof.Machine.execEmuPps n dri dsi s
  | .emuHlta n => Sys2Proof.Machine.execEmuHlta n s
  | .sDeselect n => Sys2Proof.Machine.execSDeselect n s
  | .emuOtherFrame n => Sys2Proof.Machine.execEmuOtherFrame n s
  | .selectByName n aid => Sys2Proof.Machine.execSelectByName n aid s
  | .selectByFileId n fid => Sys2Proof.Machine.execSelectByFileId n fid s
  | .readBinary n off le => Sys2Proof.Machine.execReadBinary n off le s
  | .updateBinary n off lc data => Sys2Proof.Machine.execUpdateBinary n off lc data s
  | .emuUnknownApdu n cla ins => Sys2Proof.Machine.execEmuUnknownApdu n cla ins s
  | .journalCommit good => Sys2Proof.Machine.execJournalCommit good s
  | .wakePin rising => Sys2Proof.Machine.execWakePin rising s
  | .hostWake p => Sys2Proof.Machine.execHostWake p s
  | .ntResume ticks => Sys2Proof.Machine.execNtResume ticks s
  | .watchRound meas => Sys2Proof.Machine.execWatchRound meas s
  | .pmbTonEnd voutMode => Sys2Proof.Machine.execPmbTonEnd voutMode s
  | .pmbVsettleEnd mantissa => Sys2Proof.Machine.execPmbVsettleEnd mantissa s
  | .pmbBusError e => Sys2Proof.Machine.execPmbBusError e s
  | .pmalert statusWord => Sys2Proof.Machine.execPmalert statusWord s
  | .thermalSample s0 s1 s2 s3 s4 => Sys2Proof.Machine.execThermalSample s0 s1 s2 s3 s4 s
  | .supplySample shuntUv vinMv => Sys2Proof.Machine.execSupplySample shuntUv vinMv s
  | .flashPowerupWaitEnd d => Sys2Proof.Machine.execFlashPowerupWaitEnd d s
  | .flashStatusPoll sr ms => Sys2Proof.Machine.execFlashStatusPoll sr ms s
  | .earlySubcarrier n => Sys2Proof.Machine.execEarlySubcarrier n s
  | .lpoCrystalStart ticks => Sys2Proof.Machine.execLpoCrystalStart ticks s
  | .badOpc opc f => Sys2Proof.Machine.execBadOpc opc f s
  | .undefinedInstruction n w => Sys2Proof.Machine.execUndefinedInstruction n w s
  | .chainedIBlock n data => Sys2Proof.Machine.execChainedIBlock n data s
  | .invCommandDone => Sys2Proof.Machine.execInvCommandDone s
  | .cryCommandDone => Sys2Proof.Machine.execCryCommandDone s
  | .antShiftStart => Sys2Proof.Machine.execAntShiftStart s
  | .antShiftComplete => Sys2Proof.Machine.execAntShiftComplete s
  | .bandFound => Sys2Proof.Machine.execBandFound s
  | .lockAttemptTimeout => Sys2Proof.Machine.execLockAttemptTimeout s
  | .lockLost => Sys2Proof.Machine.execLockLost s
  | .stepRelockTimeout => Sys2Proof.Machine.execStepRelockTimeout s
  | .merge => Sys2Proof.Machine.execMerge s
  | .pdCryPowerOff => Sys2Proof.Machine.execPdCryPowerOff s
  | .locateDone => Sys2Proof.Machine.execLocateDone s
  | .cacheFillDone => Sys2Proof.Machine.execCacheFillDone s
  | .syncoPulseEnd => Sys2Proof.Machine.execSyncoPulseEnd s
  | .wireLockExpiry => Sys2Proof.Machine.execWireLockExpiry s
  | .journalWrite => Sys2Proof.Machine.execJournalWrite s
  | .autoEntry => Sys2Proof.Machine.execAutoEntry s
  | .entryAgentPoll => Sys2Proof.Machine.execEntryAgentPoll s
  | .entryTimeout => Sys2Proof.Machine.execEntryTimeout s
  | .timerWake => Sys2Proof.Machine.execTimerWake s
  | .domainPowerUp => Sys2Proof.Machine.execDomainPowerUp s
  | .crystalStable => Sys2Proof.Machine.execCrystalStable s
  | .crystalStartTimeout => Sys2Proof.Machine.execCrystalStartTimeout s
  | .pingOscTrim => Sys2Proof.Machine.execPingOscTrim s
  | .pmbRecoverEnd => Sys2Proof.Machine.execPmbRecoverEnd s
  | .thermalResetRelease => Sys2Proof.Machine.execThermalResetRelease s
  | .por => Sys2Proof.Machine.execPor s
  | .brownOut => Sys2Proof.Machine.execBrownOut s
  | .offexit => Sys2Proof.Machine.execOffexit s
  | .pinReset => Sys2Proof.Machine.execPinReset s
  | .flashOpDone => Sys2Proof.Machine.execFlashOpDone s
  | .maintDrainTimeout => Sys2Proof.Machine.execMaintDrainTimeout s
  | .drainForce => Sys2Proof.Machine.execDrainForce s
  | .vddioGood => Sys2Proof.Machine.execVddioGood s
  | .resetNRelease => Sys2Proof.Machine.execResetNRelease s

end Sys2Proof.Machine
end

