-- ==== Sys2Proof/Safety.lean ====
section
/-!
DEFINITION. What a safe run of the device is: every step answers a next state, and the register file and every memory keep
their one canonical form, so that equal contents are equal data.
-/

namespace Sys2Proof.Machine

/-- A command has its effect: it answers a next state, no fault and no refusal. -/
def Proceeds (o : Host.Outcome State Fault Refusal) : Prop := ∃ t, o = .next t

/-- The canonical form of the external flash. -/
def flashCanon (m : Memory) : Bool := swf flashDefault m

/-- The canonical form of the local scratch of every sequencer. -/
def State.scratchCanon (s : State) : Bool := (List.range 8).all fun n => Memory.wf (s.ch n).seq.scratch

/-- Register file, SRAM, flash, mailbox banks, scratches, steps of Firefly and limits in force are canonical. -/
def State.canon (s : State) : Bool :=
  swf resetWord s.regs && Memory.wf s.sram && flashCanon s.flash.mem && Memory.wf s.emu.bank0 && Memory.wf s.emu.bank1
    && s.scratchCanon && swf noStep s.watch.steps && swf resetWord s.budg.lim

/-- The items that ports have open. -/
def State.openIds (s : State) : List Nat := (List.range 4).filterMap fun p => (s.pt p).openItem

/-- The serial numbers of the jobs are distinct and below the next one, each job is of one of the 64 queues, and ports have
different items open. -/
def State.jobsOk (s : State) : Bool :=
  decide (s.jobs.map fun j => j.id).Nodup && (s.jobs.all fun j => decide (j.id < s.nextJob) && decide (j.queue < 64))
    && decide s.openIds.Nodup && s.openIds.all fun i => decide (i < s.nextJob)

/-- A step goes on from a state. -/
def Safe (s : State) : Prop := Proceeds (step s)

/-! ## Terms of the statements -/

/-- A command answers a next state, and `P` holds of it. -/
def Leads (i : Instr) (s : State) (P : State → Prop) : Prop := ∃ t, exec i s = .next t ∧ P t

/-- The sequencer of channel `n` executes next, for job `j`, the instruction with halfword `w` (R216, R219, R230, R242
to R245): the job runs and nothing blocks, no limit on executing is reached, no fault is due at the first instruction,
and PC lies in the routine and in its code area, where that halfword is fetched. -/
structure Executes (s : State) (n : Ch) (w : Nat) (j : Job) : Prop where
  runs : s.runsOn n.val = some j
  free : (s.ch n.val).seq.spent = false
  first : (s.ch n.val).seq.firstFault = none
  inRoutine : j.decl.src ≠ 0 → (s.ch n.val).seq.pc.toNat < j.decl.ninst
  inArea : j.codeInside (s.ch n.val).seq.pc = true
  fetched : s.fetches j (s.ch n.val).seq.pc w = true

/-- A sequencer apart from what it counts: instructions, and those since the boundary or in wind-up (R242, R230). -/
def Seq.core (q : Seq) : Seq := { q with icnt := 0, ycnt := 0, ypend := false, windN := 0 }

/-- The device without its channels, its registers, and the order in which the lines of the routine cache were used. -/
def State.outside (s : State) : State :=
  { s with chans := .replicate 8 {}, regs := [], flash := { s.flash with cache := [] } }

/-- Of all the device, only the channel `n`, its highest yield count, and the order in which the lines of the routine
cache were used may differ. -/
def OnlyChannel (n : Ch) (s t : State) : Prop :=
  t.outside = s.outside ∧ (∀ m, m ≠ n.val → t.ch m = s.ch m) ∧ ∀ a, a ≠ R.CSQ_YMAX n.val → t.rdWord a = s.rdWord a

/-- The instruction changed the sequencer of channel `n` to `q`, counts apart, counted itself in ICNT (R242), and changed
nothing else of the device. -/
def SeqTo (n : Ch) (s : State) (q : Seq) (t : State) : Prop :=
  OnlyChannel n s t ∧ t.ch n.val = { s.ch n.val with seq := (t.ch n.val).seq } ∧ (t.ch n.val).seq.core = q.core
    ∧ (t.ch n.val).seq.icnt = (s.ch n.val).seq.icnt + 1

/-- The saturating counter `f` has counted one event. -/
def Counts (f : Fld) (s t : State) : Prop := t.rd f = min (s.rd f + 1) (2 ^ f.w - 1)

/-- The instruction of sequencer `n` took a fault (R245): job `j` has ended with ROUTINE_FAULT, PARTIAL and the code in
DETAIL, the code and the PC stand in CSQn_FAULT, N_FAULT counted it, and the sequencer is idle. -/
def FaultTo (n : Ch) (s : State) (j : Job) (code : Nat) (t : State) : Prop :=
  t.rd (R.CSQ_FAULT_FCODE n.val) = code ∧ t.rd (R.CSQ_FAULT_FPC n.val) = (s.ch n.val).seq.pc.toNat
    ∧ t.rd (R.CSQ_FAULT_FSEEN n.val) = 1
    ∧ Counts (R.CSQ_CNT_N_FAULT n.val) s t
    ∧ (t.ch n.val).seq.run = .idle
    ∧ ∃ k e, t.job? j.id = some k ∧ k.ended = some e ∧ e.rc = 0x0F ∧ e.part = true ∧ e.receipt = false
        ∧ e.detail = BitVec.ofNat 16 code

/-- Channel of an instruction of a sequencer. -/
def seqChan : Instr → Option Ch
  | .seqNop n | .yield n | .ret n | .seqFault n | .wait n _ | .time n _ | .jr n _ | .movi n _ _ | .movx n _ _
  | .mov n _ _ | .add n _ _ | .sub n _ _ | .and n _ _ | .or n _ _ | .xor n _ _ | .shl n _ _ | .shr n _ _ | .asr n _ _
  | .mul n _ _ | .cmp n _ _ | .tst n _ _ | .not n _ _ | .addi n _ _ | .subi n _ _ | .shli n _ _ | .shri n _ _
  | .btst n _ _ | .bset n _ _ | .bclr n _ _ | .cmpi n _ _ | .beq n _ | .bne n _ | .blo n _ | .bhs n _ | .blt n _
  | .bge n _ | .bmi n _ | .bpl n _ | .jmp n _ | .call n _ | .ld n _ _ _ _ | .st n _ _ _ _ | .pushb n _ | .pushw n _
  | .popb n _ | .popw n _ | .peek n _ _ | .fctlMark n _ | .fctlRewind n _ | .fctlRelease n _ | .fctlDrop n _
  | .avail n _ _ | .poph n _ | .fon n | .foff n | .ant n _ | .pwr n _ | .tx n _ | .rx n _ | .xch n _ _ | .rxto n _
  | .rawb n _ | .pat n _ | .txst n _ | .invo n _ _ | .invs n _ | .inve n _ | .sigq n _ _ | .resq n _ | .cryw n
  | .cryr n _ _ | .outb n _ | .outh n _ | .outw n _ | .outrec n _ | .outsum n | .post n _ | .det n _ | .endr n _
  | .olen n _ | .pushi n _ | .outi n _ | .waitus n _ | .airt n _ | .airr n _ | .endJob n _ | .deti n _ | .pati n _ => some n
  | _ => none

/-- The instructions that yield, by the tables of their groups (R221, R223, R225, R231, R237). -/
def yields : Instr → Bool
  | .yield _ | .wait _ _ | .waitus _ _ | .endJob _ _ | .endr _ _ | .pat _ _ | .pati _ _ | .fon _ | .foff _ | .ant _ _ | .pwr _ _
  | .tx _ _ | .rx _ _ | .xch _ _ _ | .rxto _ _ | .rawb _ _ | .txst _ _ | .invs _ _ | .sigq _ _ _ | .resq _ _ | .cryw _
  | .post _ _ => true
  | _ => false

/-! ## Host frames -/

/-- Registers in which port `p` counts its frames (R456). -/
def frameRegs (p : Nat) : List Nat := [R.HOST_CNT_0 p, R.HOST_CNT_1 p, R.HOST_CNT_2 p, R.HOST_STALL p]

/-- A write of this register does more than store its bits: it starts a command or an action of its own, which other statements
give. -/
def actsBeyond : RegBlock → Nat → Bool
  | .sys, _ | .host, _ | .pwr, _ | .res, _ | .flash, _ => false
  | .prot, _ => true
  | .syn, a => a == R.SYN_CTL
  | .time, a => a == R.TIME_BEAT || a == R.TIME_CTL
  | .gate, a => a == R.GATE_CTL
  | .sched, a => (List.range 64).any fun q => a == R.SCHED_QSTAT q
  | .budg, a => (List.range 4).any fun p => a == R.BUDG_QUOTA p
  | .ch n, a => a == R.CH_ANT n || a == R.CH_WSDATA n || a == R.CH_RXIQCAL n
  | .inv, a => a == R.INV_CMD
  | .cry, a => a == R.CRY_CMD
  | .swarm, a => a == R.SWARM_CMD
  | .csq, a => a == R.CSQ_QID || a == R.CSQ_QPW0 || a == R.CSQ_QPW1 || a == R.CSQ_CACHE
  | .watch, a => a == R.WATCH_SCFG || a == R.WATCH_SBASE || a == R.WATCH_CMD
  | .emu, a => a == R.EMU_CTL || a == R.EMU_MBCMD
  | .pmb, a => a == R.PMB_CTL || a == R.PMB_CMD
  | .diag, a => a == R.DIAG_CMD

/-- Of all the device, only port `p`, the registers that count its frames, and the count of free values taken may differ. -/
def FrameOnly (p : Port) (s t : State) : Prop :=
  { t with ports := s.ports, regs := s.regs, fresh := s.fresh } = s ∧ (∀ q, q ≠ p.val → t.pt q = s.pt q)
    ∧ ∀ a, a ∉ frameRegs p.val → t.rdWord a = s.rdWord a

/-- Only the registers of a list may differ. -/
def RegsOnly (l : List Nat) (s t : State) : Prop :=
  { t with regs := s.regs } = s ∧ ∀ a, a ∉ l → t.rdWord a = s.rdWord a

/-- Port `p` takes a frame at once: start-up has ended, the port is ready once the fall of HnCS_N has acted on the power
state, no window write holds its reply, and no frame waits at it (R405, R438, R439). -/
structure Hears (s : State) (p : Port) : Prop where
  up : s.up = true
  ready : (s.hostEdge p).portReady = true
  free : s.replyWaits p = false
  first : (s.pt p.val).held = []

/-- The frame of an opcode is taken, whole, with the next SEQ or as a RESYNC, and passes the checks of R441; no privacy search
holds a write of AES keys (R151). -/
structure Accepts (s : State) (opc : Byte) (f : Frame) : Prop where
  hears : Hears s f.port
  whole : frameOk opc f = true
  next : (bitOf f.tag.toNat 6 = true ∧ opc = 0)
    ∨ (bitOf f.tag.toNat 6 = false ∧ seqOf f.tag = (s.pt f.port.val).lastSeq + 1)
  allowed : (s.hostEdge f.port).preCheck f.port.val opc.toNat f.tag = none
  unheld : (s.hostEdge f.port).keyHeld opc f = false

/-- The frame has been clocked and has not executed yet: the port has sent its preamble and window, with zeros for bytes
beyond them, and LAST_SEQ is the frame's SEQ (R429, R431, R432, R435). -/
def Clocked (s : State) (f : Frame) (m : State) : Prop :=
  let p := f.port.val
  let e := s.hostEdge f.port
  let q := e.pt p
  FrameOnly f.port e m
    ∧ m.pt p = { q with
        lastSeq := seqOf f.tag, assigned := q.carried, building := false, mode3 := f.mode3
        sdo := e.preamble p ++ q.carried.window p f.len.toNat ++ List.replicate (bytesClocked f - (12 + f.len.toNat)) 0 }

/-- The reply `x` of an executed frame is cached, and the port's next frame carries it; N_FRAME has counted (R435). -/
def Replied (s : State) (opc : Byte) (f : Frame) (x : Answer) (t : State) : Prop :=
  let p := f.port.val
  let r := replyOf opc f.tag x
  FrameOnly f.port s t ∧ t.pt p = { s.pt p with cached := r, carried := r, building := true }
    ∧ Counts (R.HOST_CNT_0_N_FRAME p) s t

/-- The frame executes: from the state `m` in which it has been clocked, the opcode leaves the state `u` and answers `x` as
`P` says, and the step ends with the reply in place. -/
def Serves (i : Instr) (opc : Byte) (f : Frame) (s : State) (P : State → Answer → State → Prop) : Prop :=
  ∃ m x u t, Clocked s f m ∧ P m x u ∧ exec i s = .next t ∧ Replied u opc f x t

/-- The answer of a frame of words that are all taken (R444). -/
def allWords (payload : List Byte) : Answer := { info := 0xFFFF, payload := payload }

/-- The answer of a frame whose first word is refused (R444). -/
def firstWord (st : Byte) (payload : List Byte) : Answer := { status := st, payload := payload }

/-- The reply of a frame of `n` words of which word `i` ends with the status `res i`: the status and the index of the
lowest-addressed refused word, or OK and 0xFFFF (R444). -/
def LowestRefused (n : Nat) (res : Nat → Byte) (x : Answer) : Prop :=
  ((∀ i, i < n → res i = stOk) → x.status = stOk ∧ x.info = 0xFFFF)
  ∧ ∀ i, i < n → res i ≠ stOk → (∀ k, k < i → res k = stOk) → x.status = res i ∧ x.info = BitVec.ofNat 32 i

/-- A DENIED word or frame has been noted (R456, R457). -/
def Noted (p opc a : Nat) (s t : State) : Prop :=
  RegsOnly [R.HOST_CNT_2 p, R.PROT_DENY] s t ∧ Counts (R.HOST_CNT_2_N_DENIED p) s t ∧ t.rd R.PROT_DENY_PORT = p
    ∧ t.rd R.PROT_DENY_OPC = opc ∧ t.rd R.PROT_DENY_ADDR = a

/-- Port `p` may write the word `w` to the register at `a`, which is in range and not turned away (R443, R449). -/
structure MayWrite (s : State) (p : Port) (a : Nat) (w : Word) : Prop where
  hears : Hears s p
  taken : ∃ b r, blockOf a = some b ∧ rowAt a = some r ∧ (s.hostEdge p).mayWriteReg p.val b a = true
    ∧ (s.hostEdge p).inRange a w b r = true ∧ (s.hostEdge p).turnedAway a w b = none

/-- The command writes the word `w` to the register at `a` for port `p` and is answered OK; its effect is as `P` says. -/
def Writes (i : Instr) (s : State) (p : Port) (a : Nat) (w : Word) (P : State → State → Prop) : Prop :=
  Serves i 0x11 (s.nextFrame p 0x11 (BitVec.ofNat 32 a) (leBytes 4 w.toNat)) s fun m x u => x = allWords [] ∧ P m u

/-- A card that sends its answer at rate `r`: Manchester OOK at 106 kbit/s, BPSK at 212 and 424 kbit/s, and no load modulation
without an answer (R365). -/
def Card.sending (c : Card) (r : BitVec 2) : Card :=
  { c with load := if c.ans = [] then none else some { coding := if r = 0 then .manchesterOok else .bpsk, rate := r } }

/-- Of all the device, only the card of channel `n`, the registers of a list and the count of free values taken may differ,
and the card is `c`, which sends its answer at rate `r`. -/
def CardAt (n : Ch) (l : List Nat) (r : BitVec 2) (s : State) (c : Card) (t : State) : Prop :=
  { t with cards := s.cards, regs := s.regs, fresh := s.fresh } = s ∧ (∀ a, a ∉ l → t.rdWord a = s.rdWord a)
    ∧ t.card n.val = c.sending r ∧ ∀ m : Ch, m ≠ n → t.card m.val = s.card m.val

/-- The card becomes `c`, which sends its answer at the rate it is in. -/
def CardTo (n : Ch) (l : List Nat) (s : State) (c : Card) (t : State) : Prop := CardAt n l c.rate s c t

/-- The frame starts the flash operation `o` (R471, R472). -/
def StartsOp (o : FlashOp) (m : State) (x : Answer) (u : State) : Prop :=
  x = ans stOk ∧ RegsOnly [R.FLASH_STAT] { m with flash := { m.flash with op := some o, asleep := false } } u
    ∧ u.rd R.FLASH_STAT_OP = o.opc.toNat ∧ u.rd R.FLASH_STAT_DONE = 0 ∧ u.rd R.FLASH_STAT_ERR = 0

/-- No command that runs inside the flash covers a byte of an image header (R479). -/
def headersSafe (s : State) : Prop :=
  ∀ off n, s.flash.cmd = some (off, n) → ∀ k, k < 2 → off + n ≤ 0x40000 * k ∨ 0x40000 * k + 64 ≤ off

/-- Host frames by opcode (R440). -/
def frameRows (f : Frame) : List (Instr × Byte) :=
  [(.nop f, 0x00), (.nopResync f, 0x00), (.lastReply f, 0x0F), (.regRead f, 0x10), (.regWrite f, 0x11), (.memRead f, 0x20)]
    ++ [(.memWrite f, 0x21), (.submitSingle f, 0x30), (.submitOpen f, 0x30), (.submitCont f, 0x30), (.submitFinal f, 0x30)]
    ++ [(.queueFlush f, 0x34), (.queueFlushAbort f, 0x34), (.resRead f, 0x38), (.resMark f, 0x39), (.resRewind f, 0x3A)]
    ++ [(.resRelease f, 0x3B), (.noticeRead f, 0x40), (.noticeAck f, 0x41), (.timeSetNow f, 0x50), (.timeSetAtSynci f, 0x50)]
    ++ [(.timeSetOffset f, 0x50), (.timeSetDisarm f, 0x50), (.powerIdle f, 0x60), (.powerSleep f, 0x60), (.powerWatch f, 0x60)]
    ++ [(.powerDeep f, 0x60), (.powerOff f, 0x60), (.resetWarm f, 0x70), (.resetSystem f, 0x70), (.flInfo f, 0x80)]
    ++ [(.flErase f, 0x81), (.flProgram f, 0x82), (.flCrc f, 0x83), (.imgCheck f, 0x84), (.flAbort f, 0x85)]
    ++ [(.flSleep f, 0x86), (.flReset f, 0x87)]

end Sys2Proof.Machine
end

