-- ==== Sys2Proof/Certificates/Slice0/Obligations.lean ====
section
/-!
DEFINITION. The statements for the provers.
-/

open Sys2Proof Sys2Proof.Machine

/-- One step takes the command at the front of the queue and runs it on the state that holds the rest; on an empty
queue the device runs on by one cycle of its crystal, which is the model's choice (log entry 3). -/
def Obligations.StepRunsFront : Prop :=
  (∀ (c : Instr) (rest : List Instr) (s : State), s.pending = c :: rest → step s = exec c { s with pending := rest })
  ∧ ∀ s : State, s.pending = [] → step s = .next (idleTick s)

/-- Additions and subtractions: the result, N, Z, C and V, and nothing else (R220, R221). -/
def Obligations.SeqAddSub : Prop :=
  ∀ (s : State) (n : Ch) (j : Job) (rd rs : GReg) (imm : BitVec 6),
    let q := (s.ch n.val).seq
    let a := q.getG rd
    let flags (r : Word) (c v : Bool) : Seq := { q with pc := q.pc + 1, fn := r.getLsbD 31, fz := decide (r.toNat = 0), fc := c, fv := v }
    let sum (b : Word) := (flags (a + b) (decide (2 ^ 32 ≤ a.toNat + b.toNat))
      (decide ((a + b).toInt ≠ a.toInt + b.toInt))).setG rd (a + b)
    let cmp (b : Word) := flags (a - b) (decide (a.toNat < b.toNat)) (decide ((a - b).toInt ≠ a.toInt - b.toInt))
    (Executes s n (0x3000 + rd.val * 512 + rs.val * 64 + 1) j → Leads (.add n rd rs) s (SeqTo n s (sum (q.getG rs))))
    ∧ (Executes s n (0x3000 + rd.val * 512 + rs.val * 64 + 2) j →
        Leads (.sub n rd rs) s (SeqTo n s ((cmp (q.getG rs)).setG rd (a - q.getG rs))))
    ∧ (Executes s n (0x3000 + rd.val * 512 + rs.val * 64 + 10) j → Leads (.cmp n rd rs) s (SeqTo n s (cmp (q.getG rs))))
    ∧ (Executes s n (0x4000 + rd.val * 512 + imm.toNat) j →
        Leads (.addi n rd imm) s (SeqTo n s (sum (BitVec.ofNat 32 imm.toNat))))
    ∧ (Executes s n (0x4000 + rd.val * 512 + 64 + imm.toNat) j →
        Leads (.subi n rd imm) s
          (SeqTo n s ((cmp (BitVec.ofNat 32 imm.toNat)).setG rd (a - BitVec.ofNat 32 imm.toNat))))
    ∧ (Executes s n (0x4000 + rd.val * 512 + 448 + imm.toNat) j →
        Leads (.cmpi n rd imm) s (SeqTo n s (cmp (BitVec.ofNat 32 imm.toNat))))

/-- Moves, logic and MUL set N and Z by the result and leave C and V; TST sets them and writes no register (R220,
R221). -/
def Obligations.SeqLogic : Prop :=
  ∀ (s : State) (n : Ch) (j : Job) (rd rs : GReg),
    let q := (s.ch n.val).seq
    let a := q.getG rd
    let b := q.getG rs
    let flags (r : Word) : Seq := { q with pc := q.pc + 1, fn := r.getLsbD 31, fz := decide (r.toNat = 0) }
    let put (r : Word) : Seq := (flags r).setG rd r
    let word (fn : Nat) : Nat := 0x3000 + rd.val * 512 + rs.val * 64 + fn
    (Executes s n (word 0) j → Leads (.mov n rd rs) s (SeqTo n s (put b)))
    ∧ (Executes s n (word 3) j → Leads (.and n rd rs) s (SeqTo n s (put (a &&& b))))
    ∧ (Executes s n (word 4) j → Leads (.or n rd rs) s (SeqTo n s (put (a ||| b))))
    ∧ (Executes s n (word 5) j → Leads (.xor n rd rs) s (SeqTo n s (put (a ^^^ b))))
    ∧ (Executes s n (word 9) j → Leads (.mul n rd rs) s (SeqTo n s (put (BitVec.ofNat 32 (a.toNat * b.toNat)))))
    ∧ (Executes s n (word 11) j → Leads (.tst n rd rs) s (SeqTo n s (flags (a &&& b))))
    ∧ (Executes s n (word 12) j → Leads (.not n rd rs) s (SeqTo n s (put (BitVec.ofNat 32 (2 ^ 32 - 1 - b.toNat)))))

/-- Shifts by bits [4:0]: the result, N and Z, and in C the last bit shifted out; a shift of 0 leaves C (R220, R221). -/
def Obligations.SeqShift : Prop :=
  ∀ (s : State) (n : Ch) (j : Job) (rd rs : GReg) (imm : BitVec 5),
    let q := (s.ch n.val).seq
    let a := q.getG rd
    let k := (q.getG rs).toNat % 32
    let m := imm.toNat
    let put (r : Word) (k i : Nat) : Seq :=
      ({ q with pc := q.pc + 1, fn := r.getLsbD 31, fz := decide (r.toNat = 0),
                fc := if k = 0 then q.fc else a.getLsbD i } : Seq).setG rd r
    let shl (k : Nat) := put (BitVec.ofNat 32 (a.toNat * 2 ^ k)) k (32 - k)
    let shr (k : Nat) := put (BitVec.ofNat 32 (a.toNat / 2 ^ k)) k (k - 1)
    (Executes s n (0x3000 + rd.val * 512 + rs.val * 64 + 6) j → Leads (.shl n rd rs) s (SeqTo n s (shl k)))
    ∧ (Executes s n (0x3000 + rd.val * 512 + rs.val * 64 + 7) j → Leads (.shr n rd rs) s (SeqTo n s (shr k)))
    ∧ (Executes s n (0x3000 + rd.val * 512 + rs.val * 64 + 8) j →
        Leads (.asr n rd rs) s (SeqTo n s (put (BitVec.ofInt 32 (a.toInt / 2 ^ k)) k (k - 1))))
    ∧ (Executes s n (0x4000 + rd.val * 512 + 128 + m) j → Leads (.shli n rd imm) s (SeqTo n s (shl m)))
    ∧ (Executes s n (0x4000 + rd.val * 512 + 192 + m) j → Leads (.shri n rd imm) s (SeqTo n s (shr m)))

/-- Constants, bit instructions and TIME change their register and no flag, but for BTST, which sets Z (R220, R221). -/
def Obligations.SeqBitsTime : Prop :=
  ∀ (s : State) (n : Ch) (j : Job) (rd : GReg) (imm : BitVec 9) (bit : BitVec 5),
    let q := (s.ch n.val).seq
    let a := q.getG rd
    let put (r : Word) : Seq := ({ q with pc := q.pc + 1 } : Seq).setG rd r
    (Executes s n (0x1000 + rd.val * 512 + imm.toNat) j → Leads (.movi n rd imm) s (SeqTo n s (put (BitVec.ofInt 32 imm.toInt))))
    ∧ (Executes s n (0x2000 + rd.val * 512 + imm.toNat) j →
        Leads (.movx n rd imm) s (SeqTo n s (put (BitVec.ofNat 32 (a.toNat * 512 + imm.toNat)))))
    ∧ (Executes s n (0x4000 + rd.val * 512 + 256 + bit.toNat) j →
        Leads (.btst n rd bit) s (SeqTo n s { q with pc := q.pc + 1, fz := !a.getLsbD bit.toNat }))
    ∧ (Executes s n (0x4000 + rd.val * 512 + 320 + bit.toNat) j →
        Leads (.bset n rd bit) s (SeqTo n s (put (a ||| BitVec.twoPow 32 bit.toNat))))
    ∧ (Executes s n (0x4000 + rd.val * 512 + 384 + bit.toNat) j →
        Leads (.bclr n rd bit) s (SeqTo n s (put (a &&& ~~~BitVec.twoPow 32 bit.toNat))))
    ∧ (Executes s n (320 + rd.val * 8) j →
        Leads (.time n rd) s (SeqTo n s (put (BitVec.ofNat 32 (s.time.nt.toNat / 1000)))))

/-- Branches go by their condition, and JMP always, by an offset in instructions from the instruction that follows; they
change no register and no flag (R219 to R221). -/
def Obligations.SeqBranch : Prop :=
  ∀ (s : State) (n : Ch) (j : Job) (o : BitVec 8) (far : BitVec 12),
    let q := (s.ch n.val).seq
    let go (c : Bool) : Seq := { q with pc := if c then q.pc + 1 + BitVec.ofInt 16 o.toInt else q.pc + 1 }
    let word (cond : Nat) : Nat := 0x5000 + cond * 256 + o.toNat
    (Executes s n (word 0) j → Leads (.beq n o) s (SeqTo n s (go q.fz)))
    ∧ (Executes s n (word 1) j → Leads (.bne n o) s (SeqTo n s (go !q.fz)))
    ∧ (Executes s n (word 2) j → Leads (.blo n o) s (SeqTo n s (go q.fc)))
    ∧ (Executes s n (word 3) j → Leads (.bhs n o) s (SeqTo n s (go !q.fc)))
    ∧ (Executes s n (word 4) j → Leads (.blt n o) s (SeqTo n s (go (q.fn != q.fv))))
    ∧ (Executes s n (word 5) j → Leads (.bge n o) s (SeqTo n s (go (q.fn == q.fv))))
    ∧ (Executes s n (word 6) j → Leads (.bmi n o) s (SeqTo n s (go q.fn)))
    ∧ (Executes s n (word 7) j → Leads (.bpl n o) s (SeqTo n s (go !q.fn)))
    ∧ (Executes s n (0x6000 + far.toNat) j →
        Leads (.jmp n far) s (SeqTo n s { q with pc := q.pc + 1 + BitVec.ofInt 16 far.toInt }))

/-- CALL pushes the return PC and jumps, or faults at a full stack; RET pops, or faults at an empty one; JR jumps to a
register (R219, R221, R245). -/
def Obligations.SeqCallRet : Prop :=
  ∀ (s : State) (n : Ch) (j : Job) (far : BitVec 12) (ra : GReg), s.canon = true → s.job? j.id = some j →
    let q := (s.ch n.val).seq
    (Executes s n (0x7000 + far.toNat) j →
      (q.stack.length < 8 → Leads (.call n far) s (SeqTo n s
        { q with pc := q.pc + 1 + BitVec.ofInt 16 far.toInt, stack := (q.pc + 1) :: q.stack }))
      ∧ (8 ≤ q.stack.length → Leads (.call n far) s (FaultTo n s j 2)))
    ∧ (Executes s n 0x0080 j →
      (∀ a rest, q.stack = a :: rest → Leads (.ret n) s (SeqTo n s { q with pc := a, stack := rest }))
      ∧ (q.stack = [] → Leads (.ret n) s (FaultTo n s j 3)))
    ∧ (Executes s n (0x0180 + ra.val * 8) j →
      Leads (.jr n ra) s (SeqTo n s { q with pc := BitVec.ofNat 16 (q.getG ra).toNat }))

/-- LD loads zero-extended from the data space that a routine may read, and faults outside it or misaligned (R218, R219,
R221). -/
def Obligations.SeqLoad : Prop :=
  ∀ (s : State) (n : Ch) (j : Job) (rd rs : GReg) (size : Fin 3) (off : BitVec 4), s.canon = true → s.job? j.id = some j →
    Executes s n (0x8000 + rd.val * 512 + rs.val * 64 + size.val * 16 + off.toNat) j →
    let q := (s.ch n.val).seq
    let k := 2 ^ size.val
    let a := (q.getG rs + BitVec.ofNat 32 (off.toNat * k)).toNat
    let shared := a + k ≤ 0x80000 ∨ ((j.word 6).toNat ≤ a ∧ a + k ≤ (j.word 6).toNat + j.plen)
      ∨ (0x174000 ≤ a ∧ a + k ≤ 0x200000)
    let own := 0xFFFFFF00 ≤ a ∧ a + k ≤ 2 ^ 32
    (a % k = 0 ∧ shared ∧ ¬ own → Leads (.ld n rd rs size off) s
        (SeqTo n s (({ q with pc := q.pc + 1 } : Seq).setG rd (BitVec.ofNat 32 (s.snat a k)))))
    ∧ (a % k = 0 ∧ own → Leads (.ld n rd rs size off) s
        (SeqTo n s (({ q with pc := q.pc + 1 } : Seq).setG rd
          (BitVec.ofNat 32 (leNat (Memory.bytes q.scratch (a - 0xFFFFFF00) k))))))
    ∧ (a % k ≠ 0 ∨ (¬ shared ∧ ¬ own) → Leads (.ld n rd rs size off) s (FaultTo n s j 4))

/-- ST stores the low bytes of its register to the host scratch or to the local scratch, and to no other byte; it faults
elsewhere or misaligned (R218, R219, R221). -/
def Obligations.SeqStore : Prop :=
  ∀ (s : State) (n : Ch) (j : Job) (r rs : GReg) (size : Fin 3) (off : BitVec 4), s.canon = true → s.job? j.id = some j →
    Executes s n (0x9000 + r.val * 512 + rs.val * 64 + size.val * 16 + off.toNat) j →
    let q := (s.ch n.val).seq
    let k := 2 ^ size.val
    let a := (q.getG rs + BitVec.ofNat 32 (off.toNat * k)).toNat
    let byte (i : Nat) : Byte := BitVec.ofNat 8 ((q.getG r).toNat / 256 ^ i)
    let host := 0x180000 ≤ a ∧ a + k ≤ 0x200000
    let own := 0xFFFFFF00 ≤ a ∧ a + k ≤ 2 ^ 32
    (a % k = 0 ∧ host → Leads (.st n r rs size off) s fun t =>
        SeqTo n { s with sram := t.sram } { q with pc := q.pc + 1 } t
        ∧ (∀ i, i < k → t.sb (a + i) = byte i) ∧ ∀ b, b < a ∨ a + k ≤ b → t.sb b = s.sb b)
    ∧ (a % k = 0 ∧ own → Leads (.st n r rs size off) s fun t =>
        SeqTo n s { q with pc := q.pc + 1, scratch := (t.ch n.val).seq.scratch } t
        ∧ (∀ i, i < k → Memory.byte (t.ch n.val).seq.scratch (a - 0xFFFFFF00 + i) = byte i)
        ∧ ∀ b, b < a - 0xFFFFFF00 ∨ a - 0xFFFFFF00 + k ≤ b →
            Memory.byte (t.ch n.val).seq.scratch b = Memory.byte q.scratch b)
    ∧ (a % k ≠ 0 ∨ (¬ host ∧ ¬ own) → Leads (.st n r rs size off) s (FaultTo n s j 4))

/-- A push appends its bytes to the TX FIFO of the channel, least significant first, and faults when they do not fit; it
changes no register and no flag (R103, R222, R223). -/
def Obligations.SeqPush : Prop :=
  ∀ (s : State) (n : Ch) (j : Job) (r : GReg) (imm : Byte), s.canon = true → s.job? j.id = some j →
    let c := s.ch n.val
    let v := c.seq.getG r
    let pushes (i : Instr) (bs : List Byte) : Prop :=
      (c.txf.data.length + bs.length ≤ 1024 → Leads i s fun t => OnlyChannel n s t
        ∧ t.ch n.val = { c with txf := { c.txf with data := c.txf.data ++ bs }, seq := (t.ch n.val).seq }
        ∧ (t.ch n.val).seq.core = ({ c.seq with pc := c.seq.pc + 1 } : Seq).core)
      ∧ (1024 < c.txf.data.length + bs.length → Leads i s (FaultTo n s j 5))
    c.txf.data.length ≤ 1024 →
    (Executes s n (0xA000 + r.val * 512) j → pushes (.pushb n r) [v.extractLsb' 0 8])
    ∧ (Executes s n (0xA040 + r.val * 512) j → pushes (.pushw n r)
        [v.extractLsb' 0 8, v.extractLsb' 8 8, v.extractLsb' 16 8, v.extractLsb' 24 8])
    ∧ (Executes s n (0xE000 + imm.toNat) j → pushes (.pushi n imm) [imm])

/-- A pop takes the next readable bytes of the RX FIFO, least significant first, and moves its read pointer; PEEK moves
none; past the readable bytes they fault (R103, R222). -/
def Obligations.SeqPop : Prop :=
  ∀ (s : State) (n : Ch) (j : Job) (r : GReg) (imm : BitVec 6), s.canon = true → s.job? j.id = some j →
    let c := s.ch n.val
    let f := c.rxf
    let unread := f.data.drop ((f.rd + 4096 - f.rel) % 4096)
    let pops (i : Instr) (k : Nat) : Prop :=
      (k ≤ unread.length → Leads i s fun t => OnlyChannel n s t
        ∧ t.ch n.val = { c with rxf := { f with rd := (f.rd + k) % 4096 }, seq := (t.ch n.val).seq }
        ∧ (t.ch n.val).seq.core
          = (({ c.seq with pc := c.seq.pc + 1 } : Seq).setG r (BitVec.ofNat 32 (leNat (unread.take k)))).core)
      ∧ (unread.length < k → Leads i s (FaultTo n s j 5))
    (Executes s n (0xA080 + r.val * 512) j → pops (.popb n r) 1)
    ∧ (Executes s n (0xA0C0 + r.val * 512) j → pops (.popw n r) 4)
    ∧ (Executes s n (0xA1C0 + r.val * 512) j → pops (.poph n r) 2)
    ∧ (Executes s n (0xA100 + r.val * 512 + imm.toNat) j →
      (∀ b, unread[imm.toNat]? = some b → Leads (.peek n r imm) s
        (SeqTo n s (({ c.seq with pc := c.seq.pc + 1 } : Seq).setG r (b.setWidth 32))))
      ∧ (unread.length ≤ imm.toNat → Leads (.peek n r imm) s (FaultTo n s j 5)))

/-- The pointer operations of R103 on either FIFO, differences taken modulo twice its size: the free bytes, which a push
needs, the readable bytes, which AVAIL reads, MARK, REWIND, which faults without a valid mark, and RELEASE, which drops a
mark that it passes; DROP releases all that is there (R222). -/
def Obligations.SeqFctl : Prop :=
  ∀ (s : State) (n : Ch) (j : Job) (r : GReg) (rx : Bool), s.canon = true → s.job? j.id = some j →
    let c := s.ch n.val
    let f := if rx then c.rxf else c.txf
    let size := if rx then 2048 else 1024
    let freed (rd : Nat) : Fifo := { f with
      rd := rd, rel := rd, data := f.data.drop ((rd + 2 * size - f.rel) % (2 * size))
      mvalid := f.mvalid && decide ((f.mark + 2 * size - rd) % (2 * size) ≤ size) }
    let sets (i : Instr) (g : Fifo) : Prop := Leads i s fun t => OnlyChannel n s t
        ∧ t.ch n.val = { c with rxf := if rx then g else c.rxf, txf := if rx then c.txf else g, seq := (t.ch n.val).seq }
        ∧ (t.ch n.val).seq.core = ({ c.seq with pc := c.seq.pc + 1 } : Seq).core
    let word (op : Nat) : Nat := 0xA140 + 32 * rx.toNat + op
    (f.space size = size - f.data.length)
    ∧ (Executes s n (0xA000 + r.val * 512) j →
        (1 ≤ 1024 - c.txf.data.length → Leads (.pushb n r) s fun t => (t.ch n.val).txf.data.length = c.txf.data.length + 1)
        ∧ (1024 - c.txf.data.length < 1 → Leads (.pushb n r) s (FaultTo n s j 5)))
    ∧ (Executes s n (word 0) j → sets (.fctlMark n rx) { f with mark := f.rd, mvalid := true })
    ∧ (Executes s n (word 1) j → (f.mvalid = true → sets (.fctlRewind n rx) { f with rd := f.mark })
        ∧ (f.mvalid = false → Leads (.fctlRewind n rx) s (FaultTo n s j 5)))
    ∧ (Executes s n (word 2) j → sets (.fctlRelease n rx) (freed f.rd))
    ∧ (Executes s n (word 3) j → sets (.fctlDrop n rx) (freed ((f.rel + f.data.length) % (2 * size))))
    ∧ (Executes s n (0xA180 + r.val * 512 + rx.toNat) j → Leads (.avail n r rx) s
        (SeqTo n s (({ c.seq with pc := c.seq.pc + 1 } : Seq).setG r
          (BitVec.ofNat 32 (f.data.length - (f.rd + 2 * size - f.rel) % (2 * size))))))

/-- NOP and YIELD only go on; WAIT and WAITUS block until their time expires, and then the next instruction is due
(R221, R223); a yielding instruction clears YPEND (R242). -/
def Obligations.SeqWait : Prop :=
  ∀ (s : State) (n : Ch) (j : Job) (ra : GReg) (imm : Byte),
    let q := (s.ch n.val).seq
    let blocked : Seq := { q with run := .blocked .wait }
    (Executes s n 0 j → Leads (.seqNop n) s (SeqTo n s { q with pc := q.pc + 1 }))
    ∧ (Executes s n 0x0040 j →
        Leads (.yield n) s fun t => SeqTo n s { q with pc := q.pc + 1 } t ∧ (t.ch n.val).seq.ypend = false)
    ∧ (Executes s n (0x0100 + ra.val * 8) j →
        Leads (.wait n ra) s fun t => SeqTo n s blocked t ∧ (t.ch n.val).seq.ypend = false)
    ∧ (Executes s n (0xE200 + imm.toNat) j →
        Leads (.waitus n imm) s fun t => SeqTo n s blocked t ∧ (t.ch n.val).seq.ypend = false)
    ∧ (q.run = .blocked .wait →
        exec (.waitExpiry n) s = .next (s.modSeq n.val fun q => { q with pc := q.pc + 1, run := .run }))

/-- AIRT and AIRR set the air configuration and fault on a reserved bit, and an exchange that waited for a frame with
CONT ends once AIRT clears it; RXTO sets the timeout of the next window; RAWB takes 1 to 64 and faults otherwise
(R223, R225, R226, R228, R245). -/
def Obligations.SeqAirSetup : Prop :=
  ∀ (s : State) (n : Ch) (j : Job) (rs : GReg) (imm : Byte), s.canon = true → s.job? j.id = some j →
    let q := (s.ch n.val).seq
    let v := (q.getG rs).toNat
    (Executes s n (0xE300 + imm.toNat) j →
      let next : Seq :=
        { q with pc := q.pc + 1, txMode := imm.extractLsb' 0 4, txCrc := imm.extractLsb' 4 2, cont := imm.getLsbD 6 }
      (imm.toNat < 128 → s.waitsCont n.val = false ∨ imm.getLsbD 6 = true → Leads (.airt n imm) s (SeqTo n s next))
      ∧ (imm.toNat < 128 → s.waitsCont n.val = true → imm.getLsbD 6 = false → j.isWriter = false → j.write.eofDue = false →
        j.marked = none → (s.ch n.val).txReq = none → Leads (.airt n imm) s fun t =>
          (t.ch n.val).seq.core = next.core ∧ (t.ch n.val).exch = none)
      ∧ (128 ≤ imm.toNat → Leads (.airt n imm) s (FaultTo n s j 1)))
    ∧ (Executes s n (0xE400 + imm.toNat) j →
      (imm.toNat < 64 → Leads (.airr n imm) s (SeqTo n s
        { q with pc := q.pc + 1, rxMode := imm.extractLsb' 0 4, rxCrc := imm.extractLsb' 4 2 }))
      ∧ (64 ≤ imm.toNat → Leads (.airr n imm) s (FaultTo n s j 1)))
    ∧ (q.windup = false → Executes s n (0xB007 + rs.val * 64) j →
      Leads (.rxto n rs) s (SeqTo n s { q with pc := q.pc + 1, rxto := BitVec.ofNat 24 v }))
    ∧ (q.windup = false → Executes s n (0xB008 + rs.val * 64) j →
      (1 ≤ v % 128 ∧ v % 128 ≤ 64 → Leads (.rawb n rs) s (SeqTo n s { q with pc := q.pc + 1, rawb := BitVec.ofNat 7 v }))
      ∧ (v % 128 = 0 ∨ 64 < v % 128 → Leads (.rawb n rs) s (FaultTo n s j 7)))

/-- The OUT instructions append to the result buffer, of which bytes beyond 1,008 are dropped with FLAGS.CUT to come,
OLEN reads its length, and DET and DETI set DETAIL (R223, R237, R238, R240). -/
def Obligations.SeqOut : Prop :=
  ∀ (s : State) (n : Ch) (j : Job) (r : GReg) (imm : Byte),
    let q := (s.ch n.val).seq
    let v := q.getG r
    let have' := outLen q.out
    let bytes (bs : List Byte) : Seq :=
      { q with pc := q.pc + 1, out := q.out ++ (bs.take (1008 - have')).map OutItem.byte
               cut := q.cut || decide (1008 < have' + bs.length) }
    (Executes s n (0xD000 + r.val * 512) j → Leads (.outb n r) s (SeqTo n s (bytes [v.extractLsb' 0 8])))
    ∧ (Executes s n (0xD001 + r.val * 512) j →
        Leads (.outh n r) s (SeqTo n s (bytes [v.extractLsb' 0 8, v.extractLsb' 8 8])))
    ∧ (Executes s n (0xD002 + r.val * 512) j →
        Leads (.outw n r) s (SeqTo n s
          (bytes [v.extractLsb' 0 8, v.extractLsb' 8 8, v.extractLsb' 16 8, v.extractLsb' 24 8])))
    ∧ (Executes s n (0xE100 + imm.toNat) j → Leads (.outi n imm) s (SeqTo n s (bytes [imm])))
    ∧ (Executes s n 0xD004 j → Leads (.outsum n) s (SeqTo n s
        { q with pc := q.pc + 1, out := if have' < 1008 then q.out ++ [.summary] else q.out
                 cut := q.cut || decide (1008 < have' + 16) }))
    ∧ (Executes s n (0xD008 + r.val * 512) j →
        Leads (.olen n r) s (SeqTo n s (({ q with pc := q.pc + 1 } : Seq).setG r (BitVec.ofNat 32 (min 1008 have')))))
    ∧ (Executes s n (0xD006 + r.val * 512) j →
        Leads (.det n r) s (SeqTo n s { q with pc := q.pc + 1, detail := v.extractLsb' 0 16 }))
    ∧ (Executes s n (0xE600 + imm.toNat) j →
        Leads (.deti n imm) s (SeqTo n s { q with pc := q.pc + 1, detail := BitVec.ofNat 16 imm.toNat }))

/-- OUTREC appends one record, of an entry or of the held sighting, and faults on any other value; POST answers 2 with
an empty buffer and 1 with no ring space, and else writes the interim entry, of a ROM inventory with its summary and
records alone (R143), and empties the buffer; CRYR reads the
outcome of the last request for an entry or for the sighting that is held, and CRYW waits for the job's requests
(R231, R235 to R239). -/
def Obligations.SeqRecords : Prop :=
  ∀ (s : State) (n : Ch) (j : Job) (r rs : GReg), s.canon = true → s.job? j.id = some j →
    let c := s.ch n.val
    let q := c.seq
    let v := (q.getG r).toNat
    let next : Seq := { q with pc := q.pc + 1 }
    let filled := s.fillItems j.id c.inv q.out
    let items := if j.isInventory then filled.filter OutItem.inEntry else filled
    let body := (outBytes c.inv items).take 1008
    let units := 1 + body.length / 16 + (if body.length % 16 = 0 then 0 else 1)
    (Executes s n (0xD003 + r.val * 512) j → outLen q.out < 1008 →
      (v ≤ 0x4000 → Leads (.outrec n r) s fun t => OnlyChannel n { s with jobs := t.jobs } t
        ∧ (j.isRom = false → t.jobs = s.jobs) ∧ (t.ch n.val).seq.pc = q.pc + 1 ∧ (t.ch n.val).seq.out.length = q.out.length + 1
        ∧ (t.ch n.val).seq.out.getLast?.any OutItem.isRecord = true)
      ∧ (0x4000 < v → Leads (.outrec n r) s (FaultTo n s j 16)))
    ∧ (Executes s n (0xD005 + r.val * 512) j → imagesFilled filled = true →
      (q.out = [] → Leads (.post n r) s (SeqTo n s (next.setG r 2)))
      ∧ (q.out ≠ [] → s.ringFree j.ringNo < units →
          Leads (.post n r) s fun t => SeqTo n { s with jobs := t.jobs } ({ next with out := filled }.setG r 1) t
            ∧ (j.isRom = false → t.jobs = s.jobs))
      ∧ (q.out ≠ [] → units ≤ s.ringFree j.ringNo → Leads (.post n r) s fun t =>
          (t.ch n.val).seq.core = ({ next.setG r 0 with out := [], cut := false } : Seq).core
          ∧ ∃ e, (t.ring j.ringNo).entries = (s.ring j.ringNo).entries ++ [e] ∧ e.length = 16 * units
            ∧ leNat (e.take 4) = j.cookie ∧ bitOf (leNat ((e.drop 4).take 4)) 24 = false
            ∧ leNat ((e.drop 12).take 4) = body.length + 2 ^ 16 * q.detail.toNat ∧ (e.drop 16).take body.length = body
            ∧ (t.ring j.ringNo).resv = (s.ring j.ringNo).resv))
    ∧ (Executes s n 0xC005 j →
      (s.cryOutstanding j.id = false → Leads (.cryw n) s (SeqTo n s next))
      ∧ (s.cryOutstanding j.id = true → Leads (.cryw n) s (SeqTo n s { q with run := .blocked .cryw })))
    ∧ (Executes s n (0xC006 + r.val * 512 + rs.val * 64) j →
      let k := (q.getG rs).toNat
      let named : Option Nat := if k < 0x4000 then some k else if k = 0x4000 then c.inv.held.map Held.handle else none
      Leads (.cryr n r rs) s (SeqTo n s (next.setG r
        (((named.bind fun k => j.cryLog.find? fun x => x.1 == k).map Prod.snd).getD 0))))

/-- END and ENDR with a code of R241 end the job with it, once every reserved image is filled; a job that is to stop
ends with the code of its stop; any other code faults; a held sighting is held no longer (R235, R238, R241, R284). A
ROM inventory ends with the code of R133 and the number of its records; the other ROM routines end as R101, R164, R169
and R172 fix, so the code is stated for the rest. That END lets a held sighting go first is the model's reading (log
entry 68). -/
def Obligations.SeqEnd : Prop :=
  ∀ (s : State) (n : Ch) (j : Job) (r : GReg) (rc : Byte), s.canon = true → s.job? j.id = some j →
    let c := s.ch n.val
    let q := c.seq
    let items := s.fillItems j.id c.inv q.out
    let ends (i : Instr) (rc : Byte) : Prop :=
      let ok := rc.toNat ≤ 9 ∨ rc.toNat = 15 ∨ rc.toNat = 19
      let doneAs (code : Byte) (part : Bool) (P : EndRec → Prop) : Prop := Leads i s fun t => (t.ch n.val).seq.run = .idle
        ∧ ∃ k e, t.job? j.id = some k ∧ k.ended = some e ∧ e.rc = code ∧ e.part = part ∧ e.receipt = false ∧ P e
            ∧ k.state = if t.cryOutstanding j.id then .finishing else .running
      (ok → Leads i s fun t => (t.ch n.val).inv.held = none)
      ∧ (ok → c.inv.held = none → imagesFilled items = true → j.marked = none →
        (j.isRom = false → doneAs rc false fun e => e.detail = q.detail
          ∧ e.cut = (q.cut || decide (min j.decl.maxpay 1008 < outLen items)))
        ∧ (j.isInventory = true → doneAs c.inv.rcNow false fun e =>
            e.detail = BitVec.ofNat 16 (min j.maxRec (countRecords items))))
      ∧ (∀ stop, j.marked = some stop → ok → c.inv.held = none → imagesFilled items = true →
        doneAs stop true fun e => e.detail = q.detail)
      ∧ (ok → c.inv.held = none → imagesFilled items = false →
          Leads i s (SeqTo n s { q with out := items, run := .blocked (.ending rc) }))
      ∧ (¬ ok → Leads i s (FaultTo n s j 9))
    (Executes s n (0xE500 + rc.toNat) j → ends (.endJob n rc) rc)
    ∧ (Executes s n (0xD007 + r.val * 512) j → ends (.endr n r) ((q.getG r).extractLsb' 0 8))

/-- FON and FOFF end at once when every member is as asked; else the field ramps, up only with LOCK, and the sequencer
waits; a channel in FAULT refuses. A swarm job's FON first requests the positions of the group (R49, R191, R225,
R226). That FON of a field that is on ends at once is the model's reading (log entry 36). -/
def Obligations.SeqFieldOnOff : Prop :=
  ∀ (s : State) (n : Ch) (j : Job), s.canon = true → s.job? j.id = some j → s.jobOn n.val = some j →
    let c := s.ch n.val
    let next : Seq := { c.seq with pc := c.seq.pc + 1 }
    c.seq.windup = false →
    (Executes s n 0xB000 j →
      ((s.teamAll n.val fun _ c => c.field == .on && !c.wantOff) = true → Leads (.fon n) s (SeqTo n s next))
      ∧ (j.group = none → c.field = .off → c.antPend = false → s.syn.state = .locked → Leads (.fon n) s fun t =>
          (t.ch n.val).field = .ramp ∧ (t.ch n.val).seq.run = .blocked .fon)
      ∧ (j.group = none → c.field = .off → c.antPend = false → s.syn.state ≠ .locked → Leads (.fon n) s fun t =>
          FaultTo n s j 6 t ∧ t.rd (R.CH_TXSTAT_SYN_CUT n.val) = 1)
      ∧ (s.teamFault n.val = true → Leads (.fon n) s (FaultTo n s j 6))
      ∧ (∀ g, j.group = some g → s.syn.state = .locked → (s.teamAll n.val fun _ c => c.field == .off && !c.antPend) = true →
          Leads (.fon n) s fun t => ∀ m : Ch, m.val ∈ s.team n.val →
            (t.ch m.val).antWait = true ∧ (t.ch m.val).wantOn = true
              ∧ t.rd (R.CH_ANT_POS m.val) = getBits (s.rdWord (R.SWARM_GPOS g.val)) (4 * m.val) 3))
    ∧ (Executes s n 0xB001 j →
      ((s.teamAll n.val fun _ c => c.field == .off) = true → Leads (.foff n) s (SeqTo n s next))
      ∧ ((s.teamAll n.val fun _ c => c.field == .off) = false → Leads (.foff n) s fun t =>
          (t.ch n.val).seq.run = .blocked .foff
          ∧ ∀ m : Ch, m.val ∈ s.team n.val → (s.ch m.val).field = .on → (t.ch m.val).field = .down))

/-- ANT requests a position and waits, in OFF only; PWR sets the job's power target; neither is open to a swarm job;
TXST reads CHn_TXSTAT; PAT and PATI select a pattern in a swarm job only, and set the members' targets and phase
weights (R39, R61, R195, R196, R225, R226, R230). That bits 7:6 of PATI select nothing is the model's reading (log
entries 22 and 28); how a target is rounded is its choice (log entry 25). -/
def Obligations.SeqAirSelect : Prop :=
  ∀ (s : State) (n : Ch) (j : Job) (r : GReg), s.canon = true → s.job? j.id = some j →
    s.jobOn n.val = some j →
    let c := s.ch n.val
    let q := c.seq
    let v := q.getG r
    let next : Seq := { q with pc := q.pc + 1 }
    q.windup = false →
    (Executes s n (0xB002 + r.val * 64) j →
      (j.group = none → c.field = .off → Leads (.ant n r) s fun t =>
        t.rd (R.CH_ANT_POS n.val) = v.toNat % 8 ∧ t.rd (R.CH_ANT_EN n.val) = (v.getLsbD 3).toNat
        ∧ (t.ch n.val).antWait = true ∧ (t.ch n.val).seq.run = .blocked .ant ∧ (t.ch n.val).seq.pc = q.pc)
      ∧ (j.group = none → c.field ≠ .off → Leads (.ant n r) s (FaultTo n s j 6))
      ∧ (j.group ≠ none → Leads (.ant n r) s (FaultTo n s j 8)))
    ∧ (Executes s n (0xB003 + r.val * 64) j →
      (j.group = none → Leads (.pwr n r) s fun t => (t.ch n.val).seq.core = next.core
        ∧ (t.job? j.id).bind Job.target = some (v.toNat % 4096))
      ∧ (j.group ≠ none → Leads (.pwr n r) s (FaultTo n s j 8)))
    ∧ (Executes s n (0xB00A + r.val * 512) j →
      Leads (.txst n r) s (SeqTo n s (next.setG r (setBits (s.rdWord (R.CH_TXSTAT n.val)) 0 3 c.field.code))))
    ∧ (∀ (i : Instr) (p : BitVec 6), ((i = .pat n r ∧ p = v.setWidth 6 ∧ Executes s n (0xB009 + r.val * 64) j)
          ∨ (∃ b : Byte, i = .pati n b ∧ p = b.setWidth 6 ∧ Executes s n (0xE700 + b.toNat) j)) →
      (j.group = none → Leads i s (FaultTo n s j 8))
      ∧ (j.group ≠ none → (s.teamAll n.val fun _ c => c.field == .off) = true → s.patOk p.toNat j.mask = false →
          Leads i s (FaultTo n s j 8))
      ∧ (j.group ≠ none → (s.teamAll n.val fun _ c => c.field == .off) = true → s.patOk p.toNat j.mask = true →
          Leads i s fun t => (t.ch n.val).seq.core = next.core ∧ ∀ m ∈ maskList j.mask,
            (t.ch m.val).swTarget = some (divRound (bitsOf (s.snat (patBase p.toNat) 4) 16 15 * s.ampw p.toNat m.val ^ 2
                * s.rd (R.CH_TXLOAD_RL m.val)) (s.patSum p.toNat ((maskList j.mask).map fun c => c.val)))
            ∧ (t.ch m.val).w = BitVec.ofNat 10 (s.phw p.toNat m.val)))

/-- TX modulates the bits from RD with the CRC kind appended and the sub-carrier flag of ISO/IEC 15693 clear, once the
field is ON, its power settled and the exchange fits the gate windows, and opens an exchange; CONT and RXTO hold for
that frame alone; XCH is TX with an RX to come; each check fails with its code (R87, R198, R224, R225, R227, R228,
R512). A job whose window does not fit waits (R16), and one that is to stop starts no further exchange (R284, R316). The
order of the faults of a frame that is wrong in two ways, and
the end of the wait for a pattern, are the model's choice (log entries 36 and 102). -/
def Obligations.SeqTransmit : Prop :=
  ∀ (s : State) (n : Ch) (j : Job) (rd rs : GReg), s.canon = true → s.job? j.id = some j → s.jobOn n.val = some j →
    let c := s.ch n.val
    let q := c.seq
    let bits := (q.getG rs).toNat % 65536
    let bytes := (bits + 7) / 8
    let unread := c.txf.data.drop ((c.txf.rd + 2048 - c.txf.rel) % 2048)
    let body := unread.take bytes
    let sent := if q.txMode.toNat < 8 then body else if j.isRom then s.sentBody n.val j bits
      else body.modifyHead fun b => b &&& 0xFE
    let sends (i : Instr) (e : Option GReg) : Prop :=
      (12 ≤ q.txMode.toNat ∨ 14 ≤ q.rxMode.toNat → Leads i s (FaultTo n s j 1))
      ∧ (q.txMode.toNat < 12 → q.rxMode.toNat < 14 →
        (q.rxMode.toNat = 13 ∧ q.rawb = 0 → Leads i s (FaultTo n s j 7))
        ∧ (¬ (q.rxMode.toNat = 13 ∧ q.rawb = 0) →
          (c.field = .off → Leads i s (FaultTo n s j 6))
          ∧ (c.field ≠ .off →
            ((bits = 0 ∧ q.txMode.toNat < 8) ∨ (bits % 8 ≠ 0 ∧ q.txCrc ≠ 0) → Leads i s (FaultTo n s j 7))
            ∧ (¬ ((bits = 0 ∧ q.txMode.toNat < 8) ∨ (bits % 8 ≠ 0 ∧ q.txCrc ≠ 0)) →
              (unread.length < bytes → Leads i s (FaultTo n s j 5))
              ∧ (bytes ≤ unread.length → q.cont = true → j.started = false → Leads i s (FaultTo n s j 7))
              ∧ (bytes ≤ unread.length → (q.cont = true → j.started = true) → c.win = none →
                (s.teamAll n.val fun _ c => c.field == .on && !c.calib && c.settleTicks == 0 && !c.wantOff) = true →
                (∀ stop, q.cont = false → j.marked = some stop → Leads i s fun t =>
                  ∃ k e, t.job? j.id = some k ∧ k.ended = some e ∧ e.rc = stop ∧ e.part = true ∧ (t.ch n.val).seq.run = .idle)
                ∧ (q.cont = true ∨ j.marked = none ∧ s.exchangeFits j 0 = true → Leads i s fun t =>
                  (t.ch n.val).field = .mod ∧ (t.ch n.val).exch.isSome = true ∧ (t.ch n.val).seq.run = .blocked (.tx e)
                  ∧ (t.ch n.val).seq.cont = false ∧ (t.ch n.val).seq.rxto = 0
                  ∧ (t.ch n.val).airOut = sent ++ (if bits = 0 then [] else frameCrc q.txCrc.toNat sent)
                  ∧ (t.ch n.val).txf = { c.txf with rd := (c.txf.rd + bytes) % 2048 })
                ∧ (q.cont = false → j.marked = none → s.exchangeFits j 0 = false → Leads i s fun t =>
                  (t.ch n.val).field = .down ∧ (t.ch n.val).seq.run = .blocked (.tx e)
                  ∧ ∃ k, t.job? j.id = some k ∧ k.state = .waiting ∧ k.waited = true))))))
    q.windup = false →
    (Executes s n (0xB004 + rs.val * 64) j → sends (.tx n rs) none)
    ∧ (Executes s n (0xB006 + rd.val * 512 + rs.val * 64) j → sends (.xch n rd rs) (some rd))

/-- RX collects the event that is held, sets Z when the frame was delivered, waits for one that an open window will
make, and faults when no window was opened since the last collection; in wind-up it returns F_FCUT (R101, R220, R225,
R229, R230). That an event collected while a later window is open leaves none of that window is the model's reading (log
entry 121). -/
def Obligations.SeqReceive : Prop :=
  ∀ (s : State) (n : Ch) (j : Job) (rd : GReg), s.canon = true → s.job? j.id = some j →
    Executes s n (0xB005 + rd.val * 512) j →
    let c := s.ch n.val
    let q := c.seq
    let took (code : Nat) (good : Bool) : Seq := { ({ q with pc := q.pc + 1 } : Seq).setG rd (BitVec.ofNat 32 code) with fz := good }
    (q.windup = true → Leads (.rx n rd) s (SeqTo n s (took 8 false)))
    ∧ (q.windup = false →
      (∀ code, c.ev = some code → Leads (.rx n rd) s fun t =>
        (t.ch n.val).seq.core = (took code.toNat c.evGood).core ∧ (t.ch n.val).ev = none)
      ∧ (∀ w, c.ev = none → c.win = some w → w.done = true ∨ w.engine = true ∨ w.taken = true →
          Leads (.rx n rd) s (FaultTo n s j 7))
      ∧ (∀ w, c.ev = none → c.win = some w → w.done = false → w.engine = false → w.taken = false →
          Leads (.rx n rd) s (SeqTo n s { q with run := .blocked (.rx rd) }))
      ∧ (c.ev = none → c.win = none → Leads (.rx n rd) s (FaultTo n s j 7)))

/-- INVO opens a context with its configuration and the overridden control bits, and faults on an open context or an
undefined configuration. INVS runs the engine: its frame is an exchange with the gate check of R227, here the opening REQA or
WUPA and the HLTA after a SIGHT in SELECT mode; a sighting goes to the merge unit, and the merge returns the SIGHT word (the
statement on table commands), or with HOLD it is held and SIGHT returned at once; then ROUND, and END with the code of R133,
which a further INVS returns again. INVE closes the context with its code (R122, R133, R231 to R235). INVE and INVS outside
an open context are the model's reading (log entry 72). -/
def Obligations.SeqInventory : Prop :=
  ∀ (s : State) (n : Ch) (j : Job) (a b : GReg), s.canon = true → s.job? j.id = some j →
    let c := s.ch n.val
    let q := c.seq
    let cfg := q.getG a
    let cfg0 := c.inv.cfg.toNat
    let ov := q.getG b
    let next : Seq := { q with pc := q.pc + 1 }
    let good := cfg.toNat % 4 ≠ 3 ∧ cfg.toNat / 64 % 1024 = 0 ∧ cfg.toNat / 2 ^ 24 = 0
    (Executes s n (0xC000 + a.val * 512 + b.val * 64) j →
      (c.inv.phase ≠ .closed → Leads (.invo n a b) s (FaultTo n s j 16))
      ∧ (c.inv.phase = .closed → ¬ good → Leads (.invo n a b) s (FaultTo n s j 1))
      ∧ (c.inv.phase = .closed → good → Leads (.invo n a b) s fun t => (t.ch n.val).seq.core = next.core
          ∧ (t.ch n.val).inv.phase = .start ∧ (t.ch n.val).inv.cfg = cfg
          ∧ (t.ch n.val).inv.txMode = q.txMode ∧ (t.ch n.val).inv.rxMode = q.rxMode
          ∧ ∀ k, k < 16 → (t.ch n.val).inv.ctl.getLsbD k
              = if ov.getLsbD (16 + k) then ov.getLsbD k else c.inv.ctl0.getLsbD k))
    ∧ (q.windup = false → Executes s n (0xC001 + a.val * 512) j →
      (c.inv.phase = .closed → Leads (.invs n a) s (FaultTo n s j 16))
      ∧ (c.inv.phase = .ended → c.inv.held = none → j.late = [] → Leads (.invs n a) s fun t => OnlyChannel n s t
          ∧ (t.ch n.val).seq.core = ({ next.setG a (BitVec.ofNat 32 c.inv.endRc.toNat) with fz := true } : Seq).core
          ∧ { t.ch n.val with seq := c.seq } = { c with inv := { c.inv with goDue := false } })
      ∧ (c.inv.held = none → j.late = [] →
        let word (w : Nat) (isEnd : Bool) : Seq := { next.setG a (BitVec.ofNat 32 w) with fz := isEnd }
        let returns (w : Nat) (isEnd : Bool) (P : InvCtx → Prop) : Prop := Leads (.invs n a) s fun t =>
          (t.ch n.val).seq.core = (word w isEnd).core ∧ P (t.ch n.val).inv
        let ready : Prop := c.win = none ∧ j.marked = none ∧ c.inv.txMode.toNat < 12 ∧ c.inv.rxMode.toNat < 13
          ∧ (s.teamAll n.val fun _ c => c.field == .on && !c.calib && c.settleTicks == 0 && !c.wantOff) = true
        let sends (frame : List Byte) (bits : Nat) : Prop :=
          (s.exchangeFits j 0 = true → Leads (.invs n a) s fun t => (t.ch n.val).field = .mod
            ∧ (t.ch n.val).seq.run = .blocked (.invs a) ∧ (t.ch n.val).airOut = frame ∧ (t.ch n.val).airBits = bits
            ∧ (t.ch n.val).exch.isSome = true ∧ (t.ch n.val).txf = c.txf ∧ (t.ch n.val).rxf = c.rxf)
          ∧ (s.exchangeFits j 0 = false → Leads (.invs n a) s fun t => (t.ch n.val).field = .down
            ∧ (t.ch n.val).seq.run = .blocked (.invs a) ∧ ∃ k, t.job? j.id = some k ∧ k.state = .waiting ∧ k.waited = true)
        (c.inv.phase = .start → cfg0 % 4 = 0 → ready → sends [if bitOf cfg0 2 then 0x52 else 0x26] 7)
        ∧ (c.inv.phase = .aSighted → cfg0 % 4 = 0 → c.inv.ctl.getLsbD 2 = false → ready →
          sends ([0x50, 0x00] ++ leBytes 2 (crcA [0x50, 0x00])) 32)
        ∧ (∀ x rest, c.inv.phase = .vReport → c.inv.found = x :: rest →
          (bitOf cfg0 4 = true → returns (2 ^ 28 + 2 ^ 16) false fun i => i.held.map Held.sight = some x ∧ i.found = rest)
          ∧ (bitOf cfg0 4 = false → s.mergeQ.length < 64 → Leads (.invs n a) s fun t => (t.ch n.val).inv.waiting = true
            ∧ (t.ch n.val).seq.run = .blocked (.invs a) ∧ t.mergeQ = s.mergeQ ++ [{ x with asked := true }]
            ∧ (t.ch n.val).inv.found = rest))
        ∧ (c.inv.phase = .vReport → c.inv.found = [] →
          returns (2 ^ 29 + c.inv.stack.length) false fun i => i.phase = .round)
        ∧ (c.inv.phase = .round → cfg0 % 4 = 2 → c.inv.stack = [] →
          let rc := if 0 < c.inv.stackLeft then 3 else if c.inv.tagErr then 0x13 else if c.inv.sofSeen then 0 else 1
          returns rc true fun i => i.phase = .ended ∧ i.endRc.toNat = rc)))
    ∧ (Executes s n (0xC002 + a.val * 512) j → Leads (.inve n a) s fun t =>
        (t.ch n.val).inv.phase = .closed ∧ (t.ch n.val).inv.held = c.inv.held
        ∧ (c.inv.phase = .ended → (t.ch n.val).seq.core = (next.setG a (BitVec.ofNat 32 c.inv.endRc.toNat)).core))

/-- SIGQ and RESQ take their bytes from the RX FIFO at RD and hand CRY a request while its queue has room, and wait when it is
full; SIGQ of the held sighting asks for the entry that its resolution gave it, and asks for nothing when there is none; each
misuse faults (R146, R147, R158, R231, R235). That what cannot be served makes no request is the model's reading (log entry
30). -/
def Obligations.SeqRequests : Prop :=
  ∀ (s : State) (n : Ch) (j : Job) (a b : GReg), s.canon = true → s.job? j.id = some j →
    let c := s.ch n.val
    let q := c.seq
    let v := (q.getG a).toNat
    let k := (q.getG b).toNat
    let unread := c.rxf.data.drop ((c.rxf.rd + 4096 - c.rxf.rel) % 4096)
    let reads (x : Nat) : Fifo := { c.rxf with rd := (c.rxf.rd + x) % 4096 }
    let known (r : CryReq) (t : State) : Prop := r ∈ t.cry.queue ∨ (∃ e, t.cry.ecc = some e ∧ e.job = r.job ∧ e.data = r.data)
      ∨ t.cry.aes = some r
    let next : Seq := { q with pc := q.pc + 1 }
    let asks (i : Instr) (x : Nat) (r : CryReq) (held : Block) : Prop :=
      (s.cry.queue.length < 32 → Leads i s fun t =>
        (t.ch n.val).seq.core = next.core ∧ (t.ch n.val).rxf = reads x ∧ known r t)
      ∧ (32 ≤ s.cry.queue.length → Leads i s fun t =>
        (t.ch n.val).seq.run = .blocked held ∧ t.cry = s.cry ∧ Counts R.CRY_CNT_2_N_QWAIT s t)
    q.windup = false →
    (Executes s n (0xC003 + a.val * 512 + b.val * 64) j →
      (0x4000 < v ∨ (v = 0x4000 ∧ c.inv.held = none) ∨ (64 < k ∧ v < 0x4000) → Leads (.sigq n a b) s (FaultTo n s j 16))
      ∧ (v < 0x4000 → k ≤ 64 → unread.length < k → Leads (.sigq n a b) s (FaultTo n s j 5))
      ∧ (v < 0x4000 → k ≤ 64 → k ≤ unread.length →
          let r := s.sigReq j v none (unread.take k)
          asks (.sigq n a b) k r (.sigq r))
      ∧ (∀ h, c.inv.held = some h → v = 0x4000 →
        let entry : Option Nat := match h.result with
          | none => some h.handle
          | some (resolved, i) => if resolved then i else none
        (64 < k → Leads (.sigq n a b) s (FaultTo n s j 16))
        ∧ (k ≤ 64 → unread.length < k → Leads (.sigq n a b) s (FaultTo n s j 5))
        ∧ (k ≤ 64 → k ≤ unread.length → entry = none → Leads (.sigq n a b) s fun t =>
            (t.ch n.val).seq.core = next.core ∧ (t.ch n.val).rxf = reads k ∧ t.cry = s.cry)
        ∧ (∀ i, entry = some i → k ≤ 64 → k ≤ unread.length →
            let r := s.sigReq j i (some h.handle) (unread.take k)
            asks (.sigq n a b) k r (.sigq r))))
    ∧ (Executes s n (0xC004 + a.val * 512) j →
      (v ≠ 0x4000 ∨ c.inv.held = none → Leads (.resq n a) s (FaultTo n s j 16))
      ∧ (∀ h, c.inv.held = some h → v = 0x4000 → unread.length < 16 → Leads (.resq n a) s (FaultTo n s j 5))
      ∧ (∀ h, c.inv.held = some h → v = 0x4000 → 16 ≤ unread.length →
          let r := resReq j h (unread.take 16)
          asks (.resq n a) 16 r (.resq r)))

/-- FAULT and an undefined halfword end the job with their codes; 2,048 instructions without a yield end it with
BEAT_OVERRUN, counted in N_OVR; 256 instructions of wind-up without END fault. Every instruction counts in ICNT and, while YPEND
is 1, in YCNT; one that yields clears YPEND and keeps the highest count in YMAX (R219, R221, R230, R242, R244, R245). That a
register field an instruction does not use must be zero is the model's reading (log entry 28). -/
def Obligations.SeqStops : Prop :=
  ∀ (s : State) (n : Ch) (j : Job) (w : BitVec 16), s.canon = true → s.job? j.id = some j →
    let q := (s.ch n.val).seq
    (Executes s n 0x00C0 j → Leads (.seqFault n) s (FaultTo n s j 15))
    ∧ (definedWord w.toNat = false → Executes s n w.toNat j → Leads (.undefinedInstruction n w) s (FaultTo n s j 1))
    ∧ (s.runsOn n.val = some j → q.ypend = true → 2048 ≤ q.ycnt → Leads (.yieldMissed n) s fun t =>
        Counts R.DIAG_CNT_0_N_OVR s t ∧ (t.ch n.val).seq.run = .idle
        ∧ ∃ k e, t.job? j.id = some k ∧ k.ended = some e ∧ e.rc = 0x10 ∧ e.part = true ∧ e.detail = q.detail)
    ∧ (s.runsOn n.val = some j → q.windup = true → 256 ≤ q.windN → Leads (.windupExpiry n) s (FaultTo n s j 11))
    ∧ (∀ (i : Instr) (v : Nat), codeWord i = some v → seqChan i = some n → Executes s n v j → Leads i s fun t =>
        let r := (t.ch n.val).seq
        let top := s.rd (R.CSQ_YMAX_YMAX n.val)
        r.icnt = q.icnt + 1 ∧ r.ycnt = q.ycnt + q.ypend.toNat ∧ r.ypend = (q.ypend && !yields i)
        ∧ t.rd (R.CSQ_YMAX_YMAX n.val) = if yields i then max top (min (q.ycnt + q.ypend.toNat) 4095) else top)

/-- The final entry is written once every field of the job is OFF, its CRY work is done, its sightings are merged and its
records located: it joins the end of the job's ring with the header of R25, the FLAGS of R26 (not RECEIPT, since the job ran)
and the payload cut to MAXPAY, its unused units return, and the job is POSTED (R18, R19, R22, R25, R26, R211). COIL of a job
that started no exchange is the model's choice (log entry 106). -/
def Obligations.FinalEntry : Prop :=
  ∀ (s : State) (n : Ch) (j : Job) (e : EndRec), s.thermHold = false → s.jobLead n.val = some j → s.job? j.id = some j →
    j.ended = some e → (∀ m ∈ maskList j.mask, (s.ch m.val).field = .off) → s.cryOutstanding j.id = false →
    s.mergesDue j.id = false → s.locatesDue j = false →
    let body := (outBytes (s.ch n.val).inv (s.fillItems j.id (s.ch n.val).inv e.payload)).take (min j.decl.maxpay 1008)
    let flag (x : EntryBytes) (k : Nat) : Bool := bitOf (leNat ((x.drop 4).take 4)) k
    Leads (.finalEntryWrite n) s fun t =>
      (t.job? j.id).map Job.state = some .posted
      ∧ (t.ring j.ringNo).resv = (s.ring j.ringNo).resv - j.units
      ∧ ∃ x, (t.ring j.ringNo).entries = (s.ring j.ringNo).entries ++ [x]
        ∧ leNat (x.take 4) = j.cookie + 2 ^ 24 * e.rc.toNat
        ∧ bitsOf (leNat ((x.drop 4).take 4)) 0 10 = j.routine ∧ bitsOf (leNat ((x.drop 4).take 4)) 10 3 = n.val
        ∧ bitsOf (leNat ((x.drop 4).take 4)) 13 3 = j.coil0.toNat ∧ bitsOf (leNat ((x.drop 4).take 4)) 16 8 = j.mask.toNat
        ∧ flag x 24 = true ∧ flag x 25 = false ∧ flag x 26 = e.part
        ∧ flag x 27 = decide (j.cost < j.fieldUj + ((maskList j.mask).map fun m => s.meterDelta m.val).sum + j.exchAll * j.ovh)
        ∧ flag x 28 = e.cut ∧ flag x 29 = j.swarm ∧ flag x 30 = j.waited ∧ flag x 31 = false
        ∧ leNat ((x.drop 8).take 4) = j.ntStart.toNat
        ∧ leNat ((x.drop 12).take 4) = body.length + 2 ^ 16 * e.detail.toNat
        ∧ (x.drop 16).take body.length = body ∧ x.length = 16 + (body.length + 15) / 16 * 16

/-- A job that waits for its gate window resumes at the first NT at which the remaining window of every channel it holds covers
its worst case, the longest ramp of its members and 14 µs, with LOCK and every field OFF: the field ramps up, and the ramp is
one more overhead; before that it goes on waiting. Once the field is ON again, its TX makes its own check again, and its
exchange starts or the job waits anew (R355). While a drain is in force no window is left (R483). -/
def Obligations.SeqResume : Prop :=
  ∀ (s : State) (n : Ch) (j : Job) (nt : BitVec 64) (ramp : Nat), s.canon = true →
    (let u := s.advanceTo nt
     let covers : Prop := u.drain = none
       ∧ ∀ m ∈ maskList j.mask, ∀ left, u.remaining j.cls m.val u.time.nt.toNat = some left → (j.decl.wcx + ramp + 14) * 1000 ≤ left
     u.jobLead n.val = some j → u.jobOn n.val = some j → u.job? j.id = some j → j.state = .waiting → j.ended = none →
      u.syn.state = .locked → (∀ m ∈ u.team n.val, (u.ch m).field = .off ∧ (u.ch m).antPend = false ∧ (u.ch m).wantOn = false) →
      (∀ m ∈ maskList j.mask, u.rd (R.CH_TXTIME_RAMP_US m.val) ≤ ramp) →
      (∃ m ∈ maskList j.mask, u.rd (R.CH_TXTIME_RAMP_US m.val) = ramp) →
      (covers → Leads (.waitingResume n nt) s fun t => (∀ m ∈ u.team n.val, (t.ch m).field = .ramp)
        ∧ ∃ k, t.job? j.id = some k ∧ k.exchAll = j.exchAll + 1)
      ∧ (¬ covers → exec (.waitingResume n nt) s = .next u))
    ∧ (∀ r, let c := s.ch n.val
       s.jobLead n.val = some j → s.jobOn n.val = some j → s.job? j.id = some j → j.state = .waiting → j.ended = none →
       j.marked = none → c.txReq = some r → r.cont = false → c.win = none → (∃ rd, c.seq.run = .blocked (.tx rd)) →
       c.field = .ramp → c.wantOff = false → s.couplingOn n.val = none →
       (∀ m ∈ s.team n.val, s.isOn (R.CH_TXCTL_CC_AUTO m) = false ∧ (m ≠ n.val → (s.ch m).field = .on ∧ (s.ch m).wantOff = false
         ∧ (s.ch m).settleTicks = 0)) → c.settleTicks = 0 →
       let fits : Prop := s.drain = none
         ∧ ∀ m ∈ maskList j.mask, ∀ left, s.remaining j.cls m.val s.time.nt.toNat = some left → j.decl.wcx * 1000 ≤ left
       (fits → Leads (.rampEnd n) s fun t => (∀ m ∈ s.team n.val, (t.ch m).field = .mod) ∧ (t.ch n.val).exch.isSome = true
         ∧ ∃ k, t.job? j.id = some k ∧ k.state = .running)
       ∧ (¬ fits → Leads (.rampEnd n) s fun t => (t.ch n.val).field = .down ∧ (t.ch n.val).txReq.isSome = true
         ∧ ∃ k, t.job? j.id = some k ∧ k.state = .waiting))

/-- The field sequence of R49: the settle timer, the ramps, the last modulation edge and the close of a window each
take the channel to the next state of the table: SETTLE to OFF, RAMP to ON, DOWN to OFF, MOD to RXW and RXW to ON, or on to
DOWN when a field-off request waited; a request that waited is carried out. That a field-off request in RAMP waits is the
model's reading (log entry 20). -/
def Obligations.FieldSequence : Prop :=
  ∀ (s : State) (n : Ch), s.canon = true → s.couplingOn n.val = none →
    let c := s.ch n.val
    let l := s.leadAt n.val
    (c.field = .settle → n.val ∈ s.team l →
      (c.wantOn = false → Leads (.settleEnd n) s fun t => (t.ch n.val).field = .off
        ∧ (s.team n.val = [n.val] → c.seq.run = .blocked .foff ∨ c.seq.run = .blocked .ant ∧ c.antWait = false ∧ c.antShift = false →
            (t.ch n.val).seq.run = .run ∧ (t.ch n.val).seq.pc = c.seq.pc + 1))
      ∧ (c.wantOn = true → c.antWait = false → c.antShift = false → s.syn.state = .locked →
        (∀ m ∈ s.team l, m ≠ n.val → (s.ch m).field = .off ∧ (s.ch m).wantOn = true ∧ (s.ch m).antPend = false) →
          Leads (.settleEnd n) s fun t => ∀ m ∈ s.team l, (t.ch m).field = .ramp))
    ∧ (c.field = .ramp →
      (c.wantOff = true → Leads (.rampEnd n) s fun t => (t.ch n.val).field = .down)
      ∧ (c.wantOff = false → s.team n.val = [n.val] → s.isOn (R.CH_TXCTL_CC_AUTO n.val) = true →
          Leads (.rampEnd n) s fun t => (t.ch n.val).field = .on ∧ (t.ch n.val).calib = true)
      ∧ (c.wantOff = false → s.team n.val = [n.val] → s.isOn (R.CH_TXCTL_CC_AUTO n.val) = false → c.seq.run = .blocked .fon →
          Leads (.rampEnd n) s fun t => (t.ch n.val).field = .on ∧ (t.ch n.val).seq.run = .run
            ∧ (t.ch n.val).seq.pc = c.seq.pc + 1)
      ∧ (c.wantOff = false → (∃ m ∈ s.team n.val, m ≠ n.val ∧ (s.ch m).field ≠ .on) →
          Leads (.rampEnd n) s fun t => (t.ch n.val).field = .on ∧ (t.ch n.val).calib = c.calib))
    ∧ (c.field = .down → c.wantOn = false → n.val ∈ s.team l →
      Leads (.downEnd n) s fun t => (t.ch n.val).field = .off
        ∧ (s.team n.val = [n.val] → c.seq.run = .blocked .foff →
            (t.ch n.val).seq.run = .run ∧ (t.ch n.val).seq.pc = c.seq.pc + 1))
    ∧ (∀ r, c.field = .mod → c.txNow = some r → l = n.val → n.val ∈ s.team l →
      Leads (.modEnd n) s fun t => (t.ch n.val).field = .rxw ∧ (t.ch n.val).txNow = none
        ∧ (c.seq.run = .blocked (.tx none) → (t.ch n.val).seq.run = .run ∧ (t.ch n.val).seq.pc = c.seq.pc + 1)
        ∧ (∀ rd, c.seq.run = .blocked (.tx (some rd)) → c.ev = none → (t.ch n.val).seq.run = .blocked (.rx rd))
        ∧ (∀ rd code, c.seq.run = .blocked (.tx (some rd)) → c.ev = some code → (t.ch n.val).seq.run = .run
            ∧ (t.ch n.val).seq.getG rd = BitVec.ofNat 32 code.toNat ∧ (t.ch n.val).ev = none)
        ∧ (∀ m ∈ s.team n.val, (t.ch m).field = .rxw)
        ∧ ∃ w, (t.ch n.val).win = some w ∧ w.mode = r.rxMode ∧ w.crc = r.rxCrc ∧ w.done = false ∧ w.sof = false
          ∧ (r.rxto ≠ 0 → r.engine = true ∨ (∀ j, s.jobLead n.val = some j → j.isRom = false) → w.toUs = r.rxto))
    ∧ (∀ w, c.win = some w → w.done = true → l = n.val → Leads (.windowClose n) s fun t => (t.ch n.val).win = none
        ∧ ((∀ j, s.jobLead n.val = some j → j.marked = none) → s.keepsExch n.val = false →
          (c.wantOff = true → ∀ m ∈ s.team n.val, (t.ch m).field = .down)
          ∧ (c.wantOff = false → c.txReq = none → (∀ p, c.seq.run ≠ .blocked (.pattern p)) →
            (t.ch n.val).exch = none ∧ ∀ m ∈ s.team n.val, (t.ch m).field = .on)))

/-- A window without a SOF by its timeout delivers F_NORESP, counts it and closes; a SOF at or above MIN_DBUV is
measured and starts the frame, whose record must have room then, but one that comes too early is counted and discarded; the
frame's end gives the event of R101, counts it, and a delivered frame enters the RX FIFO behind its record; early subcarrier is counted and
discarded (R91 to R94, R101, R105, R108, R110). A fault of
the channel ends its window with F_FCUT. How parity and collisions meet in a frame is the model's choice (log entries 31, 74,
80 and 81). -/
def Obligations.Reception : Prop :=
  ∀ (s : State) (n : Ch) (w : Window) (j : Job), s.canon = true → s.leadAt n.val = n.val → (s.ch n.val).win = some w →
    w.done = false → w.engine = false → s.jobLead n.val = some j →
    let c := s.ch n.val
    (w.sof = false → Leads (.responseTimeout n) s fun t => (t.ch n.val).win = none
        ∧ t.rd (R.CH_RXSTAT_LAST_FEV n.val) = 1 ∧ Counts (R.CH_RXCNT_1_N_NORESP n.val) s t)
    ∧ (∀ (m : SofMeas) (fdt : Nat), w.sof = false → m.ch = n → s.team n.val = [n.val] → j.group = none →
        4 * (s.rd (R.CH_RXTHR_MIN_DBUV n.val) : Int) ≤ levelOf (powOf m.rssi) →
        (100 * (16 * (fdt + 1)) + 1356 * s.rd (R.CH_RXTIME_EARLY_US n.val) ≤ 100 * w.earliest →
          exec (.sofDetect n [m] fdt) s = .next (s.bump (R.CH_RXCNT_2_N_EARLY n.val)))
        ∧ (100 * w.earliest < 100 * (16 * (fdt + 1)) + 1356 * s.rd (R.CH_RXTIME_EARLY_US n.val) →
        Leads (.sofDetect n [m] fdt) s fun t => t.rd (R.CH_RXFDT_FDT n.val) = min fdt 32767
          ∧ t.rd (R.CH_RXRSSI_RSSI n.val) = min m.rssi 65535 ∧ t.rd (R.CH_RXRSSI_NOISE n.val) = min m.noise 65535
          ∧ ∃ v, (t.ch n.val).win = some v ∧ v.sof = true ∧ v.fdt = fdt ∧ v.rssi = m.rssi
            ∧ v.room = decide (c.rxf.data.length + 8 ≤ 2048)))
    ∧ (∀ r : RxFrame, w.sof = true →
        let d := s.decodeFrame n.val w c.airBits (if w.room then c.rxf.space rxSize else 0) r
        let all := s.classify n.val w.mode r.bits
        let g := if 8 < c.airBits ∧ c.airBits % 8 ≠ 0 then 8 - c.airBits % 8 else 8
        let split := if w.mode < 4 then splitParity (w.mode != 0) (all.length + 1) g (g == 8) all else (all, false)
        let k := split.1.length
        let event : Nat :=
          if w.room = false ∨ 2048 - c.rxf.data.length < 8 + (k + 7) / 8 then 9
          else if r.cut ∨ 8 ≤ w.mode ∧ twoEmpty all then 7
          else if r.framing = false ∨ (all.any fun b => b.viol) ∨ w.crc ≠ 0 ∧ k % 8 ≠ 0 then 6
          else if split.1.any fun b => b.coll && !b.capt then 5
          else if split.2 then 4
          else if w.crc ≠ 0 ∧ crcGood w.crc (bitsBytes (k / 8 + 1) (split.1.map fun b => b.v)) = false then 3
          else if split.1.any fun b => b.capt then 2 else 0
        let got := d.code = 0 ∨ d.code = 2 ∨ (d.code = 5 ∧ w.crc = 0)
        let raw := d.bits.map fun b => b.v
        let vals := if w.crc = 0 then raw else raw.take (raw.length - 16)
        let bytes := recordBytes vals.length d w.rssi w.fdt ((s.team n.val).any fun m => r.clip.getLsbD m) ++ bitsBytes (vals.length / 8 + 1) vals
        Leads (.frameEnd n r) s fun t => t.rd (R.CH_RXSTAT_LAST_FEV n.val) = event ∧ d.code = event
          ∧ (t.ch n.val).win = some { w with done := true }
          ∧ (got → Counts (R.CH_RXCNT_0_N_OK n.val) s t
            ∧ (t.ch n.val).rxf = { c.rxf with data := c.rxf.data ++ bytes })
          ∧ (¬ got → (t.ch n.val).rxf = c.rxf)
          ∧ (∀ rd, c.seq.run = .blocked (.rx rd) → (t.ch n.val).seq.getG rd = BitVec.ofNat 32 d.code
              ∧ (t.ch n.val).seq.fz = decide got ∧ (t.ch n.val).seq.run = .run)
          ∧ ((∀ rd, c.seq.run ≠ .blocked (.rx rd)) → w.taken = false → (t.ch n.val).ev = some (BitVec.ofNat 4 d.code)
              ∧ (t.ch n.val).evGood = decide got))
    ∧ (w.sof = false → exec (.earlySubcarrier n) s = .next (s.bump (R.CH_RXCNT_2_N_EARLY n.val)))
    ∧ (c.field = .rxw → Leads (.overcurrent n) s fun t => t.rd (R.CH_RXSTAT_LAST_FEV n.val) = 8 ∧ (t.ch n.val).win = none)

/-- The switch bus takes the requests of all channels in OFF with a powered domain into one word, and when it latches
each channel in OFF whose position or enable changed settles; the others keep their state, unless a field-on request waited
for the bus (R49, R58, R60, R61). That a host's
request waits for OFF is the model's choice (log entry 75). -/
def Obligations.SwitchBus : Prop :=
  ∀ (s : State), s.canon = true →
    (s.syn.shift = none → (∃ n : Ch, s.antTaken n.val = true) →
      Leads .antShiftStart s fun t => ∃ w : Word, t.syn.shift = some w ∧ ∀ n : Ch,
        getBits w (4 * n.val) 4 = (if (s.ch n.val).antWait ∧ (s.ch n.val).field = .off ∧ bitOf s.pwr.domOn.toNat n.val then
          s.rd (R.CH_ANT_POS n.val) + 8 * s.rd (R.CH_ANT_EN n.val)
          else (s.ch n.val).curPos.toNat + 8 * (s.ch n.val).curEn.toNat)
        ∧ (t.ch n.val).antShift = ((s.ch n.val).antShift || s.antTaken n.val))
    ∧ (∀ w : Word, s.syn.shift = some w →
      let idle : Prop := ∀ m : Ch, s.couplingOn m.val = none ∧ (∀ p, (s.ch m.val).seq.run ≠ .blocked (.pattern p))
        ∧ ((s.ch m.val).antShift = true → (s.ch m.val).field = .off ∧ (s.ch m.val).wantOn = false)
      Leads .antShiftComplete s fun t => t.syn.shift = none ∧ t.rdWord R.SYN_ASWORD = w ∧ ∀ n : Ch,
        (t.ch n.val).curPos = BitVec.ofNat 3 (getBits w (4 * n.val) 3) ∧ (t.ch n.val).curEn = w.getLsbD (4 * n.val + 3)
        ∧ (t.ch n.val).antShift = false
        ∧ ((s.ch n.val).field = .off → ((s.ch n.val).curPos ≠ BitVec.ofNat 3 (getBits w (4 * n.val) 3)
            ∨ (s.ch n.val).curEn ≠ w.getLsbD (4 * n.val + 3)) → (t.ch n.val).field = .settle)
        ∧ (idle → (s.ch n.val).field ≠ .off ∨ ((s.ch n.val).curPos = BitVec.ofNat 3 (getBits w (4 * n.val) 3)
            ∧ (s.ch n.val).curEn = w.getLsbD (4 * n.val + 3)) → (t.ch n.val).field = (s.ch n.val).field))

/-- A cancellation calibration writes its I and Q, of which one from the cache settles the low 6 bits alone, its
result and duration (14 µs, or 8 µs from the cache), and outside a swarm job the entry of the coil position, unless it
fell short of THRESH, which sets CC_FAIL; an image calibration writes its corrections and the worse rejection and
fails below 50 dB; a loop tick measures power (by R43 corrected for temperature) and current, and meters the energy
exactly: 32 carrier cycles at P mW are 32·P/13,560 µJ, the rest being carried over; in ON it moves the amplitude by the
integral step of KI, scales it by the rail with VFF, saturates it at 1023 with SAT, and moves the cancellation by at most 1 in the
direction that lowers the residual, and in MOD and RXW it moves neither; the phase moves by at most 8 steps per carrier cycle
toward its new value, by the shorter way round, and the local oscillator with it (R38, R40 to R44, R54 to R57, R64, R77, R84,
R192). The error of the integral step is a free value; its scaling, the rounding of the temperature correction and the carried
remainder of the meter are the model's choice (log entries 27 and 33). -/
def Obligations.Calibrations : Prop :=
  (∀ (s : State) (n : Ch) (i q : BitVec 12) (resDb a b : BitVec 8), s.canon = true →
     let m := n.val
     let k := (s.ch m).curPos.toNat
     let base := (s.ch m).calBase
     let vi := match base with | none => i | some x => (x.1 &&& 0xFC0) ||| (i &&& 0x3F)
     let vq := match base with | none => q | some x => (x.2 &&& 0xFC0) ||| (q &&& 0x3F)
     ((s.ch m).calib = true →
       Leads (.calibrationEnd n i q resDb (if base.isSome then 8 else 14)) s fun t =>
         t.rd (R.CH_CCIQ_I m) = vi.toNat ∧ t.rd (R.CH_CCIQ_Q m) = vq.toNat ∧ t.rd (R.CH_CCRES_RES_DB m) = resDb.toNat
         ∧ t.rd (R.CH_CCRES_CAL_US m) = (if base.isSome then 8 else 14) ∧ ((∀ j, s.jobOn m = some j → j.group = none) → (t.ch m).calib = false)
         ∧ (resDb.toNat < 4 * s.rd (R.CH_CCCTL_THRESH m) → t.rd (R.CH_TXSTAT_CC_FAIL m) = 1)
         ∧ (4 * s.rd (R.CH_CCCTL_THRESH m) ≤ resDb.toNat → (∀ j, s.jobOn m = some j → j.group = none) →
             t.rd (R.CH_CCPOS_I m k) = vi.toNat ∧ t.rd (R.CH_CCPOS_Q m k) = vq.toNat ∧ t.rd (R.CH_CCPOS_VALID m k) = 1))
     ∧ ((s.boot = .imageCal ∧ s.bootCal.getLsbD m = true ∨ s.boot ≠ .imageCal ∧ s.imageCalRuns m = true) →
       Leads (.imageCalibrationEnd n i q a b) s fun t =>
         t.rd (R.CH_RXIQ_G_CORR m) = i.toNat ∧ t.rd (R.CH_RXIQ_P_CORR m) = q.toNat
         ∧ t.rd (R.CH_RXIQCAL_IRR_DB m) = min a.toNat b.toNat ∧ t.rd (R.CH_RXIQCAL_IQCAL m) = 0
         ∧ (min a.toNat b.toNat < 200 → t.rd (R.CH_RXIQCAL_IQ_FAIL m) = 1)
         ∧ (s.boot ≠ .imageCal → Counts R.DIAG_CNT_4_N_MAINT s t)))
  ∧ ∀ (s : State) (n : Ch) (pMw iMa vtx : Nat) (dI dQ : Int), s.canon = true →
      let m := n.val
      let c := s.ch m
      let p := if s.isOn (R.CH_TXCTL_LOOP m) ∧ s.isOn (R.CH_TXCTL_TCOMP_EN m) then (scaleTemp pMw (s.tempFactor m)).toNat else pMw
      c.field ≠ .off →
      Leads (.loopTick n pMw iMa vtx dI dQ) s fun t =>
        t.rd (R.CH_TXMEAS_P_MEAS m) = min p 4095 ∧ t.rd (R.CH_TXMEAS_I_MEAS m) = min iMa 4095
        ∧ (t.ch m).eFrac < 13560
        ∧ t.rd (R.CH_TXENERGY_ENERGY m) = (s.rd (R.CH_TXENERGY_ENERGY m) + (c.eFrac + 32 * p) / 13560) % 2 ^ 32
        ∧ (t.ch m).eFrac = (c.eFrac + 32 * p) % 13560
        ∧ (s.inSwarm m = false → s.couplingOn m = none → (t.ch m).field = c.field ∧ ∀ k : Ch, k ≠ n → t.ch k.val = s.ch k.val)
        ∧ (c.field = .on → s.inSwarm m = false → s.couplingOn m = none →
          let loop := s.isOn (R.CH_TXCTL_LOOP m)
          let set : Int := if loop then max 0 (c.amp + Config.ampError (s.targetMw m) p * 2 ^ s.rd (R.CH_TXLOOP_KI m)) / 4096
            else s.rd (R.CH_TXAMP_AMP m)
          let warm := if loop = false ∧ s.isOn (R.CH_TXCTL_TCOMP_EN m) then scaleTemp set (s.tempFactor m) else set
          let a := if s.isOn (R.CH_TXCTL_VFF m) then warm.toNat * s.pmb.ok / vtx else warm.toNat
          let tracked (v d : Int) : Int := if s.isOn (R.CH_TXCTL_CC_TRACK m) then max (-2048) (min 2047 (v + max (-1) (min 1 d))) else v
          (s.isOn (R.CH_TXCTL_VFF m) = false ∨ vtx ≠ 0 → t.rd (R.CH_TXAMP_AMP_NOW m) = min a 1023
            ∧ t.rd (R.CH_TXSTAT_SAT m) = if 1023 < a then 1 else s.rd (R.CH_TXSTAT_SAT m))
          ∧ t.rdS (R.CH_CCIQ_I m) = tracked (s.rdS (R.CH_CCIQ_I m)) dI ∧ t.rdS (R.CH_CCIQ_Q m) = tracked (s.rdS (R.CH_CCIQ_Q m)) dQ)
        ∧ (c.field = .mod ∨ c.field = .rxw → t.rdWord (R.CH_TXAMP m) = s.rdWord (R.CH_TXAMP m) ∧ (t.ch m).amp = c.amp
          ∧ t.rdWord (R.CH_CCIQ m) = s.rdWord (R.CH_CCIQ m))
        ∧ (∀ d : Int, -512 < d → d < 512 → s.phaseOf m = c.phNow + BitVec.ofInt 10 d →
          (t.ch m).phNow = c.phNow + BitVec.ofInt 10 (max (-256) (min 256 d))
          ∧ (t.ch m).loNow = (t.ch m).phNow + BitVec.ofNat 10 (s.rd (R.CH_RXLO_LO_PH m)))

/-- A fault of R51 sets its bit, counts in DIAG and takes the channel to FAULT: an overcurrent or an open antenna its
channel, a low rail both channels of the pair unless OFF, a loss of LOCK every channel that drives (R49, R51, R52,
R68, R421). That SYN_CUT and VTXLOW leave SETTLE is the model's reading (log entry 23). -/
def Obligations.ChannelFaults : Prop :=
  ∀ (s : State) (n : Ch) (iMa : Nat) (pair : Fin 4), s.canon = true →
    let m := n.val
    let f := (s.ch m).field
    let drives (f : FieldState) : Prop := f = .ramp ∨ f = .on ∨ f = .mod ∨ f = .rxw ∨ f = .down
    (drives f → Leads (.overcurrent n) s fun t => (t.ch m).field = .fault ∧ t.rd (R.CH_TXSTAT_OVC m) = 1
        ∧ Counts R.DIAG_CNT_1_N_OVC s t)
    ∧ (f = .on ∨ f = .mod ∨ f = .rxw → iMa ^ 2 * s.rd (R.CH_TXLOAD_RL m) < s.rd (R.CH_TXLOOP_OPEN_PCT m) ^ 2 * s.targetMw m →
        Leads (.openAntennaCheck n iMa) s fun t => (t.ch m).field = .fault ∧ t.rd (R.CH_TXSTAT_OPEN m) = 1
          ∧ Counts R.DIAG_CNT_1_N_OPEN s t)
    ∧ ((∃ k : Ch, k.val / 2 = pair.val ∧ drives (s.ch k.val).field) → Leads (.vtxlow pair) s fun t =>
        (∀ k : Ch, k.val / 2 = pair.val → drives (s.ch k.val).field →
          (t.ch k.val).field = .fault ∧ t.rd (R.CH_TXSTAT_VTXLOW k.val) = 1)
        ∧ (∀ k : Ch, k.val / 2 = pair.val → (s.ch k.val).field = .off → (t.ch k.val).field = .off)
        ∧ (s.pmb.state ≠ .off → s.pmb.state ≠ .fault → t.pmb.state = .fault ∧ t.pmb.ok = 0 ∧ t.rd R.PMB_STAT_ERR = 7))
    ∧ (s.syn.state = .locked → Leads .lockLost s fun t => t.syn.state = .lost ∧ t.rd R.SYN_STAT_UNLOCK_SEEN = 1
        ∧ Counts R.SYN_LOCKT_LOSSES s t ∧ (∀ p : Port, bitOf (t.pend p.val) 9 = true)
        ∧ ∀ k : Ch, drives (s.ch k.val).field → (t.ch k.val).field = .fault ∧ t.rd (R.CH_TXSTAT_SYN_CUT k.val) = 1)

/-- The synthesiser: band found, lock, a failed attempt, and the relock of a phase step move it as R65 gives; a
failure counts and is flagged, a lock gives its duration and ends the synthesiser's maintenance (R65, R67, R71, R72).
What is counted as a failure is the model's reading (log entry 35). -/
def Obligations.Synthesiser : Prop :=
  ∀ (s : State) (us : BitVec 16), s.canon = true →
    (s.syn.state = .cal → Leads .bandFound s fun t => t.syn.state = .acq ∧ t.rd R.SYN_CTL_RECAL = 0
        ∧ t.rdS R.SYN_STAT_CAL_TEMP = toSigned 16 (ofSigned 16 s.tDie))
    ∧ (s.syn.state = .acq ∨ s.syn.state = .lost → Leads .lockAttemptTimeout s fun t => t.syn.state = .cal
        ∧ t.rd R.SYN_STAT_LOCK_FAIL = 1 ∧ Counts R.DIAG_CNT_3_N_LOCKFAIL s t)
    ∧ (s.syn.state = .acq ∨ s.syn.state = .lost → s.pwr.xtal = true → s.thermHold = false →
        Leads (.synLock us) s fun t => t.syn.state = .locked ∧ t.rd R.SYN_LOCKT_LOCK_US = us.toNat
          ∧ (s.boot = .lock → t.boot = .imageCal))
    ∧ (s.syn.state = .step → Leads (.phaseStepRelock us) s fun t => t.syn.state = .locked
        ∧ t.rd R.SYN_LOCKT_LOCK_US = us.toNat ∧ (t.maint.all fun m => !(m.running && m.kind.isSynth)) = true)
    ∧ (s.syn.state = .step → Leads .stepRelockTimeout s fun t => t.syn.state = .cal ∧ t.rd R.SYN_STAT_LOCK_FAIL = 1
        ∧ ∀ p : Port, bitOf (t.pend p.val) 9 = true)

/-- Frames of a port: NOP and the notices answer and do what R440 gives, LAST_REPLY resends the reply before, an
undefined opcode ends BAD_OPC, a frame that is not whole ends CRC_BAD, SEQ decides between execution, the cached reply
and SEQ_BAD, and a frame that the port is not ready for waits (R402, R431, R432, R435, R438, R440, R441). The order of
frames that wait is the model's choice (log entry 101); INFO 0 of a refused frame is its reading (log entry 69). -/
def Obligations.HostFrames : Prop :=
  ∀ (s : State) (f : Frame), s.canon = true →
    let p := f.port.val
    let e := s.hostEdge f.port
    let q := e.pt p
    (∀ i ∈ [Instr.nop f, .nopResync f], Accepts s 0x00 f → f.arg = 0 →
      Serves i 0x00 f s fun m x u => u = m ∧ x = ansInfo (e.pendMasked p))
    ∧ (Accepts s 0x40 f → f.arg = 0 → Serves (.noticeRead f) 0x40 f s fun m x u => u = m ∧ x = ansInfo (e.pendSet p))
    ∧ (Accepts s 0x41 f → getBits f.arg 19 13 = 0 → Serves (.noticeAck f) 0x41 f s fun m x u =>
        RegsOnly [R.HOST_NPEND p] m u ∧ x = ansInfo (u.pendSet p)
        ∧ ∀ k, k < 19 → bitOf (u.pend p) k = (bitOf (m.pend p) k && !bitOf f.arg.toNat k))
    ∧ (Hears s f.port → frameOk 0x0F f = true → Leads (.lastReply f) s fun t => FrameOnly f.port e t
        ∧ (t.pt p).carried = q.assigned ∧ (t.pt p).cached = q.cached ∧ (t.pt p).lastSeq = q.lastSeq)
    ∧ (∀ opc : Byte, knownOpc opc.toNat = false → Hears s f.port → frameOk opc f = true → bitOf f.tag.toNat 6 = false →
        seqOf f.tag = q.lastSeq + 1 → Serves (.badOpc opc f) opc f s fun m x u => u = m ∧ x = ans stBadOpc)
    ∧ (∀ i opc, (i, opc) ∈ frameRows f → Hears s f.port → frameOk opc f = false → Leads i s fun t => FrameOnly f.port e t
        ∧ Counts (R.HOST_CNT_0_N_CRCBAD p) e t ∧ (t.pt p).carried = { status := stCrcBad, tag := f.tag, opc := opc }
        ∧ (t.pt p).cached = q.cached ∧ (t.pt p).lastSeq = q.lastSeq)
    ∧ (∀ i opc, (i, opc) ∈ frameRows f → Hears s f.port → frameOk opc f = true → opc ≠ 0x0F → bitOf f.tag.toNat 6 = false →
        (seqOf f.tag = q.lastSeq → Leads i s fun t => FrameOnly f.port e t ∧ (t.pt p).carried = q.cached
          ∧ (t.pt p).cached = q.cached ∧ Counts (R.HOST_CNT_1_N_RETRY p) e t)
        ∧ (seqOf f.tag ≠ q.lastSeq → seqOf f.tag ≠ q.lastSeq + 1 → Leads i s fun t => FrameOnly f.port e t
          ∧ (t.pt p).carried = { status := stSeqBad, tag := f.tag, opc := opc } ∧ (t.pt p).lastSeq = q.lastSeq
          ∧ Counts (R.HOST_CNT_1_N_SEQBAD p) e t))
    ∧ (∀ i opc, (i, opc) ∈ frameRows f → Hears s f.port → frameOk opc f = true → opc ≠ 0x0F → opc ≠ 0 →
        bitOf f.tag.toNat 6 = true → Leads i s fun t => FrameOnly f.port e t ∧ (t.pt p).cached = q.cached
          ∧ (t.pt p).carried = { status := stSeqBad, tag := f.tag, opc := opc } ∧ (t.pt p).lastSeq = q.lastSeq
          ∧ t.rd (R.HOST_CNT_1_N_SEQBAD p) = e.rd (R.HOST_CNT_1_N_SEQBAD p))
    ∧ (∀ i opc, (i, opc) ∈ frameRows f → s.up = true → e.portReady = false → e.pwr.state ≠ .off →
        Leads i s fun t => { t with ports := e.ports, regs := e.regs } = e ∧ t.pt p = { q with held := q.held ++ [(opc, f)] }
          ∧ Counts (R.HOST_STALL_N_STALL p) e t)
    ∧ (s.replyWaits f.port = false → (s.pt p).held = [] → Leads (.replyBuildDone f.port) s fun t =>
        { t with ports := s.ports } = s ∧ (∀ k, k ≠ p → t.pt k = s.pt k) ∧ t.pt p = { s.pt p with building := false })

/-- REG_READ and REG_WRITE: the value shown, RC bits cleared by the read, and NT_HI and NT_FR latched for the port by a read of
NT_LO; the RW and W1C bits of a register without an effect of its own (a channel's registers may move the rail's demand); a
register of which no bit is writable ignores the write; out of range ends RANGE, and without the right DENIED with the refusal
noted. A frame of more words handles each word on its own, in ascending order, each as a frame of one word does, and its reply
names the lowest-addressed refused word; a read notes its refusals once its words are read (R6, R331, R440, R442 to R446, R449,
R456). That range is checked before BUSY is the model's reading (log entry 38). -/
def Obligations.RegisterFrames : Prop :=
  ∀ (s : State) (f : Frame) (a : Nat) (b : RegBlock) (r : RegRow) (w : Word), s.canon = true → blockOf a = some b →
    rowAt a = some r →
    let p := f.port.val
    let e := s.hostEdge f.port
    let value (m : State) : List Byte := leBytes 4 (m.regValue p a).toNat
    (Accepts s 0x10 f → f.arg = BitVec.ofNat 32 (a + 2 ^ 16) →
      (e.mayReadReg p b a = true → a = R.TIME_NT_LO →
        let hi : Word := (e.time.nt >>> 32).setWidth 32
        let fr : Word := BitVec.ofNat 32 (e.time.frac / 2 ^ 24)
        Serves (.regRead f) 0x10 f s fun m x u => x = allWords (leBytes 4 (e.time.nt.toNat % 2 ^ 32))
          ∧ { u with ports := m.ports } = m ∧ (∀ q, q ≠ p → u.pt q = m.pt q) ∧ u.pt p = { m.pt p with ntHi := hi, ntFr := fr }
          ∧ u.regValue p R.TIME_NT_HI = hi ∧ u.regValue p R.TIME_NT_FR = fr)
      ∧ (e.mayReadReg p b a = true → a ≠ R.TIME_NT_LO → (∀ n : Ch, a ≠ R.CH_WSDATA n.val) →
        Serves (.regRead f) 0x10 f s fun m x u => x = allWords (value m) ∧ RegsOnly [a] m u
          ∧ u.rdWord a = m.rdWord a &&& ~~~r.rc)
      ∧ (e.mayReadReg p b a = false →
        Serves (.regRead f) 0x10 f s fun m x u => x = firstWord stDenied [0, 0, 0, 0] ∧ Noted p 0x10 a m u))
    ∧ (Accepts s 0x11 f → f.arg = BitVec.ofNat 32 a → bodyOf f = leBytes 4 w.toNat →
      (e.mayWriteReg p b a = true → actsBeyond b a = false → r.rw ||| r.rwl ||| r.w1c ||| r.wo ≠ 0 →
        e.inRange a w b r = true → e.turnedAway a w b = none → (e.committed = false ∨ (e.rdWord a ^^^ w) &&& r.rwl = 0) →
        Serves (.regWrite f) 0x11 f s fun m x u => x = allWords [] ∧ RegsOnly [a] { m with pmb := u.pmb } u
          ∧ u.rdWord a = r.stored e.committed (m.rdWord a) w
          ∧ ((∀ n, b ≠ .ch n) → u.pmb = m.pmb)
          ∧ ∀ n, b = .ch n → let rises : Prop := m.pmb.state = .ready ∧ m.pmb.cmd < u.railDemand
            (rises → u.pmb.state = .change ∧ u.pmb.cmd = u.railDemand ∧ u.pmb.ok = m.pmb.ok)
            ∧ (¬ rises → u.pmb = { m.pmb with demand := u.railDemand }))
      ∧ (e.mayWriteReg p b a = true → b ≠ .prot → r.rw ||| r.rwl ||| r.w1c ||| r.wo = 0 →
        Serves (.regWrite f) 0x11 f s fun m x u => x = allWords [] ∧ u = m)
      ∧ (e.mayWriteReg p b a = true → b ≠ .prot → r.rw ||| r.rwl ||| r.w1c ||| r.wo ≠ 0 →
        e.inRange a (r.effective e.committed (e.rdWord a) w) b r = false →
        Serves (.regWrite f) 0x11 f s fun m x u => x = firstWord stRange [] ∧ u = m)
      ∧ (e.mayWriteReg p b a = false →
        Serves (.regWrite f) 0x11 f s fun m x u => x = firstWord stDenied [] ∧ Noted p 0x11 a m u))
    ∧ (∀ k, 0 < k → k ≤ 1024 → Accepts s 0x10 f → f.arg = BitVec.ofNat 32 (a + 2 ^ 16 * k) →
      Serves (.regRead f) 0x10 f s fun m x u => ∃ st : Nat → State, st 0 = m
        ∧ (let res (i : Nat) : Byte := if 0x3FFC < a + 4 * i then stRange else match blockOf (a + 4 * i) with
            | none => stOk
            | some g => if (st i).mayReadReg p g (a + 4 * i) then stOk else stDenied
          let denied := (List.range k).filter fun i => res i == stDenied
          x.payload.length = 4 * k ∧ LowestRefused k res x
          ∧ (∀ i, i < k → let c := a + 4 * i
            let word := (x.payload.drop (4 * i)).take 4
            (res i ≠ stOk ∨ rowAt c = none → st (i + 1) = st i ∧ word = [0, 0, 0, 0])
            ∧ (∀ g, blockOf c = some g → ∀ y, rowAt c = some y → res i = stOk →
              st (i + 1) = (st i).afterRead p c g y ∧ word = leBytes 4 ((st i).regValue p c).toNat))
          ∧ (denied = [] → u = st k)
          ∧ (∀ i, denied.getLast? = some i → RegsOnly [R.HOST_CNT_2 p, R.PROT_DENY] (st k) u
            ∧ u.rd (R.HOST_CNT_2_N_DENIED p) = min ((st k).rd (R.HOST_CNT_2_N_DENIED p) + denied.length) (2 ^ (R.HOST_CNT_2_N_DENIED p).w - 1)
            ∧ u.rd R.PROT_DENY_PORT = p ∧ u.rd R.PROT_DENY_OPC = 0x10 ∧ u.rd R.PROT_DENY_ADDR = a + 4 * i)))
    ∧ (∀ ws : List Word, ws ≠ [] → ws.length ≤ 1024 → Accepts s 0x11 f → f.arg = BitVec.ofNat 32 a →
      bodyOf f = ws.flatMap (fun w => leBytes 4 w.toNat) → (∀ i, i < ws.length → blockOf (a + 4 * i) ≠ some .prot) →
      Serves (.regWrite f) 0x11 f s fun m x u => ∃ (st : Nat → State) (res : Nat → Byte), st 0 = m ∧ st ws.length = u
        ∧ x.payload = [] ∧ LowestRefused ws.length res x
        ∧ ∀ i, i < ws.length → let c := a + 4 * i
          let y := st i
          (0x3FFC < c → st (i + 1) = y ∧ res i = stRange)
          ∧ (c ≤ 0x3FFC → blockOf c = none → st (i + 1) = y ∧ res i = stOk)
          ∧ (∀ g, c ≤ 0x3FFC → blockOf c = some g →
            let z := y.writeChecked f.port c (ws.getD i 0)
            (y.mayWriteReg p g c = false → res i = stDenied ∧ Noted p 0x11 c y (st (i + 1)))
            ∧ (y.mayWriteReg p g c = true → res i = z.2 ∧ (z.2 ≠ stDenied → st (i + 1) = z.1)
              ∧ (z.2 = stDenied → Noted p 0x11 c z.1 (st (i + 1))))))

/-- MEM_READ and MEM_WRITE: pools, routine store, swarm and host memory, public keys and the published bank read as they stand,
the AES keys as zero, the shadow for its owner alone, the flash window as the flash holds it; store, host memory, key tables,
swarm tables and the owner's shadow take a write, which clears VALID of a public key; the pools refuse it, and reserved bytes are
RANGE; locked keys are DENIED; code latched by a job, a slot being measured and a closed window answer BUSY; a write to the
window is programmed; a read of more words names the lowest-addressed refused one (R28, R29, R150, R155, R213, R250, R376, R378,
R444, R448, R449, R468, R469, R486). What the ring storage reads once it is used is a free value (log entry 10), and what the window
does while a record is written is the model's reading (log entry 54). -/
def Obligations.MemoryFrames : Prop :=
  ∀ (s : State) (f : Frame) (a k : Nat) (w : Word), s.canon = true → a % 4 = 0 → memRegion a = some k →
    let p := f.port.val
    let e := s.hostEdge f.port
    f.arg = BitVec.ofNat 32 a →
    (Accepts s 0x20 f → 4 ≤ (bodyOf f).length → leNat ((bodyOf f).take 4) = 4 →
      (e.mayReadMem p k = true → k ∈ [0, 1, 2, 4, 7, 8] ∨ k = 5 ∧ 0x164000 ≤ a →
        Serves (.memRead f) 0x20 f s fun m x u => u = m ∧ x = allWords (e.sbytes a 4))
      ∧ (e.mayReadMem p k = true → k = 5 → a < 0x164000 →
        Serves (.memRead f) 0x20 f s fun m x u => u = m ∧ x = allWords [0, 0, 0, 0])
      ∧ (e.mayReadMem p k = true → k = 3 → Serves (.memRead f) 0x20 f s fun m x u => { u with fresh := m.fresh } = m
        ∧ (e.ringsUsed = false → x = allWords [0, 0, 0, 0])
        ∧ x.status = stOk ∧ x.info = 0xFFFF ∧ x.payload.length = 4)
      ∧ (e.mayReadMem p k = true → k = 6 → a < 0x172000 →
        Serves (.memRead f) 0x20 f s fun m x u => u = m ∧ x = allWords (Memory.bytes e.published (a - 0x170000) 4))
      ∧ (e.mayReadMem p k = true → k = 6 → 0x172000 ≤ a → e.emu.arb = .wireOpen ∧ e.emu.ownPort = f.port →
        Serves (.memRead f) 0x20 f s fun m x u => u = m ∧ x = allWords (Memory.bytes e.shadow (a - 0x172000) 4))
      ∧ (e.mayReadMem p k = true → k = 6 → 0x172000 ≤ a → ¬ (e.emu.arb = .wireOpen ∧ e.emu.ownPort = f.port) →
        Serves (.memRead f) 0x20 f s fun m x u => x = firstWord stDenied [0, 0, 0, 0] ∧ Noted p 0x20 0 m u)
      ∧ (e.mayReadMem p k = false →
        Serves (.memRead f) 0x20 f s fun m x u => x = firstWord stDenied [0, 0, 0, 0] ∧ Noted p 0x20 0 m u)
      ∧ (e.mayReadMem p k = true → k = 9 → a - winBase < e.density →
        (e.winClosed = false → Serves (.memRead f) 0x20 f s fun m x u => x = allWords (e.fbytes (a - winBase) 4)
          ∧ u = { m with flash := { m.flash with asleep := false } })
        ∧ (e.winClosed = true → Serves (.memRead f) 0x20 f s fun m x u => x = firstWord stBusy [0, 0, 0, 0]
          ∧ RegsOnly [R.FLASH_ECNT] m u ∧ Counts R.FLASH_ECNT_N_WBUSY m u)))
    ∧ (∀ n, 0 < n → n ≤ 1024 → Accepts s 0x20 f → 4 ≤ (bodyOf f).length → leNat ((bodyOf f).take 4) = 4 * n →
        Serves (.memRead f) 0x20 f s fun m x _ => LowestRefused n (fun i => (m.memWord p (a + 4 * i)).2) x
          ∧ x.payload = (List.range n).flatMap fun i => leBytes 4 (m.memWord p (a + 4 * i)).1.toNat)
    ∧ (Accepts s 0x21 f → bodyOf f = leBytes 4 w.toNat →
      let stored (m u : State) : Prop := u.sbytes a 4 = leBytes 4 w.toNat ∧ ∀ c, c < a ∨ a + 4 ≤ c → u.sb c = m.sb c
      let spare := (List.range 4).filter fun i => !swarmTable (a + i)
      let junk : Prop := spare.length = 4 ∨ ∃ i ∈ spare, (leBytes 4 w.toNat).getD i 0 ≠ 0
      (e.mayWriteMem p k = true → k = 5 →
        (0x164A50 ≤ a → Serves (.memWrite f) 0x21 f s fun m x u => x = firstWord stRange [] ∧ u = m)
        ∧ (a < 0x164A50 → e.isOn R.CRY_CTL_KEY_LOCK = true →
          Serves (.memWrite f) 0x21 f s fun m x u => x = firstWord stDenied [] ∧ Noted p 0x21 0 m u)
        ∧ (a < 0x164A50 → e.isOn R.CRY_CTL_KEY_LOCK = false → Serves (.memWrite f) 0x21 f s fun m x u => x = allWords []
          ∧ RegsOnly [R.CRY_PKVALID] { m with sram := u.sram } u ∧ stored m u
          ∧ ∀ j, j < 32 → bitOf (u.rd R.CRY_PKVALID_VALID) j = (bitOf (m.rd R.CRY_PKVALID_VALID) j
            && !decide (0x164000 + 64 * j ≤ a ∧ a < 0x164040 + 64 * j ∨ 0x164800 + 16 * j ≤ a ∧ a < 0x164810 + 16 * j))))
      ∧ (e.mayWriteMem p k = true → k = 6 → 0x172000 ≤ a → e.emu.arb = .wireOpen ∧ e.emu.ownPort = f.port →
        Serves (.memWrite f) 0x21 f s fun m x u => x = allWords [] ∧ { u with emu := m.emu } = m
          ∧ { u.emu with bank0 := m.emu.bank0, bank1 := m.emu.bank1 } = m.emu ∧ u.published = m.published
          ∧ ∀ c, Memory.byte u.shadow c
            = if a ≤ 0x172000 + c ∧ 0x172000 + c < a + 4 then (leBytes 4 w.toNat).getD (0x172000 + c - a) 0 else Memory.byte m.shadow c)
      ∧ (e.mayWriteMem p k = true → k = 6 → a < 0x172000 ∨ ¬ (e.emu.arb = .wireOpen ∧ e.emu.ownPort = f.port) →
        Serves (.memWrite f) 0x21 f s fun m x u => x = firstWord stDenied [] ∧ Noted p 0x21 0 m u)
      ∧ (e.mayWriteMem p k = true → k = 7 →
        (e.slotMeasured a = true → Serves (.memWrite f) 0x21 f s fun m x u => x = firstWord stBusy [] ∧ u = m)
        ∧ (e.slotMeasured a = false → junk → Serves (.memWrite f) 0x21 f s fun m x u => x = firstWord stRange [] ∧ u = m)
        ∧ (e.slotMeasured a = false → ¬ junk → Serves (.memWrite f) 0x21 f s fun m x u => x = allWords []
          ∧ { u with sram := m.sram } = m ∧ stored m u))
      ∧ (e.mayWriteMem p k = true → k = 9 → e.winStatus (a - winBase) = stBusy →
        Serves (.memWrite f) 0x21 f s fun m x u => x = firstWord stBusy [] ∧ RegsOnly [R.FLASH_ECNT] m u
          ∧ Counts R.FLASH_ECNT_N_WBUSY m u)
      ∧ (e.mayWriteMem p k = true → k = 8 ∨ (k = 4 ∧ e.codeLatched 1 (a - 0x140000) 4 = false) →
        Serves (.memWrite f) 0x21 f s fun m x u => x = allWords [] ∧ { u with sram := m.sram } = m ∧ stored m u)
      ∧ (e.mayWriteMem p k = true → k = 4 → e.codeLatched 1 (a - 0x140000) 4 = true →
        Serves (.memWrite f) 0x21 f s fun m x u => x = firstWord stBusy [] ∧ u = m)
      ∧ (e.mayWriteMem p k = false ∨ k < 4 →
        Serves (.memWrite f) 0x21 f s fun m x u => x = firstWord stDenied [] ∧ Noted p 0x21 0 m u)
      ∧ (e.mayWriteMem p k = true → k = 9 → e.winStatus (a - winBase) = stOk →
        Serves (.memWrite f) 0x21 f s fun m x u => x = allWords [] ∧ u = { m with flash := { m.flash with
          asleep := false, win := some { port := f.port, runs := [⟨0, a - winBase, leBytes 4 w.toNat⟩], ref := none } } }))

/-- SUBMIT: a frame that passes the checks opens an item or queues it at once, with its descriptor and payload in the
pools and one unit of its ring reserved, coloured and charged as R271 gives; a red item, and a yellow one at YDEPTH, is
POLICED and counted; continuations add their bytes, and the last one queues the item; after a discard they are refused. A frame
of a wrong form changes nothing; one that fails check 1, 2 or 3 of R266 is DENIED, RANGE or NO_SPACE and leaves no job; a
continuation that R263, R265 or R454 refuses is answered as they say (R260 to R272, R454). The order of the checks, where R262
to R269 give none, is the model's reading (log entry 39), and so is INFO 0 in the reply of a refused frame (log entry 69); slot
and units are free values (log entry 9). -/
def Obligations.SubmitItem : Prop :=
  ∀ (s : State) (f : Frame) (q : Nat), s.canon = true → s.jobsOk = true → q < 64 → Accepts s 0x30 f →
    let p := f.port.val
    let e := s.hostEdge f.port
    let b := bodyOf f
    let d := e.discardOpen p
    let j := d.newJob f.port q (leWords (b.take 32))
    let final := bitOf f.tag.toNat 5
    b.length ≤ 4096 →
    (∀ slot run, f.arg = BitVec.ofNat 32 (q + 256) → bitOf f.tag.toNat 4 = !final → 32 ≤ b.length →
      d.queueOwner q = some p → d.ringOwner j.ringNo = some p → d.itemOk j (b.length - 32) final = true → d.itemRoom j = true →
      d.pickSlot = some slot → d.pickRun j.payUnits = some run → 1 ≤ d.ringFree j.ringNo →
      let aware := d.isOn (R.BUDG_PCFG_CAWARE p)
      let colour : Nat := if d.isOn (R.BUDG_PCFG_PEN p) = false then 0
        else if aware = true ∧ j.pcol = 2 ∨ (d.pt p).tp < j.cost then 2
        else if aware = true ∧ j.pcol = 1 ∨ (d.pt p).tc < j.cost then 1 else 0
      let policed : Prop := colour = 2 ∨ colour = 1 ∧ d.rd (R.SCHED_QWM_YDEPTH q) ≤ d.depth q
      let charged (u : State) : Prop :=
        (u.pt p).tp = (if d.isOn (R.BUDG_PCFG_PEN p) = true ∧ colour ≠ 2 then (d.pt p).tp - j.cost else (d.pt p).tp)
        ∧ (u.pt p).tc = if d.isOn (R.BUDG_PCFG_PEN p) = true ∧ colour = 0 then (d.pt p).tc - j.cost else (d.pt p).tc
      (¬ policed → Serves (if final then .submitSingle f else .submitOpen f) 0x30 f s fun m x u => ∃ k,
        k = { j with
          desc := j.desc.set 6 (BitVec.ofNat 32 (if j.plen = 0 then 0 else payBase + 32 * run)), slot := slot
          got := b.length - 32, state := if final then .queued else .arriving, colour := colour
          queuedNt := if final then e.time.nt else j.queuedNt }
        ∧ charged u ∧ (colour = 1 → Counts (R.BUDG_PCNT_N_YELLOW p) m u)
        ∧ u.jobs = d.jobs ++ [k] ∧ u.nextJob = e.nextJob + 1
        ∧ u.sbytes (0x80000 + 32 * slot) 32 = wordBytes k.desc ∧ u.sbytes k.pptr (b.length - 32) = b.drop 32
        ∧ (u.ring j.ringNo).resv = (d.ring j.ringNo).resv + 1 ∧ (u.pt p).openItem = (if final then none else some k.id)
        ∧ (u.pt p).discard = none ∧ x = ansInfo (d.depth q + final.toNat + 2 ^ 16 * colour))
      ∧ (policed →
        Serves (if final then .submitSingle f else .submitOpen f) 0x30 f s fun m x u => x = ans stPoliced ∧ u.jobs = d.jobs
          ∧ bitOf (u.pend p) 2 = true ∧ Counts (R.SCHED_QCNT_N_REFUSE q) m u ∧ charged u
          ∧ Counts (if colour = 2 then R.BUDG_PCNT_N_RED p else R.BUDG_PCNT_N_YELLOW p) m u
          ∧ (u.pt p).discard = (if final then none else some stPoliced)))
    ∧ (let frames := [Instr.submitSingle f, .submitOpen f, .submitCont f, .submitFinal f]
      let gone (u : State) : Prop := u.jobs = d.jobs ∧ u.nextJob = e.nextJob ∧ u.sram = e.sram ∧ u.rings = d.rings
        ∧ (u.pt p).openItem = none ∧ (u.pt p).discard = none
      let owns : Prop := d.queueOwner q = some p ∧ d.ringOwner j.ringNo = some p
      let bad : Prop := d.isOn (R.SCHED_QCFG_EN q) = false ∨ j.cls ≠ d.rd (R.SCHED_QCFG_CLASS q) ∨ j.chmask = 0
        ∨ j.chmask &&& ~~~(BitVec.ofNat 8 (d.rd (R.SCHED_QCFG_ALLOW q))) ≠ 0 ∨ (j.swarm = false ∧ popcount8 j.chmask.toNat ≠ 1)
        ∨ (j.swarm = true ∧ (j.coil ≠ 0 ∨ d.groupOf j.chmask = none)) ∨ d.isOn (R.RES_CFG_EN j.ringNo) = false ∨ j.pcol = 3
        ∨ 16384 < j.plen ∨ getBits (j.word 0) 27 5 ≠ 0 ∨ getBits (j.word 1) 24 8 ≠ 0 ∨ getBits (j.word 3) 5 3 ≠ 0
        ∨ getBits (j.word 7) 15 17 ≠ 0 ∨ j.word 6 ≠ 0 ∨ j.plen < b.length - 32 ∨ (final = true ∧ b.length - 32 < j.plen)
        ∨ ((d.qu q).shen = true ∧ (d.qu q).burst < j.cost)
      let full : Prop := d.rd (R.SCHED_QCFG_MAXDEPTH q) ≤ d.depth q ∨ d.pickSlot = none ∨ d.pickRun j.payUnits = none
      (∀ i ∈ frames, f.arg &&& 0xFFFFFEC0 ≠ 0 ∨ (bitOf f.arg.toNat 8 = true ∧ (bitOf f.tag.toNat 4 = final ∨ b.length < 32))
          ∨ (bitOf f.arg.toNat 8 = false ∧ (bitOf f.tag.toNat 4 = false ∨ final = false ∧ b = [])) →
        Serves i 0x30 f s fun m x u => x = ans stRange ∧ u = m)
      ∧ (f.arg = BitVec.ofNat 32 (q + 256) → bitOf f.tag.toNat 4 = !final → 32 ≤ b.length →
        let i := if final then Instr.submitSingle f else .submitOpen f
        (bad ↔ d.itemOk j (b.length - 32) final = false)
        ∧ (¬ owns → Serves i 0x30 f s fun m x u => x = ans stDenied ∧ gone u ∧ Counts (R.HOST_CNT_2_N_DENIED p) m u)
        ∧ (owns → bad → Serves i 0x30 f s fun _ x u => x = ans stRange ∧ gone u)
        ∧ (owns → ¬ bad → full ∨ d.ringFree j.ringNo < 1 → Serves i 0x30 f s fun m x u => x = ans stNoSpace ∧ gone u
          ∧ Counts (R.SCHED_QCNT_N_REFUSE q) m u ∧ (¬ full → Counts (R.RES_CNT_N_FULL j.ringNo) m u)))
      ∧ (f.arg = BitVec.ofNat 32 q → bitOf f.tag.toNat 4 = true → final = true ∨ b ≠ [] → (e.pt p).discard = none →
        let i := if final then Instr.submitFinal f else .submitCont f
        ((e.pt p).openItem = none → Serves i 0x30 f s fun m x u => x = ans stRange ∧ u = m)
        ∧ (∀ id k, (e.pt p).openItem = some id → e.job? id = some k →
          (k.queue ≠ q → Serves i 0x30 f s fun m x u => x = ans stRange ∧ u = m)
          ∧ (k.queue = q → e.queueOwner q ≠ some p → Serves i 0x30 f s fun _ x u => x = ans stDenied ∧ gone u)
          ∧ (k.queue = q → e.queueOwner q = some p → k.plen < k.got + b.length ∨ (final = true ∧ k.got + b.length < k.plen) →
            Serves i 0x30 f s fun _ x u => x = ans stRange ∧ gone u))))
    ∧ (∀ id k, f.arg = BitVec.ofNat 32 q → bitOf f.tag.toNat 4 = true → (e.pt p).discard = none → (e.pt p).openItem = some id →
      e.job? id = some k → k.state = .arriving → k.queue = q → e.queueOwner q = some p →
      (final = false → b ≠ [] → k.got + b.length ≤ k.plen → Serves (.submitCont f) 0x30 f s fun m x u => x = {}
        ∧ { u with jobs := m.jobs, sram := m.sram } = m ∧ u.job? id = some { k with got := k.got + b.length }
        ∧ u.sbytes (k.pptr + k.got) b.length = b)
      ∧ (final = true → k.got + b.length = k.plen → Serves (.submitFinal f) 0x30 f s fun _ x u =>
        x = ansInfo (e.depth q + 1 + 2 ^ 16 * k.colour) ∧ (u.pt p).openItem = none
        ∧ u.job? id = some { k with got := k.plen, state := .queued, queuedNt := e.time.nt }
        ∧ u.sbytes (k.pptr + k.got) b.length = b))
    ∧ (∀ st, f.arg = BitVec.ofNat 32 q → bitOf f.tag.toNat 4 = true → final = true ∨ b ≠ [] → (e.pt p).discard = some st →
      st ≠ stDenied →
      Serves (if final then .submitFinal f else .submitCont f) 0x30 f s fun m x u => u = m ∧ x = ans st)

/-- QUEUE_FLUSH discards the open items of the queue, posts each of its QUEUED jobs with a FLUSHED receipt in queue
order and, with ABORT, ends or marks its GRANTED, RUNNING and WAITING jobs; INFO counts all three (R283, R284, R286).
RES_READ gives whole unread entries from RD on, up to MAXENT and 4,096 bytes, RES_MARK saves RD, RES_REWIND restores
it and RES_RELEASE frees the oldest read entries (R289, R290). A port that does not own the queue or ring is DENIED
(R450); a reserved bit, a disabled ring, a rewind without a mark and a release beyond the read entries are RANGE
(R283, R289). INFO 0 where R440 states none is the model's reading (log entry 69). -/
def Obligations.FlushAndRings : Prop :=
  ∀ (s : State) (f : Frame) (q r : Nat), s.canon = true → s.jobsOk = true → q < 64 → r < 32 →
    let p := f.port.val
    let e := s.hostEdge f.port
    let g := e.ring r
    let due := e.jobs.filter fun j => j.queue == q && j.state == .queued && j.ringNo == r
    (∀ abort : Bool, Accepts s 0x34 f → f.arg = BitVec.ofNat 32 (q + 256 * abort.toNat) → e.queueOwner q = some p →
      Serves (if abort then .queueFlushAbort f else .queueFlush f) 0x34 f s fun _ x u =>
        let added := (u.ring r).entries.drop g.entries.length
        (∀ j ∈ u.jobs, j.queue = q → j.state ≠ .queued)
        ∧ (u.ring r).entries.take g.entries.length = g.entries
        ∧ (added.take due.length).map (fun y => leNat (y.take 4)) = due.map (fun j => j.cookie + 2 ^ 24 * 0x0D)
        ∧ (∀ y ∈ added.take due.length, bitsOf (leNat ((y.drop 4).take 4)) 24 2 = 3 ∧ leNat ((y.drop 8).take 4) = e.ntUs.toNat)
        ∧ (abort = false → added.length = due.length)
        ∧ (∀ y ∈ added.drop due.length, bitsOf (leNat (y.take 4)) 24 8 = 0x0E ∧ y.length = 16
            ∧ bitsOf (leNat ((y.drop 4).take 4)) 24 2 = 3)
        ∧ (∀ k ∈ e.openPorts q, (u.pt k).openItem = none ∧ (u.pt k).discard = some stFlushed)
        ∧ (abort = true → ∀ j ∈ e.abortable q, (∀ k : Port, (e.pt k.val).openItem ≠ some j.id) → ∃ k, u.job? j.id = some k
            ∧ (k.state = .posted ∨ k.ended.isSome = true ∨ k.marked = some rcAborted))
        ∧ x = ansInfo (e.depth q % 2 ^ 14 + 2 ^ 16 * (e.openPorts q).length
            + 2 ^ 24 * min 15 (if abort then (e.abortable q).length else 0)))
    ∧ (Accepts s 0x34 f → getBits f.arg 0 6 = q → ∀ i ∈ [Instr.queueFlush f, .queueFlushAbort f],
      (e.queueOwner q ≠ some p → Serves i 0x34 f s fun m x u => x = ans stDenied ∧ Noted p 0x34 0 m u)
      ∧ (e.queueOwner q = some p → f.arg &&& 0xFFFFFEC0 ≠ 0 → Serves i 0x34 f s fun m x u => x = ans stRange ∧ u = m))
    ∧ (e.ringOwner r = some p → e.isOn (R.RES_CFG_EN r) = true →
      (∀ limit, limit < 256 → Accepts s 0x38 f → f.arg = BitVec.ofNat 32 (r + 256 * limit) →
        let unread := g.entries.drop g.rd
        Serves (.resRead f) 0x38 f s fun m x u => ∃ n, n ≤ unread.length
          ∧ x = { info := BitVec.ofNat 32 (n + 2 ^ 16 * (unread.length - n)), payload := (unread.take n).flatten }
          ∧ x.payload.length ≤ 4096 ∧ (limit ≠ 0 → n ≤ limit)
          ∧ (n = unread.length ∨ (limit ≠ 0 ∧ n = limit) ∨ 4096 < (unread.take (n + 1)).flatten.length)
          ∧ { u with rings := m.rings } = m ∧ u.ring r = { g with rd := g.rd + n } ∧ ∀ k, k ≠ r → u.ring k = m.ring k)
      ∧ (Accepts s 0x39 f → f.arg = BitVec.ofNat 32 r → Serves (.resMark f) 0x39 f s fun m x u => x = {}
          ∧ { u with rings := m.rings } = m ∧ u.ring r = { g with mark := some g.rd } ∧ ∀ k, k ≠ r → u.ring k = m.ring k)
      ∧ (Accepts s 0x3A f → f.arg = BitVec.ofNat 32 r →
        (∀ k, g.mark = some k → Serves (.resRewind f) 0x3A f s fun m x u => x = {} ∧ { u with rings := m.rings } = m
          ∧ u.ring r = { g with rd := k } ∧ ∀ k, k ≠ r → u.ring k = m.ring k)
        ∧ (g.mark = none → Serves (.resRewind f) 0x3A f s fun m x u => x = ans stRange ∧ u = m))
      ∧ (∀ count, count < 2 ^ 16 → Accepts s 0x3B f → f.arg = BitVec.ofNat 32 (r + 2 ^ 16 * count) →
        let k := if count = 0 then g.rd else count
        (k ≤ g.rd → Serves (.resRelease f) 0x3B f s fun m x u => x = {} ∧ { u with rings := m.rings } = m
          ∧ (u.ring r).entries = g.entries.drop k ∧ (u.ring r).rd = g.rd - k ∧ (u.ring r).resv = g.resv
          ∧ (∀ i, g.mark = some i → (u.ring r).mark = if i < k then none else some (i - k))
          ∧ ∀ i, i ≠ r → u.ring i = m.ring i)
        ∧ (g.rd < k → Serves (.resRelease f) 0x3B f s fun m x u => x = ans stRange ∧ u = m)))
    ∧ ∀ i opc (spare : Word), (i, opc, spare) ∈ [(Instr.resRead f, (0x38 : Byte), 0xFFFF00E0), (.resMark f, 0x39, 0xFFFFFFE0),
        (.resRewind f, 0x3A, 0xFFFFFFE0), (.resRelease f, 0x3B, 0x0000FFE0)] → Accepts s opc f → getBits f.arg 0 5 = r →
      (e.ringOwner r ≠ some p → Serves i opc f s fun m x u => x = ans stDenied ∧ Noted p opc.toNat 0 m u)
      ∧ (e.ringOwner r = some p → e.isOn (R.RES_CFG_EN r) = false ∨ f.arg &&& spare ≠ 0 →
        Serves i opc f s fun m x u => x = ans stRange ∧ u = m)

/-- TIME_SET: NOW and OFFSET step NT and end in SET with the uncertainty given, AT_SYNCI arms, DISARM disarms, and a
result that would wrap ends RANGE (R333, R338, R340, R341). INFO 0 where R440 states none is the model's reading (log
entry 69). -/
def Obligations.TimeFrames : Prop :=
  ∀ (s : State) (f : Frame) (v : BitVec 64) (unc : Word), s.canon = true → Accepts s 0x50 f →
    bodyOf f = leBytes 8 v.toNat ++ leBytes 4 unc.toNat ++ [0, 0, 0, 0] →
    let e := s.hostEdge f.port
    let before : Answer := { payload := leBytes 8 e.time.nt.toNat }
    let stepped (m u : State) : Prop := u.time.q = .set ∧ u.time.unc = unc.toNat ∧ u.time.ambig = false
      ∧ u.time.poor = decide (e.time.uncMax < unc.toNat) ∧ u.rd R.TIME_STAT_STEPPED = 1 ∧ Counts R.TIME_CNT_1_N_STEP m u
    (f.arg = 0 → Serves (.timeSetNow f) 0x50 f s fun m x u => x = before ∧ u.time.nt = v ∧ u.time.frac = 0 ∧ stepped m u)
    ∧ (f.arg = 1 → Serves (.timeSetAtSynci f) 0x50 f s fun m x u => x = {}
        ∧ u = { m with time := { m.time with armed := some (v, unc) } })
    ∧ (f.arg = 2 → 0 ≤ (e.time.nt.toNat : Int) + v.toInt → (e.time.nt.toNat : Int) + v.toInt < 2 ^ 64 →
        Serves (.timeSetOffset f) 0x50 f s fun m x u => x = before ∧ (u.time.nt.toNat : Int) = e.time.nt.toNat + v.toInt
          ∧ u.time.frac = e.time.frac ∧ stepped m u)
    ∧ (f.arg = 2 → (e.time.nt.toNat : Int) + v.toInt < 0 ∨ 2 ^ 64 ≤ (e.time.nt.toNat : Int) + v.toInt →
        Serves (.timeSetOffset f) 0x50 f s fun m x u => x = ans stRange ∧ u = m)
    ∧ (f.arg = 3 → Serves (.timeSetDisarm f) 0x50 f s fun m x u => x = {} ∧ u = { m with time := { m.time with armed := none } })

/-- POWER: a target that may be asked for is accepted; the agents are asked in order, each answers as the table of R398
gives, and the first that does not answer ACK keeps the entry waiting or refuses it, and when all do the target is entered; OFF without PIN and WATCH
without a list end RANGE, and a second entry BUSY (R396 to R400). That a FAULT without a holder makes the entry wait, and INFO 0 of a
refused frame, are the model's reading (log entries 40 and 69). -/
def Obligations.PowerFrames : Prop :=
  ∀ (s : State) (f : Frame) (drain : Bool), s.canon = true → Accepts s 0x60 f → bodyOf f = [] →
    let e := s.hostEdge f.port
    ∀ i t, (i, t) ∈ [(Instr.powerIdle f, PwrState.idle), (.powerSleep f, .sleep), (.powerWatch f, .watch), (.powerDeep f, .deep),
        (.powerOff f, .off)] → f.arg = BitVec.ofNat 32 (t.code + 256 * drain.toNat) →
      let want : Entry := { target := t, drain := drain, agent := 0 }
      let may : Prop := (t = .watch → e.watchReady = true) ∧ (t = .off → e.isOn R.PWR_WAKEEN_PIN = true)
      let holds (k : Nat) : Bool := e.maint.any fun m => m.running && bitOf m.mask.toNat k
      let jobs := e.jobs.any fun j => j.state != .posted
      let journal := e.emu.jpend && e.isOn R.EMU_CTL_JEN
      let span := if e.isOn R.TIME_LPO_SRC then e.time.spanR else e.time.spanX
      let fresh : Prop := ∃ y ∈ span, (e.time.nt - y).toNat ≤ 1000000000
      let flash : Prop := e.flash.op ≠ none ∨ e.flash.win ≠ none ∨ e.flash.cmd ≠ none ∨ e.flash.filling ≠ none ∨ e.emu.jwrite ≠ none
      let answers (k : Nat) (x : AgentAns) : Prop :=
        (k < 8 → x = if e.listenHolds k then .refuse 3
          else if drain = false ∧ (e.jobOn k).isSome = true then .refuse 1
          else if drain = false ∧ holds k = true then .refuse 5
          else if (e.ch k).field = .off ∧ e.jobOn k = none ∧ holds k = false then .ack else .wait)
        ∧ (k = 8 → (x = .ack ↔ e.cry.queue = [] ∧ e.cry.ecc = none ∧ e.cry.aes = none ∧ e.cry.cmd = none) ∧ (x = .ack ∨ x = .wait))
        ∧ (k = 9 → (x = .ack ↔ e.syn.state = .locked ∨ e.syn.state = .lost) ∧ (x = .ack ∨ x = .wait))
        ∧ (k = 10 → (e.emu.arb ≠ .free → x = .refuse 4)
          ∧ (e.emu.arb = .free → t = .idle → drain = false → jobs = true → x = .refuse 2)
          ∧ (e.emu.arb = .free → t = .off → drain = false → journal = true → x = .refuse 6)
          ∧ (x = .ack ↔ e.emu.arb = .free ∧ (∀ q : Port, (e.pt q.val).held = []) ∧ ¬ flash
            ∧ (t = .sleep ∨ t = .watch ∨ t = .deep → fresh) ∧ (t = .idle → jobs = false) ∧ (t = .off → journal = false)))
        ∧ (k = 11 → x = .ack)
      (∀ k, answers k (e.agentAnswer want k)) ∧
      (may → e.pwr.entry = none → Serves i 0x60 f s fun m x u => x = {} ∧ u.rd R.PWR_STAT_TARGET = t.code ∧
        match (agentsOf t).find? fun k => e.agentAnswer want k != .ack with
        | none => u.pwr.state = t ∧ u.pwr.entry = none ∧ Counts R.PWR_CNT_0_N_ENTRY m u
        | some k => match e.agentAnswer want k with
          | .refuse r => u.pwr.state = e.pwr.state ∧ u.pwr.entry = none ∧ u.rd R.PWR_STAT_REFUSE = r ∧ u.rd R.PWR_STAT_RDOM = k
              ∧ Counts R.PWR_CNT_0_N_REFUSE m u
          | _ => u.pwr.state = e.pwr.state ∧ u.pwr.entry = some { want with agent := k })
      ∧ (¬ may → Serves i 0x60 f s fun m x u => x = ans stRange ∧ u = m)
      ∧ (may → e.pwr.entry ≠ none → Serves i 0x60 f s fun m x u => x = ans stBusy ∧ u = m)

/-- RESET: a WARM reset leaves every field OFF, every sequencer idle and its FIFOs empty, ends every job past
admission, gives each port the null reply and BOOT, and adds its bit to the causes; a SYSTEM reset leaves its own cause alone and
every other register at the reset value, and the flash as it was, unless it cuts the program of an image's header (R437, R459
to R463, R479). Details of lost jobs and of the frames that wait are the model's choice (log entries 65 and 101), and
INFO 0 of a refused frame its reading (log entry 69). -/
def Obligations.ResetFrames : Prop :=
  ∀ (s : State) (f : Frame), s.canon = true → s.jobsOk = true → Accepts s 0x70 f →
    let p := f.port.val
    let e := s.hostEdge f.port
    (f.arg = 0 → Leads (.resetWarm f) s fun t =>
        t.rdWord R.SYS_RSTCAUSE = (e.rdWord R.SYS_RSTCAUSE &&& 0xFFFFFCFF) ||| BitVec.ofNat 32 (2 ^ 4 + 2 ^ 8 * p)
        ∧ Counts R.SYS_RSTCNT_N_WARM e t ∧ t.boot = .started ∧ t.cry = {} ∧ t.mergeQ = [] ∧ t.pwr.entry = none
        ∧ (∀ n : Ch, (t.ch n.val).field = .off ∧ (t.ch n.val).seq = {} ∧ (t.ch n.val).inv = {}
            ∧ (t.ch n.val).txf = {} ∧ (t.ch n.val).rxf = {})
        ∧ (∀ j ∈ t.jobs, j.state.holds = false)
        ∧ (∀ q : Port, (t.pt q.val).cached = {} ∧ (t.pt q.val).carried = {} ∧ (t.pt q.val).discard = none
            ∧ bitOf (t.pend q.val) 17 = true)
        ∧ (t.pt p).lastSeq = seqOf f.tag ∧ t.pmb.vtxen = false ∧ t.pmb.holdLow = e.isOn R.PMB_CTL_EN)
    ∧ (f.arg = 1 → Leads (.resetSystem f) s fun t => (∀ a, a ≠ R.SYS_RSTCAUSE → t.rdWord a = resetWord a)
        ∧ t.rdWord R.SYS_RSTCAUSE = BitVec.ofNat 32 (2 ^ 3 + 2 ^ 8 * p) ∧ t.sram = [] ∧ t.jobs = [] ∧ t.chans = State.reset.chans
        ∧ (headersSafe s → t.flash.mem = s.flash.mem)
        ∧ t.boot = (if s.vinOk && s.vddioOk && s.resetN then .crystal else .held))
    ∧ (2 ≤ f.arg.toNat → ∀ i ∈ [Instr.resetWarm f, .resetSystem f], Serves i 0x70 f s fun m x u => x = ans stRange ∧ u = m)

/-- The flash operations: FL_INFO answers, erase, program, CRC, image check and deep power-down start as an operation,
abort stops it after its command, and the software reset ends what the flash does (R470 to R472). The order of the
checks is the model's reading (log entry 64). -/
def Obligations.FlashFrames : Prop :=
  ∀ (s : State) (f : Frame) (off n : Nat), s.canon = true →
    let e := s.hostEdge f.port
    let b := bodyOf f
    (Accepts s 0x80 f → f.arg = 0 → e.flash.op = none → Serves (.flInfo f) 0x80 f s fun m x u =>
        x = { payload := e.infoBytes } ∧ u = { m with flash := { m.flash with asleep := false } })
    ∧ (Accepts s 0x81 f → off < 4096 → 0 < n → n ≤ 4096 → f.arg = BitVec.ofNat 32 (off + 2 ^ 12 * (n - 1)) →
        4096 * (off + n) ≤ e.density → e.flashBarred (4096 * off) (4096 * n) = false → e.flash.op = none →
        e.codeLatched 2 (4096 * off) (4096 * n) = false →
        Serves (.flErase f) 0x81 f s (StartsOp { opc := 1, port := f.port, off := 4096 * off, left := n }))
    ∧ (Accepts s 0x82 f → off < 2 ^ 24 → f.arg = BitVec.ofNat 32 off → b ≠ [] → b.length ≤ 4096 → off + b.length ≤ e.density →
        e.flashBarred off b.length = false → e.flash.op = none →
        Serves (.flProgram f) 0x82 f s (StartsOp { opc := 2, port := f.port, off := off, left := b.length, data := b }))
    ∧ (Accepts s 0x83 f → off < 2 ^ 24 → f.arg = BitVec.ofNat 32 off → 4 ≤ b.length → leNat (b.take 4) = n → 0 < n →
        n ≤ 2 ^ 24 → off + n ≤ e.density → e.flash.op = none →
        Serves (.flCrc f) 0x83 f s (StartsOp { opc := 3, port := f.port, off := off, left := n }))
    ∧ (Accepts s 0x84 f → n < 2 → f.arg = BitVec.ofNat 32 n → e.flash.op = none →
        Serves (.imgCheck f) 0x84 f s (StartsOp { opc := 4, port := f.port, off := 0, left := n }))
    ∧ (∀ o, Accepts s 0x85 f → f.arg = 0 → e.flash.op = some o → Serves (.flAbort f) 0x85 f s fun m x u => x = ans stOk
        ∧ u = { m with flash := { m.flash with op := some { o with err := if o.err = 0 then 3 else o.err } } })
    ∧ (Accepts s 0x86 f → f.arg = 0 → e.flash.op = none →
        Serves (.flSleep f) 0x86 f s (StartsOp { opc := 6, port := f.port, off := 0, left := 0 }))
    ∧ (Accepts s 0x87 f → f.arg = 0 → e.isOn R.FLASH_GEOM_SRST = true → e.flash.op = none →
        Serves (.flReset f) 0x87 f s fun m x u => x = ans stOk ∧ u = { m with flash := { m.flash with asleep := false } })

/-- The flash goes on: after the power-up wait the device starts up, with what discovery found and BOOT the one pending notice,
unless the flash still reports write-in-progress; a status poll sends the next erase or program once WEL is set, ends the unit
when write-in-progress clears, and stops the operation with ERR 1 past its limit; a window write waits for a record of the
journal that is due; the end of an operation sets DONE, gives its result and its notice; the routine cache fills one line at a
time, and not during write-in-progress (R251, R252, R460, R464, R467, R469 to R472). -/
def Obligations.FlashEvents : Prop :=
  ∀ (s : State) (d : FlashDisc) (sr : Byte) (ms : Nat) (o : FlashOp), s.canon = true →
    let awake : Prop := (s.pwr.state = .run ∨ s.pwr.state = .idle) ∧ s.boot ≠ .held
    (s.boot = .flashWait → s.thermHold = false → s.bootDisc = none →
      (s.flash.cmd = none → Leads (.flashPowerupWaitEnd d) s fun t => t.boot = .started
        ∧ t.rd R.SYS_BOOT_READY = 1 ∧ (∀ p : Port, t.pend p.val = 2 ^ 17)
        ∧ (∀ a, 0x180000 ≤ a → a < 0x200000 → t.sb a = 0)
        ∧ t.rd R.FLASH_ID_JEDEC = d.jedec.toNat
        ∧ (t.rd R.FLASH_GEOM_DISC_OK = 1 ↔ d.sfdp = true ∧ d.erase4k.isSome = true ∧ d.addr4 = false)
        ∧ (d.sfdp = false ∨ d.erase4k = none ∨ d.addr4 = true → t.rd R.FLASH_GEOM_DENS_LOG2 = 20 ∧ t.rd R.FLASH_GEOM_PAGE_LOG2 = 8))
      ∧ (s.flash.cmd ≠ none → exec (.flashPowerupWaitEnd d) s = .next { s with bootDisc := some d }))
    ∧ (awake → s.flash.filling = none → ∀ off n, s.flash.cmd = some (off, n) → s.flash.op = some o → o.busy = true →
      bitOf sr.toNat 0 = true → (o.opc = 1 → s.rd R.FLASH_TMO_SE_MAX_MS ≤ ms) → (o.opc = 2 → s.rd R.FLASH_TMO_PP_MAX_MS ≤ ms) →
      o.opc = 1 ∨ o.opc = 2 → Leads (.flashStatusPoll sr ms) s fun t => t.flash.op = some { o with busy := false, err := 1 }
        ∧ t.flash.cmd = some (off, n) ∧ t.rd R.FLASH_STAT_SR = sr.toNat)
    ∧ (awake → s.bootDisc = none → s.flash.filling = none → s.flash.op = none → s.flash.cmd = none → s.emu.jwrite = none →
      ∀ w x rest, s.flash.win = some w → w.runs = x :: rest → bitOf sr.toNat 0 = false → bitOf sr.toNat 1 = true →
      (s.isOn R.EMU_CTL_JEN = true → s.emu.jpend = true → s.emu.jstop = false → s.pwr.state = .run → s.pwr.domOn.getLsbD 10 = true →
        s.up = true → exec (.flashStatusPoll sr ms) s = .next (s.wr R.FLASH_STAT_SR sr.toNat))
      ∧ (s.isOn R.EMU_CTL_JEN = false ∨ s.emu.jpend = false ∨ s.emu.jstop = true →
        Leads (.flashStatusPoll sr ms) s fun t => t.flash.win = some { w with busy := true } ∧ t.flash.cmd = some (x.off, x.data.length)
          ∧ ∀ a, t.fb a = if x.off ≤ a ∧ a < x.off + x.data.length then s.fb a &&& x.data.getD (a - x.off) 0 else s.fb a))
    ∧ (s.pwr.state = .run ∨ s.pwr.state = .idle → s.boot ≠ .held → s.flash.filling = none → s.flash.op = some o →
      (s.flash.cmd = none → o.left ≠ 0 → o.err = 0 → bitOf sr.toNat 0 = false → bitOf sr.toNat 1 = true →
        (o.opc = 1 → Leads (.flashStatusPoll sr ms) s fun t => t.flash.op = some { o with busy := true }
          ∧ t.flash.cmd = some (o.off, 4096) ∧ ∀ a, t.fb a = if o.off ≤ a ∧ a < o.off + 4096 then 0xFF else s.fb a)
        ∧ (o.opc = 2 → Leads (.flashStatusPoll sr ms) s fun t =>
          let k := (o.data.take (s.pageSize - o.off % s.pageSize)).length
          t.flash.op = some { o with busy := true } ∧ t.flash.cmd = some (o.off, k)
          ∧ ∀ a, t.fb a = if o.off ≤ a ∧ a < o.off + k then s.fb a &&& o.data.getD (a - o.off) 0 else s.fb a))
      ∧ (∀ n, s.flash.cmd = some (o.off, n) → o.busy = true → bitOf sr.toNat 0 = false → s.flash.fills = [] →
        Leads (.flashStatusPoll sr ms) s fun t => t.flash.cmd = none ∧ t.flash.op = some { o with
            busy := false, done := o.done + 1, off := o.off + n, left := o.left - (if o.opc = 1 then 1 else n)
            data := o.data.drop n }
          ∧ Counts (if o.opc = 1 then R.FLASH_CNT_N_SECTOR else R.FLASH_CNT_N_PAGE) s t))
    ∧ (s.flash.op = some o → (o.opc = 1 ∨ o.opc = 2 → o.busy = false ∧ o.left = 0) →
      (o.opc ≠ 1 → o.opc ≠ 2 → s.flash.cmd = none) → o.err = 0 →
      Leads .flashOpDone s fun t => t.flash.op = none ∧ t.rd R.FLASH_STAT_DONE = 1 ∧ bitOf (t.pend o.port.val) 16 = true
        ∧ (o.opc = 1 ∨ o.opc = 2 → t.rd R.FLASH_RES_RES = o.done % 2 ^ 32)
        ∧ (o.opc = 3 → t.rdWord R.FLASH_RES = crc32 (s.fbytes o.off o.left))
        ∧ (o.opc = 6 → t.flash.asleep = true))
    ∧ (∀ (n : Ch) (j : Job), let q := (s.ch n.val).seq
      let line := (j.decl.addr + 2 * q.pc.toNat) / 32
      s.runsOn n.val = some j → j.decl.src = 2 → q.pc.toNat < j.decl.ninst → (s.flash.cache.all fun x => x.line != line) = true →
      s.flash.filling = none → s.flash.fills = [] →
      (s.flash.cmd = none → Leads (.routineCacheFill n) s fun t => t.flash.filling = some (n, line)
        ∧ (t.ch n.val).seq.run = .blocked .fetch ∧ Counts R.CSQ_CCNT_N_MISS s t)
      ∧ (s.flash.cmd ≠ none → Leads (.routineCacheFill n) s fun t => t.flash.filling = none ∧ t.flash.fills = [(n, line)]
        ∧ Counts R.CSQ_CCNT_N_FWAIT s t))
    ∧ (∀ (n : Ch) (l : Nat), s.flash.filling = some (n, l) → (s.ch n.val).seq.run = .blocked .fetch →
      Leads .cacheFillDone s fun t => (t.ch n.val).seq.run = .run
        ∧ (s.flash.invPend = false → ⟨l, s.fbytes (32 * l) 32⟩ ∈ t.flash.cache) ∧ (s.flash.invPend = true → t.flash.cache = []))

/-- Writes of PROT, BEAT_US, RATE, CHn_ANT, CHn_WSDATA, RECAL and IQCAL: the words of the protection table take
effect, a port hands over OWNER and keeps OPERATOR, but may not leave the device without one; the commit holds from
then on; a position request waits for the bus; the shaping index moves on; calibrations are queued once (R9, R46, R48,
R61, R67, R85, R330, R451 to R453). That BEAT_US acts at once outside RUN, and that a position request is taken in any state
of the field, are the model's choice (log entries 62 and 75), and so is that a calibration which runs serves a new request
(log entry 129). -/
def Obligations.ControlWrites : Prop :=
  ∀ (s : State) (p : Port) (n : Ch), s.canon = true →
    let e := s.hostEdge p
    (∀ (ofs : BitVec 8) (w : Word) (r : RegRow), let a := 0x400 + ofs.toNat
      MayWrite s p a w → rowAt a = some r → r.rw ≠ 0 →
      ((∀ q : Port, a = R.PROT_PCFG q.val → (getBits w 0 2 = 2 ↔ q = p)) → Writes (.protWrite p ofs w) s p a w fun m u =>
        u.rdWord a = r.stored e.committed (e.rdWord a) w ∧ RegsOnly (a :: (List.range 4).map R.HOST_NPEND) m u
        ∧ (u.rdWord a ≠ e.rdWord a → a ∈ protTable → ∀ q : Port, bitOf (u.pend q.val) 18 = true))
      ∧ (∀ q : Port, q ≠ p → a = R.PROT_PCFG q.val → getBits w 0 2 = 2 → Writes (.protWrite p ofs w) s p a w fun _ u =>
        u.priv q.val = 2 ∧ u.priv p.val = 1)
      ∧ (a = R.PROT_PCFG p.val → getBits w 0 2 ≠ 2 →
        Serves (.protWrite p ofs w) 0x11 (s.nextFrame p 0x11 (BitVec.ofNat 32 a) (leBytes 4 w.toNat)) s fun m x u =>
          x = firstWord stRange [] ∧ u = m))
    ∧ (MayWrite s p R.PROT_CTL 1 → Writes (.protCommit p) s p R.PROT_CTL 1 fun _ u => u.committed = true
        ∧ (e.committed = false → ∀ q : Port, bitOf (u.pend q.val) 18 = true))
    ∧ (∀ us : BitVec 12, let w := s.fieldWord R.TIME_BEAT_BEAT_US us.toNat
      MayWrite s p R.TIME_BEAT w → Writes (.beatUsWrite p us) s p R.TIME_BEAT w fun m u => u.rd R.TIME_BEAT_BEAT_US = us.toNat
        ∧ u.time.beatUs = if m.pwr.state = .run then m.time.beatUs else us.toNat)
    ∧ (∀ rate : Word, MayWrite s p R.TIME_RATE rate → Writes (.timeRateWrite p rate) s p R.TIME_RATE rate fun m u =>
        u.rdWord R.TIME_RATE = rate ∧ RegsOnly [R.TIME_RATE] m u)
    ∧ (∀ (pos : BitVec 3) (en : Bool), let w : Word := BitVec.ofNat 32 (pos.toNat + 8 * en.toNat)
      MayWrite s p (R.CH_ANT n.val) w → Writes (.chnAntWrite p n pos en) s p (R.CH_ANT n.val) w fun _ u =>
        u.rd (R.CH_ANT_POS n.val) = pos.toNat ∧ u.rd (R.CH_ANT_EN n.val) = en.toNat ∧ (u.ch n.val).antWait = true)
    ∧ (∀ w : Word, MayWrite s p (R.CH_WSDATA n.val) w →
      let k := e.rd (R.CH_WSIDX_IDX n.val)
      let l := (e.ch n.val).shaping
      Writes (.chnWsdataAccess p n (some w)) s p (R.CH_WSDATA n.val) w fun _ u =>
        (u.ch n.val).shaping = l.take k ++ leBytes 4 w.toNat ++ l.drop (k + 4) ∧ u.rd (R.CH_WSIDX_IDX n.val) = (k + 4) % 128)
    ∧ (Hears s p → e.mayReadReg p.val (.ch n.val) (R.CH_WSDATA n.val) = true →
      let k := e.rd (R.CH_WSIDX_IDX n.val)
      Serves (.chnWsdataAccess p n none) 0x10 (s.nextFrame p 0x10 (BitVec.ofNat 32 (R.CH_WSDATA n.val + 2 ^ 16))
        (List.replicate 8 0)) s fun _ x u => u.rd (R.CH_WSIDX_IDX n.val) = (k + 4) % 128
          ∧ x = allWords (leBytes 4 (leNat (((e.ch n.val).shaping.drop k).take 4))))
    ∧ (let w := s.fieldWord R.SYN_CTL_RECAL 1
      MayWrite s p R.SYN_CTL w → Writes (.recal p) s p R.SYN_CTL w fun m u => u.rd R.SYN_CTL_RECAL = 1
        ∧ u.rd R.SYN_CTL_DISC = m.rd R.SYN_CTL_DISC ∧ u.maint = (if m.maint.any fun x => x.kind == .recal && (!x.running || m.syn.state == .cal) then m.maint
          else m.maint ++ [{ kind := .recal, mask := 0, since := m.time.nt }]))
    ∧ (let w := s.fieldWord (R.CH_RXIQCAL_IQCAL n.val) 1
      MayWrite s p (R.CH_RXIQCAL n.val) w → Writes (.iqcal p n) s p (R.CH_RXIQCAL n.val) w fun m u =>
        u.rd (R.CH_RXIQCAL_IQCAL n.val) = 1
        ∧ u.maint = (if m.maint.any fun x => x.kind == .imageCal && bitOf x.mask.toNat n.val then m.maint
          else m.maint ++ [{ kind := .imageCal, mask := BitVec.ofNat 8 (2 ^ n.val), since := m.time.nt }]))

/-- The commands of INV_CMD start and end: FIND answers, FREE empties an entry, LOCK and UNLOCK set LOCK, CLEAR and
CLEAR_ALL empty what they may; the ager frees an old entry; a sighting is merged into its entry as R136 gives, or
into a new one at the lowest free index, or in place of the entry that R140 evicts, or dropped, and INVS returns it with NEW or
DROPPED; a locate ends; they all run in RUN alone (R134 to R140, R144, R210, R233, R387). That FULL clears at an eviction is
the model's choice (log entry 111). -/
def Obligations.TableCommands : Prop :=
  ∀ (s : State) (p : Port) (i : BitVec 14), s.canon = true →
    let a := 32 * i.toNat
    let others (t : State) : Prop := ∀ b, b < a ∨ a + 32 ≤ b → t.sb b = s.sb b
    let quiet : Prop := ∀ n, n < 8 → s.blockOf n = none
    let inQueue : Prop := ∀ j ∈ s.jobs, j.late = []
    let engine : Prop := s.pwr.state = .run ∧ s.pwr.domOn.getLsbD 10 = true
    (∀ c op k, (c, op, k) ∈ [(Instr.find p, (1 : BitVec 4), (0 : BitVec 14)), (.free p i, 2, i), (.lock p i, 3, i), (.unlock p i, 4, i),
        (.clear p, 5, 0), (.clearAll p, 6, 0)] →
      let w : Word := BitVec.ofNat 32 (op.toNat + 2 ^ 16 * k.toNat)
      MayWrite s p R.INV_CMD w → Writes c s p R.INV_CMD w fun m u => u.rd R.INV_CMDSTAT_DONE = 0
        ∧ RegsOnly [R.INV_CMDSTAT] { m with invCmd := some (op, k) } u)
    ∧ (s.pwr.state ≠ .run → ∀ c ∈ [Instr.invCommandDone, .agerVisit i, .merge, .locateDone], exec c s = .next s)
    ∧ (engine → ∀ op, s.invCmd = some (op, i) → Leads .invCommandDone s fun t => t.invCmd = none ∧ t.rd R.INV_CMDSTAT_DONE = 1
        ∧ (op = 1 → (s.invKeyFind = none → t.rd R.INV_CMDSTAT_FOUND = 0)
          ∧ ∀ k, s.invKeyFind = some k → t.rd R.INV_CMDSTAT_FOUND = 1 ∧ t.rd R.INV_CMDSTAT_INDEX = k)
        ∧ (op = 2 → s.tabValid i.toNat = true → t.sbytes a 32 = List.replicate 32 0 ∧ t.rd R.INV_STAT_FULL = 0 ∧ others t)
        ∧ (op = 3 ∨ op = 4 → s.tabValid i.toNat = true → others t
          ∧ t.sbytes a 32 = TabEntry.bytes { s.tab i.toNat with lock := decide (op = 3) })
        ∧ (op = 5 ∨ op = 6 → ∀ k, k < tableSize →
          t.tabValid k = (s.tabValid k && decide (op = 5) && (s.tab k).lock)))
    ∧ (engine → (s.tab i.toNat).valid = true → (s.tab i.toNat).lock = false →
      100 * s.rd (if (s.tab i.toNat).volatile then R.INV_AGE_VOL_AGE else R.INV_AGE_AGE) ≤ s.ageOf (s.tab i.toNat) →
      Leads (.agerVisit i) s fun t => t.sbytes a 32 = List.replicate 32 0 ∧ Counts R.INV_CNT_1_N_AGED s t ∧ others t)
    ∧ (engine → ∀ x rest, s.mergeQ = x :: rest → s.mergesWait = false → inQueue → quiet →
      (s.findTab x = some i.toNat → Leads .merge s fun t => t.mergeQ = rest ∧ Counts R.INV_CNT_0_N_MERGE s t ∧ others t
        ∧ (∃ first, t.sbytes a 32 = (mergedEntry (s.tab i.toNat) x first s.ntMs).bytes
          ∧ (first = true ↔ ∀ n, s.leadOfJob x.job = some n → i.toNat ∉ (s.ch n).inv.sighted))
        ∧ ((∀ k, x.key = some k → k < 1024) →
          let old := s.tab i.toNat
          let new := t.tab i.toNat
          let first : Prop := ∀ n, s.leadOfJob x.job = some n → i.toNat ∉ (s.ch n).inv.sighted
          let here : Prop := old.ch = x.ch.val ∧ old.coil = x.coil.toNat
          let r := min x.rssi 1023
          new.lastMs = s.ntMs ∧ new.firstMs = old.firstMs ∧ new.id = old.id ∧ new.lock = old.lock
          ∧ (first → new.seen = min (old.seen + 1) 255 ∧ (new.ch, new.coil, new.rssi) = (x.ch.val, x.coil.toNat, r)
            ∧ new.multi = false)
          ∧ (¬ first → new.seen = old.seen)
          ∧ (¬ first → here → (new.ch, new.coil, new.rssi, new.multi) = (old.ch, old.coil, max old.rssi r, old.multi))
          ∧ (¬ first → ¬ here → new.multi = true ∧ (new.ch, new.coil, new.rssi) =
            if old.rssi < r then (x.ch.val, x.coil.toNat, r) else (old.ch, old.coil, old.rssi))
          ∧ (x.infoPart = false → new.info = x.info.toNat ∧ new.infoPart = false)
          ∧ (x.infoPart = true → new.info = x.info.toNat / 256 * 256 + old.info % 256 ∧ new.infoPart = old.infoPart)))
      ∧ (s.findTab x = none → lowestFree s.tabUsed 0 = i.toNat → Leads .merge s fun t => t.mergeQ = rest
        ∧ Counts R.INV_CNT_0_N_NEW s t ∧ t.sbytes a 32 = (mergedEntry {} x true s.ntMs).bytes ∧ others t
        ∧ (x.id.length ≤ 10 → (∀ k, x.key = some k → k < 1024) → let new := t.tab i.toNat
          new.valid = true ∧ new.id = x.id ∧ new.proto = x.proto.toNat ∧ new.volatile = x.volatile ∧ new.firstMs = s.ntMs
          ∧ new.lastMs = s.ntMs ∧ new.seen = 1 ∧ new.multi = false ∧ (new.ch, new.coil) = (x.ch.val, x.coil.toNat)
          ∧ new.rssi = min x.rssi 1023))
      ∧ (s.findTab x = none → tableSize ≤ lowestFree s.tabUsed 0 →
        let open' (k : Nat) : Prop := k < tableSize ∧ s.tabValid k = true ∧ (s.tab k).lock = false
          ∧ ∀ n : Ch, k ∉ (s.ch n.val).inv.sighted
        let old (k : Nat) : Prop := open' k ∧ ((s.tab k).volatile = true ∨ ∀ m, open' m → (s.tab m).volatile = false)
        (old i.toNat → (∀ m, old m → s.ageOf (s.tab m) < s.ageOf (s.tab i.toNat)
            ∨ s.ageOf (s.tab m) = s.ageOf (s.tab i.toNat) ∧ i.toNat ≤ m) →
          Leads .merge s fun t => t.mergeQ = rest ∧ Counts R.INV_CNT_1_N_EVICT s t ∧ Counts R.INV_CNT_0_N_NEW s t
            ∧ t.sbytes a 32 = (mergedEntry {} x true s.ntMs).bytes ∧ others t)
        ∧ ((∀ k, ¬ open' k) → Leads .merge s fun t => t.mergeQ = rest ∧ Counts R.INV_CNT_2_N_DROP s t
          ∧ t.rd R.INV_STAT_FULL = 1 ∧ t.sram = s.sram))
      ∧ (s.findTab x = none → tableSize ≤ lowestFree s.tabUsed 0 → s.victim = none → Leads .merge s fun t => t.mergeQ = rest
        ∧ Counts R.INV_CNT_2_N_DROP s t ∧ t.rd R.INV_STAT_FULL = 1 ∧ t.sram = s.sram))
    ∧ (engine → ∀ x rest n rd, s.mergeQ = x :: rest → s.mergesWait = false → inQueue → s.leadOfJob x.job = some n → n < 8 → x.cry = none →
      x.handle = none → x.asked = true →
      (s.ch n).inv.waiting = true → s.blockOf n = some (.invs rd) → (∀ m, m < 8 → m ≠ n → s.blockOf m = none) →
      let returns (w : Nat) : Prop := Leads .merge s fun t => (t.ch n).seq.run = .run ∧ (t.ch n).inv.waiting = false
        ∧ (t.ch n).seq.getG rd = BitVec.ofNat 32 w ∧ (t.ch n).seq.fz = false
      (s.findTab x = some i.toNat → returns (2 ^ 28 + i.toNat))
      ∧ (s.findTab x = none → lowestFree s.tabUsed 0 = i.toNat → returns (2 ^ 28 + 2 ^ 14 + i.toNat))
      ∧ (s.findTab x = none → tableSize ≤ lowestFree s.tabUsed 0 → s.victim = none → returns (2 ^ 28 + 2 ^ 15)))
    ∧ (engine → ∀ q b0 b1 c, s.locQ = [q] → q.cfg = some (b0, b1, c) → q.entry.isSome = true ∨ s.locAlive q.serial = false → quiet →
      Leads .locateDone s fun t => t.locQ = [] ∧ (Counts R.SWARM_CNT_0_N_LOCFAIL s t ∨ Counts R.SWARM_CNT_0_N_LOC s t
        ∨ (q.entry.getD none = none ∧ Counts R.SWARM_CNT_1_N_LOCSKIP s t)))

/-- The commands of CRY_CMD start and end: a key is validated by its checks or loses its bit, ZERO_AES clears the
group keys; the ECDSA unit writes the outcome into the entry, or discards it when the entry is gone; the AES unit
hands its sighting to the merge unit; an idle PD_CRY switches off (R141, R148, R155, R163, R166 to R168, R181, R394).
ERR of a key descriptor with a reserved bit is the model's choice (log entry 93). -/
def Obligations.KeyCommands : Prop :=
  ∀ (s : State) (p : Port) (k : BitVec 5), s.canon = true →
    let valid (t : State) (j : Nat) : Bool := bitOf (t.rd R.CRY_PKVALID_VALID) j
    let quiet : Prop := ∀ n, n < 8 → s.blockOf n = none
    (∀ c op x, (c, op, x) ∈ [(Instr.validate p k, (1 : BitVec 4), k), (.invalidate p k, 2, k), (.validateAll p, 3, (0 : BitVec 5)),
        (.zeroAes p, 4, 0)] →
      let w : Word := BitVec.ofNat 32 (op.toNat + 2 ^ 8 * x.toNat)
      MayWrite s p R.CRY_CMD w → Writes c s p R.CRY_CMD w fun _ u => u.rd R.CRY_CMDSTAT_DONE = 0 ∧ u.cry.cmd = some (op, x)
        ∧ u.pwr.domOn.getLsbD 8 = true)
    ∧ (∀ op, s.cry.cmd = some (op, k) → (op = 4 → s.cry.aes = none) → (op = 1 ∨ op = 3 → s.cry.ecc = none) →
      Leads .cryCommandDone s fun t => t.cry.cmd = none
        ∧ t.rd R.CRY_CMDSTAT_DONE = 1
        ∧ (op = 1 → t.rd R.CRY_CMDSTAT_ERR = s.keyCheck k.toNat
          ∧ ∀ j, j < 32 → valid t j = (valid s j || decide (j = k.toNat ∧ s.keyCheck j = 0)))
        ∧ (op = 2 → ∀ j, j < 32 → valid t j = (valid s j && decide (j ≠ k.toNat)))
        ∧ (op = 3 → ∀ j, j < 32 → valid t j = (valid s j || decide (s.keyCheck j = 0)))
        ∧ (op = 4 → t.rd R.CRY_PRIV_NKEYS = 0 ∧ (∀ a, 0x160000 ≤ a → a < 0x164000 → t.sb a = 0)
          ∧ ∀ a, a < 0x160000 ∨ 0x164000 ≤ a → t.sb a = s.sb a))
    ∧ (∀ r lat, s.cry.ecc = some r → quiet →
      (r.dead = true → Leads (.ecdsaDone lat) s fun t => Counts R.INV_CNT_2_N_CRYLATE s t ∧ t.sram = s.sram)
      ∧ (r.dead = false → r.keyIdx = none → Leads (.ecdsaDone lat) s fun t => Counts R.CRY_CNT_2_N_NOKEY s t
        ∧ t.sbytes (32 * r.entry) 32 = TabEntry.bytes { s.tab r.entry with sigOk := false, sigBad := false, pkIdx := 0 })
      ∧ (∀ j, r.dead = false → r.keyIdx = some j → Leads (.ecdsaDone lat) s fun t =>
        let good := r.verifies (s.tab r.entry).id
        Counts (if good then R.CRY_CNT_0_N_SIGOK else R.CRY_CNT_0_N_SIGBAD) s t
        ∧ t.sbytes (32 * r.entry) 32 = TabEntry.bytes { s.tab r.entry with sigOk := good, sigBad := !good, pkIdx := j }))
    ∧ (∀ r x lat, s.cry.aes = some r → r.held = some x → s.mergeQ.length < 64 → quiet → (∀ q : Port, (s.pt q.val).held = []) →
      (searchToken r.data 0 s.cry.aesKeys = none → Leads (.privacySearchDone lat) s fun t => Counts R.CRY_CNT_1_N_UNRES s t
        ∧ t.mergeQ = s.mergeQ ++ [{ x with volatile := true, cry := some false }])
      ∧ (∀ j pt, searchToken r.data 0 s.cry.aesKeys = some (j, pt) → Leads (.privacySearchDone lat) s fun t =>
        Counts R.CRY_CNT_1_N_RES s t ∧ ∃ y, t.mergeQ = s.mergeQ ++ [y] ∧ y.volatile = false ∧ y.key = some j
          ∧ y.cry = some true ∧ y.id = pt.take ((pt.getD 10 0).toNat % 16)))
    ∧ (s.cry.queue = [] → s.cry.ecc = none → s.cry.aes = none → s.cry.cmd = none →
      exec .pdCryPowerOff s = .next { s with pwr := { s.pwr with domOn := s.pwr.domOn &&& 0xEFF } })

/-- Coupling measurements and self-tests are queued and end with their results; a query shows the declarations of
R248; the routine cache drops its lines; WM_HIT clears with its count; a lower quota sets OVER; SWAP sets the change
time of R349, and CANCEL takes it away (R199 to R201, R252, R259, R281, R310, R349, R351, R484). The rounding of a
coupling matrix is the model's choice (log entry 47). -/
def Obligations.UnitCommands : Prop :=
  ∀ (s : State) (p : Port), s.canon = true →
    let e := s.hostEdge p
    (∀ (g : BitVec 2) (slot : BitVec 3) (mw : BitVec 12),
      let w : Word := BitVec.ofNat 32 (1 + 2 ^ 4 * g.toNat + 2 ^ 8 * slot.toNat + 2 ^ 16 * mw.toNat)
      let mask := BitVec.ofNat 8 (e.rd (R.SWARM_GCFG_MEMBERS g.toNat))
      MayWrite s p R.SWARM_CMD w → Writes (.measure p g slot mw) s p R.SWARM_CMD w fun m u =>
        if e.isOn (R.SWARM_GCFG_GEN g.toNat) = true ∧ 2 ≤ popcount8 mask.toNat then
          u.maint = m.maint ++ [{ kind := .coupling (Fin.ofNat 4 g.toNat) slot mw, mask := mask, since := m.time.nt }]
            ∧ u.rd R.SWARM_CMDSTAT_DONE = 0 ∧ bitOf (u.sb (0x174001 + 0x200 * slot.toNat)).toNat 0 = false
        else u.maint = m.maint ∧ u.rd R.SWARM_CMDSTAT_DONE = 1 ∧ u.rd R.SWARM_CMDSTAT_ERR = 1)
    ∧ (∀ x g slot mw avg clip, s.maint = [x] → s.couplingOver x = true → x.kind = .coupling g slot mw →
      Leads (.couplingMeasurementDone avg clip) s fun t => t.maint = [] ∧ t.rd R.SWARM_CMDSTAT_DONE = 1
        ∧ t.rd R.SWARM_CMDSTAT_ERR = (if clip then 3 else 0) ∧ Counts R.DIAG_CNT_4_N_MAINT s t
        ∧ t.sbytes (0x174000 + 0x200 * slot.toNat) 512 = s.slotBytes x g.val mw.toNat avg clip)
    ∧ (∀ (which : BitVec 2) (w : Word), let a := if which = 0 then R.CSQ_QID else if which = 1 then R.CSQ_QPW0 else R.CSQ_QPW1
      MayWrite s p a w → Writes (.declarationQuery p which w) s p a w fun _ u =>
        let d := u.declare (u.rd R.CSQ_QID_ID) (u.rd R.CSQ_QPW0_PW0) (u.rd R.CSQ_QPW1_PW1)
        u.rd R.CSQ_QWCX_WCX = min d.wcx (2 ^ 32 - 1) ∧ u.rd R.CSQ_QRES_FOUND = d.found.toNat
        ∧ u.rd R.CSQ_QRES_SWARM_OK = d.swarmOk.toNat ∧ u.rd R.CSQ_QRES_MAXPAY = d.maxpay % 2 ^ 10
        ∧ u.rd R.CSQ_QRES_OVER = (decide (u.rd R.TIME_MAXEX_MAX_EXCH_US < d.wcx)).toNat)
    ∧ (MayWrite s p R.CSQ_CACHE 1 → Writes (.cacheInvalidate p) s p R.CSQ_CACHE 1 fun m u =>
        u.flash = if m.flash.filling.isSome then { m.flash with invPend := true } else { m.flash with cache := [] })
    ∧ (∀ q : BitVec 6, let w := s.fieldWord (R.SCHED_QSTAT_WM_HIT q.toNat) 1
      MayWrite s p (R.SCHED_QSTAT q.toNat) w → Writes (.wmHitClear p q) s p (R.SCHED_QSTAT q.toNat) w fun m u =>
        u.rd (R.SCHED_QSTAT_WM_HIT q.toNat) = 0 ∧ u.qu q.toNat = { m.qu q.toNat with wmCount := 0 })
    ∧ (∀ (who : Port) (quota : BitVec 31), let w := s.fieldWord (R.BUDG_QUOTA_QUOTA who.val) quota.toNat
      MayWrite s p (R.BUDG_QUOTA who.val) w → Writes (.quotaWrite p who quota) s p (R.BUDG_QUOTA who.val) w fun m u =>
        u.rd (R.BUDG_QUOTA_QUOTA who.val) = quota.toNat
        ∧ (u.pt who.val).isOver = ((m.pt who.val).isOver
            || (e.isOn (R.BUDG_PCFG_QEN who.val) && decide (quota.toNat < e.usage who.val))))
    ∧ (let w := s.fieldWord R.GATE_CTL_SWAP 1
      let fits : Prop := 1 ≤ e.rd R.GATE_ALEN_ALEN ∧ e.rd R.GATE_ALEN_ALEN ≤ 64 ∧ 1000 ≤ e.rd R.GATE_ACYCLE_ACYCLE
        ∧ ∀ k, k < e.rd R.GATE_ALEN_ALEN →
          getBits (e.rdWord (R.GATE_ENTRY k)) 0 24 ≠ 0 ∧ getBits (e.rdWord (R.GATE_ENTRY k)) 27 5 = 0
      MayWrite s p R.GATE_CTL w → e.gate.chg = none → (¬ fits → Serves (.swap p) 0x11
        (s.nextFrame p 0x11 (BitVec.ofNat 32 R.GATE_CTL) (leBytes 4 w.toNat)) s fun m x u => x = firstWord stRange [] ∧ u = m)
      ∧ (fits → Writes (.swap p) s p R.GATE_CTL w fun m u =>
        ∃ c, u.gate = { m.gate with chg := some (BitVec.ofNat 64 c) } ∧ ∃ k, c = e.abase + k * (e.rd R.GATE_ACYCLE_ACYCLE * 1000)
          ∧ e.nt + 2 * e.beatNs ≤ c ∧ (0 < k → c < e.nt + 2 * e.beatNs + e.rd R.GATE_ACYCLE_ACYCLE * 1000
            ∧ Counts R.GATE_CNT_N_LATE m u ∧ u.rd R.GATE_STAT_LATE = 1 ∧ ∀ q : Port, bitOf (u.pend q.val) 7 = true)))
    ∧ (let w := s.fieldWord R.GATE_CTL_CANCEL 1
      MayWrite s p R.GATE_CTL w → Writes (.cancel p) s p R.GATE_CTL w fun m u =>
        u.gate = { m.gate with chg := none, chgEn := false })
    ∧ (MayWrite s p R.DIAG_CMD 1 → Writes (.romtest p) s p R.DIAG_CMD 1 fun _ u => u.romTest = true)
    ∧ (∀ mask : BitVec 8, let w : Word := BitVec.ofNat 32 (2 + 2 ^ 8 * mask.toNat)
      MayWrite s p R.DIAG_CMD w → Writes (.chtest p mask) s p R.DIAG_CMD w fun m u =>
        u.rd R.DIAG_STAT_CHT_DONE = 0 ∧ u.rd R.DIAG_STAT_CHT_FAIL = 0 ∧ u.maint = m.maint ++
          ((List.range 8).filter fun n => bitOf mask.toNat n).map fun n =>
            { kind := .chTest, mask := BitVec.ofNat 8 (2 ^ n), since := m.time.nt })
    ∧ (s.pwr.state ≠ .run → ∀ (rom : Bool) (failed : BitVec 8), exec (.diagTestDone rom failed) s = .next s)
    ∧ (s.pwr.state = .run → s.pwr.domOn.getLsbD 10 = true → ∀ failed : BitVec 8, (s.romTest = true → Leads (.diagTestDone true failed) s fun t => t.romTest = false
          ∧ t.rd R.DIAG_STAT_ROM_OK = (decide (failed = 0)).toNat
          ∧ (failed ≠ 0 → t.rd R.DIAG_STAT_ROM_FAIL = 1 ∧ Counts R.DIAG_CNT_4_N_ROMFAIL s t)
          ∧ Counts R.DIAG_CNT_4_N_MAINT s t)
        ∧ ∀ x, s.maint = [x] → x.running = true → x.kind = .chTest → Leads (.diagTestDone false failed) s fun t => t.maint = []
          ∧ t.rd R.DIAG_STAT_CHT_DONE = s.rd R.DIAG_STAT_CHT_DONE ||| x.mask.toNat
          ∧ t.rd R.DIAG_STAT_CHT_FAIL = s.rd R.DIAG_STAT_CHT_FAIL ||| (failed &&& x.mask).toNat
          ∧ t.rd R.DIAG_CNT_4_N_ROMFAIL
            = min (s.rd R.DIAG_CNT_4_N_ROMFAIL + popcount8 (failed &&& x.mask).toNat) (2 ^ 16 - 1))

/-- The mailbox: OPEN copies the published bank into a shadow for the port, COMMIT promotes it and wakes the journal,
DISCARD and the expiry of the lock give it up, REJOURNAL asks for a record; EN sets or suspends the cards; the writer
puts the record into the next slot, and its header makes it valid or it fails (R368, R375, R379 to R383). COMMIT and
DISCARD by another port, and points of the journal, are the model's reading (log entries 43, 49 and 100). -/
def Obligations.Mailbox : Prop :=
  ∀ (s : State) (p : Port), s.canon = true →
    let e := s.hostEdge p
    let owns : Prop := e.emu.arb = .wireOpen ∧ e.emu.ownPort = p
    (MayWrite s p R.EMU_MBCMD 1 → e.emu.arb = .free → Writes (.mbOpen p) s p R.EMU_MBCMD 1 fun m u => u.emu.arb = .wireOpen
        ∧ u.emu.ownPort = p ∧ u.shadow = m.published ∧ u.published = m.published)
    ∧ (MayWrite s p R.EMU_MBCMD 2 → owns → nlenOf e.shadow ≤ 8190 → Writes (.mbCommit p) s p R.EMU_MBCMD 2 fun m u =>
        u.emu.arb = .free ∧ u.published = m.shadow ∧ u.emu.jpend = true ∧ u.emu.lastSrc = true
        ∧ Counts R.EMU_CNT_0_N_PROMOTE m u ∧ ∀ q : Port, bitOf (u.pend q.val) 14 = true)
    ∧ (MayWrite s p R.EMU_MBCMD 2 → owns → 8190 < nlenOf e.shadow →
        Serves (.mbCommit p) 0x11 (s.nextFrame p 0x11 (BitVec.ofNat 32 R.EMU_MBCMD) (leBytes 4 2)) s fun m x u =>
          x = firstWord stRange [] ∧ u = m)
    ∧ (MayWrite s p R.EMU_MBCMD 3 → owns → Writes (.mbDiscard p) s p R.EMU_MBCMD 3 fun m u => u.emu = { m.emu with arb := .free }
        ∧ Counts R.EMU_CNT_1_N_DISCARD m u)
    ∧ (MayWrite s p R.EMU_MBCMD 4 → Writes (.rejournal p) s p R.EMU_MBCMD 4 fun m u =>
        u = { m with emu := { m.emu with jpend := true, jstop := false } })
    ∧ (s.emu.arb = .wireOpen → Leads .wireLockExpiry s fun t => t.emu = { s.emu with arb := .free }
        ∧ Counts R.EMU_CNT_1_N_DISCARD s t)
    ∧ (∀ en : Bool, let w := s.fieldWord R.EMU_CTL_EN en.toNat
      MayWrite s p R.EMU_CTL w → e.isOn R.EMU_CTL_EN ≠ en → Writes (.emuEnableWrite p en) s p R.EMU_CTL w fun m u =>
        u.isOn R.EMU_CTL_EN = en ∧ ∀ n : Ch, (m.listens n.val = false → u.card n.val = m.card n.val)
          ∧ (m.listens n.val = true → u.card n.val = if en then {} else { m.card n.val with state := .suspended }))
    ∧ (s.isOn R.EMU_CTL_JEN = true → s.emu.jpend = true → s.emu.jstop = false → s.emu.jwrite = none → s.flash.op = none →
      (s.flash.win.all fun w => !w.busy) = true → s.flash.filling = none → s.flash.fills = [] → s.flash.cmd = none → s.pwr.state = .run → s.pwr.domOn.getLsbD 10 = true →
      s.up = true → nlenOf s.published ≤ 8190 → Leads .journalWrite s fun t => ∃ w, w.step = 0 ∧ t.emu = { s.emu with jwrite := some w }
        ∧ (w.slot, w.seq.toNat) = (s.nextRecord.1, s.nextRecord.2 % 2 ^ 32) ∧ w.src = s.emu.lastSrc ∧ w.ntMs = s.emu.pubNt
        ∧ w.data = Memory.bytes s.published 0 (nlenOf s.published + 2)
        ∧ t.fbytes (slotBase w.slot + 0x100) w.data.length = w.data
        ∧ t.fbytes (slotBase w.slot) 0x100 = List.replicate 0x100 0xFF
        ∧ ∀ a, a < slotBase w.slot ∨ slotBase w.slot + 0x4000 ≤ a → t.fb a = s.fb a)
    ∧ (∀ w, s.emu.jwrite = some w → s.flash.op = none → (s.flash.win.all fun w => !w.busy) = true → s.flash.filling = none → s.flash.fills = [] →
      (∀ i, i < 32 → s.fb (slotBase w.slot + i) = 0xFF) →
        Leads (.journalCommit true) s fun t => t.fbytes (slotBase w.slot) 32 = w.header ∧ t.rdWord R.EMU_JSEQ = w.seq
        ∧ t.emu = { s.emu with jwrite := none, jpend := false, jfails := 0, jnext := none })
    ∧ (∀ w, s.emu.jwrite = some w → s.flash.op = none → (s.flash.win.all fun w => !w.busy) = true → s.flash.filling = none → s.flash.fills = [] →
      Leads (.journalCommit false) s fun t => Counts R.EMU_CNT_1_N_JFAIL s t
        ∧ t.emu.jwrite = none ∧ t.emu.jpend = s.emu.jpend
        ∧ t.emu.jnext = (if 2 ≤ s.emu.jfails then none else some ((w.slot + 1) % 4))
        ∧ (2 ≤ s.emu.jfails → t.rd R.EMU_STAT_JFAIL = 1 ∧ t.emu.jstop = true)
        ∧ (s.emu.jfails < 2 → t.emu.jfails = s.emu.jfails + 1))

/-- Firefly: SBASE, and SCFG too, take force at the next round, where the baseline clears its step; CLEAR clears steps
and keeps baselines, CAPTURE has each enabled step take its next ping as baseline; a ping far from the baseline
CONFIRM times in a row detects, and in WATCH wakes the device; the trim of the ping oscillator shows in no state (R411
to R415, R424). The precision of the phase comparison, and points of a round, are the model's reading (log entries 50
and 97). -/
def Obligations.Watch : Prop :=
  ∀ (s : State) (p : Port) (one : Bool) (k : BitVec 6), s.canon = true →
    let chosen (i : Nat) : Prop := i < 64 ∧ (one = true → i = k.toNat)
    (∀ w : Word, MayWrite s p R.WATCH_SBASE w → Writes (.sbaseWrite p w) s p R.WATCH_SBASE w fun m u =>
        let i := m.rd R.WATCH_SIDX_IDX
        u.wstep i = { m.wstep i with nextBase := some w }
        ∧ ∀ j, j ≠ i → u.wstep j = m.wstep j)
    ∧ (let w : Word := BitVec.ofNat 32 (1 + 2 ^ 8 * one.toNat + 2 ^ 16 * k.toNat)
      MayWrite s p R.WATCH_CMD w → Writes (.capture p one k) s p R.WATCH_CMD w fun m u => ∀ i,
        (chosen i ∧ bitOf ((m.wstep i).nextCfg.getD (m.wstep i).scfg).toNat 6 = true → u.wstep i = { m.wstep i with capture := true })
        ∧ (¬ (chosen i ∧ bitOf ((m.wstep i).nextCfg.getD (m.wstep i).scfg).toNat 6 = true) → u.wstep i = m.wstep i))
    ∧ (let w : Word := BitVec.ofNat 32 (2 + 2 ^ 8 * one.toNat + 2 ^ 16 * k.toNat)
      MayWrite s p R.WATCH_CMD w → Writes (.watchClear p one k) s p R.WATCH_CMD w fun m u => ∀ i,
        (chosen i → u.wstep i = { m.wstep i with now := false, exceed := 0, within := 0 })
        ∧ (¬ chosen i → u.wstep i = m.wstep i))
    ∧ (∀ v : Int × Int, s.isOn R.WATCH_CTL_EN = true → s.up = true → s.rd R.WATCH_CTL_NSTEP = 1 → s.pwr.state = .watch →
      s.pwr.entry = none →
      let old := s.wstep 0
      let w : WStep := { old with
        scfg := old.nextCfg.getD old.scfg, sbase := old.nextBase.getD old.sbase
        exceed := if old.nextBase = none then old.exceed else 0, now := old.now && old.nextBase == none }
      normSq (vecOf w.sbase) ≠ 0 → v ≠ (0, 0) → vecOf (wordOf v) = v → w.now = false → w.capture = false → w.capPing = false →
      exceeds w.scfg v (vecOf w.sbase) false = true → s.rd R.WATCH_CTL_CONFIRM ≤ w.exceed + 1 →
      Leads (.watchRound [v]) s fun t => (t.wstep 0).now = true ∧ (t.wstep 0).smeas = wordOf v
        ∧ bitOf (t.rd R.WATCH_DET_0_DET) 0 = true ∧ t.watch.lastDet = 0 ∧ Counts R.WATCH_CNT_1_N_DET s t
        ∧ Counts R.WATCH_CNT_0_N_PING s t ∧ (∀ q : Port, bitOf (t.pend q.val) 11 = true)
        ∧ t.pwr.state = (if w.wakes && s.isOn R.PWR_WAKEEN_WATCH then .run else .watch))
    ∧ exec .pingOscTrim s = .next s

/-- The rail: TON ends with the demand commanded as the mantissa of R416, READ_VOUT confirms the rail or, at its third
reading out of tolerance, faults it; bus errors are retried, each transaction's attempts by themselves; an alert
faults; RECOVER holds VTXEN low for 1 ms; raw accesses run in READY and FAULT and end with their data; EN starts the rail and
brings it down; step 4 places the rail holds, commands a higher demand at once, and a lower one at LOWER_BEATS step 4s in a row
(R416 to R422, R425). The millivolts of a readback and points of the raw accesses are the model's reading (log entry 51). -/
def Obligations.Rail : Prop :=
  ∀ (s : State) (p : Port), s.canon = true →
    let e := s.hostEdge p
    let faulted (t : State) (err : Nat) : Prop := t.pmb.state = .fault ∧ t.pmb.ok = 0 ∧ t.rd R.PMB_STAT_ERR = err
      ∧ t.rd R.PMB_STAT_FAULT_SEEN = 1 ∧ Counts R.PMB_CNT_N_ERR s t ∧ ∀ q : Port, bitOf (t.pend q.val) 10 = true
    (∀ mode : Byte, s.pmb.state = .ton → s.pwr.domOn.getLsbD 10 = true →
      (bitsOf mode.toNat 5 3 = 0 → Leads (.pmbTonEnd mode) s fun t => t.pmb.state = .change ∧ t.pmb.cmd = s.railDemand
        ∧ t.pmb.expN = toSigned 5 mode.toNat ∧ t.pmb.reads = 0
        ∧ t.pmb.sent.map (fun x => (x.op, x.code)) = some (5, 0x21)
        ∧ (mantissaOf s.railDemand t.pmb.expN < 2 ^ 16 →
            t.pmb.sent.map (fun x => x.data.toNat) = some (mantissaOf s.railDemand t.pmb.expN)))
      ∧ (bitsOf mode.toNat 5 3 ≠ 0 → Leads (.pmbTonEnd mode) s fun t => faulted t 4))
    ∧ (∀ m : BitVec 16, s.pmb.state = .change →
      let v := mantissaMv m.toNat s.pmb.expN
      let near : Prop := ((v : Int) - s.pmb.cmd).natAbs * 200 ≤ getBits s.pmb.vstep 24 8 * s.pmb.cmd
      (near → s.railDemand ≤ s.pmb.cmd → Leads (.pmbVsettleEnd m) s fun t => t.pmb.state = .ready ∧ t.pmb.ok = s.pmb.cmd
        ∧ t.pmb.cmd = s.pmb.cmd ∧ Counts R.PMB_CNT_N_CHANGE s t ∧ t.rd R.PMB_VREAD_VOUT = min v 65535)
      ∧ (near → s.pmb.cmd < s.railDemand → Leads (.pmbVsettleEnd m) s fun t => t.pmb.state = .change
        ∧ t.pmb.ok = s.pmb.cmd ∧ t.pmb.cmd = s.railDemand)
      ∧ (¬ near → s.pmb.reads < 2 → Leads (.pmbVsettleEnd m) s fun t =>
        { t.pmb with sent := s.pmb.sent } = { s.pmb with attempts := 0, reads := s.pmb.reads + 1 })
      ∧ (¬ near → 2 ≤ s.pmb.reads → Leads (.pmbVsettleEnd m) s fun t => faulted t 5))
    ∧ (∀ x : BusFail, s.pmb.state ≠ .off → s.pmb.state ≠ .fault →
      let failed := if s.pmb.trans = x.trans then s.pmb.attempts else 0
      (failed < s.rd R.PMB_CTL_RETRY → Leads (.pmbBusError x) s fun t =>
        t.pmb.attempts = failed + 1 ∧ t.pmb.trans = x.trans ∧ { t with pmb := s.pmb } = s
        ∧ t.pmb.state = if s.pmb.state = .ton ∧ (x.trans = .clearFaults ∨ x.trans = .voutMode) then .setup else s.pmb.state)
      ∧ (s.rd R.PMB_CTL_RETRY ≤ failed → Leads (.pmbBusError x) s fun t => faulted t (busErrCode x.err)))
    ∧ (∀ sw : BitVec 16, s.pmb.state ≠ .off → s.pmb.state ≠ .fault →
      (sw &&& 0x087C ≠ 0 → Leads (.pmalert sw) s fun t => faulted t 6 ∧ t.rd R.PMB_STAT_SW = sw.toNat)
      ∧ (sw &&& 0x087C = 0 → Leads (.pmalert sw) s fun t => RegsOnly [R.PMB_STAT] { s with pmb := t.pmb } t
        ∧ t.pmb.state = s.pmb.state ∧ t.pmb.ok = s.pmb.ok ∧ t.rd R.PMB_STAT_SW = sw.toNat))
    ∧ (MayWrite s p R.PMB_CMD 1 → e.pmb.state = .fault → Writes (.recover p) s p R.PMB_CMD 1 fun _ u =>
        u.pmb.state = .off ∧ u.pmb.vtxen = false ∧ u.pmb.ok = 0 ∧ u.pmb.holdLow = true)
    ∧ (s.pmb.holdLow = true → s.pmb.state = .off → Leads .pmbRecoverEnd s fun t => t.pmb.holdLow = false
        ∧ t.pmb.vtxen = (s.pmb.vtxen || s.isOn R.PMB_CTL_EN) ∧ t.pmb.state = if s.isOn R.PMB_CTL_EN then .ton else .off)
    ∧ (∀ i op (code : Byte) (data : BitVec 16), (i, op, data) ∈ [(Instr.readByte p code, 2, 0), (.readWord p code, 3, 0),
        (.writeByte p code data, 4, data), (.writeWord p code data, 5, data), (.sendByte p code, 6, 0)] →
      let w : Word := BitVec.ofNat 32 (op + 2 ^ 8 * code.toNat + 2 ^ 16 * data.toNat)
      MayWrite s p R.PMB_CMD w →
      ((op < 4 ∨ rawBarred code = false) → e.pmb.state = .ready ∨ e.pmb.state = .fault → e.pmb.raw = none →
        Writes i s p R.PMB_CMD w fun m u => { u.pmb with raw := none } = { m.pmb with raw := none }
          ∧ u.pmb.raw.map (fun x => (x.op, x.code)) = some (op, code) ∧ u.rd R.PMB_RAW_DONE = 0 ∧ u.rd R.PMB_RAW_ERR = 0)
      ∧ (4 ≤ op → rawBarred code = true → Serves i 0x11 (s.nextFrame p 0x11 (BitVec.ofNat 32 R.PMB_CMD) (leBytes 4 w.toNat)) s
        fun m x u => x = firstWord stRange [] ∧ u = m))
    ∧ (∀ (data : BitVec 16) (bad : Bool) (x : PmbTxn), s.pmb.raw = some x → Leads (.pmbRawDone data bad) s fun t =>
        t.pmb.raw = none ∧ t.rd R.PMB_RAW_DONE = 1 ∧ t.rd R.PMB_RAW_ERR = bad.toNat
        ∧ t.rd R.PMB_RAW_DATA = if bad = false ∧ x.op = 2 then data.toNat % 256
            else if bad = false ∧ x.op = 3 then data.toNat else s.rd R.PMB_RAW_DATA)
    ∧ (∀ w : Word, let f := s.nextFrame p 0x11 (BitVec.ofNat 32 R.PMB_CTL) (leBytes 4 w.toNat)
      MayWrite s p R.PMB_CTL w →
      (w.getLsbD 0 = true → e.pmb.state = .off → e.pmb.holdLow = false → Writes (.regWrite f) s p R.PMB_CTL w fun _ u =>
        u.pmb.state = .ton ∧ u.pmb.vtxen = true ∧ u.isOn R.PMB_CTL_EN = true)
      ∧ (w.getLsbD 0 = false → e.pmb.state ≠ .off → Writes (.regWrite f) s p R.PMB_CTL w fun _ u =>
        u.pmb.state = .off ∧ u.pmb.vtxen = false ∧ u.pmb.ok = 0))
    ∧ (∀ nt : BitVec 64, s.atBeat nt = true → s.time.minNt ≤ nt → s.pwr.preBoundary = false ∨ s.locked = true →
      Leads (.beatBoundary nt 3) s fun t =>
        let d := t.railDemand
        let limit := getBits (s.rdWord R.PMB_VLIM) 16 16
        let grid := getBits (s.rdWord R.PMB_VSTEP) 0 10
        let beats := getBits (s.rdWord R.PMB_VSTEP) 16 8
        (∀ n : Ch, t.pmb.rail.getLsbD n.val
          = (!t.jobHolds n.val && t.namedByHeads.getLsbD n.val && decide (s.pmb.ok < min (t.holdNeed n.val) limit)))
        ∧ d ≤ limit ∧ (d = limit ∨ d % grid = 0)
        ∧ (0 < grid → min (getBits (s.rdWord R.PMB_VLIM) 0 16) limit ≤ d ∧ ∀ n : Ch,
          ((t.jobOn n.val).isSome = true → min (t.vtxNeedOf n.val) limit ≤ d)
          ∧ (t.jobOn n.val = none → t.pmb.rail.getLsbD n.val = true → min (t.holdNeed n.val) limit ≤ d))
        ∧ (s.pmb.state = .ready →
          (s.pmb.cmd < d → t.pmb.state = .change ∧ t.pmb.cmd = d ∧ t.pmb.ok = s.pmb.ok)
          ∧ (d < s.pmb.cmd → s.pmb.lower + 1 < beats →
            t.pmb.state = .ready ∧ t.pmb.cmd = s.pmb.cmd ∧ t.pmb.lower = s.pmb.lower + 1)
          ∧ (d < s.pmb.cmd → beats ≤ s.pmb.lower + 1 → t.pmb.state = .change ∧ t.pmb.cmd = d ∧ t.pmb.ok = d)
          ∧ (d = s.pmb.cmd → t.pmb.state = .ready ∧ t.pmb.lower = 0)))

/-- The beat: at a multiple of the beat in RUN, with LOCK for the first one after a wake, the boundary is run. Step 1
settles every posted job and gives each channel in FAULT without a job back to OFF, a new BEAT_US takes force at a
multiple of it, step 2 refills the shapers, no job is admitted before step 7 and no routine starts before step 8;
`steps` of the eight have ended by the next boundary, an overrun completes the one in progress, is counted and noticed
and leaves the rest (R9 to R11, R13, R49, R275, R277). The charges and the settlement of step 1 are those of R18, step 3
records the open part of every channel and class (R354), and step 4 moves the thermal model (R312, R313). At step 7 a lone
head whose deadline has passed is posted with DEADLINE_MISSED (R23), one that passes the checks of R318 is granted and takes
its result slot (R21) and its cost, and any other stays QUEUED. The beats that R341 skips are not run. Before the first
boundary after a wake a hold sweep posts the heads that waited too long for LOCK and does nothing else (R72, R73). How
many steps end in time is an operand (log entry 18); the widths of the thermal model are the model's choice (log entry 46). -/
def Obligations.BeatBoundary : Prop :=
  ∀ (s : State) (nt : BitVec 64) (steps : Nat), s.canon = true → s.jobsOk = true → s.atBeat nt = true →
    let u := s.advanceTo nt
    let beat := s.rd R.TIME_BEAT_BEAT_US
    let charge (j : Job) : Nat := ((maskList j.mask).map fun n => u.meterDelta n.val).sum + j.exchBeat * j.ovh
    let out (j : Job) : Bool := u.isHead j && decide (s.rd R.SYN_HOLD_SYN_HOLD_MAX * 1000 ≤ j.holdNs)
    (s.time.minNt ≤ nt → s.pwr.preBoundary = false ∨ s.locked = true → Leads (.beatBoundary nt steps) s fun t =>
      t.time.nt = nt ∧ t.pwr.preBoundary = false ∧ t.time.minNt = nt + 1
      ∧ t.time.beatUs = (if beat ≠ 0 ∧ nt.toNat % (beat * 1000) = 0 then beat else s.time.beatUs)
      ∧ (∀ j ∈ s.jobs, j.state = .posted → ∀ k ∈ t.jobs, k.id ≠ j.id)
      ∧ (∀ n : Ch, (s.ch n.val).field = .fault → s.jobHolds n.val = false → (t.ch n.val).field = .off)
      ∧ (1 ≤ steps → steps < 6 → (∀ j ∈ s.jobs, j.state = .queued ∨ j.state = .arriving) → ∀ q, q < 64 →
        (t.qu q).bal = if s.isOn (R.SCHED_QCFG_SHEN q) = false then (s.qu q).bal
          else if (s.qu q).shen = false then s.rd (R.SCHED_QBURST_BURST q)
          else min ((s.qu q).bal + s.rd (R.SCHED_QRATE_RATE q)) (s.rd (R.SCHED_QBURST_BURST q)))
      ∧ (steps < 6 → ∀ j ∈ s.jobs, j.state = .queued → (t.job? j.id).map Job.state = some .queued)
      ∧ (steps < 7 → ∀ n : Ch, (s.ch n.val).seq.run = .idle → (t.ch n.val).seq.run = .idle)
      ∧ (7 ≤ steps → ∀ j ∈ t.jobs, j.state ≠ .granted)
      ∧ (8 ≤ steps → t.rd R.DIAG_CNT_0_N_BKOVR = s.rd R.DIAG_CNT_0_N_BKOVR)
      ∧ (steps < 8 → Counts R.DIAG_CNT_0_N_BKOVR s t ∧ ∀ p : Port, bitOf (t.pend p.val) 6 = true)
      ∧ (steps = 0 → ∀ j ∈ u.jobs, j.state.holds = true → ∃ k, t.job? j.id = some k ∧ k.exchBeat = 0
        ∧ k.remain = j.remain - charge j ∧ k.debt = j.debt + (charge j - j.remain)
        ∧ k.fieldUj = j.fieldUj + ((maskList j.mask).map fun n => u.meterDelta n.val).sum)
      ∧ (steps = 0 → ∀ j, u.jobs = [j] → j.state = .posted →
        let idle := (((List.range 8).filter fun n => !bitOf j.mask.toNat n).map u.meterDelta).sum
        let back : Int := (j.remain : Int) - j.debt - charge j
        t.jobs = [] ∧ t.budg.hb = max (-2 ^ 31) (max (-2 ^ 31) (s.budg.hb - idle) + back)
        ∧ (t.pt j.port.val).slots.head? = some ((s.pt j.port.val).slotNow + charge j)
        ∧ (t.qu j.queue).bal = if j.shaped = true ∧ (s.qu j.queue).shen = true ∧ j.queue < 64 then max (-2 ^ 31) ((s.qu j.queue).bal + back)
          else (s.qu j.queue).bal)
      ∧ (2 ≤ steps → ∀ (cls : Fin 4) (n : Ch), let open' := bitOf t.gate.openRec.toNat (8 * cls.val + n.val)
        let g := u.gate
        (s.isOn R.GATE_CTL_EN = false ∨ g.list = [] → open' = true)
        ∧ (s.isOn R.GATE_CTL_EN = true → g.chg = none → 0 < g.cycle → s.rd R.GATE_GUARD_GUARD_US + s.time.w = 0 →
          let ph := (((nt.toNat : Int) - g.base.toNat) % (1000 * g.cycle : Int)).toNat
          let start (k : Nat) : Nat := ((g.list.take k).map fun x => 1000 * getBits x.1 0 24).sum
          ∀ k x, g.list[k]? = some x → start k ≤ ph → ph < start (k + 1) ∨ k + 1 = g.list.length →
            open' = (bitOf x.2.toNat (8 * cls.val + n.val)
              && !(s.isOn R.GATE_CTL_HOLD_POOR_TIME && u.time.poor && bitOf x.1.toNat 24))))
      ∧ (3 ≤ steps →
        let x (r : Bool) (y : Int) : Int := if r then 0 else y
        let b := s.budg
        let us := u.beatNs / 1000
        t.budg.pdiss = s.rd R.BUDG_THOR_PCORE + divRound (45 * (u.chans.toList.map fun c => min c.actNs u.beatNs).sum
          + 60 * (u.chans.toList.map fun c => min c.onNs u.beatNs).sum + 150000 * ((List.range 8).map u.meterDelta).sum) u.beatNs
        ∧ t.budg.restart = false
        ∧ t.budg.t1 = x b.restart b.t1 + towards (x b.restart b.t1) (20 * t.budg.pdiss) (s.rd R.BUDG_TMOD_0_R1)
            (oneMinusExp us (1000 * s.rd R.BUDG_TMOD_0_TAU1))
        ∧ t.budg.t2 = x b.restart b.t2 + towards (x b.restart b.t2) (20 * t.budg.pdiss) (s.rd R.BUDG_TMOD_1_R2)
            (oneMinusExp us (10000 * s.rd R.BUDG_TMOD_1_TAU2))))
    ∧ (s.time.minNt ≤ nt → s.pwr.preBoundary = false ∨ s.locked = true → Leads (.beatBoundary nt 5) s fun v =>
        Leads (.beatBoundary nt 6) s fun t => ∀ j, v.maint = [] → v.headOf j.queue = some j → v.job? j.id = some j → j.queue < 64 →
        (∀ q, q < 64 → q ≠ j.queue → v.headOf q = none) →
        let d := v.declOf j
        let slot := 1 + (d.maxpay + 15) / 16
        let gold : Prop := j.cls = 0
        let late : Prop := bitOf (j.word 0).toNat 24 = true ∧ (v.ntUs - j.word 2).toNat < 2 ^ 31
        let claim := ((maskList j.chmask).map fun n =>
          ceilDiv ((1150 * v.rd (R.CH_TXPWR_CAP n.val) + 60000) * 100) (1000 * v.lim R.BUDG_CLAIM_VTX_EFF) + 45).sum
        let claims := ((v.jobs.filter fun k => k.state.holds).map fun k => k.claim).sum
        let admits : Prop := v.syn.state = .locked ∧ v.drain = none ∧ (∀ e, v.pwr.entry = some e → e.target.low = false)
          ∧ (v.budg.isOver = false ∨ v.lim R.BUDG_CTL_PWR_EN = 0) ∧ v.budg.tstate ≠ .hard
        let gate (n : Nat) : Prop := bitOf v.gate.openRec.toNat (8 * j.cls + n) = true
          ∧ ∀ left, v.remaining j.cls n nt.toNat = some left → d.wcx * 1000 ≤ left
        let free (n : Nat) : Prop := v.unheld n = true ∧ bitOf v.pmb.rail.toNat n = false
          ∧ ∀ c, v.claimOf n = some c → c.job = some j.id ∨ j.cls < c.cls.rank
        let accounts : Prop := ((v.qu j.queue).shen = true → (j.cost : Int) ≤ (v.qu j.queue).bal)
          ∧ (v.isOn (R.BUDG_PCFG_QEN j.port.val) = true → (v.pt j.port.val).isOver = false
            ∧ v.usage j.port.val + j.cost ≤ v.rd (R.BUDG_QUOTA_QUOTA j.port.val))
          ∧ (if gold then 0 else (v.lim R.BUDG_HRSV_RSV_UJ : Int)) ≤ v.budg.hb - j.cost
          ∧ (v.lim R.BUDG_CTL_PWR_EN ≠ 0 → v.lim R.BUDG_PBASE_PIN_BASE + claims + claim
            + (if gold then 0 else v.lim R.BUDG_PIN_RSV_MW) ≤ v.lim R.BUDG_PIN_PIN_MAX)
        let passes : Prop := admits ∧ (∀ n ∈ maskList j.chmask, gate n.val ∧ free n.val) ∧ accounts ∧ v.thermalOk j 0 = true
          ∧ slot - j.units ≤ v.ringFree j.ringNo
        let inTime : Prop := d.wcx ≤ v.rd R.TIME_MAXEX_MAX_EXCH_US ∧ j.holdNs < v.rd R.SYN_HOLD_SYN_HOLD_MAX * 1000
        (late → t.jobs = v.jobs.filter (fun k => k.id != j.id) ∧ ∃ x, (t.ring j.ringNo).entries = (v.ring j.ringNo).entries ++ [x]
          ∧ leNat (x.take 4) = j.cookie + 2 ^ 24 * 0x0A ∧ bitsOf (leNat ((x.drop 4).take 4)) 24 2 = 3)
        ∧ (¬ late → inTime → passes → ∃ k, t.job? j.id = some k ∧ k.state = .granted ∧ k.mask = j.chmask
          ∧ k.units = max j.units slot ∧ k.decl = d ∧ k.ntStart = v.ntUs ∧ k.remain = j.cost ∧ k.claim = claim
          ∧ (t.ring j.ringNo).resv = (v.ring j.ringNo).resv + (slot - j.units) ∧ Counts (R.SCHED_QCNT_N_ADMIT j.queue) v t
          ∧ t.budg.hb = max (-2 ^ 31) (v.budg.hb - j.cost)
          ∧ (t.qu j.queue).bal = if (v.qu j.queue).shen then max (-2 ^ 31) ((v.qu j.queue).bal - j.cost) else (v.qu j.queue).bal)
        ∧ (¬ late → inTime → ¬ passes → t.jobs = v.jobs))
    ∧ (nt < s.time.minNt ∨ s.pwr.preBoundary = true ∧ s.locked = false → exec (.beatBoundary nt steps) s = .next s)
    ∧ (s.pwr.preBoundary = true → Leads (.holdSweep nt) s fun t => t.time = u.time ∧ t.chans = u.chans ∧ t.queues = u.queues
        ∧ t.jobs = u.jobs.filter (fun j => !out j)
        ∧ ∀ r, r < 32 → ((t.ring r).entries.drop (s.ring r).entries.length).map (fun x => bitsOf (leNat (x.take 4)) 24 8)
          = (u.jobs.filter fun j => out j && j.ringNo == r).map fun _ => 0x0C)

/-- Network time. A SYNCI edge applies the armed value, or goes to the servo: small errors discipline FREQ, SLEW and
RATE, large ones step NT, the first two outside the capture range are rejected and an ambiguous one is ignored (R333
to R336). SLEW ends after a period, TRACK without an edge becomes HOLDOVER, and UNC, POOR and W follow time (R336,
R338 to R340, R353). SYNCO rises at multiples of the period and falls SYNCO_W_US later (R337). A list change takes
effect at its change time (R350). An LPO span gives the ratio of its source, the LPO source changes, and NT goes on
from the ticks of a sleep with UNC raised (R342 to R345). Truncated quotients, the rounded rise and the whole ns of an
edge are the model's choice (log entries 32, 52 and 94). -/
def Obligations.TimeEvents : Prop :=
  ∀ (s : State) (ts : BitVec 64) (ph : BitVec 10) (ticks span : Nat), s.canon = true →
    let u := s.advanceTo ts
    (s.ntRuns = true → s.time.nt < ts → Leads (.gateChange ts) s fun t => t.time.nt = ts ∧ (s.gate.chg = none → t.gate = s.gate)
      ∧ ∀ c, s.gate.chg = some c → (ts < c → t.gate = s.gate)
        ∧ (c ≤ ts → t.gate.chg = none ∧ t.gate.base = c ∧ t.gate.cycle = s.rd R.GATE_ACYCLE_ACYCLE
          ∧ t.gate.list = s.adminEntries ∧ Counts R.GATE_CNT_N_SWAP s t))
    ∧ (s.gate.chg = none →
    (∀ v unc, s.ntRuns = true → s.time.armed = some (v, unc) → Leads (.synciEdge ts ph) s fun t =>
        t.time.nt = v + BitVec.ofInt 64 (s.rdS R.TIME_SYNCDLY_SYNCI_DLY_NS) ∧ t.time.armed = none ∧ t.time.q = .track
        ∧ t.time.unc = min (unc.toNat + s.rd R.TIME_QACC_SYNC_ACC_NS) 0xFFFFFFFF ∧ Counts R.TIME_CNT_1_N_STEP s t)
    ∧ (s.ntRuns = true → s.time.armed = none → s.isOn R.TIME_CTL_SERVO = false ∨ s.time.q = .free →
        exec (.synciEdge ts ph) s = .next { u with time := { u.time with syncMs := s.rd R.TIME_SYNC_SYNC_PER_MS } })
    ∧ (s.ntRuns = true → s.time.armed = none → s.isOn R.TIME_CTL_SERVO = true → s.time.q ≠ .free → s.time.nt ≤ ts →
      s.isOn R.SYN_CTL_DISC = false →
      let P : Int := s.rd R.TIME_SYNC_SYNC_PER_MS * 1000000
      let ns : Int := 2 ^ 40
      let win : Int := s.rd R.TIME_SYNC_CAPT_NS + s.time.unc
      let stays (t : State) : Prop := t.time.nt = ts ∧ t.time.q = s.time.q ∧ t.time.unc = s.time.unc ∧ t.time.freq = s.time.freq
        ∧ t.time.slew = s.time.slew
      ∀ k er : Int, ((ts.toNat : Int) - s.rdS R.TIME_SYNCDLY_SYNCI_DLY_NS) * ns + s.time.frac = k * (P * ns) + er →
      -(P * ns) ≤ 2 * er → 2 * er < P * ns →
      let small : Prop := (er.natAbs : Int) ≤ win * ns
      let step : Int := s.rd R.TIME_STEP_STEP_NS * ns
      (P ≤ 2 * win → Leads (.synciEdge ts ph) s fun t => t.time.ambig = true ∧ stays t)
      ∧ (2 * win < P → ¬ small → s.time.rejects < 2 → Leads (.synciEdge ts ph) s fun t => stays t
          ∧ t.rd R.TIME_STAT_REJ_SEEN = 1 ∧ Counts R.TIME_CNT_0_N_REJ s t ∧ t.time.rejects = s.time.rejects + 1)
      ∧ (2 * win < P → small ∧ step ≤ er.natAbs ∨ ¬ small ∧ 2 ≤ s.time.rejects → Leads (.synciEdge ts ph) s fun t =>
          (t.time.nt.toNat : Int) * ns + t.time.frac = (ts.toNat * ns + s.time.frac - er) % 2 ^ 104 ∧ t.time.q = .track
          ∧ t.time.unc = s.rd R.TIME_QACC_SYNC_ACC_NS ∧ t.time.freq = s.time.freq ∧ Counts R.TIME_CNT_1_N_STEP s t
          ∧ Counts R.TIME_CNT_0_N_SYNC s t)
      ∧ (2 * win < P → small → er.natAbs < step → Leads (.synciEdge ts ph) s fun t => t.time.nt = ts ∧ t.time.q = .track
        ∧ t.time.slew = (-er).tdiv (P * 2 ^ 8) ∧ t.time.freq = s.time.freq + t.time.slew.tdiv (2 ^ s.rd R.TIME_CTL_KI_SH)
        ∧ t.rdS R.TIME_RATE_RATE = clampInt (-858993) 858993 (t.time.freq + t.time.slew)
        ∧ t.time.unc = min (s.rd R.TIME_QACC_SYNC_ACC_NS + (er.natAbs + 2 ^ 40 - 1) / 2 ^ 40) 0xFFFFFFFF
        ∧ Counts R.TIME_CNT_0_N_SYNC s t))
    ∧ (s.ntRuns = true → s.time.nt ≤ ts → s.isOn R.TIME_CTL_SERVO = true → s.time.slew ≠ 0 →
      s.time.syncMs * 1000000 ≤ (ts - s.time.slewNt).toNat → Leads (.slewEnd ts) s fun t => t.time.nt = ts
        ∧ t.time.slew = 0 ∧ t.rdS R.TIME_RATE_RATE = clampInt (-858993) 858993 s.time.freq)
    ∧ (s.ntRuns = true → s.time.nt ≤ ts → s.time.q = .track → s.time.pLast.toNat + 2 * (s.time.syncMs * 1000000) ≤ ts.toNat →
      Leads (.holdoverTimeout ts) s fun t => t.time.q = .holdover ∧ Counts R.TIME_CNT_1_N_HOLD s t)
    ∧ (s.ntRuns = true → s.time.nt ≤ ts → s.time.q = .holdover → s.time.uncNt = s.time.nt → s.time.uncFrac = 0 → Leads (.uncUpdate ts) s fun t =>
        t.time.unc = min (s.time.unc + s.rd R.TIME_QACC_HOLD_PPB * (ts.toNat - s.time.nt.toNat) / 10 ^ 9) 0xFFFFFFFF
        ∧ (s.rd R.TIME_UNCMAX_UNC_MAX < t.time.unc → t.time.poor = true)
        ∧ t.time.w = (if s.isOn R.GATE_CTL_WIDEN then (t.time.unc + 999) / 1000 else 0))
    ∧ (s.time.nt ≤ ts → s.isOn R.TIME_CTL_SYNCO_EN = true → s.time.q ≠ .free → s.ntRuns = true →
      ts.toNat % (s.time.syncMs * 1000000) = 0 → Leads (.syncoPulse ts) s fun t => t.time.nt = ts
        ∧ t.time.synco = some ts)
    ∧ (∀ rise, s.time.synco = some rise → Leads .syncoPulseEnd s fun t => t.time.synco = none
        ∧ (s.ntRuns = true → (rise + BitVec.ofNat 64 (s.rd R.TIME_SYNCDLY_SYNCO_W_US * 1000)).toNat ≤ t.time.nt.toNat))
    ∧ (s.ntRuns = true → ticks ≠ 0 → s.isOn R.TIME_LPO_SRC = false → Leads (.lpoSpan false ticks span) s fun t =>
        t.rd R.TIME_LPORATIO_RATIO = min (span * 2 ^ 16 / ticks) (2 ^ 32 - 1) ∧ t.time.spanX = some s.time.nt)
    ∧ (s.ntRuns = true → ticks ≠ 0 → Leads (.lpoSpan true ticks span) s fun t =>
        t.rd R.TIME_RCRATIO_RATIO = min (span * 2 ^ 16 / ticks) (2 ^ 32 - 1) ∧ t.time.spanR = some s.time.nt
        ∧ t.rd R.TIME_LPORATIO_RATIO = if s.isOn R.TIME_LPO_SRC then t.rd R.TIME_RCRATIO_RATIO else s.rd R.TIME_LPORATIO_RATIO)
    ∧ (s.isOn R.TIME_LPO_SRC = false → s.pwr.state ≠ .off → Leads (.lpoFallback ticks) s fun t => t.rd R.TIME_LPO_SRC = 1
        ∧ (s.time.frozen = true → t.rd R.TIME_LPO_SWITCHED = 1
          ∧ t.time.slept = s.time.slept + ticks * s.time.xtalRatio))
    ∧ (s.isOn R.TIME_LPO_SRC = true → s.pwr.state ≠ .off → Leads (.lpoCrystalStart ticks) s fun t => t.rd R.TIME_LPO_SRC = 0)
    ∧ (s.time.frozen = true → s.pwr.xtal = true → s.pwr.state = .run → s.time.frac = 0 →
      let d := s.time.slept + ticks * (if s.isOn R.TIME_LPO_SRC then s.rd R.TIME_RCRATIO_RATIO else s.time.xtalRatio)
      let rise := if s.time.rcUsed then (3 * d + 100 * 2 ^ 16 - 1) / (100 * 2 ^ 16)
        else (d * (s.time.lpoTol + 2) + 10 ^ 6 * 2 ^ 16 - 1) / (10 ^ 6 * 2 ^ 16)
      Leads (.ntResume ticks) s fun t => t.time.nt = s.time.nt + BitVec.ofNat 64 (d / 2 ^ 16)
        ∧ t.time.frac = d % 2 ^ 16 * 2 ^ 24 ∧ t.time.frozen = false
        ∧ t.rd R.TIME_SLPDUR_DUR_MS = min (d / (2 ^ 16 * 10 ^ 6)) (2 ^ 32 - 1)
        ∧ (s.time.q = .free → t.time.q = .free ∧ t.time.unc = min s.time.unc 0xFFFFFFFF)
        ∧ (s.time.q ≠ .free → t.time.q = .slept ∧ t.time.poor = true ∧ t.time.unc = min (s.time.unc + rise) 0xFFFFFFFF
          ∧ t.rd R.TIME_SLPUNC_UNC_ADD = min rise (2 ^ 32 - 1))))

/-- Listen mode: a field makes an armed card IDLE and its loss OFF; each frame that the card takes in its state has
the effect of R368 and is answered at the rate in force, any other sends READY and ACTIVE back, and a device that is not awake
hears none (R361, R364 to R366, R368). Points that R360 to R374 leave open are the model's reading (log entries 44, 48 and 99). -/
def Obligations.CardFrames : Prop :=
  ∀ (s : State) (n : Ch) (sel param : Byte) (known : List Bool) (uid data : List Byte) (dri dsi : BitVec 2), s.canon = true →
    let c := s.card n.val
    let st := s.cardState n.val
    let shadow : Prop := s.emu.arb = .fieldOpen ∧ s.emu.ownCh = n
    let left (t : State) : Prop := (shadow → t.emu = { s.emu with arb := .free } ∧ Counts R.EMU_CNT_1_N_DISCARD s t)
      ∧ (¬ shadow → t.emu = s.emu)
    let back := { c with state := if c.fromHalt then .halt else .idle, ans := [] }
    let ats : List Byte := [0x05, 0x78, [0x00, 0x11, 0x33].getD (s.rd R.EMU_CTL_MAXRATE) 0x33, 0x70, 0x02]
    let frames : List (Instr × List CardState) := [(.emuReqa n, [.idle]), (.emuWupa n, [.idle, .halt]),
      (.emuAnticollision n sel known, [.ready]), (.emuSelect n sel uid, [.ready]), (.emuRats n param, [.active]),
      (.emuPps n dri dsi, [.protocol]), (.emuHlta n, [.active, .protocol]), (.sDeselect n, [.protocol]), (.chainedIBlock n data, [.protocol]),
      (.emuOtherFrame n, [])]
    (s.listens n.val = true → s.isOn R.EMU_CTL_EN = true → s.jobHolds n.val = false → s.maintHolds n.val = false → st = .off →
      s.up = true → (s.pwr.state ≠ .off ∧ (s.pwr.state.low = true → s.isOn R.PWR_WAKEEN_EMU = true)) →
      Leads (.emuFieldDetect n) s fun t => (∃ u, t.card n.val = { state := .idle, field := true, uid := u }
          ∧ (s.rd R.EMU_CTL_UIDMODE = 1 → u = s.fixedUid) ∧ (s.rd R.EMU_CTL_UIDMODE ≠ 1 → u.length = 4 ∧ u.head? = some 0x08))
        ∧ t.rd R.EMU_STAT_FIELD_SEEN = 1 ∧ (∀ p : Port, bitOf (t.pend p.val) 13 = true)
        ∧ (s.pwr.state.low = true → s.pwr.entry = none → t.pwr.state = .run ∧ t.rd R.PWR_LAST_WAKE_SRC = 5
            ∧ t.rd R.PWR_LAST_WAKE_CH = n.val ∧ Counts R.PWR_CNT_1_N_WAKE s t))
    ∧ (s.listenHolds n.val = true → s.pwr.state ≠ .off → Leads (.emuFieldLoss n) s fun t => t.card n.val = {} ∧ left t
        ∧ ∀ p : Port, bitOf (t.pend p.val) 13 = true)
    ∧ (s.cardHears n.val = false → ∀ x ∈ frames, exec x.1 s = .next s)
    ∧ (s.cardHears n.val = true →
      (∀ x ∈ frames, st ∉ x.2 → (st = .ready ∨ st = .active → Leads x.1 s (CardTo n [] s back))
        ∧ (st ≠ .ready → st ≠ .active → exec x.1 s = .next s))
      ∧ (st = .idle → ∀ i ∈ [Instr.emuReqa n, .emuWupa n],
        (s.listenOpen = true → Leads i s (CardTo n [] s { c with state := .ready, fromHalt := false, rate := 0, ans := atqaOf c.uid }))
        ∧ (s.listenOpen = false → exec i s = .next s))
      ∧ (st = .halt → s.listenOpen = true →
        Leads (.emuWupa n) s (CardTo n [] s { c with state := .ready, fromHalt := true, rate := 0, ans := atqaOf c.uid }))
      ∧ (∀ l, st = .ready → levelUid c.uid sel = some l →
        (known.length ≤ 32 → (levelBits l).take known.length = known → Leads (.emuAnticollision n sel known) s
          (CardTo n [] s { c with ans := bitsBytes 5 ((levelBits l).drop known.length) }))
        ∧ ((levelBits l).take known.length ≠ known → Leads (.emuAnticollision n sel known) s (CardTo n [] s back))
        ∧ (uid ≠ l → Leads (.emuSelect n sel uid) s (CardTo n [] s back))
        ∧ (uid = l → c.uid.length = 7 → sel = 0x93 → Leads (.emuSelect n sel uid) s (CardTo n [] s { c with ans := [0x04] }))
        ∧ (uid = l → ¬ (c.uid.length = 7 ∧ sel = 0x93) → Leads (.emuSelect n sel uid) s
          (CardTo n [] s { c with state := .active, ans := [0x20] })))
      ∧ (st = .active → Leads (.emuRats n param) s fun t => Counts R.EMU_CNT_0_N_ACT s t ∧ CardTo n [R.EMU_CNT_0] s
          { c with state := .protocol, cid := param.setWidth 4, rate := 0, app := false, file := none, sigf := [], chain := []
                   blk := true, ans := ats ++ leBytes 2 (crcA ats) } t)
      ∧ (st = .protocol → dri.toNat ≤ s.rd R.EMU_CTL_MAXRATE → dsi.toNat ≤ s.rd R.EMU_CTL_MAXRATE → Leads (.emuPps n dri dsi) s
          (CardAt n [] c.rate s { c with rate := dsi, ans := [0xD0 ||| c.cid.setWidth 8] }))
      ∧ (st = .active → Leads (.emuHlta n) s fun t => t.card n.val = { c with state := .halt, ans := [], load := none } ∧ left t)
      ∧ (st = .protocol → Leads (.emuHlta n) s fun t => t.card n.val = c ∧ left t)
      ∧ (st = .protocol → Leads (.sDeselect n) s fun t => t.card n.val = ({ c with state := .halt, ans := [0xC2] } : Card).sending c.rate ∧ left t)
      ∧ (st = .protocol → Leads (.chainedIBlock n data) s (CardTo n [] s
          { c with chain := (c.chain ++ data).take 262, blk := !c.blk, ans := [if c.blk then 0xA2 else 0xA3] })))

/-- The Type 4 Tag application of a card in PROTOCOL: SELECT by name and by file, READ BINARY, UPDATE BINARY into the
shadow with its promotion, and the status words of what is not taken; the bytes of chained blocks and of the last
block are one C-APDU (R371 to R377, R379). The free status word is in log entry 13; the length checks and chained
blocks follow the model's reading (log entries 48 and 99). -/
def Obligations.PhoneCommands : Prop :=
  ∀ (s : State) (n : Ch) (aid data : List Byte) (fid off : BitVec 16) (le lc : Nat) (cla ins : Byte), s.canon = true →
    s.cardHears n.val = true → s.cardState n.val = .protocol →
    let c := s.card n.val
    let short (l : Nat) : Prop := c.chain = [] ∧ l ≤ 261
    let tails := [(Instr.selectByName n aid, aid), (.selectByFileId n fid, beBytes 2 fid.toNat),
      (.readBinary n off le, [BitVec.ofNat 8 le]), (.updateBinary n off lc data, data), (.emuUnknownApdu n cla ins, [])]
    let alone := s.modCard n fun d => { d with chain := [] }
    let done (d : Card) (sw : Nat) (out : List Byte) (t : State) : Prop :=
      CardTo n [] s { d with chain := [], blk := !c.blk, ans := out ++ beBytes 2 sw } t
    let refused (i : Instr) : Prop := Leads i s fun t => ∃ w : BitVec 16, done c w.toNat [] t
    let part (f : List Byte) : Prop :=
      (f.length ≤ off.toNat → Leads (.readBinary n off le) s (done c 0x6B00 []))
      ∧ (off.toNat < f.length → Leads (.readBinary n off le) s
          (done c 0x9000 ((f.drop off.toNat).take (if le = 0 then 256 else le))))
    (∀ x ∈ [(Instr.selectByName n aid, 5 + aid.length), (.selectByFileId n fid, 7), (.readBinary n off le, 5),
        (.updateBinary n off lc data, 5 + data.length), (.emuUnknownApdu n cla ins, 5)],
      c.chain = [] → 261 < x.2 → Leads x.1 s (done c 0x6700 []))
    ∧ (∀ x ∈ tails, c.chain ≠ [] →
      (261 < c.chain.length + x.2.length → Leads x.1 s (done c 0x6700 []))
      ∧ ∀ (o : BitVec 16) (k : Byte) (body : List Byte),
        (c.chain ++ x.2 = [0x00, 0xD6] ++ beBytes 2 o.toNat ++ [k] ++ body →
          exec x.1 s = exec (.updateBinary n o k.toNat body) alone)
        ∧ (c.chain ++ x.2 = [0x00, 0xB0] ++ beBytes 2 o.toNat ++ [k] → exec x.1 s = exec (.readBinary n o k.toNat) alone)
        ∧ (c.chain ++ x.2 = [0x00, 0xA4, 0x04, 0x00, k] ++ body → body.length = k.toNat →
          exec x.1 s = exec (.selectByName n body) alone)
        ∧ (c.chain ++ x.2 = [0x00, 0xA4, 0x00, 0x0C, 0x02] ++ beBytes 2 o.toNat →
          exec x.1 s = exec (.selectByFileId n o) alone))
    ∧ (short 5 → Leads (.emuUnknownApdu n cla ins) s (done c (if cla = 0 then 0x6D00 else 0x6E00) []))
    ∧ (short (5 + aid.length) →
      (aid = [0xD2, 0x76, 0x00, 0x00, 0x85, 0x01, 0x01] → Leads (.selectByName n aid) s
        (done { c with app := true, file := none, sigf := [] } 0x9000 []))
      ∧ (aid ≠ [0xD2, 0x76, 0x00, 0x00, 0x85, 0x01, 0x01] → refused (.selectByName n aid)))
    ∧ (short 7 → (c.app = false → refused (.selectByFileId n fid)) ∧ (c.app = true →
        let f := fid.toNat
        let sig : Prop := f = s.rd R.EMU_FID_SFID ∧ s.rd R.EMU_CTL_UIDMODE ≠ 0 ∧ s.isOn R.EMU_CTL_SIGF = true
        (f = 0xE103 → Leads (.selectByFileId n fid) s (done { c with file := some .cc } 0x9000 []))
        ∧ (f ≠ 0xE103 → f = s.rd R.EMU_FID_NFID → Leads (.selectByFileId n fid) s (done { c with file := some .ndef } 0x9000 []))
        ∧ (f ≠ 0xE103 → f ≠ s.rd R.EMU_FID_NFID → sig →
            Leads (.selectByFileId n fid) s (done { c with file := some .sig, sigf := s.sigFile } 0x9000 []))
        ∧ (f ≠ 0xE103 → f ≠ s.rd R.EMU_FID_NFID → ¬ sig → Leads (.selectByFileId n fid) s (done c 0x6A82 []))))
    ∧ (short 5 → (c.file = none → refused (.readBinary n off le)) ∧ (c.file = some .cc → part s.ccFile)
      ∧ (c.file = some .sig → part c.sigf) ∧ (c.file = some .ndef → part (Memory.bytes (s.phoneBank n) 0 8192)))
    ∧ (short (5 + data.length) →
      let go := Instr.updateBinary n off lc data
      let k := off.toNat + data.length
      let mine : Prop := s.emu.arb = .free ∨ s.emu.arb = .fieldOpen ∧ s.emu.ownCh = n
      let old := if s.emu.arb = .free then s.published else s.shadow
      let m := Memory.setBytes old off.toNat data
      let promotes : Prop := off.toNat ≤ 1 ∧ data ≠ [] ∧ nlenOf m ≠ 0
      (lc ≠ data.length → Leads go s (done c 0x6700 []))
      ∧ (lc = data.length → s.isOn R.EMU_CTL_FWP = true → Leads go s (done c 0x6982 []))
      ∧ (lc = data.length → s.isOn R.EMU_CTL_FWP = false → (c.file ≠ some .ndef → refused go) ∧ (c.file = some .ndef →
        (¬ mine → Leads go s (done c 0x6985 []))
        ∧ (mine → 8192 < k → Leads go s fun t => (t.card n.val).ans = [0x6B, 0x00] ∧ t.published = s.published ∧ t.shadow = old)
        ∧ (mine → k ≤ 8192 → 8190 < nlenOf m → Leads go s fun t => (t.card n.val).ans = [0x6A, 0x80]
          ∧ t.published = s.published ∧ t.shadow = old)
        ∧ (mine → k ≤ 8192 → nlenOf m ≤ 8190 → ¬ promotes → Leads go s fun t => (t.card n.val).ans = [0x90, 0x00]
          ∧ t.published = s.published ∧ t.shadow = m ∧ t.emu.arb = .fieldOpen ∧ t.emu.ownCh = n)
        ∧ (mine → k ≤ 8192 → nlenOf m ≤ 8190 → promotes → Leads go s fun t => (t.card n.val).ans = [0x90, 0x00]
          ∧ t.published = m ∧ t.emu.arb = .free ∧ t.emu.jpend = true ∧ t.emu.lastSrc = false
          ∧ Counts R.EMU_CNT_0_N_PROMOTE s t ∧ ∀ p : Port, bitOf (t.pend p.val) 14 = true))))

/-- Entering and leaving the power states: an automatic entry and a poll of the waiting agent go on as a POWER frame
does, the timeout abandons an entry, an enabled wake event wakes a sleeping device, ends IDLE or is latched, the
domains come on in order, and the crystal starts or fails (R387, R389, R390, R397 to R401, R403 to R405, R407, R408).
That only a PIN event wakes OFF, which events share a cycle, and which are early, are in log entries 42, 98 and 134. -/
def Obligations.PowerEvents : Prop :=
  ∀ (s : State) (p : Port) (rising : Bool), s.canon = true →
    let pinOk := s.isOn R.PWR_WAKEEN_PIN && rising != s.isOn R.PWR_WAKEEN_PIN_POL
    let timerOk := s.isOn R.PWR_WAKEEN_TIMER && s.rd R.PWR_TIMER_TIMER_MS != 0
    let hostOk := bitOf (s.rd R.PWR_WAKEEN_HOST) p.val
    let refused (reason agent : Nat) (target : PwrState) (s u : State) : Prop := u.pwr = { s.pwr with entry := none }
      ∧ u.rd R.PWR_STAT_REFUSE = reason ∧ u.rd R.PWR_STAT_RDOM = agent ∧ Counts R.PWR_CNT_0_N_REFUSE s u
      ∧ (target.low = true → ∀ q : Port, bitOf (u.pend q.val) 12 = true)
      ∧ (s.locked = true → s.drain = none → s.budg.isOver = false → s.budg.tstate ≠ .hard → u.admissionOpen = true)
    (∀ t, s.isOn R.PWR_CTL_AUTO_EN = true → s.pwr.state = .run → s.pwr.entry = none → s.pwr.waking = false → s.up = true →
      s.quiescent = true → pwrOf (s.rd R.PWR_CTL_AUTO_STATE) = some t →
      let g := if t = .watch ∧ s.watchReady = false then PwrState.sleep else t
      let want : Entry := { target := g, drain := false, agent := 0 }
      Leads .autoEntry s fun u => u.rd R.PWR_STAT_TARGET = g.code ∧
        match (agentsOf g).find? fun k => s.agentAnswer want k != .ack with
        | none => u.pwr.state = g ∧ u.pwr.entry = none ∧ Counts R.PWR_CNT_0_N_ENTRY s u
        | some k => match s.agentAnswer want k with
          | .refuse r => refused r k g s u
          | _ => u.pwr.state = .run ∧ u.pwr.entry = some { want with agent := k })
    ∧ (∀ e, s.pwr.entry = some e → Leads .entryAgentPoll s fun u =>
        match ((agentsOf e.target).filter fun k => decide (e.agent ≤ k)).find? fun k => s.agentAnswer e k != .ack with
        | none => u.pwr.entry = none ∧ (e.latched = [] → u.pwr.state = e.target ∧ Counts R.PWR_CNT_0_N_ENTRY s u)
          ∧ (e.latched ≠ [] → e.target ≠ .off → u.pwr.state = .run ∧ (e.target ≠ .run → e.target ≠ .idle →
              u.rd R.PWR_LAST_WAKE_EARLY = 1 ∧ u.rd R.PWR_LAST_WAKE_FROM = e.target.code))
          ∧ (e.target = .off → .pin ∈ e.latched → u.rd R.SYS_RSTCAUSE_OFFEXIT = 1 ∧ u.pwr = State.reset.pwr)
        | some k => match s.agentAnswer e k with
          | .refuse r => refused r k e.target s u
          | _ => u = { s with pwr := { s.pwr with entry := some { e with agent := k } } })
    ∧ (∀ e, s.pwr.entry = some e → Leads .entryTimeout s (refused 7 (e.agent % 16) e.target s))
    ∧ (s.pwr.entry = none → exec .entryAgentPoll s = .next { s with pwr := { s.pwr with closing := false } }
        ∧ exec .entryTimeout s = .next s)
    ∧ (∀ x ∈ [(Instr.wakePin rising, pinOk, 1), (.hostWake p, hostOk, 2), (.timerWake, timerOk, 3)],
      (s.pwr.entry = none → s.pwr.state = .sleep ∨ s.pwr.state = .watch ∨ s.pwr.state = .deep →
        (x.2.1 = true → Leads x.1 s fun u => u.pwr.state = .run ∧ u.pwr.waking = true ∧ u.pwr.preBoundary = true
          ∧ u.pwr.todo = [11, 10, 0, 1, 2, 3, 4, 5, 6, 7] ∧ u.rd R.PWR_LAST_WAKE_SRC = x.2.2
          ∧ u.rd R.PWR_LAST_WAKE_FROM = s.pwr.state.code ∧ Counts R.PWR_CNT_1_N_WAKE s u
          ∧ (s.pwr.closing = false ∨ x.2.2 = 3 → u.rd R.PWR_LAST_WAKE_EARLY = 0))
        ∧ (x.2.1 = false → exec x.1 s = .next s))
      ∧ (s.pwr.entry = none → s.pwr.state = .idle → x.2.1 = true ∨ x.2.2 = 2 → Leads x.1 s fun u => u.pwr.state = .run)
      ∧ (s.pwr.entry = none → s.pwr.state = .run → s.pwr.waking = false → exec x.1 s = .next s)
      ∧ (∀ e, s.pwr.entry = some e → x.2.2 ≠ 3 → x.2.1 = true → ∃ ev : WakeEv, ev.code = x.2.2 ∧ exec x.1 s =
          .next { s with pwr := { s.pwr with entry := some { e with latched := e.latched ++ [ev] } } }))
    ∧ (∀ k ks, s.pwr.todo = k :: ks → k ≠ 11 → exec .domainPowerUp s = .next { s with
        pwr := { s.pwr with todo := ks, domOn := s.pwr.domOn ||| BitVec.ofNat 12 (2 ^ k) } })
    ∧ (∀ ks, s.pwr.todo = 11 :: 10 :: ks → s.pmb.mode = none → (∀ q : Port, (s.pt q.val).held = [] ∧ (s.pt q.val).heldWrite = none) →
      exec .domainPowerUp s = .next { s with
        pwr := { s.pwr with todo := ks, domOn := s.pwr.domOn ||| 0xC00 } })
    ∧ (s.pwr.state = .run ∨ s.pwr.state = .idle → s.pwr.xtal = false → s.boot ≠ .held → s.thermHold = false →
      (Leads .crystalStable s fun u => u.pwr.xtal = true ∧ u.pwr.domOn = s.pwr.domOn ||| 0x200 ∧ u.rd R.PWR_STAT_XO_FAIL = 0
        ∧ (s.syn.state = .off → u.syn.state = .cal) ∧ (s.boot = .crystal → u.boot = .lock ∧ u.romTest = true))
      ∧ (Leads .crystalStartTimeout s fun u => u.rd R.PWR_STAT_XO_FAIL = 1 ∧ u.pwr = { s.pwr with waking := false }
        ∧ (s.pwr.waking = true → ∀ q : Port, bitOf (u.pend q.val) 12 = true)))

/-- Cold resets, the release of the internal reset, temperatures and maintenance: every cause leaves the registers at
reset with its bit alone set, the reset releases once VIN, VDDIO and RESET_N allow it, TJ_HARD ends jobs, and the fields
that are ON outside an exchange, TJ_SHUT holds the device until it has cooled by 20 °C, the accounts sum the supply's
samples, and work that has waited MAINT_DRAIN_MAX claims its channels or drains them (R303, R311, R315 to R317, R458, R459,
R463, R482, R483, R492). The brown-out, VDDIO, drains, the queue of maintenance and an interrupted measurement follow the
model's reading (log entries 19, 57, 95, 103 and 119). -/
def Obligations.Guards : Prop :=
  ∀ (s : State) (s0 s1 s2 s3 s4 : BitVec 16) (uv mv : Nat), s.canon = true →
    let cold (f : Fld) (t : State) : Prop := (∀ a, t.rdWord a = if a = R.SYS_RSTCAUSE then BitVec.twoPow 32 f.lo else resetWord a)
      ∧ t.jobs = [] ∧ t.sram = [] ∧ t.chans = State.reset.chans
      ∧ t.boot = (if t.vinOk && t.vddioOk && t.resetN then .crystal else .held)
    let sens := [s0.toInt, s1.toInt, s2.toInt, s3.toInt, s4.toInt]
    let die := sens.foldl max s0.toInt
    (Leads .por s fun t => cold R.SYS_RSTCAUSE_POR t ∧ t.vinOk = true ∧ t.resetN = s.resetN
      ∧ (s.vddioOk = true → t.vddioOk = true)
      ∧ (s.flash.cmd = none → t.flash.mem = s.flash.mem))
    ∧ (Leads .brownOut s fun t => cold R.SYS_RSTCAUSE_POR t ∧ t.vinOk = false ∧ t.boot = .held ∧ t.vddioOk = false)
    ∧ (s.pwr.state = .off → s.isOn R.PWR_WAKEEN_PIN = true → Leads .offexit s fun t => cold R.SYS_RSTCAUSE_OFFEXIT t
      ∧ t.vinOk = s.vinOk ∧ t.resetN = s.resetN ∧ t.flash.mem = s.flash.mem ∧ (s.vddioOk = true → t.vddioOk = true))
    ∧ (s.pwr.state ≠ .off → s.vinOk = true → Leads .pinReset s fun t => cold R.SYS_RSTCAUSE_PIN t
      ∧ t.vinOk = true ∧ t.resetN = false ∧ t.boot = .held ∧ t.vddioOk = s.vddioOk
      ∧ (headersSafe s → t.flash.mem = s.flash.mem))
    ∧ (s.pwr.state = .off ∨ s.vinOk = false → exec .pinReset s = .next { s with resetN := false })
    ∧ (exec .vddioGood s = .next { s with
        vddioOk := true, boot := if s.boot = .held ∧ s.vinOk = true ∧ s.resetN = true then .crystal else s.boot })
    ∧ (exec .resetNRelease s = .next { s with
        resetN := true, boot := if s.boot = .held ∧ s.vinOk = true ∧ s.vddioOk = true then .crystal else s.boot })
    ∧ (s.boot ≠ .held → s.pwr.state.low = false → s.thermHold = false →
      (die < s.limS R.BUDG_TLIM_1_TJ_SHUT → Leads (.thermalSample s0 s1 s2 s3 s4) s fun t => t.budg.sens = sens
        ∧ (die < s.limS R.BUDG_TLIM_0_TJ_HARD → t.budg.tstate = s.budg.tstate ∧ t.jobs = s.jobs ∧ t.chans = s.chans)
        ∧ (s.limS R.BUDG_TLIM_0_TJ_HARD ≤ die → s.budg.tstate ≠ .hard → t.budg.tstate = .hard
          ∧ t.rd R.BUDG_TSTAT_HARD_SEEN = 1 ∧ (∀ p : Port, bitOf (t.pend p.val) 5 = true)
          ∧ (∀ n : Ch, (s.ch n.val).field = .on → s.noExchange (s.leadAt n.val) = true → (t.ch n.val).field = .down)
          ∧ (s.jobsOk = true → ∀ j ∈ s.jobs, j.ended = none → (∀ k, t.job? j.id = some k → j.state = .granted → k.state = .posted)
            ∧ (j.state = .running ∨ j.state = .waiting → ∃ k, t.job? j.id = some k
              ∧ (k.ended.isSome = true ∨ k.marked = some rcThermal)))))
      ∧ (s.limS R.BUDG_TLIM_1_TJ_SHUT ≤ die → Leads (.thermalSample s0 s1 s2 s3 s4) s fun t => t.thermHold = true
        ∧ t.budg.tstate = .hard ∧ t.rd R.SYS_RSTCAUSE_THERMAL = 1 ∧ Counts R.SYS_RSTCNT_N_THERM s t ∧ t.syn.state = .off
        ∧ t.pmb.vtxen = false ∧ (∀ j ∈ s.jobs, j.state = .queued → j ∈ t.jobs)
        ∧ ∀ n : Ch, (t.ch n.val).field = .off ∧ t.card n.val = {}))
    ∧ (s.thermHold = true →
      (s.tDie < s.limS R.BUDG_TLIM_1_TJ_SHUT - 320 → Leads .thermalResetRelease s fun t => t.thermHold = false
        ∧ t.syn.state = (if s.pwr.xtal then .cal else .off)
        ∧ (s.boot = .started → t.boot = .started ∧ ∀ p : Port, bitOf (t.pend p.val) 17 = true))
      ∧ (s.limS R.BUDG_TLIM_1_TJ_SHUT - 320 ≤ s.tDie → exec .thermalResetRelease s = .next s))
    ∧ (s.pwr.state = .run ∨ s.pwr.state = .idle → s.boot ≠ .held → s.boot ≠ .crystal →
      exec (.supplySample uv mv) s = .next { s with budg := { s.budg with
        sumP := s.budg.sumP + mv * uv, sumV := s.budg.sumV + mv, sumI := s.budg.sumI + uv, nSamp := s.budg.nSamp + 1 } })
    ∧ (s.pwr.state.low = true → exec (.supplySample uv mv) s = .next s)
    ∧ (s.locked = true → s.drain = none → (∃ m ∈ s.maint, m.kind.isSynth = true ∧ s.overdue m = true) →
      Leads .maintDrainTimeout s fun t => t.drain = some s.time.nt ∧ Counts R.DIAG_CNT_3_N_DRAIN s t
        ∧ ∀ p : Port, bitOf (t.pend p.val) 15 = true)
    ∧ (∀ m, s.maint = [m] → m.kind.isSynth = false → s.overdue m = true → m.claims = false →
      (∀ n : Ch, m.mask.getLsbD n.val = true → (s.claimOf n.val).map Claim.isGold ≠ some true) → Leads .maintDrainTimeout s fun t =>
        ∀ n : Ch, m.mask.getLsbD n.val = true → t.claimOf n.val = some { job := none, cls := .gold, gold := true })
    ∧ (∀ since, s.drain = some since → s.synthDue = true → s.rd R.TIME_MAXEX_MAX_EXCH_US * 1000 ≤ (s.time.nt - since).toNat →
      Leads .drainForce s fun t => (∀ n : Ch, (s.ch n.val).field.live = true → (t.ch n.val).field = .down)
        ∧ (s.locked = true → (∀ n : Ch, (s.ch n.val).field = .off) → t.syn.state ≠ .locked))

/-- No command stops the device: in every state every command answers a next state, and the commands that wait stay as
they are. That an event whose condition does not hold leaves the state is the model's choice (log entry 6). -/
def Obligations.Progress : Prop :=
  ∀ (i : Instr) (s : State), ∃ t, exec i s = .next t ∧ t.pending = s.pending

/-- The state after a power-on reset: every register at its reset value, SRAM zero, no job, fields OFF and sequencers
idle, every port waiting for SEQ 0 with the null reply, RUN, FREE time at 0 with nothing armed, the rail and the
synthesiser off; it is canonical. What the spec gives no reset value for is the model's choice (log entries 1, 2 and
7). -/
def Obligations.ResetState : Prop :=
  let s := State.reset
  (∀ a, s.rdWord a = if a = R.SYS_RSTCAUSE then 1 else resetWord a)
  ∧ (∀ a, s.sb a = 0) ∧ s.jobs = [] ∧ s.pending = [] ∧ s.maint = [] ∧ s.mergeQ = [] ∧ s.locQ = []
  ∧ (∀ n : Ch, (s.ch n.val).field = .off ∧ (s.ch n.val).seq.run = .idle ∧ (s.card n.val).state = .off ∧ s.claimOf n.val = none)
  ∧ (∀ p : Port, (s.pt p.val).cached = {} ∧ (s.pt p.val).carried = {} ∧ (s.pt p.val).lastSeq = 15 ∧ (s.pt p.val).openItem = none)
  ∧ s.pwr.state = .run ∧ s.pwr.entry = none ∧ s.time.nt = 0 ∧ s.time.q = .free ∧ s.time.armed = none
  ∧ s.pmb.state = .off ∧ s.pmb.vtxen = false ∧ s.syn.state = .off ∧ s.emu.arb = .free ∧ s.gate.list = [] ∧ s.boot = .crystal
  ∧ s.canon = true ∧ s.jobsOk = true

/-- Every step keeps the registers and the memories in their one canonical form, and takes no command from the queue
but the first. -/
def Obligations.StepKeepsCanon : Prop :=
  ∀ s t : State, s.canon = true → step s = .next t → t.canon = true ∧ t.pending = s.pending.tail

/-- Every step keeps the serial numbers of the jobs distinct and below the next one, and the ports' open items
distinct. -/
def Obligations.StepKeepsJobs : Prop :=
  ∀ s t : State, s.jobsOk = true → step s = .next t → t.jobsOk = true

/-- The encoding of the sequencers' instructions: the halfword of every instruction is defined, but for AIRT and AIRR
with a reserved bit set (which fault with FCODE 1); every defined halfword is that of an instruction, and two
instructions of one channel with the same halfword are the same instruction (R219 to R225, R231, R237). That unused
fields must be zero is the model's reading (log entry 28). -/
def Obligations.CodeWords : Prop :=
  (∀ i w, codeWord i = some w → w < 65536 ∧ (definedWord w = true ∨ (∃ n imm, i = .airt n imm ∧ 128 ≤ imm.toNat)
    ∨ ∃ n imm, i = .airr n imm ∧ 64 ≤ imm.toNat))
  ∧ (∀ (n : Ch) (w : Nat), w < 65536 → definedWord w = true → ∃ i, codeWord i = some w ∧ seqChan i = some n)
  ∧ ∀ i k w, codeWord i = some w → codeWord k = some w → seqChan i = seqChan k → i = k
end

