-- ==== Sys2Proof/Laws/Sparse.lean ====
section
/-!
SUPPORT. Laws of sparse maps: a read after a write, and the canonical form.
-/

namespace Sys2Proof.Machine

section

variable {α : Type} [DecidableEq α]

/-- A canonical map from a higher bound is canonical from a lower one. -/
theorem swfFrom_mono (d : Nat → α) {lo lo' : Nat} (h : lo' ≤ lo) :
    ∀ m : List (Nat × α), swfFrom d lo m = true → swfFrom d lo' m = true
  | [], _ => rfl
  | (k, v) :: m, hw => by
    simp only [swfFrom, Bool.and_eq_true, decide_eq_true_eq] at hw ⊢
    exact ⟨⟨by omega, hw.1.2⟩, hw.2⟩

/-- Below its bound a canonical map reads as its default. -/
theorem sget_below (d : Nat → α) {lo a : Nat} (h : a < lo) :
    ∀ m : List (Nat × α), swfFrom d lo m = true → sget d m a = d a
  | [], _ => rfl
  | (k, v) :: m, hw => by
    simp only [swfFrom, Bool.and_eq_true, decide_eq_true_eq] at hw
    have hk : k ≠ a := by omega
    simp only [sget, hk, if_false]
    exact sget_below d (lo := k + 1) (by omega) m hw.2

/-- Taking an entry out keeps the canonical form. -/
theorem serase_wf (d : Nat → α) (a : Nat) :
    ∀ (lo : Nat) (m : List (Nat × α)), swfFrom d lo m = true → swfFrom d lo (serase m a) = true
  | _, [], _ => rfl
  | lo, (k, v) :: m, hw => by
    have hw' := hw
    simp only [swfFrom, Bool.and_eq_true, decide_eq_true_eq] at hw
    unfold serase
    split
    · exact swfFrom_mono d (by omega) m hw.2
    · simp only [swfFrom, Bool.and_eq_true, decide_eq_true_eq]
      exact ⟨hw.1, serase_wf d a (k + 1) m hw.2⟩

/-- Putting in an entry that is not the default keeps the canonical form. -/
theorem sinsert_wf (d : Nat → α) (a : Nat) (x : α) (hx : x ≠ d a) :
    ∀ (lo : Nat) (m : List (Nat × α)), lo ≤ a → swfFrom d lo m = true → swfFrom d lo (sinsert m a x) = true
  | lo, [], ha, _ => by simp [sinsert, swfFrom, ha, hx]
  | lo, (k, v) :: m, ha, hw => by
    simp only [swfFrom, Bool.and_eq_true, decide_eq_true_eq] at hw
    unfold sinsert
    split
    · rename_i hak
      simp only [swfFrom, Bool.and_eq_true, decide_eq_true_eq]
      exact ⟨⟨ha, hx⟩, ⟨by omega, hw.1.2⟩, hw.2⟩
    · split
      · rename_i _ hak
        subst hak
        simp only [swfFrom, Bool.and_eq_true, decide_eq_true_eq]
        exact ⟨⟨ha, hx⟩, hw.2⟩
      · rename_i h1 h2
        simp only [swfFrom, Bool.and_eq_true, decide_eq_true_eq]
        exact ⟨hw.1, sinsert_wf d a x hx (k + 1) m (by omega) hw.2⟩

/-- A write keeps the canonical form. -/
theorem sput_wf (d : Nat → α) (m : List (Nat × α)) (a : Nat) (x : α) (hm : swf d m = true) : swf d (sput d m a x) = true := by
  unfold sput swf at *
  split
  · exact serase_wf d a 0 m hm
  · rename_i hx
    exact sinsert_wf d a x hx 0 m (Nat.zero_le a) hm

/-- Entries of a canonical map that satisfy a test form a canonical map. -/
theorem filter_wf (d : Nat → α) (p : Nat × α → Bool) :
    ∀ (lo : Nat) (m : List (Nat × α)), swfFrom d lo m = true → swfFrom d lo (m.filter p) = true
  | _, [], _ => rfl
  | lo, (k, v) :: m, hw => by
    simp only [swfFrom, Bool.and_eq_true, decide_eq_true_eq] at hw
    have ih := filter_wf d p (k + 1) m hw.2
    by_cases hp : p (k, v) = true
    · simp only [List.filter_cons, hp, if_true, swfFrom, Bool.and_eq_true, decide_eq_true_eq]
      exact ⟨hw.1, ih⟩
    · simp only [List.filter_cons, hp]
      exact swfFrom_mono d (by omega) _ ih

/-- A read where the entry was taken out. -/
theorem sget_serase_same (d : Nat → α) (a : Nat) :
    ∀ (lo : Nat) (m : List (Nat × α)), swfFrom d lo m = true → sget d (serase m a) a = d a
  | _, [], _ => rfl
  | lo, (k, v) :: m, hw => by
    simp only [swfFrom, Bool.and_eq_true, decide_eq_true_eq] at hw
    unfold serase
    split
    · rename_i hk
      subst hk
      exact sget_below d (Nat.lt_succ_self k) m hw.2
    · rename_i hk
      simp only [sget, hk, if_false]
      exact sget_serase_same d a (k + 1) m hw.2

omit [DecidableEq α] in
/-- A read of another address after an entry was taken out. -/
theorem sget_serase_other (d : Nat → α) {a b : Nat} (h : b ≠ a) (m : List (Nat × α)) : sget d (serase m a) b = sget d m b := by
  induction m with
  | nil => rfl
  | cons c m ih =>
    obtain ⟨k, v⟩ := c
    unfold serase
    split
    · rename_i hk
      have : k ≠ b := by omega
      simp [sget, this]
    · simp only [sget, ih]

omit [DecidableEq α] in
/-- A read of another address after an entry was put in. -/
theorem sget_sinsert_other (d : Nat → α) {a b : Nat} (h : b ≠ a) (x : α) (m : List (Nat × α)) :
    sget d (sinsert m a x) b = sget d m b := by
  have hab : a ≠ b := fun e => h e.symm
  induction m with
  | nil => simp [sinsert, sget, hab]
  | cons c m ih =>
    obtain ⟨k, v⟩ := c
    unfold sinsert
    split
    · simp [sget, hab]
    · split
      · rename_i hk
        subst hk
        simp [sget, hab]
      · simp only [sget, ih]

omit [DecidableEq α] in
/-- A read where an entry was put in. -/
theorem sget_sinsert_same (d : Nat → α) (a : Nat) (x : α) (m : List (Nat × α)) : sget d (sinsert m a x) a = x := by
  induction m with
  | nil => simp [sinsert, sget]
  | cons c m ih =>
    obtain ⟨k, v⟩ := c
    unfold sinsert
    split
    · simp [sget]
    · split
      · simp [sget]
      · rename_i _ hk
        have : k ≠ a := fun e => hk e.symm
        simp only [sget, this, if_false]
        exact ih

/-- A read after a write to the same address. -/
theorem sget_sput_same (d : Nat → α) (m : List (Nat × α)) (a : Nat) (x : α) (hm : swf d m = true) : sget d (sput d m a x) a = x := by
  unfold sput
  split
  · rename_i hx
    rw [hx]
    exact sget_serase_same d a 0 m hm
  · exact sget_sinsert_same d a x m

/-- A read of another address after a write. -/
theorem sget_sput_other (d : Nat → α) (m : List (Nat × α)) {a b : Nat} (x : α) (h : b ≠ a) : sget d (sput d m a x) b = sget d m b := by
  unfold sput
  split
  · exact sget_serase_other d h m
  · exact sget_sinsert_other d h x m

end

/-! ## Memory -/

/-- Writing a byte keeps the canonical form. -/
theorem Memory.set_wf (m : Memory) (a : Nat) (b : Byte) (h : Memory.wf m = true) : Memory.wf (Memory.set m a b) = true :=
  sput_wf sramDefault m a b h

/-- Writing bytes keeps the canonical form. -/
theorem Memory.setBytes_wf : ∀ (bs : List Byte) (m : Memory) (a : Nat), Memory.wf m = true → Memory.wf (Memory.setBytes m a bs) = true
  | [], _, _, h => h
  | b :: bs, m, a, h => Memory.setBytes_wf bs (Memory.set m a b) (a + 1) (Memory.set_wf m a b h)

/-- A byte outside the bytes written reads as before. -/
theorem Memory.byte_setBytes_other :
    ∀ (bs : List Byte) (m : Memory) (a b : Nat), (b < a ∨ a + bs.length ≤ b) → Memory.byte (Memory.setBytes m a bs) b = Memory.byte m b
  | [], _, _, _, _ => rfl
  | x :: bs, m, a, b, h => by
    simp only [List.length_cons] at h
    simp only [Memory.setBytes]
    rw [Memory.byte_setBytes_other bs (Memory.set m a x) (a + 1) b (by omega)]
    exact sget_sput_other sramDefault m x (by omega)

/-- A byte written reads as written. -/
theorem Memory.byte_setBytes_same :
    ∀ (bs : List Byte) (m : Memory) (a i : Nat), Memory.wf m = true → (h : i < bs.length) →
      Memory.byte (Memory.setBytes m a bs) (a + i) = bs[i]
  | x :: bs, m, a, 0, hm, _ => by
    simp only [Memory.setBytes, Nat.add_zero, List.getElem_cons_zero]
    rw [Memory.byte_setBytes_other bs (Memory.set m a x) (a + 1) a (by omega)]
    exact sget_sput_same sramDefault m a x hm
  | x :: bs, m, a, i + 1, hm, h => by
    simp only [Memory.setBytes, List.getElem_cons_succ]
    have := Memory.byte_setBytes_same bs (Memory.set m a x) (a + 1) i (Memory.set_wf m a x hm)
      (by simpa using h)
    rw [show a + (i + 1) = a + 1 + i by omega]
    exact this

end Sys2Proof.Machine
end

