-- ==== Sys2Proof/Laws/Bits.lean ====
section
/-!
SUPPORT. Laws of bit fields and of register fields.
-/

namespace Sys2Proof.Machine

/-- A bit of a field. -/
theorem getBits_testBit (x : Word) (lo w i : Nat) :
    (getBits x lo w).testBit i = (decide (i < w) && x.getLsbD (lo + i)) := by
  simp [getBits, bitsOf, Nat.testBit_mod_two_pow, Nat.testBit_shiftRight, BitVec.getLsbD]

/-- A bit of a word whose field was set. -/
theorem setBits_getLsbD (x : Word) (lo w v i : Nat) (hi : i < 32) :
    (setBits x lo w v).getLsbD i = if lo ≤ i ∧ i < lo + w then v.testBit (i - lo) else x.getLsbD i := by
  simp only [setBits, BitVec.getLsbD_or, BitVec.getLsbD_and, BitVec.getLsbD_not, BitVec.getLsbD_ofNat, hi,
    decide_true, Bool.true_and, Nat.testBit_shiftLeft, Nat.testBit_two_pow_sub_one]
  by_cases h1 : lo ≤ i
  · by_cases h2 : i - lo < w
    · have h3 : i < lo + w := by omega
      simp [h1, h2, h3]
    · have h3 : ¬ i < lo + w := by omega
      simp [h1, h2, h3]
  · simp [h1]

/-- A field that was set reads the low bits of its value. -/
theorem getBits_setBits_same (x : Word) (lo w v : Nat) (h : lo + w ≤ 32) : getBits (setBits x lo w v) lo w = v % 2 ^ w := by
  apply Nat.eq_of_testBit_eq
  intro i
  rw [getBits_testBit, Nat.testBit_mod_two_pow]
  by_cases hi : i < w
  · have h1 : lo + i < 32 := by omega
    rw [setBits_getLsbD x lo w v (lo + i) h1]
    simp [hi]
  · simp [hi]

/-- A field reads as before when one that it does not meet was set. -/
theorem getBits_setBits_other (x : Word) (lo w v lo' w' : Nat) (h : lo' + w' ≤ lo ∨ lo + w ≤ lo') :
    getBits (setBits x lo w v) lo' w' = getBits x lo' w' := by
  apply Nat.eq_of_testBit_eq
  intro i
  rw [getBits_testBit, getBits_testBit]
  by_cases hi : i < w'
  · by_cases h1 : lo' + i < 32
    · rw [setBits_getLsbD x lo w v (lo' + i) h1]
      have h2 : ¬ (lo ≤ lo' + i ∧ lo' + i < lo + w) := by omega
      simp [h2]
    · have a1 : (setBits x lo w v).getLsbD (lo' + i) = false := BitVec.getLsbD_of_ge _ _ (by omega)
      have a2 : x.getLsbD (lo' + i) = false := BitVec.getLsbD_of_ge _ _ (by omega)
      rw [a1, a2]
  · simp [hi]

/-! ## Registers -/

/-- The register file is canonical. -/
def RegFile.wf (m : RegFile) : Bool := swf resetWord m

/-- A register that was stored reads as stored. -/
theorem State.rdWord_wrWord_same (s : State) (a : Nat) (w : Word) (h : RegFile.wf s.regs = true) : (s.wrWord a w).rdWord a = w :=
  sget_sput_same resetWord s.regs a w h

/-- Another register reads as before. -/
theorem State.rdWord_wrWord_other (s : State) {a b : Nat} (w : Word) (h : b ≠ a) : (s.wrWord a w).rdWord b = s.rdWord b :=
  sget_sput_other resetWord s.regs w h

/-- Storing a register keeps the register file canonical. -/
theorem State.wrWord_wf (s : State) (a : Nat) (w : Word) (h : RegFile.wf s.regs = true) : RegFile.wf (s.wrWord a w).regs = true :=
  sput_wf resetWord s.regs a w h

/-- Setting a field keeps the register file canonical. -/
theorem State.wr_wf (s : State) (f : Fld) (v : Nat) (h : RegFile.wf s.regs = true) : RegFile.wf (s.wr f v).regs = true :=
  s.wrWord_wf f.addr _ h

/-- A field that was set reads the low bits of its value. -/
theorem State.rd_wr_same (s : State) (f : Fld) (v : Nat) (h : RegFile.wf s.regs = true) (hf : f.lo + f.w ≤ 32) :
    (s.wr f v).rd f = v % 2 ^ f.w := by
  unfold State.rd State.wr
  rw [s.rdWord_wrWord_same f.addr _ h]
  exact getBits_setBits_same _ _ _ _ hf

/-- A field reads as before when a field of another register, or one of the same register that it does not meet, was set. -/
theorem State.rd_wr_other (s : State) (f g : Fld) (v : Nat) (h : RegFile.wf s.regs = true)
    (hg : g.addr ≠ f.addr ∨ g.lo + g.w ≤ f.lo ∨ f.lo + f.w ≤ g.lo) : (s.wr f v).rd g = s.rd g := by
  by_cases ha : g.addr = f.addr
  · unfold State.rd State.wr
    rw [ha, s.rdWord_wrWord_same f.addr _ h]
    exact getBits_setBits_other _ _ _ _ _ _ (by omega)
  · unfold State.rd State.wr
    rw [s.rdWord_wrWord_other _ ha]

end Sys2Proof.Machine
end

