-- ==== Sys2Proof/Laws/State.lean ====
section
/-!
SUPPORT. What each named update of the state leaves as it was: one lemma for each field.
-/

namespace Sys2Proof.Machine

/-! ### wrWord -/

@[simp] theorem State.wrWord_sram (s : State) (a : Nat) (w : Word) : (s.wrWord a w).sram = s.sram := rfl
@[simp] theorem State.wrWord_ports (s : State) (a : Nat) (w : Word) : (s.wrWord a w).ports = s.ports := rfl
@[simp] theorem State.wrWord_chans (s : State) (a : Nat) (w : Word) : (s.wrWord a w).chans = s.chans := rfl
@[simp] theorem State.wrWord_jobs (s : State) (a : Nat) (w : Word) : (s.wrWord a w).jobs = s.jobs := rfl
@[simp] theorem State.wrWord_nextJob (s : State) (a : Nat) (w : Word) : (s.wrWord a w).nextJob = s.nextJob := rfl
@[simp] theorem State.wrWord_queues (s : State) (a : Nat) (w : Word) : (s.wrWord a w).queues = s.queues := rfl
@[simp] theorem State.wrWord_rr (s : State) (a : Nat) (w : Word) : (s.wrWord a w).rr = s.rr := rfl
@[simp] theorem State.wrWord_rings (s : State) (a : Nat) (w : Word) : (s.wrWord a w).rings = s.rings := rfl
@[simp] theorem State.wrWord_claims (s : State) (a : Nat) (w : Word) : (s.wrWord a w).claims = s.claims := rfl
@[simp] theorem State.wrWord_syn (s : State) (a : Nat) (w : Word) : (s.wrWord a w).syn = s.syn := rfl
@[simp] theorem State.wrWord_time (s : State) (a : Nat) (w : Word) : (s.wrWord a w).time = s.time := rfl
@[simp] theorem State.wrWord_gate (s : State) (a : Nat) (w : Word) : (s.wrWord a w).gate = s.gate := rfl
@[simp] theorem State.wrWord_budg (s : State) (a : Nat) (w : Word) : (s.wrWord a w).budg = s.budg := rfl
@[simp] theorem State.wrWord_mergeQ (s : State) (a : Nat) (w : Word) : (s.wrWord a w).mergeQ = s.mergeQ := rfl
@[simp] theorem State.wrWord_invCmd (s : State) (a : Nat) (w : Word) : (s.wrWord a w).invCmd = s.invCmd := rfl
@[simp] theorem State.wrWord_cry (s : State) (a : Nat) (w : Word) : (s.wrWord a w).cry = s.cry := rfl
@[simp] theorem State.wrWord_locQ (s : State) (a : Nat) (w : Word) : (s.wrWord a w).locQ = s.locQ := rfl
@[simp] theorem State.wrWord_nextLoc (s : State) (a : Nat) (w : Word) : (s.wrWord a w).nextLoc = s.nextLoc := rfl
@[simp] theorem State.wrWord_cards (s : State) (a : Nat) (w : Word) : (s.wrWord a w).cards = s.cards := rfl
@[simp] theorem State.wrWord_emu (s : State) (a : Nat) (w : Word) : (s.wrWord a w).emu = s.emu := rfl
@[simp] theorem State.wrWord_pwr (s : State) (a : Nat) (w : Word) : (s.wrWord a w).pwr = s.pwr := rfl
@[simp] theorem State.wrWord_watch (s : State) (a : Nat) (w : Word) : (s.wrWord a w).watch = s.watch := rfl
@[simp] theorem State.wrWord_pmb (s : State) (a : Nat) (w : Word) : (s.wrWord a w).pmb = s.pmb := rfl
@[simp] theorem State.wrWord_flash (s : State) (a : Nat) (w : Word) : (s.wrWord a w).flash = s.flash := rfl
@[simp] theorem State.wrWord_maint (s : State) (a : Nat) (w : Word) : (s.wrWord a w).maint = s.maint := rfl
@[simp] theorem State.wrWord_drain (s : State) (a : Nat) (w : Word) : (s.wrWord a w).drain = s.drain := rfl
@[simp] theorem State.wrWord_romTest (s : State) (a : Nat) (w : Word) : (s.wrWord a w).romTest = s.romTest := rfl
@[simp] theorem State.wrWord_committed (s : State) (a : Nat) (w : Word) : (s.wrWord a w).committed = s.committed := rfl
@[simp] theorem State.wrWord_boot (s : State) (a : Nat) (w : Word) : (s.wrWord a w).boot = s.boot := rfl
@[simp] theorem State.wrWord_bootCal (s : State) (a : Nat) (w : Word) : (s.wrWord a w).bootCal = s.bootCal := rfl
@[simp] theorem State.wrWord_bootDisc (s : State) (a : Nat) (w : Word) : (s.wrWord a w).bootDisc = s.bootDisc := rfl
@[simp] theorem State.wrWord_vinOk (s : State) (a : Nat) (w : Word) : (s.wrWord a w).vinOk = s.vinOk := rfl
@[simp] theorem State.wrWord_vddioOk (s : State) (a : Nat) (w : Word) : (s.wrWord a w).vddioOk = s.vddioOk := rfl
@[simp] theorem State.wrWord_resetN (s : State) (a : Nat) (w : Word) : (s.wrWord a w).resetN = s.resetN := rfl
@[simp] theorem State.wrWord_thermHold (s : State) (a : Nat) (w : Word) : (s.wrWord a w).thermHold = s.thermHold := rfl
@[simp] theorem State.wrWord_ringsUsed (s : State) (a : Nat) (w : Word) : (s.wrWord a w).ringsUsed = s.ringsUsed := rfl
@[simp] theorem State.wrWord_fresh (s : State) (a : Nat) (w : Word) : (s.wrWord a w).fresh = s.fresh := rfl
@[simp] theorem State.wrWord_pending (s : State) (a : Nat) (w : Word) : (s.wrWord a w).pending = s.pending := rfl

/-! ### wr -/

@[simp] theorem State.wr_sram (s : State) (f : Fld) (v : Nat) : (s.wr f v).sram = s.sram := rfl
@[simp] theorem State.wr_ports (s : State) (f : Fld) (v : Nat) : (s.wr f v).ports = s.ports := rfl
@[simp] theorem State.wr_chans (s : State) (f : Fld) (v : Nat) : (s.wr f v).chans = s.chans := rfl
@[simp] theorem State.wr_jobs (s : State) (f : Fld) (v : Nat) : (s.wr f v).jobs = s.jobs := rfl
@[simp] theorem State.wr_nextJob (s : State) (f : Fld) (v : Nat) : (s.wr f v).nextJob = s.nextJob := rfl
@[simp] theorem State.wr_queues (s : State) (f : Fld) (v : Nat) : (s.wr f v).queues = s.queues := rfl
@[simp] theorem State.wr_rr (s : State) (f : Fld) (v : Nat) : (s.wr f v).rr = s.rr := rfl
@[simp] theorem State.wr_rings (s : State) (f : Fld) (v : Nat) : (s.wr f v).rings = s.rings := rfl
@[simp] theorem State.wr_claims (s : State) (f : Fld) (v : Nat) : (s.wr f v).claims = s.claims := rfl
@[simp] theorem State.wr_syn (s : State) (f : Fld) (v : Nat) : (s.wr f v).syn = s.syn := rfl
@[simp] theorem State.wr_time (s : State) (f : Fld) (v : Nat) : (s.wr f v).time = s.time := rfl
@[simp] theorem State.wr_gate (s : State) (f : Fld) (v : Nat) : (s.wr f v).gate = s.gate := rfl
@[simp] theorem State.wr_budg (s : State) (f : Fld) (v : Nat) : (s.wr f v).budg = s.budg := rfl
@[simp] theorem State.wr_mergeQ (s : State) (f : Fld) (v : Nat) : (s.wr f v).mergeQ = s.mergeQ := rfl
@[simp] theorem State.wr_invCmd (s : State) (f : Fld) (v : Nat) : (s.wr f v).invCmd = s.invCmd := rfl
@[simp] theorem State.wr_cry (s : State) (f : Fld) (v : Nat) : (s.wr f v).cry = s.cry := rfl
@[simp] theorem State.wr_locQ (s : State) (f : Fld) (v : Nat) : (s.wr f v).locQ = s.locQ := rfl
@[simp] theorem State.wr_nextLoc (s : State) (f : Fld) (v : Nat) : (s.wr f v).nextLoc = s.nextLoc := rfl
@[simp] theorem State.wr_cards (s : State) (f : Fld) (v : Nat) : (s.wr f v).cards = s.cards := rfl
@[simp] theorem State.wr_emu (s : State) (f : Fld) (v : Nat) : (s.wr f v).emu = s.emu := rfl
@[simp] theorem State.wr_pwr (s : State) (f : Fld) (v : Nat) : (s.wr f v).pwr = s.pwr := rfl
@[simp] theorem State.wr_watch (s : State) (f : Fld) (v : Nat) : (s.wr f v).watch = s.watch := rfl
@[simp] theorem State.wr_pmb (s : State) (f : Fld) (v : Nat) : (s.wr f v).pmb = s.pmb := rfl
@[simp] theorem State.wr_flash (s : State) (f : Fld) (v : Nat) : (s.wr f v).flash = s.flash := rfl
@[simp] theorem State.wr_maint (s : State) (f : Fld) (v : Nat) : (s.wr f v).maint = s.maint := rfl
@[simp] theorem State.wr_drain (s : State) (f : Fld) (v : Nat) : (s.wr f v).drain = s.drain := rfl
@[simp] theorem State.wr_romTest (s : State) (f : Fld) (v : Nat) : (s.wr f v).romTest = s.romTest := rfl
@[simp] theorem State.wr_committed (s : State) (f : Fld) (v : Nat) : (s.wr f v).committed = s.committed := rfl
@[simp] theorem State.wr_boot (s : State) (f : Fld) (v : Nat) : (s.wr f v).boot = s.boot := rfl
@[simp] theorem State.wr_bootCal (s : State) (f : Fld) (v : Nat) : (s.wr f v).bootCal = s.bootCal := rfl
@[simp] theorem State.wr_bootDisc (s : State) (f : Fld) (v : Nat) : (s.wr f v).bootDisc = s.bootDisc := rfl
@[simp] theorem State.wr_vinOk (s : State) (f : Fld) (v : Nat) : (s.wr f v).vinOk = s.vinOk := rfl
@[simp] theorem State.wr_vddioOk (s : State) (f : Fld) (v : Nat) : (s.wr f v).vddioOk = s.vddioOk := rfl
@[simp] theorem State.wr_resetN (s : State) (f : Fld) (v : Nat) : (s.wr f v).resetN = s.resetN := rfl
@[simp] theorem State.wr_thermHold (s : State) (f : Fld) (v : Nat) : (s.wr f v).thermHold = s.thermHold := rfl
@[simp] theorem State.wr_ringsUsed (s : State) (f : Fld) (v : Nat) : (s.wr f v).ringsUsed = s.ringsUsed := rfl
@[simp] theorem State.wr_fresh (s : State) (f : Fld) (v : Nat) : (s.wr f v).fresh = s.fresh := rfl
@[simp] theorem State.wr_pending (s : State) (f : Fld) (v : Nat) : (s.wr f v).pending = s.pending := rfl

/-! ### wrS -/

@[simp] theorem State.wrS_sram (s : State) (f : Fld) (v : Int) : (s.wrS f v).sram = s.sram := rfl
@[simp] theorem State.wrS_ports (s : State) (f : Fld) (v : Int) : (s.wrS f v).ports = s.ports := rfl
@[simp] theorem State.wrS_chans (s : State) (f : Fld) (v : Int) : (s.wrS f v).chans = s.chans := rfl
@[simp] theorem State.wrS_jobs (s : State) (f : Fld) (v : Int) : (s.wrS f v).jobs = s.jobs := rfl
@[simp] theorem State.wrS_nextJob (s : State) (f : Fld) (v : Int) : (s.wrS f v).nextJob = s.nextJob := rfl
@[simp] theorem State.wrS_queues (s : State) (f : Fld) (v : Int) : (s.wrS f v).queues = s.queues := rfl
@[simp] theorem State.wrS_rr (s : State) (f : Fld) (v : Int) : (s.wrS f v).rr = s.rr := rfl
@[simp] theorem State.wrS_rings (s : State) (f : Fld) (v : Int) : (s.wrS f v).rings = s.rings := rfl
@[simp] theorem State.wrS_claims (s : State) (f : Fld) (v : Int) : (s.wrS f v).claims = s.claims := rfl
@[simp] theorem State.wrS_syn (s : State) (f : Fld) (v : Int) : (s.wrS f v).syn = s.syn := rfl
@[simp] theorem State.wrS_time (s : State) (f : Fld) (v : Int) : (s.wrS f v).time = s.time := rfl
@[simp] theorem State.wrS_gate (s : State) (f : Fld) (v : Int) : (s.wrS f v).gate = s.gate := rfl
@[simp] theorem State.wrS_budg (s : State) (f : Fld) (v : Int) : (s.wrS f v).budg = s.budg := rfl
@[simp] theorem State.wrS_mergeQ (s : State) (f : Fld) (v : Int) : (s.wrS f v).mergeQ = s.mergeQ := rfl
@[simp] theorem State.wrS_invCmd (s : State) (f : Fld) (v : Int) : (s.wrS f v).invCmd = s.invCmd := rfl
@[simp] theorem State.wrS_cry (s : State) (f : Fld) (v : Int) : (s.wrS f v).cry = s.cry := rfl
@[simp] theorem State.wrS_locQ (s : State) (f : Fld) (v : Int) : (s.wrS f v).locQ = s.locQ := rfl
@[simp] theorem State.wrS_nextLoc (s : State) (f : Fld) (v : Int) : (s.wrS f v).nextLoc = s.nextLoc := rfl
@[simp] theorem State.wrS_cards (s : State) (f : Fld) (v : Int) : (s.wrS f v).cards = s.cards := rfl
@[simp] theorem State.wrS_emu (s : State) (f : Fld) (v : Int) : (s.wrS f v).emu = s.emu := rfl
@[simp] theorem State.wrS_pwr (s : State) (f : Fld) (v : Int) : (s.wrS f v).pwr = s.pwr := rfl
@[simp] theorem State.wrS_watch (s : State) (f : Fld) (v : Int) : (s.wrS f v).watch = s.watch := rfl
@[simp] theorem State.wrS_pmb (s : State) (f : Fld) (v : Int) : (s.wrS f v).pmb = s.pmb := rfl
@[simp] theorem State.wrS_flash (s : State) (f : Fld) (v : Int) : (s.wrS f v).flash = s.flash := rfl
@[simp] theorem State.wrS_maint (s : State) (f : Fld) (v : Int) : (s.wrS f v).maint = s.maint := rfl
@[simp] theorem State.wrS_drain (s : State) (f : Fld) (v : Int) : (s.wrS f v).drain = s.drain := rfl
@[simp] theorem State.wrS_romTest (s : State) (f : Fld) (v : Int) : (s.wrS f v).romTest = s.romTest := rfl
@[simp] theorem State.wrS_committed (s : State) (f : Fld) (v : Int) : (s.wrS f v).committed = s.committed := rfl
@[simp] theorem State.wrS_boot (s : State) (f : Fld) (v : Int) : (s.wrS f v).boot = s.boot := rfl
@[simp] theorem State.wrS_bootCal (s : State) (f : Fld) (v : Int) : (s.wrS f v).bootCal = s.bootCal := rfl
@[simp] theorem State.wrS_bootDisc (s : State) (f : Fld) (v : Int) : (s.wrS f v).bootDisc = s.bootDisc := rfl
@[simp] theorem State.wrS_vinOk (s : State) (f : Fld) (v : Int) : (s.wrS f v).vinOk = s.vinOk := rfl
@[simp] theorem State.wrS_vddioOk (s : State) (f : Fld) (v : Int) : (s.wrS f v).vddioOk = s.vddioOk := rfl
@[simp] theorem State.wrS_resetN (s : State) (f : Fld) (v : Int) : (s.wrS f v).resetN = s.resetN := rfl
@[simp] theorem State.wrS_thermHold (s : State) (f : Fld) (v : Int) : (s.wrS f v).thermHold = s.thermHold := rfl
@[simp] theorem State.wrS_ringsUsed (s : State) (f : Fld) (v : Int) : (s.wrS f v).ringsUsed = s.ringsUsed := rfl
@[simp] theorem State.wrS_fresh (s : State) (f : Fld) (v : Int) : (s.wrS f v).fresh = s.fresh := rfl
@[simp] theorem State.wrS_pending (s : State) (f : Fld) (v : Int) : (s.wrS f v).pending = s.pending := rfl

/-! ### wrSat -/

@[simp] theorem State.wrSat_sram (s : State) (f : Fld) (v : Nat) : (s.wrSat f v).sram = s.sram := rfl
@[simp] theorem State.wrSat_ports (s : State) (f : Fld) (v : Nat) : (s.wrSat f v).ports = s.ports := rfl
@[simp] theorem State.wrSat_chans (s : State) (f : Fld) (v : Nat) : (s.wrSat f v).chans = s.chans := rfl
@[simp] theorem State.wrSat_jobs (s : State) (f : Fld) (v : Nat) : (s.wrSat f v).jobs = s.jobs := rfl
@[simp] theorem State.wrSat_nextJob (s : State) (f : Fld) (v : Nat) : (s.wrSat f v).nextJob = s.nextJob := rfl
@[simp] theorem State.wrSat_queues (s : State) (f : Fld) (v : Nat) : (s.wrSat f v).queues = s.queues := rfl
@[simp] theorem State.wrSat_rr (s : State) (f : Fld) (v : Nat) : (s.wrSat f v).rr = s.rr := rfl
@[simp] theorem State.wrSat_rings (s : State) (f : Fld) (v : Nat) : (s.wrSat f v).rings = s.rings := rfl
@[simp] theorem State.wrSat_claims (s : State) (f : Fld) (v : Nat) : (s.wrSat f v).claims = s.claims := rfl
@[simp] theorem State.wrSat_syn (s : State) (f : Fld) (v : Nat) : (s.wrSat f v).syn = s.syn := rfl
@[simp] theorem State.wrSat_time (s : State) (f : Fld) (v : Nat) : (s.wrSat f v).time = s.time := rfl
@[simp] theorem State.wrSat_gate (s : State) (f : Fld) (v : Nat) : (s.wrSat f v).gate = s.gate := rfl
@[simp] theorem State.wrSat_budg (s : State) (f : Fld) (v : Nat) : (s.wrSat f v).budg = s.budg := rfl
@[simp] theorem State.wrSat_mergeQ (s : State) (f : Fld) (v : Nat) : (s.wrSat f v).mergeQ = s.mergeQ := rfl
@[simp] theorem State.wrSat_invCmd (s : State) (f : Fld) (v : Nat) : (s.wrSat f v).invCmd = s.invCmd := rfl
@[simp] theorem State.wrSat_cry (s : State) (f : Fld) (v : Nat) : (s.wrSat f v).cry = s.cry := rfl
@[simp] theorem State.wrSat_locQ (s : State) (f : Fld) (v : Nat) : (s.wrSat f v).locQ = s.locQ := rfl
@[simp] theorem State.wrSat_nextLoc (s : State) (f : Fld) (v : Nat) : (s.wrSat f v).nextLoc = s.nextLoc := rfl
@[simp] theorem State.wrSat_cards (s : State) (f : Fld) (v : Nat) : (s.wrSat f v).cards = s.cards := rfl
@[simp] theorem State.wrSat_emu (s : State) (f : Fld) (v : Nat) : (s.wrSat f v).emu = s.emu := rfl
@[simp] theorem State.wrSat_pwr (s : State) (f : Fld) (v : Nat) : (s.wrSat f v).pwr = s.pwr := rfl
@[simp] theorem State.wrSat_watch (s : State) (f : Fld) (v : Nat) : (s.wrSat f v).watch = s.watch := rfl
@[simp] theorem State.wrSat_pmb (s : State) (f : Fld) (v : Nat) : (s.wrSat f v).pmb = s.pmb := rfl
@[simp] theorem State.wrSat_flash (s : State) (f : Fld) (v : Nat) : (s.wrSat f v).flash = s.flash := rfl
@[simp] theorem State.wrSat_maint (s : State) (f : Fld) (v : Nat) : (s.wrSat f v).maint = s.maint := rfl
@[simp] theorem State.wrSat_drain (s : State) (f : Fld) (v : Nat) : (s.wrSat f v).drain = s.drain := rfl
@[simp] theorem State.wrSat_romTest (s : State) (f : Fld) (v : Nat) : (s.wrSat f v).romTest = s.romTest := rfl
@[simp] theorem State.wrSat_committed (s : State) (f : Fld) (v : Nat) : (s.wrSat f v).committed = s.committed := rfl
@[simp] theorem State.wrSat_boot (s : State) (f : Fld) (v : Nat) : (s.wrSat f v).boot = s.boot := rfl
@[simp] theorem State.wrSat_bootCal (s : State) (f : Fld) (v : Nat) : (s.wrSat f v).bootCal = s.bootCal := rfl
@[simp] theorem State.wrSat_bootDisc (s : State) (f : Fld) (v : Nat) : (s.wrSat f v).bootDisc = s.bootDisc := rfl
@[simp] theorem State.wrSat_vinOk (s : State) (f : Fld) (v : Nat) : (s.wrSat f v).vinOk = s.vinOk := rfl
@[simp] theorem State.wrSat_vddioOk (s : State) (f : Fld) (v : Nat) : (s.wrSat f v).vddioOk = s.vddioOk := rfl
@[simp] theorem State.wrSat_resetN (s : State) (f : Fld) (v : Nat) : (s.wrSat f v).resetN = s.resetN := rfl
@[simp] theorem State.wrSat_thermHold (s : State) (f : Fld) (v : Nat) : (s.wrSat f v).thermHold = s.thermHold := rfl
@[simp] theorem State.wrSat_ringsUsed (s : State) (f : Fld) (v : Nat) : (s.wrSat f v).ringsUsed = s.ringsUsed := rfl
@[simp] theorem State.wrSat_fresh (s : State) (f : Fld) (v : Nat) : (s.wrSat f v).fresh = s.fresh := rfl
@[simp] theorem State.wrSat_pending (s : State) (f : Fld) (v : Nat) : (s.wrSat f v).pending = s.pending := rfl

/-! ### bump -/

@[simp] theorem State.bump_sram (s : State) (f : Fld) (n : Nat) : (s.bump f n).sram = s.sram := rfl
@[simp] theorem State.bump_ports (s : State) (f : Fld) (n : Nat) : (s.bump f n).ports = s.ports := rfl
@[simp] theorem State.bump_chans (s : State) (f : Fld) (n : Nat) : (s.bump f n).chans = s.chans := rfl
@[simp] theorem State.bump_jobs (s : State) (f : Fld) (n : Nat) : (s.bump f n).jobs = s.jobs := rfl
@[simp] theorem State.bump_nextJob (s : State) (f : Fld) (n : Nat) : (s.bump f n).nextJob = s.nextJob := rfl
@[simp] theorem State.bump_queues (s : State) (f : Fld) (n : Nat) : (s.bump f n).queues = s.queues := rfl
@[simp] theorem State.bump_rr (s : State) (f : Fld) (n : Nat) : (s.bump f n).rr = s.rr := rfl
@[simp] theorem State.bump_rings (s : State) (f : Fld) (n : Nat) : (s.bump f n).rings = s.rings := rfl
@[simp] theorem State.bump_claims (s : State) (f : Fld) (n : Nat) : (s.bump f n).claims = s.claims := rfl
@[simp] theorem State.bump_syn (s : State) (f : Fld) (n : Nat) : (s.bump f n).syn = s.syn := rfl
@[simp] theorem State.bump_time (s : State) (f : Fld) (n : Nat) : (s.bump f n).time = s.time := rfl
@[simp] theorem State.bump_gate (s : State) (f : Fld) (n : Nat) : (s.bump f n).gate = s.gate := rfl
@[simp] theorem State.bump_budg (s : State) (f : Fld) (n : Nat) : (s.bump f n).budg = s.budg := rfl
@[simp] theorem State.bump_mergeQ (s : State) (f : Fld) (n : Nat) : (s.bump f n).mergeQ = s.mergeQ := rfl
@[simp] theorem State.bump_invCmd (s : State) (f : Fld) (n : Nat) : (s.bump f n).invCmd = s.invCmd := rfl
@[simp] theorem State.bump_cry (s : State) (f : Fld) (n : Nat) : (s.bump f n).cry = s.cry := rfl
@[simp] theorem State.bump_locQ (s : State) (f : Fld) (n : Nat) : (s.bump f n).locQ = s.locQ := rfl
@[simp] theorem State.bump_nextLoc (s : State) (f : Fld) (n : Nat) : (s.bump f n).nextLoc = s.nextLoc := rfl
@[simp] theorem State.bump_cards (s : State) (f : Fld) (n : Nat) : (s.bump f n).cards = s.cards := rfl
@[simp] theorem State.bump_emu (s : State) (f : Fld) (n : Nat) : (s.bump f n).emu = s.emu := rfl
@[simp] theorem State.bump_pwr (s : State) (f : Fld) (n : Nat) : (s.bump f n).pwr = s.pwr := rfl
@[simp] theorem State.bump_watch (s : State) (f : Fld) (n : Nat) : (s.bump f n).watch = s.watch := rfl
@[simp] theorem State.bump_pmb (s : State) (f : Fld) (n : Nat) : (s.bump f n).pmb = s.pmb := rfl
@[simp] theorem State.bump_flash (s : State) (f : Fld) (n : Nat) : (s.bump f n).flash = s.flash := rfl
@[simp] theorem State.bump_maint (s : State) (f : Fld) (n : Nat) : (s.bump f n).maint = s.maint := rfl
@[simp] theorem State.bump_drain (s : State) (f : Fld) (n : Nat) : (s.bump f n).drain = s.drain := rfl
@[simp] theorem State.bump_romTest (s : State) (f : Fld) (n : Nat) : (s.bump f n).romTest = s.romTest := rfl
@[simp] theorem State.bump_committed (s : State) (f : Fld) (n : Nat) : (s.bump f n).committed = s.committed := rfl
@[simp] theorem State.bump_boot (s : State) (f : Fld) (n : Nat) : (s.bump f n).boot = s.boot := rfl
@[simp] theorem State.bump_bootCal (s : State) (f : Fld) (n : Nat) : (s.bump f n).bootCal = s.bootCal := rfl
@[simp] theorem State.bump_bootDisc (s : State) (f : Fld) (n : Nat) : (s.bump f n).bootDisc = s.bootDisc := rfl
@[simp] theorem State.bump_vinOk (s : State) (f : Fld) (n : Nat) : (s.bump f n).vinOk = s.vinOk := rfl
@[simp] theorem State.bump_vddioOk (s : State) (f : Fld) (n : Nat) : (s.bump f n).vddioOk = s.vddioOk := rfl
@[simp] theorem State.bump_resetN (s : State) (f : Fld) (n : Nat) : (s.bump f n).resetN = s.resetN := rfl
@[simp] theorem State.bump_thermHold (s : State) (f : Fld) (n : Nat) : (s.bump f n).thermHold = s.thermHold := rfl
@[simp] theorem State.bump_ringsUsed (s : State) (f : Fld) (n : Nat) : (s.bump f n).ringsUsed = s.ringsUsed := rfl
@[simp] theorem State.bump_fresh (s : State) (f : Fld) (n : Nat) : (s.bump f n).fresh = s.fresh := rfl
@[simp] theorem State.bump_pending (s : State) (f : Fld) (n : Nat) : (s.bump f n).pending = s.pending := rfl

/-! ### setFlag -/

@[simp] theorem State.setFlag_sram (s : State) (f : Fld) : (s.setFlag f).sram = s.sram := rfl
@[simp] theorem State.setFlag_ports (s : State) (f : Fld) : (s.setFlag f).ports = s.ports := rfl
@[simp] theorem State.setFlag_chans (s : State) (f : Fld) : (s.setFlag f).chans = s.chans := rfl
@[simp] theorem State.setFlag_jobs (s : State) (f : Fld) : (s.setFlag f).jobs = s.jobs := rfl
@[simp] theorem State.setFlag_nextJob (s : State) (f : Fld) : (s.setFlag f).nextJob = s.nextJob := rfl
@[simp] theorem State.setFlag_queues (s : State) (f : Fld) : (s.setFlag f).queues = s.queues := rfl
@[simp] theorem State.setFlag_rr (s : State) (f : Fld) : (s.setFlag f).rr = s.rr := rfl
@[simp] theorem State.setFlag_rings (s : State) (f : Fld) : (s.setFlag f).rings = s.rings := rfl
@[simp] theorem State.setFlag_claims (s : State) (f : Fld) : (s.setFlag f).claims = s.claims := rfl
@[simp] theorem State.setFlag_syn (s : State) (f : Fld) : (s.setFlag f).syn = s.syn := rfl
@[simp] theorem State.setFlag_time (s : State) (f : Fld) : (s.setFlag f).time = s.time := rfl
@[simp] theorem State.setFlag_gate (s : State) (f : Fld) : (s.setFlag f).gate = s.gate := rfl
@[simp] theorem State.setFlag_budg (s : State) (f : Fld) : (s.setFlag f).budg = s.budg := rfl
@[simp] theorem State.setFlag_mergeQ (s : State) (f : Fld) : (s.setFlag f).mergeQ = s.mergeQ := rfl
@[simp] theorem State.setFlag_invCmd (s : State) (f : Fld) : (s.setFlag f).invCmd = s.invCmd := rfl
@[simp] theorem State.setFlag_cry (s : State) (f : Fld) : (s.setFlag f).cry = s.cry := rfl
@[simp] theorem State.setFlag_locQ (s : State) (f : Fld) : (s.setFlag f).locQ = s.locQ := rfl
@[simp] theorem State.setFlag_nextLoc (s : State) (f : Fld) : (s.setFlag f).nextLoc = s.nextLoc := rfl
@[simp] theorem State.setFlag_cards (s : State) (f : Fld) : (s.setFlag f).cards = s.cards := rfl
@[simp] theorem State.setFlag_emu (s : State) (f : Fld) : (s.setFlag f).emu = s.emu := rfl
@[simp] theorem State.setFlag_pwr (s : State) (f : Fld) : (s.setFlag f).pwr = s.pwr := rfl
@[simp] theorem State.setFlag_watch (s : State) (f : Fld) : (s.setFlag f).watch = s.watch := rfl
@[simp] theorem State.setFlag_pmb (s : State) (f : Fld) : (s.setFlag f).pmb = s.pmb := rfl
@[simp] theorem State.setFlag_flash (s : State) (f : Fld) : (s.setFlag f).flash = s.flash := rfl
@[simp] theorem State.setFlag_maint (s : State) (f : Fld) : (s.setFlag f).maint = s.maint := rfl
@[simp] theorem State.setFlag_drain (s : State) (f : Fld) : (s.setFlag f).drain = s.drain := rfl
@[simp] theorem State.setFlag_romTest (s : State) (f : Fld) : (s.setFlag f).romTest = s.romTest := rfl
@[simp] theorem State.setFlag_committed (s : State) (f : Fld) : (s.setFlag f).committed = s.committed := rfl
@[simp] theorem State.setFlag_boot (s : State) (f : Fld) : (s.setFlag f).boot = s.boot := rfl
@[simp] theorem State.setFlag_bootCal (s : State) (f : Fld) : (s.setFlag f).bootCal = s.bootCal := rfl
@[simp] theorem State.setFlag_bootDisc (s : State) (f : Fld) : (s.setFlag f).bootDisc = s.bootDisc := rfl
@[simp] theorem State.setFlag_vinOk (s : State) (f : Fld) : (s.setFlag f).vinOk = s.vinOk := rfl
@[simp] theorem State.setFlag_vddioOk (s : State) (f : Fld) : (s.setFlag f).vddioOk = s.vddioOk := rfl
@[simp] theorem State.setFlag_resetN (s : State) (f : Fld) : (s.setFlag f).resetN = s.resetN := rfl
@[simp] theorem State.setFlag_thermHold (s : State) (f : Fld) : (s.setFlag f).thermHold = s.thermHold := rfl
@[simp] theorem State.setFlag_ringsUsed (s : State) (f : Fld) : (s.setFlag f).ringsUsed = s.ringsUsed := rfl
@[simp] theorem State.setFlag_fresh (s : State) (f : Fld) : (s.setFlag f).fresh = s.fresh := rfl
@[simp] theorem State.setFlag_pending (s : State) (f : Fld) : (s.setFlag f).pending = s.pending := rfl

/-! ### notify -/

@[simp] theorem State.notify_sram (s : State) (p k : Nat) : (s.notify p k).sram = s.sram := rfl
@[simp] theorem State.notify_ports (s : State) (p k : Nat) : (s.notify p k).ports = s.ports := rfl
@[simp] theorem State.notify_chans (s : State) (p k : Nat) : (s.notify p k).chans = s.chans := rfl
@[simp] theorem State.notify_jobs (s : State) (p k : Nat) : (s.notify p k).jobs = s.jobs := rfl
@[simp] theorem State.notify_nextJob (s : State) (p k : Nat) : (s.notify p k).nextJob = s.nextJob := rfl
@[simp] theorem State.notify_queues (s : State) (p k : Nat) : (s.notify p k).queues = s.queues := rfl
@[simp] theorem State.notify_rr (s : State) (p k : Nat) : (s.notify p k).rr = s.rr := rfl
@[simp] theorem State.notify_rings (s : State) (p k : Nat) : (s.notify p k).rings = s.rings := rfl
@[simp] theorem State.notify_claims (s : State) (p k : Nat) : (s.notify p k).claims = s.claims := rfl
@[simp] theorem State.notify_syn (s : State) (p k : Nat) : (s.notify p k).syn = s.syn := rfl
@[simp] theorem State.notify_time (s : State) (p k : Nat) : (s.notify p k).time = s.time := rfl
@[simp] theorem State.notify_gate (s : State) (p k : Nat) : (s.notify p k).gate = s.gate := rfl
@[simp] theorem State.notify_budg (s : State) (p k : Nat) : (s.notify p k).budg = s.budg := rfl
@[simp] theorem State.notify_mergeQ (s : State) (p k : Nat) : (s.notify p k).mergeQ = s.mergeQ := rfl
@[simp] theorem State.notify_invCmd (s : State) (p k : Nat) : (s.notify p k).invCmd = s.invCmd := rfl
@[simp] theorem State.notify_cry (s : State) (p k : Nat) : (s.notify p k).cry = s.cry := rfl
@[simp] theorem State.notify_locQ (s : State) (p k : Nat) : (s.notify p k).locQ = s.locQ := rfl
@[simp] theorem State.notify_nextLoc (s : State) (p k : Nat) : (s.notify p k).nextLoc = s.nextLoc := rfl
@[simp] theorem State.notify_cards (s : State) (p k : Nat) : (s.notify p k).cards = s.cards := rfl
@[simp] theorem State.notify_emu (s : State) (p k : Nat) : (s.notify p k).emu = s.emu := rfl
@[simp] theorem State.notify_pwr (s : State) (p k : Nat) : (s.notify p k).pwr = s.pwr := rfl
@[simp] theorem State.notify_watch (s : State) (p k : Nat) : (s.notify p k).watch = s.watch := rfl
@[simp] theorem State.notify_pmb (s : State) (p k : Nat) : (s.notify p k).pmb = s.pmb := rfl
@[simp] theorem State.notify_flash (s : State) (p k : Nat) : (s.notify p k).flash = s.flash := rfl
@[simp] theorem State.notify_maint (s : State) (p k : Nat) : (s.notify p k).maint = s.maint := rfl
@[simp] theorem State.notify_drain (s : State) (p k : Nat) : (s.notify p k).drain = s.drain := rfl
@[simp] theorem State.notify_romTest (s : State) (p k : Nat) : (s.notify p k).romTest = s.romTest := rfl
@[simp] theorem State.notify_committed (s : State) (p k : Nat) : (s.notify p k).committed = s.committed := rfl
@[simp] theorem State.notify_boot (s : State) (p k : Nat) : (s.notify p k).boot = s.boot := rfl
@[simp] theorem State.notify_bootCal (s : State) (p k : Nat) : (s.notify p k).bootCal = s.bootCal := rfl
@[simp] theorem State.notify_bootDisc (s : State) (p k : Nat) : (s.notify p k).bootDisc = s.bootDisc := rfl
@[simp] theorem State.notify_vinOk (s : State) (p k : Nat) : (s.notify p k).vinOk = s.vinOk := rfl
@[simp] theorem State.notify_vddioOk (s : State) (p k : Nat) : (s.notify p k).vddioOk = s.vddioOk := rfl
@[simp] theorem State.notify_resetN (s : State) (p k : Nat) : (s.notify p k).resetN = s.resetN := rfl
@[simp] theorem State.notify_thermHold (s : State) (p k : Nat) : (s.notify p k).thermHold = s.thermHold := rfl
@[simp] theorem State.notify_ringsUsed (s : State) (p k : Nat) : (s.notify p k).ringsUsed = s.ringsUsed := rfl
@[simp] theorem State.notify_fresh (s : State) (p k : Nat) : (s.notify p k).fresh = s.fresh := rfl
@[simp] theorem State.notify_pending (s : State) (p k : Nat) : (s.notify p k).pending = s.pending := rfl

/-! ### notifyAll -/

@[simp] theorem State.notifyAll_sram (s : State) (k : Nat) : (s.notifyAll k).sram = s.sram := rfl
@[simp] theorem State.notifyAll_ports (s : State) (k : Nat) : (s.notifyAll k).ports = s.ports := rfl
@[simp] theorem State.notifyAll_chans (s : State) (k : Nat) : (s.notifyAll k).chans = s.chans := rfl
@[simp] theorem State.notifyAll_jobs (s : State) (k : Nat) : (s.notifyAll k).jobs = s.jobs := rfl
@[simp] theorem State.notifyAll_nextJob (s : State) (k : Nat) : (s.notifyAll k).nextJob = s.nextJob := rfl
@[simp] theorem State.notifyAll_queues (s : State) (k : Nat) : (s.notifyAll k).queues = s.queues := rfl
@[simp] theorem State.notifyAll_rr (s : State) (k : Nat) : (s.notifyAll k).rr = s.rr := rfl
@[simp] theorem State.notifyAll_rings (s : State) (k : Nat) : (s.notifyAll k).rings = s.rings := rfl
@[simp] theorem State.notifyAll_claims (s : State) (k : Nat) : (s.notifyAll k).claims = s.claims := rfl
@[simp] theorem State.notifyAll_syn (s : State) (k : Nat) : (s.notifyAll k).syn = s.syn := rfl
@[simp] theorem State.notifyAll_time (s : State) (k : Nat) : (s.notifyAll k).time = s.time := rfl
@[simp] theorem State.notifyAll_gate (s : State) (k : Nat) : (s.notifyAll k).gate = s.gate := rfl
@[simp] theorem State.notifyAll_budg (s : State) (k : Nat) : (s.notifyAll k).budg = s.budg := rfl
@[simp] theorem State.notifyAll_mergeQ (s : State) (k : Nat) : (s.notifyAll k).mergeQ = s.mergeQ := rfl
@[simp] theorem State.notifyAll_invCmd (s : State) (k : Nat) : (s.notifyAll k).invCmd = s.invCmd := rfl
@[simp] theorem State.notifyAll_cry (s : State) (k : Nat) : (s.notifyAll k).cry = s.cry := rfl
@[simp] theorem State.notifyAll_locQ (s : State) (k : Nat) : (s.notifyAll k).locQ = s.locQ := rfl
@[simp] theorem State.notifyAll_nextLoc (s : State) (k : Nat) : (s.notifyAll k).nextLoc = s.nextLoc := rfl
@[simp] theorem State.notifyAll_cards (s : State) (k : Nat) : (s.notifyAll k).cards = s.cards := rfl
@[simp] theorem State.notifyAll_emu (s : State) (k : Nat) : (s.notifyAll k).emu = s.emu := rfl
@[simp] theorem State.notifyAll_pwr (s : State) (k : Nat) : (s.notifyAll k).pwr = s.pwr := rfl
@[simp] theorem State.notifyAll_watch (s : State) (k : Nat) : (s.notifyAll k).watch = s.watch := rfl
@[simp] theorem State.notifyAll_pmb (s : State) (k : Nat) : (s.notifyAll k).pmb = s.pmb := rfl
@[simp] theorem State.notifyAll_flash (s : State) (k : Nat) : (s.notifyAll k).flash = s.flash := rfl
@[simp] theorem State.notifyAll_maint (s : State) (k : Nat) : (s.notifyAll k).maint = s.maint := rfl
@[simp] theorem State.notifyAll_drain (s : State) (k : Nat) : (s.notifyAll k).drain = s.drain := rfl
@[simp] theorem State.notifyAll_romTest (s : State) (k : Nat) : (s.notifyAll k).romTest = s.romTest := rfl
@[simp] theorem State.notifyAll_committed (s : State) (k : Nat) : (s.notifyAll k).committed = s.committed := rfl
@[simp] theorem State.notifyAll_boot (s : State) (k : Nat) : (s.notifyAll k).boot = s.boot := rfl
@[simp] theorem State.notifyAll_bootCal (s : State) (k : Nat) : (s.notifyAll k).bootCal = s.bootCal := rfl
@[simp] theorem State.notifyAll_bootDisc (s : State) (k : Nat) : (s.notifyAll k).bootDisc = s.bootDisc := rfl
@[simp] theorem State.notifyAll_vinOk (s : State) (k : Nat) : (s.notifyAll k).vinOk = s.vinOk := rfl
@[simp] theorem State.notifyAll_vddioOk (s : State) (k : Nat) : (s.notifyAll k).vddioOk = s.vddioOk := rfl
@[simp] theorem State.notifyAll_resetN (s : State) (k : Nat) : (s.notifyAll k).resetN = s.resetN := rfl
@[simp] theorem State.notifyAll_thermHold (s : State) (k : Nat) : (s.notifyAll k).thermHold = s.thermHold := rfl
@[simp] theorem State.notifyAll_ringsUsed (s : State) (k : Nat) : (s.notifyAll k).ringsUsed = s.ringsUsed := rfl
@[simp] theorem State.notifyAll_fresh (s : State) (k : Nat) : (s.notifyAll k).fresh = s.fresh := rfl
@[simp] theorem State.notifyAll_pending (s : State) (k : Nat) : (s.notifyAll k).pending = s.pending := rfl

/-! ### modCh -/

@[simp] theorem State.modCh_regs (s : State) (n : Nat) (g : Chan → Chan) : (s.modCh n g).regs = s.regs := rfl
@[simp] theorem State.modCh_sram (s : State) (n : Nat) (g : Chan → Chan) : (s.modCh n g).sram = s.sram := rfl
@[simp] theorem State.modCh_ports (s : State) (n : Nat) (g : Chan → Chan) : (s.modCh n g).ports = s.ports := rfl
@[simp] theorem State.modCh_jobs (s : State) (n : Nat) (g : Chan → Chan) : (s.modCh n g).jobs = s.jobs := rfl
@[simp] theorem State.modCh_nextJob (s : State) (n : Nat) (g : Chan → Chan) : (s.modCh n g).nextJob = s.nextJob := rfl
@[simp] theorem State.modCh_queues (s : State) (n : Nat) (g : Chan → Chan) : (s.modCh n g).queues = s.queues := rfl
@[simp] theorem State.modCh_rr (s : State) (n : Nat) (g : Chan → Chan) : (s.modCh n g).rr = s.rr := rfl
@[simp] theorem State.modCh_rings (s : State) (n : Nat) (g : Chan → Chan) : (s.modCh n g).rings = s.rings := rfl
@[simp] theorem State.modCh_claims (s : State) (n : Nat) (g : Chan → Chan) : (s.modCh n g).claims = s.claims := rfl
@[simp] theorem State.modCh_syn (s : State) (n : Nat) (g : Chan → Chan) : (s.modCh n g).syn = s.syn := rfl
@[simp] theorem State.modCh_time (s : State) (n : Nat) (g : Chan → Chan) : (s.modCh n g).time = s.time := rfl
@[simp] theorem State.modCh_gate (s : State) (n : Nat) (g : Chan → Chan) : (s.modCh n g).gate = s.gate := rfl
@[simp] theorem State.modCh_budg (s : State) (n : Nat) (g : Chan → Chan) : (s.modCh n g).budg = s.budg := rfl
@[simp] theorem State.modCh_mergeQ (s : State) (n : Nat) (g : Chan → Chan) : (s.modCh n g).mergeQ = s.mergeQ := rfl
@[simp] theorem State.modCh_invCmd (s : State) (n : Nat) (g : Chan → Chan) : (s.modCh n g).invCmd = s.invCmd := rfl
@[simp] theorem State.modCh_cry (s : State) (n : Nat) (g : Chan → Chan) : (s.modCh n g).cry = s.cry := rfl
@[simp] theorem State.modCh_locQ (s : State) (n : Nat) (g : Chan → Chan) : (s.modCh n g).locQ = s.locQ := rfl
@[simp] theorem State.modCh_nextLoc (s : State) (n : Nat) (g : Chan → Chan) : (s.modCh n g).nextLoc = s.nextLoc := rfl
@[simp] theorem State.modCh_cards (s : State) (n : Nat) (g : Chan → Chan) : (s.modCh n g).cards = s.cards := rfl
@[simp] theorem State.modCh_emu (s : State) (n : Nat) (g : Chan → Chan) : (s.modCh n g).emu = s.emu := rfl
@[simp] theorem State.modCh_pwr (s : State) (n : Nat) (g : Chan → Chan) : (s.modCh n g).pwr = s.pwr := rfl
@[simp] theorem State.modCh_watch (s : State) (n : Nat) (g : Chan → Chan) : (s.modCh n g).watch = s.watch := rfl
@[simp] theorem State.modCh_pmb (s : State) (n : Nat) (g : Chan → Chan) : (s.modCh n g).pmb = s.pmb := rfl
@[simp] theorem State.modCh_flash (s : State) (n : Nat) (g : Chan → Chan) : (s.modCh n g).flash = s.flash := rfl
@[simp] theorem State.modCh_maint (s : State) (n : Nat) (g : Chan → Chan) : (s.modCh n g).maint = s.maint := rfl
@[simp] theorem State.modCh_drain (s : State) (n : Nat) (g : Chan → Chan) : (s.modCh n g).drain = s.drain := rfl
@[simp] theorem State.modCh_romTest (s : State) (n : Nat) (g : Chan → Chan) : (s.modCh n g).romTest = s.romTest := rfl
@[simp] theorem State.modCh_committed (s : State) (n : Nat) (g : Chan → Chan) : (s.modCh n g).committed = s.committed := rfl
@[simp] theorem State.modCh_boot (s : State) (n : Nat) (g : Chan → Chan) : (s.modCh n g).boot = s.boot := rfl
@[simp] theorem State.modCh_bootCal (s : State) (n : Nat) (g : Chan → Chan) : (s.modCh n g).bootCal = s.bootCal := rfl
@[simp] theorem State.modCh_bootDisc (s : State) (n : Nat) (g : Chan → Chan) : (s.modCh n g).bootDisc = s.bootDisc := rfl
@[simp] theorem State.modCh_vinOk (s : State) (n : Nat) (g : Chan → Chan) : (s.modCh n g).vinOk = s.vinOk := rfl
@[simp] theorem State.modCh_vddioOk (s : State) (n : Nat) (g : Chan → Chan) : (s.modCh n g).vddioOk = s.vddioOk := rfl
@[simp] theorem State.modCh_resetN (s : State) (n : Nat) (g : Chan → Chan) : (s.modCh n g).resetN = s.resetN := rfl
@[simp] theorem State.modCh_thermHold (s : State) (n : Nat) (g : Chan → Chan) : (s.modCh n g).thermHold = s.thermHold := rfl
@[simp] theorem State.modCh_ringsUsed (s : State) (n : Nat) (g : Chan → Chan) : (s.modCh n g).ringsUsed = s.ringsUsed := rfl
@[simp] theorem State.modCh_fresh (s : State) (n : Nat) (g : Chan → Chan) : (s.modCh n g).fresh = s.fresh := rfl
@[simp] theorem State.modCh_pending (s : State) (n : Nat) (g : Chan → Chan) : (s.modCh n g).pending = s.pending := rfl

/-! ### modSeq -/

@[simp] theorem State.modSeq_regs (s : State) (n : Nat) (g : Seq → Seq) : (s.modSeq n g).regs = s.regs := rfl
@[simp] theorem State.modSeq_sram (s : State) (n : Nat) (g : Seq → Seq) : (s.modSeq n g).sram = s.sram := rfl
@[simp] theorem State.modSeq_ports (s : State) (n : Nat) (g : Seq → Seq) : (s.modSeq n g).ports = s.ports := rfl
@[simp] theorem State.modSeq_jobs (s : State) (n : Nat) (g : Seq → Seq) : (s.modSeq n g).jobs = s.jobs := rfl
@[simp] theorem State.modSeq_nextJob (s : State) (n : Nat) (g : Seq → Seq) : (s.modSeq n g).nextJob = s.nextJob := rfl
@[simp] theorem State.modSeq_queues (s : State) (n : Nat) (g : Seq → Seq) : (s.modSeq n g).queues = s.queues := rfl
@[simp] theorem State.modSeq_rr (s : State) (n : Nat) (g : Seq → Seq) : (s.modSeq n g).rr = s.rr := rfl
@[simp] theorem State.modSeq_rings (s : State) (n : Nat) (g : Seq → Seq) : (s.modSeq n g).rings = s.rings := rfl
@[simp] theorem State.modSeq_claims (s : State) (n : Nat) (g : Seq → Seq) : (s.modSeq n g).claims = s.claims := rfl
@[simp] theorem State.modSeq_syn (s : State) (n : Nat) (g : Seq → Seq) : (s.modSeq n g).syn = s.syn := rfl
@[simp] theorem State.modSeq_time (s : State) (n : Nat) (g : Seq → Seq) : (s.modSeq n g).time = s.time := rfl
@[simp] theorem State.modSeq_gate (s : State) (n : Nat) (g : Seq → Seq) : (s.modSeq n g).gate = s.gate := rfl
@[simp] theorem State.modSeq_budg (s : State) (n : Nat) (g : Seq → Seq) : (s.modSeq n g).budg = s.budg := rfl
@[simp] theorem State.modSeq_mergeQ (s : State) (n : Nat) (g : Seq → Seq) : (s.modSeq n g).mergeQ = s.mergeQ := rfl
@[simp] theorem State.modSeq_invCmd (s : State) (n : Nat) (g : Seq → Seq) : (s.modSeq n g).invCmd = s.invCmd := rfl
@[simp] theorem State.modSeq_cry (s : State) (n : Nat) (g : Seq → Seq) : (s.modSeq n g).cry = s.cry := rfl
@[simp] theorem State.modSeq_locQ (s : State) (n : Nat) (g : Seq → Seq) : (s.modSeq n g).locQ = s.locQ := rfl
@[simp] theorem State.modSeq_nextLoc (s : State) (n : Nat) (g : Seq → Seq) : (s.modSeq n g).nextLoc = s.nextLoc := rfl
@[simp] theorem State.modSeq_cards (s : State) (n : Nat) (g : Seq → Seq) : (s.modSeq n g).cards = s.cards := rfl
@[simp] theorem State.modSeq_emu (s : State) (n : Nat) (g : Seq → Seq) : (s.modSeq n g).emu = s.emu := rfl
@[simp] theorem State.modSeq_pwr (s : State) (n : Nat) (g : Seq → Seq) : (s.modSeq n g).pwr = s.pwr := rfl
@[simp] theorem State.modSeq_watch (s : State) (n : Nat) (g : Seq → Seq) : (s.modSeq n g).watch = s.watch := rfl
@[simp] theorem State.modSeq_pmb (s : State) (n : Nat) (g : Seq → Seq) : (s.modSeq n g).pmb = s.pmb := rfl
@[simp] theorem State.modSeq_flash (s : State) (n : Nat) (g : Seq → Seq) : (s.modSeq n g).flash = s.flash := rfl
@[simp] theorem State.modSeq_maint (s : State) (n : Nat) (g : Seq → Seq) : (s.modSeq n g).maint = s.maint := rfl
@[simp] theorem State.modSeq_drain (s : State) (n : Nat) (g : Seq → Seq) : (s.modSeq n g).drain = s.drain := rfl
@[simp] theorem State.modSeq_romTest (s : State) (n : Nat) (g : Seq → Seq) : (s.modSeq n g).romTest = s.romTest := rfl
@[simp] theorem State.modSeq_committed (s : State) (n : Nat) (g : Seq → Seq) : (s.modSeq n g).committed = s.committed := rfl
@[simp] theorem State.modSeq_boot (s : State) (n : Nat) (g : Seq → Seq) : (s.modSeq n g).boot = s.boot := rfl
@[simp] theorem State.modSeq_bootCal (s : State) (n : Nat) (g : Seq → Seq) : (s.modSeq n g).bootCal = s.bootCal := rfl
@[simp] theorem State.modSeq_bootDisc (s : State) (n : Nat) (g : Seq → Seq) : (s.modSeq n g).bootDisc = s.bootDisc := rfl
@[simp] theorem State.modSeq_vinOk (s : State) (n : Nat) (g : Seq → Seq) : (s.modSeq n g).vinOk = s.vinOk := rfl
@[simp] theorem State.modSeq_vddioOk (s : State) (n : Nat) (g : Seq → Seq) : (s.modSeq n g).vddioOk = s.vddioOk := rfl
@[simp] theorem State.modSeq_resetN (s : State) (n : Nat) (g : Seq → Seq) : (s.modSeq n g).resetN = s.resetN := rfl
@[simp] theorem State.modSeq_thermHold (s : State) (n : Nat) (g : Seq → Seq) : (s.modSeq n g).thermHold = s.thermHold := rfl
@[simp] theorem State.modSeq_ringsUsed (s : State) (n : Nat) (g : Seq → Seq) : (s.modSeq n g).ringsUsed = s.ringsUsed := rfl
@[simp] theorem State.modSeq_fresh (s : State) (n : Nat) (g : Seq → Seq) : (s.modSeq n g).fresh = s.fresh := rfl
@[simp] theorem State.modSeq_pending (s : State) (n : Nat) (g : Seq → Seq) : (s.modSeq n g).pending = s.pending := rfl

/-! ### modInv -/

@[simp] theorem State.modInv_regs (s : State) (n : Nat) (g : InvCtx → InvCtx) : (s.modInv n g).regs = s.regs := rfl
@[simp] theorem State.modInv_sram (s : State) (n : Nat) (g : InvCtx → InvCtx) : (s.modInv n g).sram = s.sram := rfl
@[simp] theorem State.modInv_ports (s : State) (n : Nat) (g : InvCtx → InvCtx) : (s.modInv n g).ports = s.ports := rfl
@[simp] theorem State.modInv_jobs (s : State) (n : Nat) (g : InvCtx → InvCtx) : (s.modInv n g).jobs = s.jobs := rfl
@[simp] theorem State.modInv_nextJob (s : State) (n : Nat) (g : InvCtx → InvCtx) : (s.modInv n g).nextJob = s.nextJob := rfl
@[simp] theorem State.modInv_queues (s : State) (n : Nat) (g : InvCtx → InvCtx) : (s.modInv n g).queues = s.queues := rfl
@[simp] theorem State.modInv_rr (s : State) (n : Nat) (g : InvCtx → InvCtx) : (s.modInv n g).rr = s.rr := rfl
@[simp] theorem State.modInv_rings (s : State) (n : Nat) (g : InvCtx → InvCtx) : (s.modInv n g).rings = s.rings := rfl
@[simp] theorem State.modInv_claims (s : State) (n : Nat) (g : InvCtx → InvCtx) : (s.modInv n g).claims = s.claims := rfl
@[simp] theorem State.modInv_syn (s : State) (n : Nat) (g : InvCtx → InvCtx) : (s.modInv n g).syn = s.syn := rfl
@[simp] theorem State.modInv_time (s : State) (n : Nat) (g : InvCtx → InvCtx) : (s.modInv n g).time = s.time := rfl
@[simp] theorem State.modInv_gate (s : State) (n : Nat) (g : InvCtx → InvCtx) : (s.modInv n g).gate = s.gate := rfl
@[simp] theorem State.modInv_budg (s : State) (n : Nat) (g : InvCtx → InvCtx) : (s.modInv n g).budg = s.budg := rfl
@[simp] theorem State.modInv_mergeQ (s : State) (n : Nat) (g : InvCtx → InvCtx) : (s.modInv n g).mergeQ = s.mergeQ := rfl
@[simp] theorem State.modInv_invCmd (s : State) (n : Nat) (g : InvCtx → InvCtx) : (s.modInv n g).invCmd = s.invCmd := rfl
@[simp] theorem State.modInv_cry (s : State) (n : Nat) (g : InvCtx → InvCtx) : (s.modInv n g).cry = s.cry := rfl
@[simp] theorem State.modInv_locQ (s : State) (n : Nat) (g : InvCtx → InvCtx) : (s.modInv n g).locQ = s.locQ := rfl
@[simp] theorem State.modInv_nextLoc (s : State) (n : Nat) (g : InvCtx → InvCtx) : (s.modInv n g).nextLoc = s.nextLoc := rfl
@[simp] theorem State.modInv_cards (s : State) (n : Nat) (g : InvCtx → InvCtx) : (s.modInv n g).cards = s.cards := rfl
@[simp] theorem State.modInv_emu (s : State) (n : Nat) (g : InvCtx → InvCtx) : (s.modInv n g).emu = s.emu := rfl
@[simp] theorem State.modInv_pwr (s : State) (n : Nat) (g : InvCtx → InvCtx) : (s.modInv n g).pwr = s.pwr := rfl
@[simp] theorem State.modInv_watch (s : State) (n : Nat) (g : InvCtx → InvCtx) : (s.modInv n g).watch = s.watch := rfl
@[simp] theorem State.modInv_pmb (s : State) (n : Nat) (g : InvCtx → InvCtx) : (s.modInv n g).pmb = s.pmb := rfl
@[simp] theorem State.modInv_flash (s : State) (n : Nat) (g : InvCtx → InvCtx) : (s.modInv n g).flash = s.flash := rfl
@[simp] theorem State.modInv_maint (s : State) (n : Nat) (g : InvCtx → InvCtx) : (s.modInv n g).maint = s.maint := rfl
@[simp] theorem State.modInv_drain (s : State) (n : Nat) (g : InvCtx → InvCtx) : (s.modInv n g).drain = s.drain := rfl
@[simp] theorem State.modInv_romTest (s : State) (n : Nat) (g : InvCtx → InvCtx) : (s.modInv n g).romTest = s.romTest := rfl
@[simp] theorem State.modInv_committed (s : State) (n : Nat) (g : InvCtx → InvCtx) : (s.modInv n g).committed = s.committed := rfl
@[simp] theorem State.modInv_boot (s : State) (n : Nat) (g : InvCtx → InvCtx) : (s.modInv n g).boot = s.boot := rfl
@[simp] theorem State.modInv_bootCal (s : State) (n : Nat) (g : InvCtx → InvCtx) : (s.modInv n g).bootCal = s.bootCal := rfl
@[simp] theorem State.modInv_bootDisc (s : State) (n : Nat) (g : InvCtx → InvCtx) : (s.modInv n g).bootDisc = s.bootDisc := rfl
@[simp] theorem State.modInv_vinOk (s : State) (n : Nat) (g : InvCtx → InvCtx) : (s.modInv n g).vinOk = s.vinOk := rfl
@[simp] theorem State.modInv_vddioOk (s : State) (n : Nat) (g : InvCtx → InvCtx) : (s.modInv n g).vddioOk = s.vddioOk := rfl
@[simp] theorem State.modInv_resetN (s : State) (n : Nat) (g : InvCtx → InvCtx) : (s.modInv n g).resetN = s.resetN := rfl
@[simp] theorem State.modInv_thermHold (s : State) (n : Nat) (g : InvCtx → InvCtx) : (s.modInv n g).thermHold = s.thermHold := rfl
@[simp] theorem State.modInv_ringsUsed (s : State) (n : Nat) (g : InvCtx → InvCtx) : (s.modInv n g).ringsUsed = s.ringsUsed := rfl
@[simp] theorem State.modInv_fresh (s : State) (n : Nat) (g : InvCtx → InvCtx) : (s.modInv n g).fresh = s.fresh := rfl
@[simp] theorem State.modInv_pending (s : State) (n : Nat) (g : InvCtx → InvCtx) : (s.modInv n g).pending = s.pending := rfl

/-! ### modPt -/

@[simp] theorem State.modPt_regs (s : State) (p : Nat) (g : PortSt → PortSt) : (s.modPt p g).regs = s.regs := rfl
@[simp] theorem State.modPt_sram (s : State) (p : Nat) (g : PortSt → PortSt) : (s.modPt p g).sram = s.sram := rfl
@[simp] theorem State.modPt_chans (s : State) (p : Nat) (g : PortSt → PortSt) : (s.modPt p g).chans = s.chans := rfl
@[simp] theorem State.modPt_jobs (s : State) (p : Nat) (g : PortSt → PortSt) : (s.modPt p g).jobs = s.jobs := rfl
@[simp] theorem State.modPt_nextJob (s : State) (p : Nat) (g : PortSt → PortSt) : (s.modPt p g).nextJob = s.nextJob := rfl
@[simp] theorem State.modPt_queues (s : State) (p : Nat) (g : PortSt → PortSt) : (s.modPt p g).queues = s.queues := rfl
@[simp] theorem State.modPt_rr (s : State) (p : Nat) (g : PortSt → PortSt) : (s.modPt p g).rr = s.rr := rfl
@[simp] theorem State.modPt_rings (s : State) (p : Nat) (g : PortSt → PortSt) : (s.modPt p g).rings = s.rings := rfl
@[simp] theorem State.modPt_claims (s : State) (p : Nat) (g : PortSt → PortSt) : (s.modPt p g).claims = s.claims := rfl
@[simp] theorem State.modPt_syn (s : State) (p : Nat) (g : PortSt → PortSt) : (s.modPt p g).syn = s.syn := rfl
@[simp] theorem State.modPt_time (s : State) (p : Nat) (g : PortSt → PortSt) : (s.modPt p g).time = s.time := rfl
@[simp] theorem State.modPt_gate (s : State) (p : Nat) (g : PortSt → PortSt) : (s.modPt p g).gate = s.gate := rfl
@[simp] theorem State.modPt_budg (s : State) (p : Nat) (g : PortSt → PortSt) : (s.modPt p g).budg = s.budg := rfl
@[simp] theorem State.modPt_mergeQ (s : State) (p : Nat) (g : PortSt → PortSt) : (s.modPt p g).mergeQ = s.mergeQ := rfl
@[simp] theorem State.modPt_invCmd (s : State) (p : Nat) (g : PortSt → PortSt) : (s.modPt p g).invCmd = s.invCmd := rfl
@[simp] theorem State.modPt_cry (s : State) (p : Nat) (g : PortSt → PortSt) : (s.modPt p g).cry = s.cry := rfl
@[simp] theorem State.modPt_locQ (s : State) (p : Nat) (g : PortSt → PortSt) : (s.modPt p g).locQ = s.locQ := rfl
@[simp] theorem State.modPt_nextLoc (s : State) (p : Nat) (g : PortSt → PortSt) : (s.modPt p g).nextLoc = s.nextLoc := rfl
@[simp] theorem State.modPt_cards (s : State) (p : Nat) (g : PortSt → PortSt) : (s.modPt p g).cards = s.cards := rfl
@[simp] theorem State.modPt_emu (s : State) (p : Nat) (g : PortSt → PortSt) : (s.modPt p g).emu = s.emu := rfl
@[simp] theorem State.modPt_pwr (s : State) (p : Nat) (g : PortSt → PortSt) : (s.modPt p g).pwr = s.pwr := rfl
@[simp] theorem State.modPt_watch (s : State) (p : Nat) (g : PortSt → PortSt) : (s.modPt p g).watch = s.watch := rfl
@[simp] theorem State.modPt_pmb (s : State) (p : Nat) (g : PortSt → PortSt) : (s.modPt p g).pmb = s.pmb := rfl
@[simp] theorem State.modPt_flash (s : State) (p : Nat) (g : PortSt → PortSt) : (s.modPt p g).flash = s.flash := rfl
@[simp] theorem State.modPt_maint (s : State) (p : Nat) (g : PortSt → PortSt) : (s.modPt p g).maint = s.maint := rfl
@[simp] theorem State.modPt_drain (s : State) (p : Nat) (g : PortSt → PortSt) : (s.modPt p g).drain = s.drain := rfl
@[simp] theorem State.modPt_romTest (s : State) (p : Nat) (g : PortSt → PortSt) : (s.modPt p g).romTest = s.romTest := rfl
@[simp] theorem State.modPt_committed (s : State) (p : Nat) (g : PortSt → PortSt) : (s.modPt p g).committed = s.committed := rfl
@[simp] theorem State.modPt_boot (s : State) (p : Nat) (g : PortSt → PortSt) : (s.modPt p g).boot = s.boot := rfl
@[simp] theorem State.modPt_bootCal (s : State) (p : Nat) (g : PortSt → PortSt) : (s.modPt p g).bootCal = s.bootCal := rfl
@[simp] theorem State.modPt_bootDisc (s : State) (p : Nat) (g : PortSt → PortSt) : (s.modPt p g).bootDisc = s.bootDisc := rfl
@[simp] theorem State.modPt_vinOk (s : State) (p : Nat) (g : PortSt → PortSt) : (s.modPt p g).vinOk = s.vinOk := rfl
@[simp] theorem State.modPt_vddioOk (s : State) (p : Nat) (g : PortSt → PortSt) : (s.modPt p g).vddioOk = s.vddioOk := rfl
@[simp] theorem State.modPt_resetN (s : State) (p : Nat) (g : PortSt → PortSt) : (s.modPt p g).resetN = s.resetN := rfl
@[simp] theorem State.modPt_thermHold (s : State) (p : Nat) (g : PortSt → PortSt) : (s.modPt p g).thermHold = s.thermHold := rfl
@[simp] theorem State.modPt_ringsUsed (s : State) (p : Nat) (g : PortSt → PortSt) : (s.modPt p g).ringsUsed = s.ringsUsed := rfl
@[simp] theorem State.modPt_fresh (s : State) (p : Nat) (g : PortSt → PortSt) : (s.modPt p g).fresh = s.fresh := rfl
@[simp] theorem State.modPt_pending (s : State) (p : Nat) (g : PortSt → PortSt) : (s.modPt p g).pending = s.pending := rfl

/-! ### modQu -/

@[simp] theorem State.modQu_regs (s : State) (q : Nat) (g : QueueSt → QueueSt) : (s.modQu q g).regs = s.regs := rfl
@[simp] theorem State.modQu_sram (s : State) (q : Nat) (g : QueueSt → QueueSt) : (s.modQu q g).sram = s.sram := rfl
@[simp] theorem State.modQu_ports (s : State) (q : Nat) (g : QueueSt → QueueSt) : (s.modQu q g).ports = s.ports := rfl
@[simp] theorem State.modQu_chans (s : State) (q : Nat) (g : QueueSt → QueueSt) : (s.modQu q g).chans = s.chans := rfl
@[simp] theorem State.modQu_jobs (s : State) (q : Nat) (g : QueueSt → QueueSt) : (s.modQu q g).jobs = s.jobs := rfl
@[simp] theorem State.modQu_nextJob (s : State) (q : Nat) (g : QueueSt → QueueSt) : (s.modQu q g).nextJob = s.nextJob := rfl
@[simp] theorem State.modQu_rr (s : State) (q : Nat) (g : QueueSt → QueueSt) : (s.modQu q g).rr = s.rr := rfl
@[simp] theorem State.modQu_rings (s : State) (q : Nat) (g : QueueSt → QueueSt) : (s.modQu q g).rings = s.rings := rfl
@[simp] theorem State.modQu_claims (s : State) (q : Nat) (g : QueueSt → QueueSt) : (s.modQu q g).claims = s.claims := rfl
@[simp] theorem State.modQu_syn (s : State) (q : Nat) (g : QueueSt → QueueSt) : (s.modQu q g).syn = s.syn := rfl
@[simp] theorem State.modQu_time (s : State) (q : Nat) (g : QueueSt → QueueSt) : (s.modQu q g).time = s.time := rfl
@[simp] theorem State.modQu_gate (s : State) (q : Nat) (g : QueueSt → QueueSt) : (s.modQu q g).gate = s.gate := rfl
@[simp] theorem State.modQu_budg (s : State) (q : Nat) (g : QueueSt → QueueSt) : (s.modQu q g).budg = s.budg := rfl
@[simp] theorem State.modQu_mergeQ (s : State) (q : Nat) (g : QueueSt → QueueSt) : (s.modQu q g).mergeQ = s.mergeQ := rfl
@[simp] theorem State.modQu_invCmd (s : State) (q : Nat) (g : QueueSt → QueueSt) : (s.modQu q g).invCmd = s.invCmd := rfl
@[simp] theorem State.modQu_cry (s : State) (q : Nat) (g : QueueSt → QueueSt) : (s.modQu q g).cry = s.cry := rfl
@[simp] theorem State.modQu_locQ (s : State) (q : Nat) (g : QueueSt → QueueSt) : (s.modQu q g).locQ = s.locQ := rfl
@[simp] theorem State.modQu_nextLoc (s : State) (q : Nat) (g : QueueSt → QueueSt) : (s.modQu q g).nextLoc = s.nextLoc := rfl
@[simp] theorem State.modQu_cards (s : State) (q : Nat) (g : QueueSt → QueueSt) : (s.modQu q g).cards = s.cards := rfl
@[simp] theorem State.modQu_emu (s : State) (q : Nat) (g : QueueSt → QueueSt) : (s.modQu q g).emu = s.emu := rfl
@[simp] theorem State.modQu_pwr (s : State) (q : Nat) (g : QueueSt → QueueSt) : (s.modQu q g).pwr = s.pwr := rfl
@[simp] theorem State.modQu_watch (s : State) (q : Nat) (g : QueueSt → QueueSt) : (s.modQu q g).watch = s.watch := rfl
@[simp] theorem State.modQu_pmb (s : State) (q : Nat) (g : QueueSt → QueueSt) : (s.modQu q g).pmb = s.pmb := rfl
@[simp] theorem State.modQu_flash (s : State) (q : Nat) (g : QueueSt → QueueSt) : (s.modQu q g).flash = s.flash := rfl
@[simp] theorem State.modQu_maint (s : State) (q : Nat) (g : QueueSt → QueueSt) : (s.modQu q g).maint = s.maint := rfl
@[simp] theorem State.modQu_drain (s : State) (q : Nat) (g : QueueSt → QueueSt) : (s.modQu q g).drain = s.drain := rfl
@[simp] theorem State.modQu_romTest (s : State) (q : Nat) (g : QueueSt → QueueSt) : (s.modQu q g).romTest = s.romTest := rfl
@[simp] theorem State.modQu_committed (s : State) (q : Nat) (g : QueueSt → QueueSt) : (s.modQu q g).committed = s.committed := rfl
@[simp] theorem State.modQu_boot (s : State) (q : Nat) (g : QueueSt → QueueSt) : (s.modQu q g).boot = s.boot := rfl
@[simp] theorem State.modQu_bootCal (s : State) (q : Nat) (g : QueueSt → QueueSt) : (s.modQu q g).bootCal = s.bootCal := rfl
@[simp] theorem State.modQu_bootDisc (s : State) (q : Nat) (g : QueueSt → QueueSt) : (s.modQu q g).bootDisc = s.bootDisc := rfl
@[simp] theorem State.modQu_vinOk (s : State) (q : Nat) (g : QueueSt → QueueSt) : (s.modQu q g).vinOk = s.vinOk := rfl
@[simp] theorem State.modQu_vddioOk (s : State) (q : Nat) (g : QueueSt → QueueSt) : (s.modQu q g).vddioOk = s.vddioOk := rfl
@[simp] theorem State.modQu_resetN (s : State) (q : Nat) (g : QueueSt → QueueSt) : (s.modQu q g).resetN = s.resetN := rfl
@[simp] theorem State.modQu_thermHold (s : State) (q : Nat) (g : QueueSt → QueueSt) : (s.modQu q g).thermHold = s.thermHold := rfl
@[simp] theorem State.modQu_ringsUsed (s : State) (q : Nat) (g : QueueSt → QueueSt) : (s.modQu q g).ringsUsed = s.ringsUsed := rfl
@[simp] theorem State.modQu_fresh (s : State) (q : Nat) (g : QueueSt → QueueSt) : (s.modQu q g).fresh = s.fresh := rfl
@[simp] theorem State.modQu_pending (s : State) (q : Nat) (g : QueueSt → QueueSt) : (s.modQu q g).pending = s.pending := rfl

/-! ### modRing -/

@[simp] theorem State.modRing_regs (s : State) (r : Nat) (g : RingSt → RingSt) : (s.modRing r g).regs = s.regs := rfl
@[simp] theorem State.modRing_sram (s : State) (r : Nat) (g : RingSt → RingSt) : (s.modRing r g).sram = s.sram := rfl
@[simp] theorem State.modRing_ports (s : State) (r : Nat) (g : RingSt → RingSt) : (s.modRing r g).ports = s.ports := rfl
@[simp] theorem State.modRing_chans (s : State) (r : Nat) (g : RingSt → RingSt) : (s.modRing r g).chans = s.chans := rfl
@[simp] theorem State.modRing_jobs (s : State) (r : Nat) (g : RingSt → RingSt) : (s.modRing r g).jobs = s.jobs := rfl
@[simp] theorem State.modRing_nextJob (s : State) (r : Nat) (g : RingSt → RingSt) : (s.modRing r g).nextJob = s.nextJob := rfl
@[simp] theorem State.modRing_queues (s : State) (r : Nat) (g : RingSt → RingSt) : (s.modRing r g).queues = s.queues := rfl
@[simp] theorem State.modRing_rr (s : State) (r : Nat) (g : RingSt → RingSt) : (s.modRing r g).rr = s.rr := rfl
@[simp] theorem State.modRing_claims (s : State) (r : Nat) (g : RingSt → RingSt) : (s.modRing r g).claims = s.claims := rfl
@[simp] theorem State.modRing_syn (s : State) (r : Nat) (g : RingSt → RingSt) : (s.modRing r g).syn = s.syn := rfl
@[simp] theorem State.modRing_time (s : State) (r : Nat) (g : RingSt → RingSt) : (s.modRing r g).time = s.time := rfl
@[simp] theorem State.modRing_gate (s : State) (r : Nat) (g : RingSt → RingSt) : (s.modRing r g).gate = s.gate := rfl
@[simp] theorem State.modRing_budg (s : State) (r : Nat) (g : RingSt → RingSt) : (s.modRing r g).budg = s.budg := rfl
@[simp] theorem State.modRing_mergeQ (s : State) (r : Nat) (g : RingSt → RingSt) : (s.modRing r g).mergeQ = s.mergeQ := rfl
@[simp] theorem State.modRing_invCmd (s : State) (r : Nat) (g : RingSt → RingSt) : (s.modRing r g).invCmd = s.invCmd := rfl
@[simp] theorem State.modRing_cry (s : State) (r : Nat) (g : RingSt → RingSt) : (s.modRing r g).cry = s.cry := rfl
@[simp] theorem State.modRing_locQ (s : State) (r : Nat) (g : RingSt → RingSt) : (s.modRing r g).locQ = s.locQ := rfl
@[simp] theorem State.modRing_nextLoc (s : State) (r : Nat) (g : RingSt → RingSt) : (s.modRing r g).nextLoc = s.nextLoc := rfl
@[simp] theorem State.modRing_cards (s : State) (r : Nat) (g : RingSt → RingSt) : (s.modRing r g).cards = s.cards := rfl
@[simp] theorem State.modRing_emu (s : State) (r : Nat) (g : RingSt → RingSt) : (s.modRing r g).emu = s.emu := rfl
@[simp] theorem State.modRing_pwr (s : State) (r : Nat) (g : RingSt → RingSt) : (s.modRing r g).pwr = s.pwr := rfl
@[simp] theorem State.modRing_watch (s : State) (r : Nat) (g : RingSt → RingSt) : (s.modRing r g).watch = s.watch := rfl
@[simp] theorem State.modRing_pmb (s : State) (r : Nat) (g : RingSt → RingSt) : (s.modRing r g).pmb = s.pmb := rfl
@[simp] theorem State.modRing_flash (s : State) (r : Nat) (g : RingSt → RingSt) : (s.modRing r g).flash = s.flash := rfl
@[simp] theorem State.modRing_maint (s : State) (r : Nat) (g : RingSt → RingSt) : (s.modRing r g).maint = s.maint := rfl
@[simp] theorem State.modRing_drain (s : State) (r : Nat) (g : RingSt → RingSt) : (s.modRing r g).drain = s.drain := rfl
@[simp] theorem State.modRing_romTest (s : State) (r : Nat) (g : RingSt → RingSt) : (s.modRing r g).romTest = s.romTest := rfl
@[simp] theorem State.modRing_committed (s : State) (r : Nat) (g : RingSt → RingSt) : (s.modRing r g).committed = s.committed := rfl
@[simp] theorem State.modRing_boot (s : State) (r : Nat) (g : RingSt → RingSt) : (s.modRing r g).boot = s.boot := rfl
@[simp] theorem State.modRing_bootCal (s : State) (r : Nat) (g : RingSt → RingSt) : (s.modRing r g).bootCal = s.bootCal := rfl
@[simp] theorem State.modRing_bootDisc (s : State) (r : Nat) (g : RingSt → RingSt) : (s.modRing r g).bootDisc = s.bootDisc := rfl
@[simp] theorem State.modRing_vinOk (s : State) (r : Nat) (g : RingSt → RingSt) : (s.modRing r g).vinOk = s.vinOk := rfl
@[simp] theorem State.modRing_vddioOk (s : State) (r : Nat) (g : RingSt → RingSt) : (s.modRing r g).vddioOk = s.vddioOk := rfl
@[simp] theorem State.modRing_resetN (s : State) (r : Nat) (g : RingSt → RingSt) : (s.modRing r g).resetN = s.resetN := rfl
@[simp] theorem State.modRing_thermHold (s : State) (r : Nat) (g : RingSt → RingSt) : (s.modRing r g).thermHold = s.thermHold := rfl
@[simp] theorem State.modRing_ringsUsed (s : State) (r : Nat) (g : RingSt → RingSt) : (s.modRing r g).ringsUsed = s.ringsUsed := rfl
@[simp] theorem State.modRing_fresh (s : State) (r : Nat) (g : RingSt → RingSt) : (s.modRing r g).fresh = s.fresh := rfl
@[simp] theorem State.modRing_pending (s : State) (r : Nat) (g : RingSt → RingSt) : (s.modRing r g).pending = s.pending := rfl

/-! ### modCard -/

@[simp] theorem State.modCard_regs (s : State) (n : Nat) (g : Card → Card) : (s.modCard n g).regs = s.regs := rfl
@[simp] theorem State.modCard_sram (s : State) (n : Nat) (g : Card → Card) : (s.modCard n g).sram = s.sram := rfl
@[simp] theorem State.modCard_ports (s : State) (n : Nat) (g : Card → Card) : (s.modCard n g).ports = s.ports := rfl
@[simp] theorem State.modCard_chans (s : State) (n : Nat) (g : Card → Card) : (s.modCard n g).chans = s.chans := rfl
@[simp] theorem State.modCard_jobs (s : State) (n : Nat) (g : Card → Card) : (s.modCard n g).jobs = s.jobs := rfl
@[simp] theorem State.modCard_nextJob (s : State) (n : Nat) (g : Card → Card) : (s.modCard n g).nextJob = s.nextJob := rfl
@[simp] theorem State.modCard_queues (s : State) (n : Nat) (g : Card → Card) : (s.modCard n g).queues = s.queues := rfl
@[simp] theorem State.modCard_rr (s : State) (n : Nat) (g : Card → Card) : (s.modCard n g).rr = s.rr := rfl
@[simp] theorem State.modCard_rings (s : State) (n : Nat) (g : Card → Card) : (s.modCard n g).rings = s.rings := rfl
@[simp] theorem State.modCard_claims (s : State) (n : Nat) (g : Card → Card) : (s.modCard n g).claims = s.claims := rfl
@[simp] theorem State.modCard_syn (s : State) (n : Nat) (g : Card → Card) : (s.modCard n g).syn = s.syn := rfl
@[simp] theorem State.modCard_time (s : State) (n : Nat) (g : Card → Card) : (s.modCard n g).time = s.time := rfl
@[simp] theorem State.modCard_gate (s : State) (n : Nat) (g : Card → Card) : (s.modCard n g).gate = s.gate := rfl
@[simp] theorem State.modCard_budg (s : State) (n : Nat) (g : Card → Card) : (s.modCard n g).budg = s.budg := rfl
@[simp] theorem State.modCard_mergeQ (s : State) (n : Nat) (g : Card → Card) : (s.modCard n g).mergeQ = s.mergeQ := rfl
@[simp] theorem State.modCard_invCmd (s : State) (n : Nat) (g : Card → Card) : (s.modCard n g).invCmd = s.invCmd := rfl
@[simp] theorem State.modCard_cry (s : State) (n : Nat) (g : Card → Card) : (s.modCard n g).cry = s.cry := rfl
@[simp] theorem State.modCard_locQ (s : State) (n : Nat) (g : Card → Card) : (s.modCard n g).locQ = s.locQ := rfl
@[simp] theorem State.modCard_nextLoc (s : State) (n : Nat) (g : Card → Card) : (s.modCard n g).nextLoc = s.nextLoc := rfl
@[simp] theorem State.modCard_emu (s : State) (n : Nat) (g : Card → Card) : (s.modCard n g).emu = s.emu := rfl
@[simp] theorem State.modCard_pwr (s : State) (n : Nat) (g : Card → Card) : (s.modCard n g).pwr = s.pwr := rfl
@[simp] theorem State.modCard_watch (s : State) (n : Nat) (g : Card → Card) : (s.modCard n g).watch = s.watch := rfl
@[simp] theorem State.modCard_pmb (s : State) (n : Nat) (g : Card → Card) : (s.modCard n g).pmb = s.pmb := rfl
@[simp] theorem State.modCard_flash (s : State) (n : Nat) (g : Card → Card) : (s.modCard n g).flash = s.flash := rfl
@[simp] theorem State.modCard_maint (s : State) (n : Nat) (g : Card → Card) : (s.modCard n g).maint = s.maint := rfl
@[simp] theorem State.modCard_drain (s : State) (n : Nat) (g : Card → Card) : (s.modCard n g).drain = s.drain := rfl
@[simp] theorem State.modCard_romTest (s : State) (n : Nat) (g : Card → Card) : (s.modCard n g).romTest = s.romTest := rfl
@[simp] theorem State.modCard_committed (s : State) (n : Nat) (g : Card → Card) : (s.modCard n g).committed = s.committed := rfl
@[simp] theorem State.modCard_boot (s : State) (n : Nat) (g : Card → Card) : (s.modCard n g).boot = s.boot := rfl
@[simp] theorem State.modCard_bootCal (s : State) (n : Nat) (g : Card → Card) : (s.modCard n g).bootCal = s.bootCal := rfl
@[simp] theorem State.modCard_bootDisc (s : State) (n : Nat) (g : Card → Card) : (s.modCard n g).bootDisc = s.bootDisc := rfl
@[simp] theorem State.modCard_vinOk (s : State) (n : Nat) (g : Card → Card) : (s.modCard n g).vinOk = s.vinOk := rfl
@[simp] theorem State.modCard_vddioOk (s : State) (n : Nat) (g : Card → Card) : (s.modCard n g).vddioOk = s.vddioOk := rfl
@[simp] theorem State.modCard_resetN (s : State) (n : Nat) (g : Card → Card) : (s.modCard n g).resetN = s.resetN := rfl
@[simp] theorem State.modCard_thermHold (s : State) (n : Nat) (g : Card → Card) : (s.modCard n g).thermHold = s.thermHold := rfl
@[simp] theorem State.modCard_ringsUsed (s : State) (n : Nat) (g : Card → Card) : (s.modCard n g).ringsUsed = s.ringsUsed := rfl
@[simp] theorem State.modCard_fresh (s : State) (n : Nat) (g : Card → Card) : (s.modCard n g).fresh = s.fresh := rfl
@[simp] theorem State.modCard_pending (s : State) (n : Nat) (g : Card → Card) : (s.modCard n g).pending = s.pending := rfl

/-! ### setClaim -/

@[simp] theorem State.setClaim_regs (s : State) (n : Nat) (c : Option Claim) : (s.setClaim n c).regs = s.regs := rfl
@[simp] theorem State.setClaim_sram (s : State) (n : Nat) (c : Option Claim) : (s.setClaim n c).sram = s.sram := rfl
@[simp] theorem State.setClaim_ports (s : State) (n : Nat) (c : Option Claim) : (s.setClaim n c).ports = s.ports := rfl
@[simp] theorem State.setClaim_chans (s : State) (n : Nat) (c : Option Claim) : (s.setClaim n c).chans = s.chans := rfl
@[simp] theorem State.setClaim_jobs (s : State) (n : Nat) (c : Option Claim) : (s.setClaim n c).jobs = s.jobs := rfl
@[simp] theorem State.setClaim_nextJob (s : State) (n : Nat) (c : Option Claim) : (s.setClaim n c).nextJob = s.nextJob := rfl
@[simp] theorem State.setClaim_queues (s : State) (n : Nat) (c : Option Claim) : (s.setClaim n c).queues = s.queues := rfl
@[simp] theorem State.setClaim_rr (s : State) (n : Nat) (c : Option Claim) : (s.setClaim n c).rr = s.rr := rfl
@[simp] theorem State.setClaim_rings (s : State) (n : Nat) (c : Option Claim) : (s.setClaim n c).rings = s.rings := rfl
@[simp] theorem State.setClaim_syn (s : State) (n : Nat) (c : Option Claim) : (s.setClaim n c).syn = s.syn := rfl
@[simp] theorem State.setClaim_time (s : State) (n : Nat) (c : Option Claim) : (s.setClaim n c).time = s.time := rfl
@[simp] theorem State.setClaim_gate (s : State) (n : Nat) (c : Option Claim) : (s.setClaim n c).gate = s.gate := rfl
@[simp] theorem State.setClaim_budg (s : State) (n : Nat) (c : Option Claim) : (s.setClaim n c).budg = s.budg := rfl
@[simp] theorem State.setClaim_mergeQ (s : State) (n : Nat) (c : Option Claim) : (s.setClaim n c).mergeQ = s.mergeQ := rfl
@[simp] theorem State.setClaim_invCmd (s : State) (n : Nat) (c : Option Claim) : (s.setClaim n c).invCmd = s.invCmd := rfl
@[simp] theorem State.setClaim_cry (s : State) (n : Nat) (c : Option Claim) : (s.setClaim n c).cry = s.cry := rfl
@[simp] theorem State.setClaim_locQ (s : State) (n : Nat) (c : Option Claim) : (s.setClaim n c).locQ = s.locQ := rfl
@[simp] theorem State.setClaim_nextLoc (s : State) (n : Nat) (c : Option Claim) : (s.setClaim n c).nextLoc = s.nextLoc := rfl
@[simp] theorem State.setClaim_cards (s : State) (n : Nat) (c : Option Claim) : (s.setClaim n c).cards = s.cards := rfl
@[simp] theorem State.setClaim_emu (s : State) (n : Nat) (c : Option Claim) : (s.setClaim n c).emu = s.emu := rfl
@[simp] theorem State.setClaim_pwr (s : State) (n : Nat) (c : Option Claim) : (s.setClaim n c).pwr = s.pwr := rfl
@[simp] theorem State.setClaim_watch (s : State) (n : Nat) (c : Option Claim) : (s.setClaim n c).watch = s.watch := rfl
@[simp] theorem State.setClaim_pmb (s : State) (n : Nat) (c : Option Claim) : (s.setClaim n c).pmb = s.pmb := rfl
@[simp] theorem State.setClaim_flash (s : State) (n : Nat) (c : Option Claim) : (s.setClaim n c).flash = s.flash := rfl
@[simp] theorem State.setClaim_maint (s : State) (n : Nat) (c : Option Claim) : (s.setClaim n c).maint = s.maint := rfl
@[simp] theorem State.setClaim_drain (s : State) (n : Nat) (c : Option Claim) : (s.setClaim n c).drain = s.drain := rfl
@[simp] theorem State.setClaim_romTest (s : State) (n : Nat) (c : Option Claim) : (s.setClaim n c).romTest = s.romTest := rfl
@[simp] theorem State.setClaim_committed (s : State) (n : Nat) (c : Option Claim) : (s.setClaim n c).committed = s.committed := rfl
@[simp] theorem State.setClaim_boot (s : State) (n : Nat) (c : Option Claim) : (s.setClaim n c).boot = s.boot := rfl
@[simp] theorem State.setClaim_bootCal (s : State) (n : Nat) (c : Option Claim) : (s.setClaim n c).bootCal = s.bootCal := rfl
@[simp] theorem State.setClaim_bootDisc (s : State) (n : Nat) (c : Option Claim) : (s.setClaim n c).bootDisc = s.bootDisc := rfl
@[simp] theorem State.setClaim_vinOk (s : State) (n : Nat) (c : Option Claim) : (s.setClaim n c).vinOk = s.vinOk := rfl
@[simp] theorem State.setClaim_vddioOk (s : State) (n : Nat) (c : Option Claim) : (s.setClaim n c).vddioOk = s.vddioOk := rfl
@[simp] theorem State.setClaim_resetN (s : State) (n : Nat) (c : Option Claim) : (s.setClaim n c).resetN = s.resetN := rfl
@[simp] theorem State.setClaim_thermHold (s : State) (n : Nat) (c : Option Claim) : (s.setClaim n c).thermHold = s.thermHold := rfl
@[simp] theorem State.setClaim_ringsUsed (s : State) (n : Nat) (c : Option Claim) : (s.setClaim n c).ringsUsed = s.ringsUsed := rfl
@[simp] theorem State.setClaim_fresh (s : State) (n : Nat) (c : Option Claim) : (s.setClaim n c).fresh = s.fresh := rfl
@[simp] theorem State.setClaim_pending (s : State) (n : Nat) (c : Option Claim) : (s.setClaim n c).pending = s.pending := rfl

/-! ### swrite -/

@[simp] theorem State.swrite_regs (s : State) (a : Nat) (bs : List Byte) : (s.swrite a bs).regs = s.regs := rfl
@[simp] theorem State.swrite_ports (s : State) (a : Nat) (bs : List Byte) : (s.swrite a bs).ports = s.ports := rfl
@[simp] theorem State.swrite_chans (s : State) (a : Nat) (bs : List Byte) : (s.swrite a bs).chans = s.chans := rfl
@[simp] theorem State.swrite_jobs (s : State) (a : Nat) (bs : List Byte) : (s.swrite a bs).jobs = s.jobs := rfl
@[simp] theorem State.swrite_nextJob (s : State) (a : Nat) (bs : List Byte) : (s.swrite a bs).nextJob = s.nextJob := rfl
@[simp] theorem State.swrite_queues (s : State) (a : Nat) (bs : List Byte) : (s.swrite a bs).queues = s.queues := rfl
@[simp] theorem State.swrite_rr (s : State) (a : Nat) (bs : List Byte) : (s.swrite a bs).rr = s.rr := rfl
@[simp] theorem State.swrite_rings (s : State) (a : Nat) (bs : List Byte) : (s.swrite a bs).rings = s.rings := rfl
@[simp] theorem State.swrite_claims (s : State) (a : Nat) (bs : List Byte) : (s.swrite a bs).claims = s.claims := rfl
@[simp] theorem State.swrite_syn (s : State) (a : Nat) (bs : List Byte) : (s.swrite a bs).syn = s.syn := rfl
@[simp] theorem State.swrite_time (s : State) (a : Nat) (bs : List Byte) : (s.swrite a bs).time = s.time := rfl
@[simp] theorem State.swrite_gate (s : State) (a : Nat) (bs : List Byte) : (s.swrite a bs).gate = s.gate := rfl
@[simp] theorem State.swrite_budg (s : State) (a : Nat) (bs : List Byte) : (s.swrite a bs).budg = s.budg := rfl
@[simp] theorem State.swrite_mergeQ (s : State) (a : Nat) (bs : List Byte) : (s.swrite a bs).mergeQ = s.mergeQ := rfl
@[simp] theorem State.swrite_invCmd (s : State) (a : Nat) (bs : List Byte) : (s.swrite a bs).invCmd = s.invCmd := rfl
@[simp] theorem State.swrite_cry (s : State) (a : Nat) (bs : List Byte) : (s.swrite a bs).cry = s.cry := rfl
@[simp] theorem State.swrite_locQ (s : State) (a : Nat) (bs : List Byte) : (s.swrite a bs).locQ = s.locQ := rfl
@[simp] theorem State.swrite_nextLoc (s : State) (a : Nat) (bs : List Byte) : (s.swrite a bs).nextLoc = s.nextLoc := rfl
@[simp] theorem State.swrite_cards (s : State) (a : Nat) (bs : List Byte) : (s.swrite a bs).cards = s.cards := rfl
@[simp] theorem State.swrite_emu (s : State) (a : Nat) (bs : List Byte) : (s.swrite a bs).emu = s.emu := rfl
@[simp] theorem State.swrite_pwr (s : State) (a : Nat) (bs : List Byte) : (s.swrite a bs).pwr = s.pwr := rfl
@[simp] theorem State.swrite_watch (s : State) (a : Nat) (bs : List Byte) : (s.swrite a bs).watch = s.watch := rfl
@[simp] theorem State.swrite_pmb (s : State) (a : Nat) (bs : List Byte) : (s.swrite a bs).pmb = s.pmb := rfl
@[simp] theorem State.swrite_flash (s : State) (a : Nat) (bs : List Byte) : (s.swrite a bs).flash = s.flash := rfl
@[simp] theorem State.swrite_maint (s : State) (a : Nat) (bs : List Byte) : (s.swrite a bs).maint = s.maint := rfl
@[simp] theorem State.swrite_drain (s : State) (a : Nat) (bs : List Byte) : (s.swrite a bs).drain = s.drain := rfl
@[simp] theorem State.swrite_romTest (s : State) (a : Nat) (bs : List Byte) : (s.swrite a bs).romTest = s.romTest := rfl
@[simp] theorem State.swrite_committed (s : State) (a : Nat) (bs : List Byte) : (s.swrite a bs).committed = s.committed := rfl
@[simp] theorem State.swrite_boot (s : State) (a : Nat) (bs : List Byte) : (s.swrite a bs).boot = s.boot := rfl
@[simp] theorem State.swrite_bootCal (s : State) (a : Nat) (bs : List Byte) : (s.swrite a bs).bootCal = s.bootCal := rfl
@[simp] theorem State.swrite_bootDisc (s : State) (a : Nat) (bs : List Byte) : (s.swrite a bs).bootDisc = s.bootDisc := rfl
@[simp] theorem State.swrite_vinOk (s : State) (a : Nat) (bs : List Byte) : (s.swrite a bs).vinOk = s.vinOk := rfl
@[simp] theorem State.swrite_vddioOk (s : State) (a : Nat) (bs : List Byte) : (s.swrite a bs).vddioOk = s.vddioOk := rfl
@[simp] theorem State.swrite_resetN (s : State) (a : Nat) (bs : List Byte) : (s.swrite a bs).resetN = s.resetN := rfl
@[simp] theorem State.swrite_thermHold (s : State) (a : Nat) (bs : List Byte) : (s.swrite a bs).thermHold = s.thermHold := rfl
@[simp] theorem State.swrite_ringsUsed (s : State) (a : Nat) (bs : List Byte) : (s.swrite a bs).ringsUsed = s.ringsUsed := rfl
@[simp] theorem State.swrite_fresh (s : State) (a : Nat) (bs : List Byte) : (s.swrite a bs).fresh = s.fresh := rfl
@[simp] theorem State.swrite_pending (s : State) (a : Nat) (bs : List Byte) : (s.swrite a bs).pending = s.pending := rfl

/-! ### swriteNat -/

@[simp] theorem State.swriteNat_regs (s : State) (a n v : Nat) : (s.swriteNat a n v).regs = s.regs := rfl
@[simp] theorem State.swriteNat_ports (s : State) (a n v : Nat) : (s.swriteNat a n v).ports = s.ports := rfl
@[simp] theorem State.swriteNat_chans (s : State) (a n v : Nat) : (s.swriteNat a n v).chans = s.chans := rfl
@[simp] theorem State.swriteNat_jobs (s : State) (a n v : Nat) : (s.swriteNat a n v).jobs = s.jobs := rfl
@[simp] theorem State.swriteNat_nextJob (s : State) (a n v : Nat) : (s.swriteNat a n v).nextJob = s.nextJob := rfl
@[simp] theorem State.swriteNat_queues (s : State) (a n v : Nat) : (s.swriteNat a n v).queues = s.queues := rfl
@[simp] theorem State.swriteNat_rr (s : State) (a n v : Nat) : (s.swriteNat a n v).rr = s.rr := rfl
@[simp] theorem State.swriteNat_rings (s : State) (a n v : Nat) : (s.swriteNat a n v).rings = s.rings := rfl
@[simp] theorem State.swriteNat_claims (s : State) (a n v : Nat) : (s.swriteNat a n v).claims = s.claims := rfl
@[simp] theorem State.swriteNat_syn (s : State) (a n v : Nat) : (s.swriteNat a n v).syn = s.syn := rfl
@[simp] theorem State.swriteNat_time (s : State) (a n v : Nat) : (s.swriteNat a n v).time = s.time := rfl
@[simp] theorem State.swriteNat_gate (s : State) (a n v : Nat) : (s.swriteNat a n v).gate = s.gate := rfl
@[simp] theorem State.swriteNat_budg (s : State) (a n v : Nat) : (s.swriteNat a n v).budg = s.budg := rfl
@[simp] theorem State.swriteNat_mergeQ (s : State) (a n v : Nat) : (s.swriteNat a n v).mergeQ = s.mergeQ := rfl
@[simp] theorem State.swriteNat_invCmd (s : State) (a n v : Nat) : (s.swriteNat a n v).invCmd = s.invCmd := rfl
@[simp] theorem State.swriteNat_cry (s : State) (a n v : Nat) : (s.swriteNat a n v).cry = s.cry := rfl
@[simp] theorem State.swriteNat_locQ (s : State) (a n v : Nat) : (s.swriteNat a n v).locQ = s.locQ := rfl
@[simp] theorem State.swriteNat_nextLoc (s : State) (a n v : Nat) : (s.swriteNat a n v).nextLoc = s.nextLoc := rfl
@[simp] theorem State.swriteNat_cards (s : State) (a n v : Nat) : (s.swriteNat a n v).cards = s.cards := rfl
@[simp] theorem State.swriteNat_emu (s : State) (a n v : Nat) : (s.swriteNat a n v).emu = s.emu := rfl
@[simp] theorem State.swriteNat_pwr (s : State) (a n v : Nat) : (s.swriteNat a n v).pwr = s.pwr := rfl
@[simp] theorem State.swriteNat_watch (s : State) (a n v : Nat) : (s.swriteNat a n v).watch = s.watch := rfl
@[simp] theorem State.swriteNat_pmb (s : State) (a n v : Nat) : (s.swriteNat a n v).pmb = s.pmb := rfl
@[simp] theorem State.swriteNat_flash (s : State) (a n v : Nat) : (s.swriteNat a n v).flash = s.flash := rfl
@[simp] theorem State.swriteNat_maint (s : State) (a n v : Nat) : (s.swriteNat a n v).maint = s.maint := rfl
@[simp] theorem State.swriteNat_drain (s : State) (a n v : Nat) : (s.swriteNat a n v).drain = s.drain := rfl
@[simp] theorem State.swriteNat_romTest (s : State) (a n v : Nat) : (s.swriteNat a n v).romTest = s.romTest := rfl
@[simp] theorem State.swriteNat_committed (s : State) (a n v : Nat) : (s.swriteNat a n v).committed = s.committed := rfl
@[simp] theorem State.swriteNat_boot (s : State) (a n v : Nat) : (s.swriteNat a n v).boot = s.boot := rfl
@[simp] theorem State.swriteNat_bootCal (s : State) (a n v : Nat) : (s.swriteNat a n v).bootCal = s.bootCal := rfl
@[simp] theorem State.swriteNat_bootDisc (s : State) (a n v : Nat) : (s.swriteNat a n v).bootDisc = s.bootDisc := rfl
@[simp] theorem State.swriteNat_vinOk (s : State) (a n v : Nat) : (s.swriteNat a n v).vinOk = s.vinOk := rfl
@[simp] theorem State.swriteNat_vddioOk (s : State) (a n v : Nat) : (s.swriteNat a n v).vddioOk = s.vddioOk := rfl
@[simp] theorem State.swriteNat_resetN (s : State) (a n v : Nat) : (s.swriteNat a n v).resetN = s.resetN := rfl
@[simp] theorem State.swriteNat_thermHold (s : State) (a n v : Nat) : (s.swriteNat a n v).thermHold = s.thermHold := rfl
@[simp] theorem State.swriteNat_ringsUsed (s : State) (a n v : Nat) : (s.swriteNat a n v).ringsUsed = s.ringsUsed := rfl
@[simp] theorem State.swriteNat_fresh (s : State) (a n v : Nat) : (s.swriteNat a n v).fresh = s.fresh := rfl
@[simp] theorem State.swriteNat_pending (s : State) (a n v : Nat) : (s.swriteNat a n v).pending = s.pending := rfl

/-! ### fset -/

@[simp] theorem State.fset_regs (s : State) (a : Nat) (b : Byte) : (s.fset a b).regs = s.regs := rfl
@[simp] theorem State.fset_sram (s : State) (a : Nat) (b : Byte) : (s.fset a b).sram = s.sram := rfl
@[simp] theorem State.fset_ports (s : State) (a : Nat) (b : Byte) : (s.fset a b).ports = s.ports := rfl
@[simp] theorem State.fset_chans (s : State) (a : Nat) (b : Byte) : (s.fset a b).chans = s.chans := rfl
@[simp] theorem State.fset_jobs (s : State) (a : Nat) (b : Byte) : (s.fset a b).jobs = s.jobs := rfl
@[simp] theorem State.fset_nextJob (s : State) (a : Nat) (b : Byte) : (s.fset a b).nextJob = s.nextJob := rfl
@[simp] theorem State.fset_queues (s : State) (a : Nat) (b : Byte) : (s.fset a b).queues = s.queues := rfl
@[simp] theorem State.fset_rr (s : State) (a : Nat) (b : Byte) : (s.fset a b).rr = s.rr := rfl
@[simp] theorem State.fset_rings (s : State) (a : Nat) (b : Byte) : (s.fset a b).rings = s.rings := rfl
@[simp] theorem State.fset_claims (s : State) (a : Nat) (b : Byte) : (s.fset a b).claims = s.claims := rfl
@[simp] theorem State.fset_syn (s : State) (a : Nat) (b : Byte) : (s.fset a b).syn = s.syn := rfl
@[simp] theorem State.fset_time (s : State) (a : Nat) (b : Byte) : (s.fset a b).time = s.time := rfl
@[simp] theorem State.fset_gate (s : State) (a : Nat) (b : Byte) : (s.fset a b).gate = s.gate := rfl
@[simp] theorem State.fset_budg (s : State) (a : Nat) (b : Byte) : (s.fset a b).budg = s.budg := rfl
@[simp] theorem State.fset_mergeQ (s : State) (a : Nat) (b : Byte) : (s.fset a b).mergeQ = s.mergeQ := rfl
@[simp] theorem State.fset_invCmd (s : State) (a : Nat) (b : Byte) : (s.fset a b).invCmd = s.invCmd := rfl
@[simp] theorem State.fset_cry (s : State) (a : Nat) (b : Byte) : (s.fset a b).cry = s.cry := rfl
@[simp] theorem State.fset_locQ (s : State) (a : Nat) (b : Byte) : (s.fset a b).locQ = s.locQ := rfl
@[simp] theorem State.fset_nextLoc (s : State) (a : Nat) (b : Byte) : (s.fset a b).nextLoc = s.nextLoc := rfl
@[simp] theorem State.fset_cards (s : State) (a : Nat) (b : Byte) : (s.fset a b).cards = s.cards := rfl
@[simp] theorem State.fset_emu (s : State) (a : Nat) (b : Byte) : (s.fset a b).emu = s.emu := rfl
@[simp] theorem State.fset_pwr (s : State) (a : Nat) (b : Byte) : (s.fset a b).pwr = s.pwr := rfl
@[simp] theorem State.fset_watch (s : State) (a : Nat) (b : Byte) : (s.fset a b).watch = s.watch := rfl
@[simp] theorem State.fset_pmb (s : State) (a : Nat) (b : Byte) : (s.fset a b).pmb = s.pmb := rfl
@[simp] theorem State.fset_maint (s : State) (a : Nat) (b : Byte) : (s.fset a b).maint = s.maint := rfl
@[simp] theorem State.fset_drain (s : State) (a : Nat) (b : Byte) : (s.fset a b).drain = s.drain := rfl
@[simp] theorem State.fset_romTest (s : State) (a : Nat) (b : Byte) : (s.fset a b).romTest = s.romTest := rfl
@[simp] theorem State.fset_committed (s : State) (a : Nat) (b : Byte) : (s.fset a b).committed = s.committed := rfl
@[simp] theorem State.fset_boot (s : State) (a : Nat) (b : Byte) : (s.fset a b).boot = s.boot := rfl
@[simp] theorem State.fset_bootCal (s : State) (a : Nat) (b : Byte) : (s.fset a b).bootCal = s.bootCal := rfl
@[simp] theorem State.fset_bootDisc (s : State) (a : Nat) (b : Byte) : (s.fset a b).bootDisc = s.bootDisc := rfl
@[simp] theorem State.fset_vinOk (s : State) (a : Nat) (b : Byte) : (s.fset a b).vinOk = s.vinOk := rfl
@[simp] theorem State.fset_vddioOk (s : State) (a : Nat) (b : Byte) : (s.fset a b).vddioOk = s.vddioOk := rfl
@[simp] theorem State.fset_resetN (s : State) (a : Nat) (b : Byte) : (s.fset a b).resetN = s.resetN := rfl
@[simp] theorem State.fset_thermHold (s : State) (a : Nat) (b : Byte) : (s.fset a b).thermHold = s.thermHold := rfl
@[simp] theorem State.fset_ringsUsed (s : State) (a : Nat) (b : Byte) : (s.fset a b).ringsUsed = s.ringsUsed := rfl
@[simp] theorem State.fset_fresh (s : State) (a : Nat) (b : Byte) : (s.fset a b).fresh = s.fresh := rfl
@[simp] theorem State.fset_pending (s : State) (a : Nat) (b : Byte) : (s.fset a b).pending = s.pending := rfl

/-! ### modFlash -/

@[simp] theorem State.modFlash_regs (s : State) (g : FlashSt → FlashSt) : (s.modFlash g).regs = s.regs := rfl
@[simp] theorem State.modFlash_sram (s : State) (g : FlashSt → FlashSt) : (s.modFlash g).sram = s.sram := rfl
@[simp] theorem State.modFlash_ports (s : State) (g : FlashSt → FlashSt) : (s.modFlash g).ports = s.ports := rfl
@[simp] theorem State.modFlash_chans (s : State) (g : FlashSt → FlashSt) : (s.modFlash g).chans = s.chans := rfl
@[simp] theorem State.modFlash_jobs (s : State) (g : FlashSt → FlashSt) : (s.modFlash g).jobs = s.jobs := rfl
@[simp] theorem State.modFlash_nextJob (s : State) (g : FlashSt → FlashSt) : (s.modFlash g).nextJob = s.nextJob := rfl
@[simp] theorem State.modFlash_queues (s : State) (g : FlashSt → FlashSt) : (s.modFlash g).queues = s.queues := rfl
@[simp] theorem State.modFlash_rr (s : State) (g : FlashSt → FlashSt) : (s.modFlash g).rr = s.rr := rfl
@[simp] theorem State.modFlash_rings (s : State) (g : FlashSt → FlashSt) : (s.modFlash g).rings = s.rings := rfl
@[simp] theorem State.modFlash_claims (s : State) (g : FlashSt → FlashSt) : (s.modFlash g).claims = s.claims := rfl
@[simp] theorem State.modFlash_syn (s : State) (g : FlashSt → FlashSt) : (s.modFlash g).syn = s.syn := rfl
@[simp] theorem State.modFlash_time (s : State) (g : FlashSt → FlashSt) : (s.modFlash g).time = s.time := rfl
@[simp] theorem State.modFlash_gate (s : State) (g : FlashSt → FlashSt) : (s.modFlash g).gate = s.gate := rfl
@[simp] theorem State.modFlash_budg (s : State) (g : FlashSt → FlashSt) : (s.modFlash g).budg = s.budg := rfl
@[simp] theorem State.modFlash_mergeQ (s : State) (g : FlashSt → FlashSt) : (s.modFlash g).mergeQ = s.mergeQ := rfl
@[simp] theorem State.modFlash_invCmd (s : State) (g : FlashSt → FlashSt) : (s.modFlash g).invCmd = s.invCmd := rfl
@[simp] theorem State.modFlash_cry (s : State) (g : FlashSt → FlashSt) : (s.modFlash g).cry = s.cry := rfl
@[simp] theorem State.modFlash_locQ (s : State) (g : FlashSt → FlashSt) : (s.modFlash g).locQ = s.locQ := rfl
@[simp] theorem State.modFlash_nextLoc (s : State) (g : FlashSt → FlashSt) : (s.modFlash g).nextLoc = s.nextLoc := rfl
@[simp] theorem State.modFlash_cards (s : State) (g : FlashSt → FlashSt) : (s.modFlash g).cards = s.cards := rfl
@[simp] theorem State.modFlash_emu (s : State) (g : FlashSt → FlashSt) : (s.modFlash g).emu = s.emu := rfl
@[simp] theorem State.modFlash_pwr (s : State) (g : FlashSt → FlashSt) : (s.modFlash g).pwr = s.pwr := rfl
@[simp] theorem State.modFlash_watch (s : State) (g : FlashSt → FlashSt) : (s.modFlash g).watch = s.watch := rfl
@[simp] theorem State.modFlash_pmb (s : State) (g : FlashSt → FlashSt) : (s.modFlash g).pmb = s.pmb := rfl
@[simp] theorem State.modFlash_maint (s : State) (g : FlashSt → FlashSt) : (s.modFlash g).maint = s.maint := rfl
@[simp] theorem State.modFlash_drain (s : State) (g : FlashSt → FlashSt) : (s.modFlash g).drain = s.drain := rfl
@[simp] theorem State.modFlash_romTest (s : State) (g : FlashSt → FlashSt) : (s.modFlash g).romTest = s.romTest := rfl
@[simp] theorem State.modFlash_committed (s : State) (g : FlashSt → FlashSt) : (s.modFlash g).committed = s.committed := rfl
@[simp] theorem State.modFlash_boot (s : State) (g : FlashSt → FlashSt) : (s.modFlash g).boot = s.boot := rfl
@[simp] theorem State.modFlash_bootCal (s : State) (g : FlashSt → FlashSt) : (s.modFlash g).bootCal = s.bootCal := rfl
@[simp] theorem State.modFlash_bootDisc (s : State) (g : FlashSt → FlashSt) : (s.modFlash g).bootDisc = s.bootDisc := rfl
@[simp] theorem State.modFlash_vinOk (s : State) (g : FlashSt → FlashSt) : (s.modFlash g).vinOk = s.vinOk := rfl
@[simp] theorem State.modFlash_vddioOk (s : State) (g : FlashSt → FlashSt) : (s.modFlash g).vddioOk = s.vddioOk := rfl
@[simp] theorem State.modFlash_resetN (s : State) (g : FlashSt → FlashSt) : (s.modFlash g).resetN = s.resetN := rfl
@[simp] theorem State.modFlash_thermHold (s : State) (g : FlashSt → FlashSt) : (s.modFlash g).thermHold = s.thermHold := rfl
@[simp] theorem State.modFlash_ringsUsed (s : State) (g : FlashSt → FlashSt) : (s.modFlash g).ringsUsed = s.ringsUsed := rfl
@[simp] theorem State.modFlash_fresh (s : State) (g : FlashSt → FlashSt) : (s.modFlash g).fresh = s.fresh := rfl
@[simp] theorem State.modFlash_pending (s : State) (g : FlashSt → FlashSt) : (s.modFlash g).pending = s.pending := rfl

/-! ### modJob -/

@[simp] theorem State.modJob_regs (s : State) (id : Nat) (g : Job → Job) : (s.modJob id g).regs = s.regs := rfl
@[simp] theorem State.modJob_sram (s : State) (id : Nat) (g : Job → Job) : (s.modJob id g).sram = s.sram := rfl
@[simp] theorem State.modJob_ports (s : State) (id : Nat) (g : Job → Job) : (s.modJob id g).ports = s.ports := rfl
@[simp] theorem State.modJob_chans (s : State) (id : Nat) (g : Job → Job) : (s.modJob id g).chans = s.chans := rfl
@[simp] theorem State.modJob_nextJob (s : State) (id : Nat) (g : Job → Job) : (s.modJob id g).nextJob = s.nextJob := rfl
@[simp] theorem State.modJob_queues (s : State) (id : Nat) (g : Job → Job) : (s.modJob id g).queues = s.queues := rfl
@[simp] theorem State.modJob_rr (s : State) (id : Nat) (g : Job → Job) : (s.modJob id g).rr = s.rr := rfl
@[simp] theorem State.modJob_rings (s : State) (id : Nat) (g : Job → Job) : (s.modJob id g).rings = s.rings := rfl
@[simp] theorem State.modJob_claims (s : State) (id : Nat) (g : Job → Job) : (s.modJob id g).claims = s.claims := rfl
@[simp] theorem State.modJob_syn (s : State) (id : Nat) (g : Job → Job) : (s.modJob id g).syn = s.syn := rfl
@[simp] theorem State.modJob_time (s : State) (id : Nat) (g : Job → Job) : (s.modJob id g).time = s.time := rfl
@[simp] theorem State.modJob_gate (s : State) (id : Nat) (g : Job → Job) : (s.modJob id g).gate = s.gate := rfl
@[simp] theorem State.modJob_budg (s : State) (id : Nat) (g : Job → Job) : (s.modJob id g).budg = s.budg := rfl
@[simp] theorem State.modJob_mergeQ (s : State) (id : Nat) (g : Job → Job) : (s.modJob id g).mergeQ = s.mergeQ := rfl
@[simp] theorem State.modJob_invCmd (s : State) (id : Nat) (g : Job → Job) : (s.modJob id g).invCmd = s.invCmd := rfl
@[simp] theorem State.modJob_cry (s : State) (id : Nat) (g : Job → Job) : (s.modJob id g).cry = s.cry := rfl
@[simp] theorem State.modJob_locQ (s : State) (id : Nat) (g : Job → Job) : (s.modJob id g).locQ = s.locQ := rfl
@[simp] theorem State.modJob_nextLoc (s : State) (id : Nat) (g : Job → Job) : (s.modJob id g).nextLoc = s.nextLoc := rfl
@[simp] theorem State.modJob_cards (s : State) (id : Nat) (g : Job → Job) : (s.modJob id g).cards = s.cards := rfl
@[simp] theorem State.modJob_emu (s : State) (id : Nat) (g : Job → Job) : (s.modJob id g).emu = s.emu := rfl
@[simp] theorem State.modJob_pwr (s : State) (id : Nat) (g : Job → Job) : (s.modJob id g).pwr = s.pwr := rfl
@[simp] theorem State.modJob_watch (s : State) (id : Nat) (g : Job → Job) : (s.modJob id g).watch = s.watch := rfl
@[simp] theorem State.modJob_pmb (s : State) (id : Nat) (g : Job → Job) : (s.modJob id g).pmb = s.pmb := rfl
@[simp] theorem State.modJob_flash (s : State) (id : Nat) (g : Job → Job) : (s.modJob id g).flash = s.flash := rfl
@[simp] theorem State.modJob_maint (s : State) (id : Nat) (g : Job → Job) : (s.modJob id g).maint = s.maint := rfl
@[simp] theorem State.modJob_drain (s : State) (id : Nat) (g : Job → Job) : (s.modJob id g).drain = s.drain := rfl
@[simp] theorem State.modJob_romTest (s : State) (id : Nat) (g : Job → Job) : (s.modJob id g).romTest = s.romTest := rfl
@[simp] theorem State.modJob_committed (s : State) (id : Nat) (g : Job → Job) : (s.modJob id g).committed = s.committed := rfl
@[simp] theorem State.modJob_boot (s : State) (id : Nat) (g : Job → Job) : (s.modJob id g).boot = s.boot := rfl
@[simp] theorem State.modJob_bootCal (s : State) (id : Nat) (g : Job → Job) : (s.modJob id g).bootCal = s.bootCal := rfl
@[simp] theorem State.modJob_bootDisc (s : State) (id : Nat) (g : Job → Job) : (s.modJob id g).bootDisc = s.bootDisc := rfl
@[simp] theorem State.modJob_vinOk (s : State) (id : Nat) (g : Job → Job) : (s.modJob id g).vinOk = s.vinOk := rfl
@[simp] theorem State.modJob_vddioOk (s : State) (id : Nat) (g : Job → Job) : (s.modJob id g).vddioOk = s.vddioOk := rfl
@[simp] theorem State.modJob_resetN (s : State) (id : Nat) (g : Job → Job) : (s.modJob id g).resetN = s.resetN := rfl
@[simp] theorem State.modJob_thermHold (s : State) (id : Nat) (g : Job → Job) : (s.modJob id g).thermHold = s.thermHold := rfl
@[simp] theorem State.modJob_ringsUsed (s : State) (id : Nat) (g : Job → Job) : (s.modJob id g).ringsUsed = s.ringsUsed := rfl
@[simp] theorem State.modJob_fresh (s : State) (id : Nat) (g : Job → Job) : (s.modJob id g).fresh = s.fresh := rfl
@[simp] theorem State.modJob_pending (s : State) (id : Nat) (g : Job → Job) : (s.modJob id g).pending = s.pending := rfl

/-! ### dropJob -/

@[simp] theorem State.dropJob_regs (s : State) (id : Nat) : (s.dropJob id).regs = s.regs := rfl
@[simp] theorem State.dropJob_sram (s : State) (id : Nat) : (s.dropJob id).sram = s.sram := rfl
@[simp] theorem State.dropJob_ports (s : State) (id : Nat) : (s.dropJob id).ports = s.ports := rfl
@[simp] theorem State.dropJob_chans (s : State) (id : Nat) : (s.dropJob id).chans = s.chans := rfl
@[simp] theorem State.dropJob_nextJob (s : State) (id : Nat) : (s.dropJob id).nextJob = s.nextJob := rfl
@[simp] theorem State.dropJob_queues (s : State) (id : Nat) : (s.dropJob id).queues = s.queues := rfl
@[simp] theorem State.dropJob_rr (s : State) (id : Nat) : (s.dropJob id).rr = s.rr := rfl
@[simp] theorem State.dropJob_rings (s : State) (id : Nat) : (s.dropJob id).rings = s.rings := rfl
@[simp] theorem State.dropJob_claims (s : State) (id : Nat) : (s.dropJob id).claims = s.claims := rfl
@[simp] theorem State.dropJob_syn (s : State) (id : Nat) : (s.dropJob id).syn = s.syn := rfl
@[simp] theorem State.dropJob_time (s : State) (id : Nat) : (s.dropJob id).time = s.time := rfl
@[simp] theorem State.dropJob_gate (s : State) (id : Nat) : (s.dropJob id).gate = s.gate := rfl
@[simp] theorem State.dropJob_budg (s : State) (id : Nat) : (s.dropJob id).budg = s.budg := rfl
@[simp] theorem State.dropJob_mergeQ (s : State) (id : Nat) : (s.dropJob id).mergeQ = s.mergeQ := rfl
@[simp] theorem State.dropJob_invCmd (s : State) (id : Nat) : (s.dropJob id).invCmd = s.invCmd := rfl
@[simp] theorem State.dropJob_cry (s : State) (id : Nat) : (s.dropJob id).cry = s.cry := rfl
@[simp] theorem State.dropJob_locQ (s : State) (id : Nat) : (s.dropJob id).locQ = s.locQ := rfl
@[simp] theorem State.dropJob_nextLoc (s : State) (id : Nat) : (s.dropJob id).nextLoc = s.nextLoc := rfl
@[simp] theorem State.dropJob_cards (s : State) (id : Nat) : (s.dropJob id).cards = s.cards := rfl
@[simp] theorem State.dropJob_emu (s : State) (id : Nat) : (s.dropJob id).emu = s.emu := rfl
@[simp] theorem State.dropJob_pwr (s : State) (id : Nat) : (s.dropJob id).pwr = s.pwr := rfl
@[simp] theorem State.dropJob_watch (s : State) (id : Nat) : (s.dropJob id).watch = s.watch := rfl
@[simp] theorem State.dropJob_pmb (s : State) (id : Nat) : (s.dropJob id).pmb = s.pmb := rfl
@[simp] theorem State.dropJob_flash (s : State) (id : Nat) : (s.dropJob id).flash = s.flash := rfl
@[simp] theorem State.dropJob_maint (s : State) (id : Nat) : (s.dropJob id).maint = s.maint := rfl
@[simp] theorem State.dropJob_drain (s : State) (id : Nat) : (s.dropJob id).drain = s.drain := rfl
@[simp] theorem State.dropJob_romTest (s : State) (id : Nat) : (s.dropJob id).romTest = s.romTest := rfl
@[simp] theorem State.dropJob_committed (s : State) (id : Nat) : (s.dropJob id).committed = s.committed := rfl
@[simp] theorem State.dropJob_boot (s : State) (id : Nat) : (s.dropJob id).boot = s.boot := rfl
@[simp] theorem State.dropJob_bootCal (s : State) (id : Nat) : (s.dropJob id).bootCal = s.bootCal := rfl
@[simp] theorem State.dropJob_bootDisc (s : State) (id : Nat) : (s.dropJob id).bootDisc = s.bootDisc := rfl
@[simp] theorem State.dropJob_vinOk (s : State) (id : Nat) : (s.dropJob id).vinOk = s.vinOk := rfl
@[simp] theorem State.dropJob_vddioOk (s : State) (id : Nat) : (s.dropJob id).vddioOk = s.vddioOk := rfl
@[simp] theorem State.dropJob_resetN (s : State) (id : Nat) : (s.dropJob id).resetN = s.resetN := rfl
@[simp] theorem State.dropJob_thermHold (s : State) (id : Nat) : (s.dropJob id).thermHold = s.thermHold := rfl
@[simp] theorem State.dropJob_ringsUsed (s : State) (id : Nat) : (s.dropJob id).ringsUsed = s.ringsUsed := rfl
@[simp] theorem State.dropJob_fresh (s : State) (id : Nat) : (s.dropJob id).fresh = s.fresh := rfl
@[simp] theorem State.dropJob_pending (s : State) (id : Nat) : (s.dropJob id).pending = s.pending := rfl

/-! ### modBudg -/

@[simp] theorem State.modBudg_regs (s : State) (g : BudgSt → BudgSt) : (s.modBudg g).regs = s.regs := rfl
@[simp] theorem State.modBudg_sram (s : State) (g : BudgSt → BudgSt) : (s.modBudg g).sram = s.sram := rfl
@[simp] theorem State.modBudg_ports (s : State) (g : BudgSt → BudgSt) : (s.modBudg g).ports = s.ports := rfl
@[simp] theorem State.modBudg_chans (s : State) (g : BudgSt → BudgSt) : (s.modBudg g).chans = s.chans := rfl
@[simp] theorem State.modBudg_jobs (s : State) (g : BudgSt → BudgSt) : (s.modBudg g).jobs = s.jobs := rfl
@[simp] theorem State.modBudg_nextJob (s : State) (g : BudgSt → BudgSt) : (s.modBudg g).nextJob = s.nextJob := rfl
@[simp] theorem State.modBudg_queues (s : State) (g : BudgSt → BudgSt) : (s.modBudg g).queues = s.queues := rfl
@[simp] theorem State.modBudg_rr (s : State) (g : BudgSt → BudgSt) : (s.modBudg g).rr = s.rr := rfl
@[simp] theorem State.modBudg_rings (s : State) (g : BudgSt → BudgSt) : (s.modBudg g).rings = s.rings := rfl
@[simp] theorem State.modBudg_claims (s : State) (g : BudgSt → BudgSt) : (s.modBudg g).claims = s.claims := rfl
@[simp] theorem State.modBudg_syn (s : State) (g : BudgSt → BudgSt) : (s.modBudg g).syn = s.syn := rfl
@[simp] theorem State.modBudg_time (s : State) (g : BudgSt → BudgSt) : (s.modBudg g).time = s.time := rfl
@[simp] theorem State.modBudg_gate (s : State) (g : BudgSt → BudgSt) : (s.modBudg g).gate = s.gate := rfl
@[simp] theorem State.modBudg_mergeQ (s : State) (g : BudgSt → BudgSt) : (s.modBudg g).mergeQ = s.mergeQ := rfl
@[simp] theorem State.modBudg_invCmd (s : State) (g : BudgSt → BudgSt) : (s.modBudg g).invCmd = s.invCmd := rfl
@[simp] theorem State.modBudg_cry (s : State) (g : BudgSt → BudgSt) : (s.modBudg g).cry = s.cry := rfl
@[simp] theorem State.modBudg_locQ (s : State) (g : BudgSt → BudgSt) : (s.modBudg g).locQ = s.locQ := rfl
@[simp] theorem State.modBudg_nextLoc (s : State) (g : BudgSt → BudgSt) : (s.modBudg g).nextLoc = s.nextLoc := rfl
@[simp] theorem State.modBudg_cards (s : State) (g : BudgSt → BudgSt) : (s.modBudg g).cards = s.cards := rfl
@[simp] theorem State.modBudg_emu (s : State) (g : BudgSt → BudgSt) : (s.modBudg g).emu = s.emu := rfl
@[simp] theorem State.modBudg_pwr (s : State) (g : BudgSt → BudgSt) : (s.modBudg g).pwr = s.pwr := rfl
@[simp] theorem State.modBudg_watch (s : State) (g : BudgSt → BudgSt) : (s.modBudg g).watch = s.watch := rfl
@[simp] theorem State.modBudg_pmb (s : State) (g : BudgSt → BudgSt) : (s.modBudg g).pmb = s.pmb := rfl
@[simp] theorem State.modBudg_flash (s : State) (g : BudgSt → BudgSt) : (s.modBudg g).flash = s.flash := rfl
@[simp] theorem State.modBudg_maint (s : State) (g : BudgSt → BudgSt) : (s.modBudg g).maint = s.maint := rfl
@[simp] theorem State.modBudg_drain (s : State) (g : BudgSt → BudgSt) : (s.modBudg g).drain = s.drain := rfl
@[simp] theorem State.modBudg_romTest (s : State) (g : BudgSt → BudgSt) : (s.modBudg g).romTest = s.romTest := rfl
@[simp] theorem State.modBudg_committed (s : State) (g : BudgSt → BudgSt) : (s.modBudg g).committed = s.committed := rfl
@[simp] theorem State.modBudg_boot (s : State) (g : BudgSt → BudgSt) : (s.modBudg g).boot = s.boot := rfl
@[simp] theorem State.modBudg_bootCal (s : State) (g : BudgSt → BudgSt) : (s.modBudg g).bootCal = s.bootCal := rfl
@[simp] theorem State.modBudg_bootDisc (s : State) (g : BudgSt → BudgSt) : (s.modBudg g).bootDisc = s.bootDisc := rfl
@[simp] theorem State.modBudg_vinOk (s : State) (g : BudgSt → BudgSt) : (s.modBudg g).vinOk = s.vinOk := rfl
@[simp] theorem State.modBudg_vddioOk (s : State) (g : BudgSt → BudgSt) : (s.modBudg g).vddioOk = s.vddioOk := rfl
@[simp] theorem State.modBudg_resetN (s : State) (g : BudgSt → BudgSt) : (s.modBudg g).resetN = s.resetN := rfl
@[simp] theorem State.modBudg_thermHold (s : State) (g : BudgSt → BudgSt) : (s.modBudg g).thermHold = s.thermHold := rfl
@[simp] theorem State.modBudg_ringsUsed (s : State) (g : BudgSt → BudgSt) : (s.modBudg g).ringsUsed = s.ringsUsed := rfl
@[simp] theorem State.modBudg_fresh (s : State) (g : BudgSt → BudgSt) : (s.modBudg g).fresh = s.fresh := rfl
@[simp] theorem State.modBudg_pending (s : State) (g : BudgSt → BudgSt) : (s.modBudg g).pending = s.pending := rfl

/-! ### modPmb -/

@[simp] theorem State.modPmb_regs (s : State) (g : PmbSt → PmbSt) : (s.modPmb g).regs = s.regs := rfl
@[simp] theorem State.modPmb_sram (s : State) (g : PmbSt → PmbSt) : (s.modPmb g).sram = s.sram := rfl
@[simp] theorem State.modPmb_ports (s : State) (g : PmbSt → PmbSt) : (s.modPmb g).ports = s.ports := rfl
@[simp] theorem State.modPmb_chans (s : State) (g : PmbSt → PmbSt) : (s.modPmb g).chans = s.chans := rfl
@[simp] theorem State.modPmb_jobs (s : State) (g : PmbSt → PmbSt) : (s.modPmb g).jobs = s.jobs := rfl
@[simp] theorem State.modPmb_nextJob (s : State) (g : PmbSt → PmbSt) : (s.modPmb g).nextJob = s.nextJob := rfl
@[simp] theorem State.modPmb_queues (s : State) (g : PmbSt → PmbSt) : (s.modPmb g).queues = s.queues := rfl
@[simp] theorem State.modPmb_rr (s : State) (g : PmbSt → PmbSt) : (s.modPmb g).rr = s.rr := rfl
@[simp] theorem State.modPmb_rings (s : State) (g : PmbSt → PmbSt) : (s.modPmb g).rings = s.rings := rfl
@[simp] theorem State.modPmb_claims (s : State) (g : PmbSt → PmbSt) : (s.modPmb g).claims = s.claims := rfl
@[simp] theorem State.modPmb_syn (s : State) (g : PmbSt → PmbSt) : (s.modPmb g).syn = s.syn := rfl
@[simp] theorem State.modPmb_time (s : State) (g : PmbSt → PmbSt) : (s.modPmb g).time = s.time := rfl
@[simp] theorem State.modPmb_gate (s : State) (g : PmbSt → PmbSt) : (s.modPmb g).gate = s.gate := rfl
@[simp] theorem State.modPmb_budg (s : State) (g : PmbSt → PmbSt) : (s.modPmb g).budg = s.budg := rfl
@[simp] theorem State.modPmb_mergeQ (s : State) (g : PmbSt → PmbSt) : (s.modPmb g).mergeQ = s.mergeQ := rfl
@[simp] theorem State.modPmb_invCmd (s : State) (g : PmbSt → PmbSt) : (s.modPmb g).invCmd = s.invCmd := rfl
@[simp] theorem State.modPmb_cry (s : State) (g : PmbSt → PmbSt) : (s.modPmb g).cry = s.cry := rfl
@[simp] theorem State.modPmb_locQ (s : State) (g : PmbSt → PmbSt) : (s.modPmb g).locQ = s.locQ := rfl
@[simp] theorem State.modPmb_nextLoc (s : State) (g : PmbSt → PmbSt) : (s.modPmb g).nextLoc = s.nextLoc := rfl
@[simp] theorem State.modPmb_cards (s : State) (g : PmbSt → PmbSt) : (s.modPmb g).cards = s.cards := rfl
@[simp] theorem State.modPmb_emu (s : State) (g : PmbSt → PmbSt) : (s.modPmb g).emu = s.emu := rfl
@[simp] theorem State.modPmb_pwr (s : State) (g : PmbSt → PmbSt) : (s.modPmb g).pwr = s.pwr := rfl
@[simp] theorem State.modPmb_watch (s : State) (g : PmbSt → PmbSt) : (s.modPmb g).watch = s.watch := rfl
@[simp] theorem State.modPmb_flash (s : State) (g : PmbSt → PmbSt) : (s.modPmb g).flash = s.flash := rfl
@[simp] theorem State.modPmb_maint (s : State) (g : PmbSt → PmbSt) : (s.modPmb g).maint = s.maint := rfl
@[simp] theorem State.modPmb_drain (s : State) (g : PmbSt → PmbSt) : (s.modPmb g).drain = s.drain := rfl
@[simp] theorem State.modPmb_romTest (s : State) (g : PmbSt → PmbSt) : (s.modPmb g).romTest = s.romTest := rfl
@[simp] theorem State.modPmb_committed (s : State) (g : PmbSt → PmbSt) : (s.modPmb g).committed = s.committed := rfl
@[simp] theorem State.modPmb_boot (s : State) (g : PmbSt → PmbSt) : (s.modPmb g).boot = s.boot := rfl
@[simp] theorem State.modPmb_bootCal (s : State) (g : PmbSt → PmbSt) : (s.modPmb g).bootCal = s.bootCal := rfl
@[simp] theorem State.modPmb_bootDisc (s : State) (g : PmbSt → PmbSt) : (s.modPmb g).bootDisc = s.bootDisc := rfl
@[simp] theorem State.modPmb_vinOk (s : State) (g : PmbSt → PmbSt) : (s.modPmb g).vinOk = s.vinOk := rfl
@[simp] theorem State.modPmb_vddioOk (s : State) (g : PmbSt → PmbSt) : (s.modPmb g).vddioOk = s.vddioOk := rfl
@[simp] theorem State.modPmb_resetN (s : State) (g : PmbSt → PmbSt) : (s.modPmb g).resetN = s.resetN := rfl
@[simp] theorem State.modPmb_thermHold (s : State) (g : PmbSt → PmbSt) : (s.modPmb g).thermHold = s.thermHold := rfl
@[simp] theorem State.modPmb_ringsUsed (s : State) (g : PmbSt → PmbSt) : (s.modPmb g).ringsUsed = s.ringsUsed := rfl
@[simp] theorem State.modPmb_fresh (s : State) (g : PmbSt → PmbSt) : (s.modPmb g).fresh = s.fresh := rfl
@[simp] theorem State.modPmb_pending (s : State) (g : PmbSt → PmbSt) : (s.modPmb g).pending = s.pending := rfl

/-! ### modEmu -/

@[simp] theorem State.modEmu_regs (s : State) (g : EmuSt → EmuSt) : (s.modEmu g).regs = s.regs := rfl
@[simp] theorem State.modEmu_sram (s : State) (g : EmuSt → EmuSt) : (s.modEmu g).sram = s.sram := rfl
@[simp] theorem State.modEmu_ports (s : State) (g : EmuSt → EmuSt) : (s.modEmu g).ports = s.ports := rfl
@[simp] theorem State.modEmu_chans (s : State) (g : EmuSt → EmuSt) : (s.modEmu g).chans = s.chans := rfl
@[simp] theorem State.modEmu_jobs (s : State) (g : EmuSt → EmuSt) : (s.modEmu g).jobs = s.jobs := rfl
@[simp] theorem State.modEmu_nextJob (s : State) (g : EmuSt → EmuSt) : (s.modEmu g).nextJob = s.nextJob := rfl
@[simp] theorem State.modEmu_queues (s : State) (g : EmuSt → EmuSt) : (s.modEmu g).queues = s.queues := rfl
@[simp] theorem State.modEmu_rr (s : State) (g : EmuSt → EmuSt) : (s.modEmu g).rr = s.rr := rfl
@[simp] theorem State.modEmu_rings (s : State) (g : EmuSt → EmuSt) : (s.modEmu g).rings = s.rings := rfl
@[simp] theorem State.modEmu_claims (s : State) (g : EmuSt → EmuSt) : (s.modEmu g).claims = s.claims := rfl
@[simp] theorem State.modEmu_syn (s : State) (g : EmuSt → EmuSt) : (s.modEmu g).syn = s.syn := rfl
@[simp] theorem State.modEmu_time (s : State) (g : EmuSt → EmuSt) : (s.modEmu g).time = s.time := rfl
@[simp] theorem State.modEmu_gate (s : State) (g : EmuSt → EmuSt) : (s.modEmu g).gate = s.gate := rfl
@[simp] theorem State.modEmu_budg (s : State) (g : EmuSt → EmuSt) : (s.modEmu g).budg = s.budg := rfl
@[simp] theorem State.modEmu_mergeQ (s : State) (g : EmuSt → EmuSt) : (s.modEmu g).mergeQ = s.mergeQ := rfl
@[simp] theorem State.modEmu_invCmd (s : State) (g : EmuSt → EmuSt) : (s.modEmu g).invCmd = s.invCmd := rfl
@[simp] theorem State.modEmu_cry (s : State) (g : EmuSt → EmuSt) : (s.modEmu g).cry = s.cry := rfl
@[simp] theorem State.modEmu_locQ (s : State) (g : EmuSt → EmuSt) : (s.modEmu g).locQ = s.locQ := rfl
@[simp] theorem State.modEmu_nextLoc (s : State) (g : EmuSt → EmuSt) : (s.modEmu g).nextLoc = s.nextLoc := rfl
@[simp] theorem State.modEmu_cards (s : State) (g : EmuSt → EmuSt) : (s.modEmu g).cards = s.cards := rfl
@[simp] theorem State.modEmu_pwr (s : State) (g : EmuSt → EmuSt) : (s.modEmu g).pwr = s.pwr := rfl
@[simp] theorem State.modEmu_watch (s : State) (g : EmuSt → EmuSt) : (s.modEmu g).watch = s.watch := rfl
@[simp] theorem State.modEmu_pmb (s : State) (g : EmuSt → EmuSt) : (s.modEmu g).pmb = s.pmb := rfl
@[simp] theorem State.modEmu_flash (s : State) (g : EmuSt → EmuSt) : (s.modEmu g).flash = s.flash := rfl
@[simp] theorem State.modEmu_maint (s : State) (g : EmuSt → EmuSt) : (s.modEmu g).maint = s.maint := rfl
@[simp] theorem State.modEmu_drain (s : State) (g : EmuSt → EmuSt) : (s.modEmu g).drain = s.drain := rfl
@[simp] theorem State.modEmu_romTest (s : State) (g : EmuSt → EmuSt) : (s.modEmu g).romTest = s.romTest := rfl
@[simp] theorem State.modEmu_committed (s : State) (g : EmuSt → EmuSt) : (s.modEmu g).committed = s.committed := rfl
@[simp] theorem State.modEmu_boot (s : State) (g : EmuSt → EmuSt) : (s.modEmu g).boot = s.boot := rfl
@[simp] theorem State.modEmu_bootCal (s : State) (g : EmuSt → EmuSt) : (s.modEmu g).bootCal = s.bootCal := rfl
@[simp] theorem State.modEmu_bootDisc (s : State) (g : EmuSt → EmuSt) : (s.modEmu g).bootDisc = s.bootDisc := rfl
@[simp] theorem State.modEmu_vinOk (s : State) (g : EmuSt → EmuSt) : (s.modEmu g).vinOk = s.vinOk := rfl
@[simp] theorem State.modEmu_vddioOk (s : State) (g : EmuSt → EmuSt) : (s.modEmu g).vddioOk = s.vddioOk := rfl
@[simp] theorem State.modEmu_resetN (s : State) (g : EmuSt → EmuSt) : (s.modEmu g).resetN = s.resetN := rfl
@[simp] theorem State.modEmu_thermHold (s : State) (g : EmuSt → EmuSt) : (s.modEmu g).thermHold = s.thermHold := rfl
@[simp] theorem State.modEmu_ringsUsed (s : State) (g : EmuSt → EmuSt) : (s.modEmu g).ringsUsed = s.ringsUsed := rfl
@[simp] theorem State.modEmu_fresh (s : State) (g : EmuSt → EmuSt) : (s.modEmu g).fresh = s.fresh := rfl
@[simp] theorem State.modEmu_pending (s : State) (g : EmuSt → EmuSt) : (s.modEmu g).pending = s.pending := rfl

/-! ### modPwr -/

@[simp] theorem State.modPwr_regs (s : State) (g : PwrSt → PwrSt) : (s.modPwr g).regs = s.regs := rfl
@[simp] theorem State.modPwr_sram (s : State) (g : PwrSt → PwrSt) : (s.modPwr g).sram = s.sram := rfl
@[simp] theorem State.modPwr_ports (s : State) (g : PwrSt → PwrSt) : (s.modPwr g).ports = s.ports := rfl
@[simp] theorem State.modPwr_chans (s : State) (g : PwrSt → PwrSt) : (s.modPwr g).chans = s.chans := rfl
@[simp] theorem State.modPwr_jobs (s : State) (g : PwrSt → PwrSt) : (s.modPwr g).jobs = s.jobs := rfl
@[simp] theorem State.modPwr_nextJob (s : State) (g : PwrSt → PwrSt) : (s.modPwr g).nextJob = s.nextJob := rfl
@[simp] theorem State.modPwr_queues (s : State) (g : PwrSt → PwrSt) : (s.modPwr g).queues = s.queues := rfl
@[simp] theorem State.modPwr_rr (s : State) (g : PwrSt → PwrSt) : (s.modPwr g).rr = s.rr := rfl
@[simp] theorem State.modPwr_rings (s : State) (g : PwrSt → PwrSt) : (s.modPwr g).rings = s.rings := rfl
@[simp] theorem State.modPwr_claims (s : State) (g : PwrSt → PwrSt) : (s.modPwr g).claims = s.claims := rfl
@[simp] theorem State.modPwr_syn (s : State) (g : PwrSt → PwrSt) : (s.modPwr g).syn = s.syn := rfl
@[simp] theorem State.modPwr_time (s : State) (g : PwrSt → PwrSt) : (s.modPwr g).time = s.time := rfl
@[simp] theorem State.modPwr_gate (s : State) (g : PwrSt → PwrSt) : (s.modPwr g).gate = s.gate := rfl
@[simp] theorem State.modPwr_budg (s : State) (g : PwrSt → PwrSt) : (s.modPwr g).budg = s.budg := rfl
@[simp] theorem State.modPwr_mergeQ (s : State) (g : PwrSt → PwrSt) : (s.modPwr g).mergeQ = s.mergeQ := rfl
@[simp] theorem State.modPwr_invCmd (s : State) (g : PwrSt → PwrSt) : (s.modPwr g).invCmd = s.invCmd := rfl
@[simp] theorem State.modPwr_cry (s : State) (g : PwrSt → PwrSt) : (s.modPwr g).cry = s.cry := rfl
@[simp] theorem State.modPwr_locQ (s : State) (g : PwrSt → PwrSt) : (s.modPwr g).locQ = s.locQ := rfl
@[simp] theorem State.modPwr_nextLoc (s : State) (g : PwrSt → PwrSt) : (s.modPwr g).nextLoc = s.nextLoc := rfl
@[simp] theorem State.modPwr_cards (s : State) (g : PwrSt → PwrSt) : (s.modPwr g).cards = s.cards := rfl
@[simp] theorem State.modPwr_emu (s : State) (g : PwrSt → PwrSt) : (s.modPwr g).emu = s.emu := rfl
@[simp] theorem State.modPwr_watch (s : State) (g : PwrSt → PwrSt) : (s.modPwr g).watch = s.watch := rfl
@[simp] theorem State.modPwr_pmb (s : State) (g : PwrSt → PwrSt) : (s.modPwr g).pmb = s.pmb := rfl
@[simp] theorem State.modPwr_flash (s : State) (g : PwrSt → PwrSt) : (s.modPwr g).flash = s.flash := rfl
@[simp] theorem State.modPwr_maint (s : State) (g : PwrSt → PwrSt) : (s.modPwr g).maint = s.maint := rfl
@[simp] theorem State.modPwr_drain (s : State) (g : PwrSt → PwrSt) : (s.modPwr g).drain = s.drain := rfl
@[simp] theorem State.modPwr_romTest (s : State) (g : PwrSt → PwrSt) : (s.modPwr g).romTest = s.romTest := rfl
@[simp] theorem State.modPwr_committed (s : State) (g : PwrSt → PwrSt) : (s.modPwr g).committed = s.committed := rfl
@[simp] theorem State.modPwr_boot (s : State) (g : PwrSt → PwrSt) : (s.modPwr g).boot = s.boot := rfl
@[simp] theorem State.modPwr_bootCal (s : State) (g : PwrSt → PwrSt) : (s.modPwr g).bootCal = s.bootCal := rfl
@[simp] theorem State.modPwr_bootDisc (s : State) (g : PwrSt → PwrSt) : (s.modPwr g).bootDisc = s.bootDisc := rfl
@[simp] theorem State.modPwr_vinOk (s : State) (g : PwrSt → PwrSt) : (s.modPwr g).vinOk = s.vinOk := rfl
@[simp] theorem State.modPwr_vddioOk (s : State) (g : PwrSt → PwrSt) : (s.modPwr g).vddioOk = s.vddioOk := rfl
@[simp] theorem State.modPwr_resetN (s : State) (g : PwrSt → PwrSt) : (s.modPwr g).resetN = s.resetN := rfl
@[simp] theorem State.modPwr_thermHold (s : State) (g : PwrSt → PwrSt) : (s.modPwr g).thermHold = s.thermHold := rfl
@[simp] theorem State.modPwr_ringsUsed (s : State) (g : PwrSt → PwrSt) : (s.modPwr g).ringsUsed = s.ringsUsed := rfl
@[simp] theorem State.modPwr_fresh (s : State) (g : PwrSt → PwrSt) : (s.modPwr g).fresh = s.fresh := rfl
@[simp] theorem State.modPwr_pending (s : State) (g : PwrSt → PwrSt) : (s.modPwr g).pending = s.pending := rfl

/-! ### setSyn -/

@[simp] theorem State.setSyn_regs (s : State) (x : SynState) : (s.setSyn x).regs = s.regs := rfl
@[simp] theorem State.setSyn_sram (s : State) (x : SynState) : (s.setSyn x).sram = s.sram := rfl
@[simp] theorem State.setSyn_ports (s : State) (x : SynState) : (s.setSyn x).ports = s.ports := rfl
@[simp] theorem State.setSyn_chans (s : State) (x : SynState) : (s.setSyn x).chans = s.chans := rfl
@[simp] theorem State.setSyn_jobs (s : State) (x : SynState) : (s.setSyn x).jobs = s.jobs := rfl
@[simp] theorem State.setSyn_nextJob (s : State) (x : SynState) : (s.setSyn x).nextJob = s.nextJob := rfl
@[simp] theorem State.setSyn_queues (s : State) (x : SynState) : (s.setSyn x).queues = s.queues := rfl
@[simp] theorem State.setSyn_rr (s : State) (x : SynState) : (s.setSyn x).rr = s.rr := rfl
@[simp] theorem State.setSyn_rings (s : State) (x : SynState) : (s.setSyn x).rings = s.rings := rfl
@[simp] theorem State.setSyn_claims (s : State) (x : SynState) : (s.setSyn x).claims = s.claims := rfl
@[simp] theorem State.setSyn_time (s : State) (x : SynState) : (s.setSyn x).time = s.time := rfl
@[simp] theorem State.setSyn_gate (s : State) (x : SynState) : (s.setSyn x).gate = s.gate := rfl
@[simp] theorem State.setSyn_budg (s : State) (x : SynState) : (s.setSyn x).budg = s.budg := rfl
@[simp] theorem State.setSyn_mergeQ (s : State) (x : SynState) : (s.setSyn x).mergeQ = s.mergeQ := rfl
@[simp] theorem State.setSyn_invCmd (s : State) (x : SynState) : (s.setSyn x).invCmd = s.invCmd := rfl
@[simp] theorem State.setSyn_cry (s : State) (x : SynState) : (s.setSyn x).cry = s.cry := rfl
@[simp] theorem State.setSyn_locQ (s : State) (x : SynState) : (s.setSyn x).locQ = s.locQ := rfl
@[simp] theorem State.setSyn_nextLoc (s : State) (x : SynState) : (s.setSyn x).nextLoc = s.nextLoc := rfl
@[simp] theorem State.setSyn_cards (s : State) (x : SynState) : (s.setSyn x).cards = s.cards := rfl
@[simp] theorem State.setSyn_emu (s : State) (x : SynState) : (s.setSyn x).emu = s.emu := rfl
@[simp] theorem State.setSyn_pwr (s : State) (x : SynState) : (s.setSyn x).pwr = s.pwr := rfl
@[simp] theorem State.setSyn_watch (s : State) (x : SynState) : (s.setSyn x).watch = s.watch := rfl
@[simp] theorem State.setSyn_pmb (s : State) (x : SynState) : (s.setSyn x).pmb = s.pmb := rfl
@[simp] theorem State.setSyn_flash (s : State) (x : SynState) : (s.setSyn x).flash = s.flash := rfl
@[simp] theorem State.setSyn_maint (s : State) (x : SynState) : (s.setSyn x).maint = s.maint := rfl
@[simp] theorem State.setSyn_drain (s : State) (x : SynState) : (s.setSyn x).drain = s.drain := rfl
@[simp] theorem State.setSyn_romTest (s : State) (x : SynState) : (s.setSyn x).romTest = s.romTest := rfl
@[simp] theorem State.setSyn_committed (s : State) (x : SynState) : (s.setSyn x).committed = s.committed := rfl
@[simp] theorem State.setSyn_boot (s : State) (x : SynState) : (s.setSyn x).boot = s.boot := rfl
@[simp] theorem State.setSyn_bootCal (s : State) (x : SynState) : (s.setSyn x).bootCal = s.bootCal := rfl
@[simp] theorem State.setSyn_bootDisc (s : State) (x : SynState) : (s.setSyn x).bootDisc = s.bootDisc := rfl
@[simp] theorem State.setSyn_vinOk (s : State) (x : SynState) : (s.setSyn x).vinOk = s.vinOk := rfl
@[simp] theorem State.setSyn_vddioOk (s : State) (x : SynState) : (s.setSyn x).vddioOk = s.vddioOk := rfl
@[simp] theorem State.setSyn_resetN (s : State) (x : SynState) : (s.setSyn x).resetN = s.resetN := rfl
@[simp] theorem State.setSyn_thermHold (s : State) (x : SynState) : (s.setSyn x).thermHold = s.thermHold := rfl
@[simp] theorem State.setSyn_ringsUsed (s : State) (x : SynState) : (s.setSyn x).ringsUsed = s.ringsUsed := rfl
@[simp] theorem State.setSyn_fresh (s : State) (x : SynState) : (s.setSyn x).fresh = s.fresh := rfl
@[simp] theorem State.setSyn_pending (s : State) (x : SynState) : (s.setSyn x).pending = s.pending := rfl

/-! ### keepMax -/

@[simp] theorem State.keepMax_sram (s : State) (f : Fld) (v : Nat) : (s.keepMax f v).sram = s.sram := by
  unfold State.keepMax; split <;> rfl
@[simp] theorem State.keepMax_ports (s : State) (f : Fld) (v : Nat) : (s.keepMax f v).ports = s.ports := by
  unfold State.keepMax; split <;> rfl
@[simp] theorem State.keepMax_chans (s : State) (f : Fld) (v : Nat) : (s.keepMax f v).chans = s.chans := by
  unfold State.keepMax; split <;> rfl
@[simp] theorem State.keepMax_jobs (s : State) (f : Fld) (v : Nat) : (s.keepMax f v).jobs = s.jobs := by
  unfold State.keepMax; split <;> rfl
@[simp] theorem State.keepMax_nextJob (s : State) (f : Fld) (v : Nat) : (s.keepMax f v).nextJob = s.nextJob := by
  unfold State.keepMax; split <;> rfl
@[simp] theorem State.keepMax_queues (s : State) (f : Fld) (v : Nat) : (s.keepMax f v).queues = s.queues := by
  unfold State.keepMax; split <;> rfl
@[simp] theorem State.keepMax_rr (s : State) (f : Fld) (v : Nat) : (s.keepMax f v).rr = s.rr := by
  unfold State.keepMax; split <;> rfl
@[simp] theorem State.keepMax_rings (s : State) (f : Fld) (v : Nat) : (s.keepMax f v).rings = s.rings := by
  unfold State.keepMax; split <;> rfl
@[simp] theorem State.keepMax_claims (s : State) (f : Fld) (v : Nat) : (s.keepMax f v).claims = s.claims := by
  unfold State.keepMax; split <;> rfl
@[simp] theorem State.keepMax_syn (s : State) (f : Fld) (v : Nat) : (s.keepMax f v).syn = s.syn := by
  unfold State.keepMax; split <;> rfl
@[simp] theorem State.keepMax_time (s : State) (f : Fld) (v : Nat) : (s.keepMax f v).time = s.time := by
  unfold State.keepMax; split <;> rfl
@[simp] theorem State.keepMax_gate (s : State) (f : Fld) (v : Nat) : (s.keepMax f v).gate = s.gate := by
  unfold State.keepMax; split <;> rfl
@[simp] theorem State.keepMax_budg (s : State) (f : Fld) (v : Nat) : (s.keepMax f v).budg = s.budg := by
  unfold State.keepMax; split <;> rfl
@[simp] theorem State.keepMax_mergeQ (s : State) (f : Fld) (v : Nat) : (s.keepMax f v).mergeQ = s.mergeQ := by
  unfold State.keepMax; split <;> rfl
@[simp] theorem State.keepMax_invCmd (s : State) (f : Fld) (v : Nat) : (s.keepMax f v).invCmd = s.invCmd := by
  unfold State.keepMax; split <;> rfl
@[simp] theorem State.keepMax_cry (s : State) (f : Fld) (v : Nat) : (s.keepMax f v).cry = s.cry := by
  unfold State.keepMax; split <;> rfl
@[simp] theorem State.keepMax_locQ (s : State) (f : Fld) (v : Nat) : (s.keepMax f v).locQ = s.locQ := by
  unfold State.keepMax; split <;> rfl
@[simp] theorem State.keepMax_nextLoc (s : State) (f : Fld) (v : Nat) : (s.keepMax f v).nextLoc = s.nextLoc := by
  unfold State.keepMax; split <;> rfl
@[simp] theorem State.keepMax_cards (s : State) (f : Fld) (v : Nat) : (s.keepMax f v).cards = s.cards := by
  unfold State.keepMax; split <;> rfl
@[simp] theorem State.keepMax_emu (s : State) (f : Fld) (v : Nat) : (s.keepMax f v).emu = s.emu := by
  unfold State.keepMax; split <;> rfl
@[simp] theorem State.keepMax_pwr (s : State) (f : Fld) (v : Nat) : (s.keepMax f v).pwr = s.pwr := by
  unfold State.keepMax; split <;> rfl
@[simp] theorem State.keepMax_watch (s : State) (f : Fld) (v : Nat) : (s.keepMax f v).watch = s.watch := by
  unfold State.keepMax; split <;> rfl
@[simp] theorem State.keepMax_pmb (s : State) (f : Fld) (v : Nat) : (s.keepMax f v).pmb = s.pmb := by
  unfold State.keepMax; split <;> rfl
@[simp] theorem State.keepMax_flash (s : State) (f : Fld) (v : Nat) : (s.keepMax f v).flash = s.flash := by
  unfold State.keepMax; split <;> rfl
@[simp] theorem State.keepMax_maint (s : State) (f : Fld) (v : Nat) : (s.keepMax f v).maint = s.maint := by
  unfold State.keepMax; split <;> rfl
@[simp] theorem State.keepMax_drain (s : State) (f : Fld) (v : Nat) : (s.keepMax f v).drain = s.drain := by
  unfold State.keepMax; split <;> rfl
@[simp] theorem State.keepMax_romTest (s : State) (f : Fld) (v : Nat) : (s.keepMax f v).romTest = s.romTest := by
  unfold State.keepMax; split <;> rfl
@[simp] theorem State.keepMax_committed (s : State) (f : Fld) (v : Nat) : (s.keepMax f v).committed = s.committed := by
  unfold State.keepMax; split <;> rfl
@[simp] theorem State.keepMax_boot (s : State) (f : Fld) (v : Nat) : (s.keepMax f v).boot = s.boot := by
  unfold State.keepMax; split <;> rfl
@[simp] theorem State.keepMax_bootCal (s : State) (f : Fld) (v : Nat) : (s.keepMax f v).bootCal = s.bootCal := by
  unfold State.keepMax; split <;> rfl
@[simp] theorem State.keepMax_bootDisc (s : State) (f : Fld) (v : Nat) : (s.keepMax f v).bootDisc = s.bootDisc := by
  unfold State.keepMax; split <;> rfl
@[simp] theorem State.keepMax_vinOk (s : State) (f : Fld) (v : Nat) : (s.keepMax f v).vinOk = s.vinOk := by
  unfold State.keepMax; split <;> rfl
@[simp] theorem State.keepMax_vddioOk (s : State) (f : Fld) (v : Nat) : (s.keepMax f v).vddioOk = s.vddioOk := by
  unfold State.keepMax; split <;> rfl
@[simp] theorem State.keepMax_resetN (s : State) (f : Fld) (v : Nat) : (s.keepMax f v).resetN = s.resetN := by
  unfold State.keepMax; split <;> rfl
@[simp] theorem State.keepMax_thermHold (s : State) (f : Fld) (v : Nat) : (s.keepMax f v).thermHold = s.thermHold := by
  unfold State.keepMax; split <;> rfl
@[simp] theorem State.keepMax_ringsUsed (s : State) (f : Fld) (v : Nat) : (s.keepMax f v).ringsUsed = s.ringsUsed := by
  unfold State.keepMax; split <;> rfl
@[simp] theorem State.keepMax_fresh (s : State) (f : Fld) (v : Nat) : (s.keepMax f v).fresh = s.fresh := by
  unfold State.keepMax; split <;> rfl
@[simp] theorem State.keepMax_pending (s : State) (f : Fld) (v : Nat) : (s.keepMax f v).pending = s.pending := by
  unfold State.keepMax; split <;> rfl

end Sys2Proof.Machine
end

