-- ==== Sys2Proof/Laws/Parts.lean ====
section
/-!
SUPPORT. Channels, ports, queues, rings, cards and claims: a part that was changed, and the others.
-/

namespace Sys2Proof.Machine

/-- An element of a vector that was set. -/
theorem vector_getD_set_same {α : Type} {k : Nat} (v : Vector α k) (d x : α) (n : Nat) (h : n < k) :
    (v.setIfInBounds n x).toList.getD n d = x := by
  have h1 : (v.setIfInBounds n x).toList = v.toList.set n x := by simp
  rw [h1, List.getD_eq_getElem?_getD, List.getElem?_set_self (by simpa using h)]
  rfl

/-- Another element of a vector that was set. -/
theorem vector_getD_set_other {α : Type} {k : Nat} (v : Vector α k) (d x : α) {n m : Nat} (h : m ≠ n) :
    (v.setIfInBounds n x).toList.getD m d = v.toList.getD m d := by
  have h1 : (v.setIfInBounds n x).toList = v.toList.set n x := by simp
  rw [h1, List.getD_eq_getElem?_getD, List.getD_eq_getElem?_getD, List.getElem?_set_ne (fun e => h e.symm)]

/-- A channel that was changed. -/
theorem State.ch_modCh_same (s : State) (n : Nat) (g : Chan → Chan) (h : n < 8) : (s.modCh n g).ch n = g (s.ch n) :=
  vector_getD_set_same s.chans {} (g (s.ch n)) n h

/-- Another channel. -/
theorem State.ch_modCh_other (s : State) {n m : Nat} (g : Chan → Chan) (h : m ≠ n) : (s.modCh n g).ch m = s.ch m :=
  vector_getD_set_other s.chans {} (g (s.ch n)) h

/-- A port that was changed. -/
theorem State.pt_modPt_same (s : State) (p : Nat) (g : PortSt → PortSt) (h : p < 4) : (s.modPt p g).pt p = g (s.pt p) :=
  vector_getD_set_same s.ports {} (g (s.pt p)) p h

/-- Another port. -/
theorem State.pt_modPt_other (s : State) {p q : Nat} (g : PortSt → PortSt) (h : q ≠ p) : (s.modPt p g).pt q = s.pt q :=
  vector_getD_set_other s.ports {} (g (s.pt p)) h

/-- A queue that was changed. -/
theorem State.qu_modQu_same (s : State) (q : Nat) (g : QueueSt → QueueSt) (h : q < 64) : (s.modQu q g).qu q = g (s.qu q) :=
  vector_getD_set_same s.queues {} (g (s.qu q)) q h

/-- Another queue. -/
theorem State.qu_modQu_other (s : State) {p q : Nat} (g : QueueSt → QueueSt) (h : q ≠ p) : (s.modQu p g).qu q = s.qu q :=
  vector_getD_set_other s.queues {} (g (s.qu p)) h

/-- A ring that was changed. -/
theorem State.ring_modRing_same (s : State) (r : Nat) (g : RingSt → RingSt) (h : r < 32) : (s.modRing r g).ring r = g (s.ring r) :=
  vector_getD_set_same s.rings {} (g (s.ring r)) r h

/-- Another ring. -/
theorem State.ring_modRing_other (s : State) {p q : Nat} (g : RingSt → RingSt) (h : q ≠ p) : (s.modRing p g).ring q = s.ring q :=
  vector_getD_set_other s.rings {} (g (s.ring p)) h

/-- A card that was changed. -/
theorem State.card_modCard_same (s : State) (n : Nat) (g : Card → Card) (h : n < 8) : (s.modCard n g).card n = g (s.card n) :=
  vector_getD_set_same s.cards {} (g (s.card n)) n h

/-- Another card. -/
theorem State.card_modCard_other (s : State) {n m : Nat} (g : Card → Card) (h : m ≠ n) : (s.modCard n g).card m = s.card m :=
  vector_getD_set_other s.cards {} (g (s.card n)) h

/-- The claim that was placed. -/
theorem State.claimOf_setClaim_same (s : State) (n : Nat) (c : Option Claim) (h : n < 8) : (s.setClaim n c).claimOf n = c :=
  vector_getD_set_same s.claims none c n h

/-- Another claim. -/
theorem State.claimOf_setClaim_other (s : State) {n m : Nat} (c : Option Claim) (h : m ≠ n) :
    (s.setClaim n c).claimOf m = s.claimOf m :=
  vector_getD_set_other s.claims none c h

/-- The sequencer of a channel that was changed. -/
theorem State.seq_modSeq_same (s : State) (n : Nat) (g : Seq → Seq) (h : n < 8) : ((s.modSeq n g).ch n).seq = g (s.ch n).seq := by
  unfold State.modSeq
  rw [s.ch_modCh_same n _ h]

end Sys2Proof.Machine
end

