-- ==== Sys2Proof/Laws/Frames.lean ====
section
/-!
SUPPORT. What every host frame that executes does: the frame is clocked, its opcode runs, and the reply is in place.
-/

namespace Sys2Proof.Machine

/-- A register that a saturating counter is not part of. -/
theorem State.rdWord_bump_other (s : State) (f : Fld) (k a : Nat) (h : a ≠ f.addr) : (s.bump f k).rdWord a = s.rdWord a :=
  State.rdWord_wrWord_other s _ h

@[simp] theorem State.bump_pt (s : State) (f : Fld) (k q : Nat) : (s.bump f k).pt q = s.pt q := rfl

@[simp] theorem State.modPt_rdWord (s : State) (p : Nat) (g : PortSt → PortSt) (a : Nat) : (s.modPt p g).rdWord a = s.rdWord a := rfl

/-- A counter of at most 32 bits counts. -/
theorem counts_bump (s : State) (f : Fld) (h : RegFile.wf s.regs = true) (hf : f.lo + f.w ≤ 32) : Counts f s (s.bump f) := by
  unfold Counts State.bump State.wrSat
  rw [State.rd_wr_same s f _ h hf, Nat.mod_eq_of_lt]
  have := Nat.two_pow_pos f.w
  omega

theorem FrameOnly.refl (p : Port) (s : State) : FrameOnly p s s := ⟨rfl, fun _ _ => rfl, fun _ _ => rfl⟩

theorem FrameOnly.trans {p : Port} {s t u : State} (h : FrameOnly p s t) (k : FrameOnly p t u) : FrameOnly p s u := by
  obtain ⟨h1, h2, h3⟩ := h
  obtain ⟨k1, k2, k3⟩ := k
  refine ⟨?_, fun q hq => (k2 q hq).trans (h2 q hq), fun a ha => (k3 a ha).trans (h3 a ha)⟩
  have e : ({ u with ports := s.ports, regs := s.regs, fresh := s.fresh } : State)
      = { ({ u with ports := t.ports, regs := t.regs, fresh := t.fresh } : State) with
          ports := s.ports, regs := s.regs, fresh := s.fresh } := rfl
  rw [e, k1, h1]

theorem frameOnly_modPt (p : Port) (s : State) (g : PortSt → PortSt) : FrameOnly p s (s.modPt p.val g) :=
  ⟨rfl, fun _ hq => s.pt_modPt_other g hq, fun _ _ => rfl⟩

theorem frameOnly_bump (p : Port) (s : State) (f : Fld) (h : f.addr ∈ frameRegs p.val) : FrameOnly p s (s.bump f) :=
  ⟨rfl, fun _ _ => rfl, fun a ha => s.rdWord_bump_other f 1 a fun e => ha (e ▸ h)⟩

theorem frameOnly_keepMax (p : Port) (s : State) (f : Fld) (v : Nat) (h : f.addr ∈ frameRegs p.val) :
    FrameOnly p s (s.keepMax f v) := by
  unfold State.keepMax
  split
  · exact ⟨rfl, fun _ _ => rfl, fun a ha => State.rdWord_wrWord_other s _ fun e => ha (e ▸ h)⟩
  · exact FrameOnly.refl p s

theorem frameOnly_stallEnd (p : Port) (s : State) : FrameOnly p s (s.stallEnd p.val) := by
  unfold State.stallEnd State.takeFresh
  exact FrameOnly.trans (t := { s with fresh := s.fresh + 1 }) ⟨rfl, fun _ _ => rfl, fun _ _ => rfl⟩
    (frameOnly_keepMax p _ _ _ (by simp [frameRegs, R.HOST_STALL_STALL_MAX]))

/-- A field of another register. -/
theorem FrameOnly.rd {p : Port} {s t : State} (h : FrameOnly p s t) (f : Fld) (hf : f.addr ∉ frameRegs p.val) : t.rd f = s.rd f := by
  unfold State.rd
  rw [h.2.2 _ hf]

/-- The state in which a frame has been clocked and has not executed. -/
def State.clocked (s : State) (f : Frame) : State :=
  let p := f.port.val
  (((s.hostEdge f.port).stallBuild p |>.modPt p fun t => { t with building := false }).sendWindow f).modPt p fun t => { t with lastSeq := seqOf f.tag }

theorem frameRegs_stall (p : Nat) : (R.HOST_STALL_N_STALL p).addr ∈ frameRegs p := by simp [frameRegs, R.HOST_STALL_N_STALL]
theorem frameRegs_trunc (p : Nat) : (R.HOST_CNT_2_N_TRUNC p).addr ∈ frameRegs p := by simp [frameRegs, R.HOST_CNT_2_N_TRUNC]
theorem frameRegs_frame (p : Nat) : (R.HOST_CNT_0_N_FRAME p).addr ∈ frameRegs p := by simp [frameRegs, R.HOST_CNT_0_N_FRAME]

/-- Registers from 0x400 on count no frames. -/
theorem not_frameRegs {p a : Nat} (hp : p < 4) (h : 0x400 ≤ a) : a ∉ frameRegs p := by
  simp only [frameRegs, R.HOST_CNT_0, R.HOST_CNT_1, R.HOST_CNT_2, R.HOST_STALL, List.mem_cons, List.not_mem_nil, or_false]
  omega

theorem State.sendWindow_frameOnly (s : State) (f : Frame) : FrameOnly f.port s (s.sendWindow f) := by
  unfold State.sendWindow
  simp only
  split
  · exact (frameOnly_modPt f.port s _).trans (frameOnly_bump _ _ _ (frameRegs_trunc _))
  · exact frameOnly_modPt f.port s _

theorem State.stallBuild_frameOnly (s : State) (p : Port) : FrameOnly p s (s.stallBuild p.val) := by
  unfold State.stallBuild
  split
  · exact (frameOnly_bump p s _ (frameRegs_stall p.val)).trans (frameOnly_stallEnd p _)
  · exact FrameOnly.refl p s

theorem State.stallBuild_pt (s : State) (p q : Nat) : (s.stallBuild p).pt q = s.pt q := by
  unfold State.stallBuild State.stallEnd State.takeFresh State.keepMax
  simp only
  split
  · split <;> rfl
  · rfl

theorem State.clocked_frameOnly (s : State) (f : Frame) : FrameOnly f.port (s.hostEdge f.port) (s.clocked f) := by
  unfold State.clocked
  simp only
  refine FrameOnly.trans ?_ (frameOnly_modPt _ _ _)
  refine FrameOnly.trans ?_ (State.sendWindow_frameOnly _ _)
  exact (State.stallBuild_frameOnly _ _).trans (frameOnly_modPt _ _ _)

/-- The masked notices of a port do not depend on what a frame's transfer changes. -/
theorem FrameOnly.pendMasked {p : Port} {s t : State} (h : FrameOnly p s t) (q : Nat) (_ : q < 4) : t.pendMasked q = s.pendMasked q := by
  have hr : t.rings = s.rings := (congrArg State.rings h.1 :)
  have h1 : t.pend q = s.pend q := h.rd _ (by
    have := p.isLt
    simp only [frameRegs, R.HOST_NPEND_PEND, R.HOST_NPEND, R.HOST_CNT_0, R.HOST_CNT_1, R.HOST_CNT_2, R.HOST_STALL, List.mem_cons, List.not_mem_nil, or_false]
    omega)
  have h2 : t.rd (R.HOST_NMASK_MASK q) = s.rd (R.HOST_NMASK_MASK q) := h.rd _ (by
    have := p.isLt
    simp only [frameRegs, R.HOST_NMASK_MASK, R.HOST_NMASK, R.HOST_CNT_0, R.HOST_CNT_1, R.HOST_CNT_2, R.HOST_STALL, List.mem_cons, List.not_mem_nil, or_false]
    omega)
  have h3 : ∀ r, t.ringOwner r = s.ringOwner r := fun r => by
    unfold State.ringOwner
    rw [h.2.2 _ (not_frameRegs p.isLt (by simp only [R.PROT_ROWN]; omega))]
  have h4 : ∀ r, t.ring r = s.ring r := fun r => by unfold State.ring; rw [hr]
  unfold State.pendMasked State.pendSet State.resReady
  simp only [h1, h2, h3, h4]

theorem FrameOnly.preamble {p : Port} {s t : State} (h : FrameOnly p s t) (q : Nat) (hq : q < 4) (hp : (t.pt q).lastSeq = (s.pt q).lastSeq) :
    t.preamble q = s.preamble q := by
  have h1 : t.pwr = s.pwr := (congrArg State.pwr h.1 :)
  have h2 : t.committed = s.committed := (congrArg State.committed h.1 :)
  have h3 : t.boot = s.boot := (congrArg State.boot h.1 :)
  unfold State.preamble State.attn
  simp only [h.pendMasked q hq, hp, h1, h2, h3]

theorem padTo_length (n : Nat) (l : List Byte) : (padTo n l).length = n := by simp [padTo]; omega

/-- A window has LEN + 8 bytes (R431). -/
theorem Reply.window_length (r : Reply) (p len : Nat) : (r.window p len).length = 8 + len := padTo_length _ _

theorem State.preamble_length (s : State) (p : Nat) : (s.preamble p).length = 4 := rfl

/-- What HnSDO carries while a whole frame is clocked (R429, R431). -/
theorem sdo_whole {f : Frame} (h : isRunt f = false) (s : State) (r : Reply) (p : Nat) :
    (s.preamble p ++ r.window p f.len.toNat).take (bytesClocked f)
        ++ List.replicate (bytesClocked f - (s.preamble p ++ r.window p f.len.toNat).length) (0 : Byte)
      = s.preamble p ++ r.window p f.len.toNat ++ List.replicate (bytesClocked f - (12 + f.len.toNat)) 0 := by
  have hl : (s.preamble p ++ r.window p f.len.toNat).length = 12 + f.len.toNat := by
    rw [List.length_append, Reply.window_length, State.preamble_length]
    omega
  have hc : 12 + f.len.toNat ≤ bytesClocked f := by
    unfold isRunt at h
    simpa using h
  rw [List.take_of_length_le (hl.trans_le hc), hl]

theorem State.clocked_spec {s : State} {opc : Byte} {f : Frame} (h : frameOk opc f = true) : Clocked s f (s.clocked f) := by
  have hr : isRunt f = false := by
    unfold frameOk at h
    cases hx : isRunt f <;> simp [hx] at h ⊢
  refine ⟨State.clocked_frameOnly s f, ?_⟩
  generalize he : s.hostEdge f.port = e
  unfold State.clocked
  simp only [he]
  have key : ∀ s1 : State, FrameOnly f.port e s1 → s1.pt f.port.val = e.pt f.port.val →
      (((s1.modPt f.port.val fun t => { t with building := false }).sendWindow f).modPt f.port.val fun t =>
        { t with lastSeq := seqOf f.tag }).pt f.port.val =
      { e.pt f.port.val with
        lastSeq := seqOf f.tag, assigned := (e.pt f.port.val).carried, building := false, mode3 := f.mode3
        sdo := e.preamble f.port.val ++ (e.pt f.port.val).carried.window f.port.val f.len.toNat
          ++ List.replicate (bytesClocked f - (12 + f.len.toNat)) 0 } := by
    intro s1 h1 h2
    have hpre : (s1.modPt f.port.val fun t => { t with building := false }).preamble f.port.val = e.preamble f.port.val :=
      FrameOnly.preamble (h1.trans (frameOnly_modPt _ _ _)) _ f.port.isLt (by
        rw [State.pt_modPt_same _ _ _ f.port.isLt, h2])
    unfold State.sendWindow
    simp only [sdo_whole hr]
    split <;> simp [State.pt_modPt_same _ _ _ f.port.isLt, h2, hpre]
  exact key _ (State.stallBuild_frameOnly e f.port) (State.stallBuild_pt e _ _)

/-- The checks of R441 do not depend on what a frame's transfer changes. -/
theorem FrameOnly.preCheck {p : Port} {s t : State} (h : FrameOnly p s t) (q : Port) (opc : Nat) (tag : Byte) :
    t.preCheck q.val opc tag = s.preCheck q.val opc tag := by
  have h1 : t.pwr = s.pwr := (congrArg State.pwr h.1 :)
  have hq := q.isLt
  have hr : ∀ g : Fld, 0x400 ≤ g.addr → t.rd g = s.rd g := fun g hg => h.rd g (not_frameRegs p.isLt hg)
  have h2 : t.mayOpc q.val opc = s.mayOpc q.val opc := by
    have h3 : ∀ g, rightOf q.val opc = some g → t.isOn g = s.isOn g := by
      intro g hg
      unfold State.isOn
      rw [hr g ?_]
      unfold rightOf at hg
      split at hg <;> (try split at hg) <;> simp only [Option.some.injEq, reduceCtorEq] at hg <;> subst hg <;>
        simp only [R.PROT_PCFG_R_TIME, R.PROT_PCFG_R_POWER, R.PROT_PCFG_R_RESET, R.PROT_PCFG_R_FLASH, R.PROT_PCFG] <;> omega
    unfold State.mayOpc State.priv
    rw [hr _ (by simp only [R.PROT_PCFG_PRIV, R.PROT_PCFG]; omega)]
    cases hg : rightOf q.val opc with
    | none => rfl
    | some g => simp only [h3 g hg]
  unfold State.preCheck
  rw [h1, h2]

/-- The fall of HnCS_N acts on the power state alone: ports, flash and queue of commands stay. -/
theorem State.hostEdge_keeps (s : State) (p : Port) : (s.hostEdge p).ports = s.ports ∧ (s.hostEdge p).flash = s.flash
    ∧ (s.hostEdge p).pending = s.pending := by
  have hl : s.leaveIdle.ports = s.ports ∧ s.leaveIdle.flash = s.flash ∧ s.leaveIdle.pending = s.pending := by
    unfold State.leaveIdle
    split <;> exact ⟨rfl, rfl, rfl⟩
  have hk : ∀ (t : State) (ev : WakeEv), (t.latchWake ev).ports = t.ports ∧ (t.latchWake ev).flash = t.flash
      ∧ (t.latchWake ev).pending = t.pending := by
    intro t ev
    unfold State.latchWake
    split <;> exact ⟨rfl, rfl, rfl⟩
  have hp : ∀ t : State, t.pmbOn.ports = t.ports ∧ t.pmbOn.flash = t.flash ∧ t.pmbOn.pending = t.pending := by
    intro t
    unfold State.pmbOn
    split <;> exact ⟨rfl, rfl, rfl⟩
  have hr : ∀ (t : State) from_ l early, (t.recordWake from_ l early).ports = t.ports ∧ (t.recordWake from_ l early).flash = t.flash
      ∧ (t.recordWake from_ l early).pending = t.pending := fun _ _ _ _ => ⟨rfl, rfl, rfl⟩
  have hc : ∀ (t : State) from_ early, (t.countWake from_ early).ports = t.ports ∧ (t.countWake from_ early).flash = t.flash
      ∧ (t.countWake from_ early).pending = t.pending := by
    intro t from_ early
    unfold State.countWake
    simp only
    split <;> split <;> exact ⟨rfl, rfl, rfl⟩
  have hs : ∀ (t : State) l early, (t.startWake l early).ports = t.ports ∧ (t.startWake l early).flash = t.flash
      ∧ (t.startWake l early).pending = t.pending := by
    intro t l early
    unfold State.startWake
    exact ⟨(hp _).1.trans (hc _ _ _).1, (hp _).2.1.trans (hc _ _ _).2.1, (hp _).2.2.trans (hc _ _ _).2.2⟩
  have hj : ∀ ev, (s.joinWake ev).ports = s.ports ∧ (s.joinWake ev).flash = s.flash ∧ (s.joinWake ev).pending = s.pending := by
    intro ev
    unfold State.joinWake State.takeFresh
    simp only
    split <;> exact ⟨rfl, rfl, rfl⟩
  have hw : ∀ ev, (s.wakeLow ev).ports = s.ports ∧ (s.wakeLow ev).flash = s.flash ∧ (s.wakeLow ev).pending = s.pending := by
    intro ev
    unfold State.wakeLow State.takeFresh
    simp only
    split
    · exact hs _ _ _
    · exact hs _ _ _
  unfold State.hostEdge State.wakeEvent
  split
  · exact hl
  · split
    · split
      · exact hk _ _
      · split
        · exact hl
        all_goals first | exact hw _ | (split <;> first | exact hj _ | exact ⟨rfl, rfl, rfl⟩) | exact ⟨rfl, rfl, rfl⟩
    · exact ⟨rfl, rfl, rfl⟩

/-- A frame that executes: from the clocked state, its opcode leaves `u` and answers `x`. -/
theorem serves_of {s : State} {opc : Byte} {f : Frame} {i : Instr} {P : State → Answer → State → Prop} {u : State} {x : Answer}
    (hi : exec i s = .next (s.frame opc f)) (ha : Accepts s opc f) (h70 : opc ≠ 0x70) (h0F : opc ≠ 0x0F)
    (hu : (s.clocked f).opFrame f.port opc.toNat f.tag f.arg (bodyOf f) = (u, x)) (hw : RegFile.wf u.regs = true)
    (hd : x.status = stDenied → wordOpc opc.toNat = true) (hP : P (s.clocked f) x u) : Serves i opc f s P := by
  obtain ⟨⟨hup, hready, hfree, hfirst⟩, hwhole, hnext, hallow, hkey⟩ := ha
  have h7 : opc.toNat ≠ 0x70 := fun e => h70 (BitVec.eq_of_toNat_eq e)
  have hpre : (s.clocked f).preCheck f.port.val opc.toNat f.tag = none := by
    rw [(State.clocked_frameOnly s f).preCheck]
    exact hallow
  have hex : (s.clocked f).execute f.port opc.toNat f.tag f.arg (bodyOf f) = (u, some x) := by
    unfold State.execute State.noteFrame
    simp only [hpre, h7, if_false, hu]
    by_cases hs : x.status = stDenied
    · simp [hd hs]
    · simp [hs]
  obtain ⟨kp, kf, _⟩ := State.hostEdge_keeps s f.port
  have hww : (s.hostEdge f.port).replyWaits f.port = false := by
    unfold State.replyWaits State.pt at hfree ⊢
    rw [kf, kp]
    exact hfree
  have hpt : ∀ q, (s.hostEdge f.port).pt q = s.pt q := fun q => by unfold State.pt; rw [kp]
  refine ⟨s.clocked f, x, u, ((u.modPt f.port.val fun t => { t with cached := replyOf opc f.tag x }).carry f.port.val
    (replyOf opc f.tag x)).bump (R.HOST_CNT_0_N_FRAME f.port.val), State.clocked_spec hwhole, hP, hi.trans ?_, ?_⟩
  · have hlast : ∀ t : State, ((t.modPt f.port.val fun t => { t with building := false }).sendWindow f |>.pt f.port.val).lastSeq
        = (t.pt f.port.val).lastSeq := by
      intro t
      unfold State.sendWindow
      simp only
      split <;> simp [State.pt_modPt_same _ _ _ f.port.isLt]
    have hrel : (s.hostEdge f.port).releasePort f.port = s.hostEdge f.port := by
      unfold State.releasePort
      rw [hpt, hfirst]
      rfl
    have htakes : (s.hostEdge f.port).takes f.port = true := by
      unfold State.takes
      simp [hready, hww]
    unfold State.frame
    simp only [hup, if_true, hrel, htakes, hpt, hfirst, hkey, List.isEmpty_nil, Bool.and_self]
    unfold State.clockFrame State.riseFrame
    simp only [Bool.false_eq_true, if_false, hwhole, h0F, Bool.not_true, Bool.false_eq_true, if_false]
    have hfin : ∀ t : State, (t.modPt f.port.val fun t => { t with lastSeq := seqOf f.tag }) = s.clocked f →
        t.executed opc f = ((u.modPt f.port.val fun t => { t with cached := replyOf opc f.tag x }).carry f.port.val
          (replyOf opc f.tag x)).bump (R.HOST_CNT_0_N_FRAME f.port.val) := by
      intro t ht
      unfold State.executed
      simp only [ht, hex]
    rcases hnext with ⟨h6, h0⟩ | ⟨h6, hseq⟩
    · simp only [h6, h0, if_true]
      rw [← h0]
      exact congrArg Host.Outcome.next (hfin _ rfl)
    · have hne : ¬ (s.pt f.port.val).lastSeq + 1 = (s.pt f.port.val).lastSeq := by bv_omega
      have hl2 : ((((s.hostEdge f.port).stallBuild f.port.val).modPt f.port.val fun t =>
          { t with building := false }).sendWindow f |>.pt f.port.val).lastSeq = (s.pt f.port.val).lastSeq := by
        rw [hlast, State.stallBuild_pt, hpt]
      simp only [h6, Bool.false_eq_true, if_false, hl2, hseq, hne, ne_eq, not_true_eq_false]
      exact congrArg Host.Outcome.next (hfin _ rfl)
  · refine ⟨?_, ?_, ?_⟩
    · exact ((frameOnly_modPt _ _ _).trans (frameOnly_modPt _ _ _)).trans (frameOnly_bump _ _ _ (frameRegs_frame _))
    · unfold State.carry
      rw [State.bump_pt, State.pt_modPt_same _ _ _ f.port.isLt, State.pt_modPt_same _ _ _ f.port.isLt]
    · exact counts_bump (s := u.modPt _ _ |>.modPt _ _) _ hw (by simp [R.HOST_CNT_0_N_FRAME])

end Sys2Proof.Machine
end

