-- ==== Sys2Proof/Laws/Seq.lean ====
section
/-!
SUPPORT. What an instruction of a sequencer does in any case: its fetch, its counts, and the rest of the device.
-/

namespace Sys2Proof.Machine

/-- The sequencer once an instruction is counted (R242). -/
def Seq.counted (q : Seq) (yields : Bool) : Seq :=
  { q with icnt := q.icnt + 1, ycnt := if q.ypend then q.ycnt + 1 else q.ycnt, ypend := q.ypend && !yields
           windN := if q.windup then q.windN + 1 else q.windN }

/-- An instruction that executes runs its body on the state that has counted it. -/
theorem State.instr_eq {s : State} {n : Ch} {w : Nat} {j : Job} (h : Executes s n w j) (y : Bool) (body : State → Job → State) :
    s.instr n.val w y body = body ((s.touchLine j (s.ch n.val).seq.pc).countInstr n.val y) j := by
  obtain ⟨h1, h2, h3, h4, h5, h6⟩ := h
  unfold State.instr
  simp only [h1, h2, h3, h5, h6]
  by_cases hs : j.decl.src = 0
  · simp [hs]
  · have := h4 hs
    simp [this]

@[simp] theorem Seq.counted_getG (q : Seq) (y : Bool) (r : GReg) : (q.counted y).getG r = q.getG r := rfl
@[simp] theorem Seq.counted_icnt (q : Seq) (y : Bool) : (q.counted y).icnt = q.icnt + 1 := rfl
@[simp] theorem Seq.counted_core (q : Seq) (y : Bool) : (q.counted y).core = q.core := rfl

@[simp] theorem State.touchLine_ch (s : State) (j : Job) (pc : BitVec 16) (m : Nat) : (s.touchLine j pc).ch m = s.ch m := by
  unfold State.touchLine
  split <;> rfl

@[simp] theorem State.touchLine_regs (s : State) (j : Job) (pc : BitVec 16) : (s.touchLine j pc).regs = s.regs := by
  unfold State.touchLine
  split <;> rfl

@[simp] theorem State.wr_ch (s : State) (f : Fld) (v n : Nat) : (s.wr f v).ch n = s.ch n := rfl
@[simp] theorem State.wrSat_ch (s : State) (f : Fld) (v n : Nat) : (s.wrSat f v).ch n = s.ch n := rfl
@[simp] theorem State.keepMax_ch (s : State) (f : Fld) (v n : Nat) : (s.keepMax f v).ch n = s.ch n := by
  unfold State.keepMax
  split <;> rfl

/-- What counting leaves of the channel that executes. -/
theorem State.countInstr_ch_same (s : State) (n : Ch) (y : Bool) :
    (s.countInstr n.val y).ch n.val = { s.ch n.val with seq := (s.ch n.val).seq.counted y } := by
  unfold State.countInstr
  cases y <;> simp [State.modSeq, State.ch_modCh_same, Seq.counted]

/-- Counting leaves the other channels. -/
theorem State.countInstr_ch_other (s : State) {n m : Nat} (y : Bool) (h : m ≠ n) : (s.countInstr n y).ch m = s.ch m := by
  unfold State.countInstr
  cases y <;> simp [State.modSeq, State.ch_modCh_other, h]

/-- Writing one register leaves the others. -/
theorem State.rdWord_keepMax_other (s : State) (f : Fld) (v a : Nat) (h : a ≠ f.addr) : (s.keepMax f v).rdWord a = s.rdWord a := by
  unfold State.keepMax
  split
  · exact State.rdWord_wrWord_other s _ h
  · rfl

/-- Counting writes no register but the highest yield count. -/
theorem State.countInstr_rdWord (s : State) (n : Nat) (y : Bool) (a : Nat) (h : a ≠ R.CSQ_YMAX n) :
    (s.countInstr n y).rdWord a = s.rdWord a := by
  unfold State.countInstr
  cases y
  · rfl
  · exact State.rdWord_keepMax_other _ _ _ _ h

@[simp] theorem State.modCh_outside (s : State) (n : Nat) (g : Chan → Chan) : (s.modCh n g).outside = s.outside := rfl
@[simp] theorem State.modSeq_outside (s : State) (n : Nat) (g : Seq → Seq) : (s.modSeq n g).outside = s.outside := rfl
@[simp] theorem State.wr_outside (s : State) (f : Fld) (v : Nat) : (s.wr f v).outside = s.outside := rfl

@[simp] theorem State.keepMax_outside (s : State) (f : Fld) (v : Nat) : (s.keepMax f v).outside = s.outside := by
  unfold State.keepMax
  split <;> rfl

/-- Counting changes only channels and registers. -/
@[simp] theorem State.countInstr_outside (s : State) (n : Nat) (y : Bool) : (s.countInstr n y).outside = s.outside := by
  unfold State.countInstr
  cases y <;> simp

/-- The lookup changes only the order of the lines of the cache. -/
@[simp] theorem State.touchLine_outside (s : State) (j : Job) (pc : BitVec 16) : (s.touchLine j pc).outside = s.outside := by
  unfold State.touchLine
  split <;> rfl

/-- An instruction whose body changes channel `n` to `c`. -/
theorem onlyChannel_of (s : State) (n : Ch) (j : Job) (y : Bool) (g : Chan → Chan) :
    let t := ((s.touchLine j (s.ch n.val).seq.pc).countInstr n.val y).modCh n.val g
    OnlyChannel n s t ∧ t.ch n.val = g { s.ch n.val with seq := (s.ch n.val).seq.counted y } := by
  intro t
  refine ⟨⟨?_, ?_, ?_⟩, ?_⟩
  · simp [t]
  · intro m hm
    show (State.modCh _ _ _).ch m = _
    rw [State.ch_modCh_other _ _ hm, State.countInstr_ch_other _ _ hm, State.touchLine_ch]
  · intro a ha
    show (State.modCh _ _ _).rdWord a = _
    have : ∀ u : State, (u.modCh n.val g).rdWord a = u.rdWord a := fun _ => rfl
    rw [this, State.countInstr_rdWord _ _ _ _ ha]
    unfold State.rdWord
    rw [State.touchLine_regs]
  · show (State.modCh _ _ _).ch n.val = _
    rw [State.ch_modCh_same _ _ _ n.isLt, State.countInstr_ch_same, State.touchLine_ch]

/-- An instruction that changes the sequencer's own registers. -/
theorem seqTo_modSeq (s : State) (n : Ch) (j : Job) (y : Bool) (g : Seq → Seq) (q : Seq)
    (hc : (g ((s.ch n.val).seq.counted y)).core = q.core) (hi : (g ((s.ch n.val).seq.counted y)).icnt = (s.ch n.val).seq.icnt + 1) :
    SeqTo n s q (((s.touchLine j (s.ch n.val).seq.pc).countInstr n.val y).modSeq n.val g) := by
  have h := onlyChannel_of s n j y fun c => { c with seq := g c.seq }
  refine ⟨h.1, ?_, ?_, ?_⟩
  · rw [show (State.modSeq _ n.val g).ch n.val = _ from h.2]
  · rw [show (State.modSeq _ n.val g).ch n.val = _ from h.2]
    exact hc
  · rw [show (State.modSeq _ n.val g).ch n.val = _ from h.2]
    exact hi

/-- The sequencer of an instruction that executes is running. -/
theorem Executes.run {s : State} {n : Ch} {w : Nat} {j : Job} (h : Executes s n w j) : (s.ch n.val).seq.run = .run := by
  have h1 := h.runs
  unfold State.runsOn at h1
  split at h1
  · cases h1
  · split at h1
    · rename_i h2
      simp only [Bool.and_eq_true, beq_iff_eq] at h2
      exact h2.2
    · cases h1

/-- An instruction of the kind `State.pure`, with the running sequencer named `q`. -/
theorem seqTo_pure {s : State} {n : Ch} {w : Nat} {j : Job} (h : Executes s n w j) (y : Bool) (g : Seq → Seq) (x : Seq)
    (hf : ∀ q : Seq, (s.ch n.val).seq = q → q.run = .run →
      (g (q.counted y)).resume.core = x.core ∧ (g (q.counted y)).icnt = q.icnt + 1) :
    SeqTo n s x (s.pure n.val w y g) := by
  unfold State.pure
  rw [State.instr_eq h]
  exact seqTo_modSeq s n j y (fun q => (g q).resume) _ (hf _ rfl h.run).1 (hf _ rfl h.run).2

/-- An instruction whose body changes the sequencer, with the running sequencer named `q`. -/
theorem seqTo_instr {s : State} {n : Ch} {w : Nat} {j : Job} (h : Executes s n w j) (y : Bool) (g : Seq → Seq) (x : Seq)
    (body : State → Job → State)
    (hb : body ((s.touchLine j (s.ch n.val).seq.pc).countInstr n.val y) j
      = ((s.touchLine j (s.ch n.val).seq.pc).countInstr n.val y).modSeq n.val g)
    (hf : ∀ q : Seq, (s.ch n.val).seq = q → q.run = .run → (g (q.counted y)).core = x.core ∧ (g (q.counted y)).icnt = q.icnt + 1) :
    SeqTo n s x (s.instr n.val w y body) := by
  rw [State.instr_eq h, hb]
  exact seqTo_modSeq s n j y g _ (hf _ rfl h.run).1 (hf _ rfl h.run).2

end Sys2Proof.Machine
end

