-- ==== Sys2Proof/WellFormed.lean ====
section
/-!
DEFINITION. Well-formed commands: a frame spells the row that names it, an undefined opcode or halfword is undefined, and an
event carries what can happen. `exec` is total: an ill-formed command has a meaning too, that of the bits it carries.
-/

namespace Sys2Proof.Machine

/-- NEW, PART and FIN of a SUBMIT frame (R262). -/
def submitForm (f : Frame) (new part fin : Bool) : Bool :=
  bitOf f.arg.toNat 8 == new && bitOf f.tag.toNat 4 == part && bitOf f.tag.toNat 5 == fin

/-- A field of ARG. -/
def argIs (f : Frame) (lo w v : Nat) : Bool := getBits f.arg lo w == v

/-- RESYNC of a frame. -/
def resyncOf (f : Frame) : Bool := bitOf f.tag.toNat 6

/-- The frame spells the row that names it. -/
def frameWf : Instr → Bool
  | .nop f => !resyncOf f
  | .nopResync f => resyncOf f
  | .submitSingle f => submitForm f true false true
  | .submitOpen f => submitForm f true true false
  | .submitCont f => submitForm f false true false
  | .submitFinal f => submitForm f false true true
  | .queueFlush f => argIs f 8 1 0
  | .queueFlushAbort f => argIs f 8 1 1
  | .timeSetNow f => argIs f 0 2 0
  | .timeSetAtSynci f => argIs f 0 2 1
  | .timeSetOffset f => argIs f 0 2 2
  | .timeSetDisarm f => argIs f 0 2 3
  | .powerIdle f => argIs f 0 3 1
  | .powerSleep f => argIs f 0 3 2
  | .powerWatch f => argIs f 0 3 3
  | .powerDeep f => argIs f 0 3 4
  | .powerOff f => argIs f 0 3 5
  | .resetWarm f => argIs f 0 2 0
  | .resetSystem f => argIs f 0 2 1
  | .badOpc opc _ => !knownOpc opc.toNat
  | _ => true

/-- What an event carries can happen. -/
def eventWf : Instr → Bool
  | .undefinedInstruction _ w => !definedWord w.toNat
  | .beatBoundary _ steps => decide (steps ≤ 8)
  | .emuAnticollision _ sel known => (sel == 0x93 || sel == 0x95) && decide (known.length ≤ 40)
  | .emuSelect _ sel uid => (sel == 0x93 || sel == 0x95) && uid.length == 5
  | .sofDetect _ meas _ => !meas.isEmpty && decide ((meas.map fun m => m.ch).Nodup)
  | .protWrite _ ofs _ => ofs.toNat % 4 == 0
  | .declarationQuery _ which _ => decide (which.toNat ≤ 2)
  | _ => true

/-- A well-formed command. -/
def wfInstr (i : Instr) : Bool := frameWf i && eventWf i

end Sys2Proof.Machine
end

