-- ==== Sys2Proof/Tests/Slice0.lean ====
section
/-!
SUPPORT. Tests: ill-formed commands that the checks refuse, witnesses that the hypotheses of each statement can be met
together, and small cases that the manual works out.
-/

namespace Sys2Proof.Machine

-- One theorem at a time: with many at once the checks run out of threads.
set_option Elab.async false

/-- A frame for the tests: port H0, the given TAG and ARG, no payload. -/
def testFrame (tag : BitVec 8) (arg : Word) : Frame :=
  { port := 0, tag := tag, len := 0, arg := arg, payload := [], crc := 0, rise := none, mode3 := false }

/-! ## Ill-formed commands -/

theorem test_wf_nop : wfInstr (.nop (testFrame 0x40 0)) = false := by decide
theorem test_wf_resync : wfInstr (.nopResync (testFrame 0x00 0)) = false := by decide
theorem test_wf_submit : wfInstr (.submitSingle (testFrame 0x10 0x100)) = false := by decide
theorem test_wf_mode : wfInstr (.timeSetOffset (testFrame 0 1)) = false := by decide
theorem test_wf_target : wfInstr (.powerDeep (testFrame 0 2)) = false := by decide
theorem test_wf_kind : wfInstr (.resetSystem (testFrame 0 0)) = false := by decide
theorem test_wf_badOpc : wfInstr (.badOpc 0x10 (testFrame 0 0)) = false := by decide
theorem test_wf_undefined : wfInstr (.undefinedInstruction 0 0x0000) = false := by decide
theorem test_wf_steps : wfInstr (.beatBoundary 0 9) = false := by decide
theorem test_wf_sel : wfInstr (.emuAnticollision 0 0x92 []) = false := by decide
theorem test_wf_uid : wfInstr (.emuSelect 0 0x93 []) = false := by decide
theorem test_wf_meas : wfInstr (.sofDetect 0 [] 0) = false := by decide
theorem test_wf_prot : wfInstr (.protWrite 0 2 0) = false := by decide
theorem test_wf_query : wfInstr (.declarationQuery 0 3 0) = false := by decide

/-! ## Witnesses: the sequencers -/

/-- A job of a custom routine in the flash on channel 0. -/
def codeJob : Job :=
  { id := 0, port := 0, queue := 0, state := .running, desc := [0x00001110, 100, 0, 0x00000100, 7, 9, 0x90000, 4], mask := 1
    units := 3, decl := { found := true, src := 2, ninst := 8, addr := 0x100, maxpay := 32, wcx := 500 } }

/-- The device started and locked, port H0 OWNER, with jobs. -/
def started (jobs : List Job) : State :=
  { State.reset with
    boot := .started, syn := { state := .locked }, jobs := jobs, nextJob := 9
    pwr := { State.reset.pwr with xtal := true, domOn := 0xFFF } }

/-- The job runs on channel 0, and the channel is changed by `g`. -/
def running (g : Chan → Chan) : State :=
  (started [codeJob]).modCh 0 fun c => g { c with seq := { c.seq with run := .run } }

/-- The line of the routine cache from which the job fetches holds the instruction `w`. -/
def withCode (w : Nat) (s : State) : State :=
  { s with flash := { s.flash with cache := [⟨8, leBytes 2 w ++ List.replicate 30 0⟩] } }

/-- What every statement about an instruction of the job asks for, the instruction apart. -/
def ready (s : State) : Bool :=
  s.canon && decide (s.job? 0 = some codeJob) && decide (s.runsOn 0 = some codeJob) && decide (s.jobOn 0 = some codeJob)
    && !(s.ch 0).seq.spent && decide ((s.ch 0).seq.firstFault = none) && !(s.ch 0).seq.windup
    && decide ((s.ch 0).seq.pc = 0)

/-- The instruction in the line is the one fetched. -/
theorem withCode_fetches (s : State) (j : Job) (hj : j.decl = codeJob.decl) (w : Nat) (hw : w < 65536) :
    (withCode w s).fetches j 0 w = true := by
  unfold State.fetches Job.codeLine Job.codeAt withCode
  rw [hj]
  simp [codeJob, leBytes, leNat]
  omega

/-- A ready state executes whatever instruction its code holds. -/
theorem ready_executes (s : State) (h : ready s = true) (w : Nat) (hw : w < 65536) : Executes (withCode w s) 0 w codeJob := by
  simp only [ready, Bool.and_eq_true, decide_eq_true_eq, Bool.not_eq_true'] at h
  have hpc : ((withCode w s).ch 0).seq.pc = 0 := h.2
  refine ⟨h.1.1.1.1.1.2, h.1.1.1.2, h.1.1.2, fun _ => ?_, ?_, ?_⟩ <;> rw [show (0 : Ch).val = 0 from rfl, hpc]
  · decide
  · decide
  · exact withCode_fetches s codeJob rfl w hw

/-- Change the sequencer of channel 0. -/
def withSeq (g : Seq → Seq) (c : Chan) : Chan := { c with seq := g c.seq }

/-- Set register G0 to a value, and G1 to another. -/
def withRegs (a b : Word) : Chan → Chan := withSeq fun q => (q.setG 0 a).setG 1 b

theorem wit_ready : ready (running id) = true := by decide +kernel

/-- A job whose code lies in the routine store, at its last instruction. -/
def storeJob : Job :=
  { codeJob with decl := { found := true, src := 1, ninst := 2, addr := 0x1FFFC, wcx := 500 } }

theorem wit_storeCode :
    Executes ({ (started [storeJob]) with sram := [(0x15FFFE, 0x40)] }.modCh 0 (withSeq fun q => { q with run := .run, pc := 1 }))
      0 0x0040 storeJob := by
  refine ⟨by decide +kernel, by decide +kernel, by decide +kernel, by decide +kernel, by decide +kernel, by decide +kernel⟩

/-- A job whose code lies in the flash. -/
def flashJob : Job := { codeJob with decl := { found := true, src := 2, ninst := 8, addr := 0x100, wcx := 500 } }

theorem wit_flashCode :
    Executes ({ (started [flashJob]) with flash := { State.reset.flash with cache := [⟨8, List.replicate 32 0⟩] } }.modCh 0
      (withSeq fun q => { q with run := .run, pc := 7 })) 0 0 flashJob := by
  refine ⟨by decide +kernel, by decide +kernel, by decide +kernel, by decide +kernel, by decide +kernel, by decide +kernel⟩

theorem wit_call : ready (running (withSeq fun q => { q with stack := List.replicate 7 0 })) = true
    ∧ ready (running (withSeq fun q => { q with stack := List.replicate 8 0 })) = true := by decide +kernel

/-- The address of LD and ST at G1 with offset 0. -/
def addr (s : State) : Nat := ((s.ch 0).seq.getG 1 + 0).toNat

theorem wit_load : ([0, 0x7FFFC, 0x90000, 0x174000, 0x1FFFFC, 0xFFFFFF00, 0xFFFFFFFC, 0x1FFFFE, 0x80000, 0x200000].all fun a =>
    ready (running (withRegs 1 a))) = true ∧ addr (running (withRegs 1 0xFFFFFFFC)) = 0xFFFFFFFC := by decide +kernel

theorem wit_store : ([0x180000, 0x1FFFFC, 0xFFFFFF00, 0xFFFFFFFC, 0x17FFFC, 0x180002].all fun a =>
    ready (running (withRegs 0x12345678 a))) = true := by decide +kernel

/-- FIFOs with `t` bytes to send and `r` bytes received. -/
def withFifos (t r : Nat) (c : Chan) : Chan :=
  { c with txf := { c.txf with data := List.replicate t 1 }, rxf := { c.rxf with data := List.replicate r 2 } }

theorem wit_push : ready (running (withFifos 1020 0)) = true ∧ ready (running (withFifos 1024 0)) = true := by decide +kernel
theorem wit_pop : ready (running (withFifos 0 4)) = true ∧ ready (running (withFifos 0 0)) = true := by decide +kernel
theorem wit_fctl : ready (running fun c => { withFifos 3 3 c with
    txf := { c.txf with data := [1, 2, 3], rd := 1, mvalid := true }, rxf := { c.rxf with data := [4], rd := 1 } }) = true := by
  decide +kernel
theorem wit_wait : ((running (withSeq fun q => { q with run := .blocked .wait })).ch 0).seq.run = .blocked .wait := by decide +kernel
theorem wit_rawb : ready (running (withRegs 64 65)) = true ∧ ready (running (withRegs 0 128)) = true := by decide +kernel


/-- Buffers of results with `k` bytes. -/
def withOut (k : Nat) : Chan → Chan := withSeq fun q => { q with out := List.replicate k (.byte 0) }

theorem wit_out : ([0, 992, 993, 1007, 1008].all fun k => ready (running (withOut k))) = true := by decide +kernel

/-- A sighting of a tag of ISO/IEC 15693. -/
def seen : Sighting :=
  { proto := 2, id := List.replicate 8 7, info := 0, infoPart := false, volatile := false, ch := 0, coil := 1, rssi := 9, job := 0 }

/-- The sighting is held for token resolution. -/
def withHeld (c : Chan) : Chan := { c with inv := { c.inv with phase := .start, held := some { sight := seen, handle := 0x4000 } } }

/-- Ring 0 with `k` units. -/
def withRing (k : Nat) (s : State) : State := (s.wr (R.RES_CFG_EN 0) 1).wr (R.RES_CFG_SIZE 0) k

/-- A request of job 0 to the ECDSA unit, for entry 3. -/
def request : CryReq := { sig := true, job := 0, cls := .gold, entry := 3, held := none, data := List.replicate 64 1 }

/-- CRY works on that request. -/
def signing (s : State) : State := { s with cry := { s.cry with ecc := some request } }

theorem wit_records :
    ready (running (withRegs 0x3FFF 0)) = true ∧ ready (running (withRegs 0x4000 0 ∘ withHeld)) = true
    ∧ ready (running (withRegs 0x4001 0)) = true ∧ ready (running (withOut 1)) = true
    ∧ (running (withOut 1)).ringFree codeJob.ringNo = 0
    ∧ ready (withRing 2 (running (withOut 16))) = true ∧ (withRing 2 (running (withOut 16))).ringFree codeJob.ringNo = 2
    ∧ (running id).cryOutstanding 0 = false ∧ ready (signing (running id)) = true
    ∧ (signing (running id)).cryOutstanding 0 = true := by decide +kernel

/-- A result buffer with the image of entry 3 reserved. -/
def withRecord : Chan → Chan := withSeq fun q => { q with out := [.record 3] }

theorem wit_end : ready (running (withRegs 0x0F 0x13)) = true ∧ codeJob.isWriter = false
    ∧ ready (running (withRegs 0x0A 0x10)) = true ∧ ready (running withHeld) = true
    ∧ ready (signing (running withRecord)) = true
    ∧ imagesFilled ((signing (running withRecord)).fillItems 0 {} [.record 3]) = false := by decide +kernel

/-- The job is to stop. -/
def stoppedJob : Job := { codeJob with marked := some 0x0E }

/-- A job of a ROM inventory. -/
def inventoryJob : Job :=
  { codeJob with desc := [0x00001020, 100, 0, 0x00000100, 7, 9, 0x90000, 4], rom := { opened := 1 }
                 decl := { found := true, src := 0, ninst := 64, wcx := 500 } }

/-- A job of channel 0 runs. -/
def runningJob (j : Job) : State := (started [j]).modCh 0 fun c => { c with seq := { c.seq with run := .run } }

theorem wit_endStops : Executes (withCode 0xE500 (runningJob stoppedJob)) 0 0xE500 stoppedJob := by
  refine ⟨by decide +kernel, by decide +kernel, by decide +kernel, by decide +kernel, by decide +kernel, by decide +kernel⟩

theorem wit_endInventory : inventoryJob.isInventory = true ∧
    Executes ((runningJob inventoryJob).modCh 0 fun c => { c with seq := { c.seq with out := [.summary] } }) 0 0xE502 inventoryJob := by
  refine ⟨by decide +kernel, by decide +kernel, by decide +kernel, by decide +kernel, by decide +kernel, by decide +kernel, by decide +kernel⟩

/-- The field of channel 0 is in a state. -/
def withField (f : FieldState) (c : Chan) : Chan := { c with field := f }

/-- A job of swarm group 0, channels 0 and 1. -/
def swarmJob : Job := { codeJob with mask := 3, group := some 0 }

/-- The swarm job runs, led by channel 0, which is changed by `g`, with the fields of both in state `f`. -/
def swarm (f : FieldState) (g : Chan → Chan) : State :=
  ((started [swarmJob]).modCh 0 fun c => withField f (g { c with seq := { c.seq with run := .run } })).modCh 1 (withField f)

/-- What the statements about a swarm job ask for. -/
def readySwarm (s : State) : Bool :=
  s.canon && decide (s.job? 0 = some swarmJob) && decide (s.runsOn 0 = some swarmJob) && decide (s.jobOn 0 = some swarmJob)
    && !(s.ch 0).seq.spent && decide ((s.ch 0).seq.firstFault = none) && !(s.ch 0).seq.windup
    && decide ((s.ch 0).seq.pc = 0)

/-- A ready state of the swarm job executes whatever instruction its code holds. -/
theorem readySwarm_executes (s : State) (h : readySwarm s = true) (w : Nat) (hw : w < 65536) :
    Executes (withCode w s) 0 w swarmJob := by
  simp only [readySwarm, Bool.and_eq_true, decide_eq_true_eq, Bool.not_eq_true'] at h
  have hpc : ((withCode w s).ch 0).seq.pc = 0 := h.2
  refine ⟨h.1.1.1.1.1.2, h.1.1.1.2, h.1.1.2, fun _ => ?_, ?_, ?_⟩ <;> rw [show (0 : Ch).val = 0 from rfl, hpc]
  · decide
  · decide
  · exact withCode_fetches s swarmJob rfl w hw

/-- Without LOCK. -/
def unlocked (s : State) : State := { s with syn := { s.syn with state := .lost } }

theorem wit_fieldOn :
    ready (running (withField .on)) = true
    ∧ ((running (withField .on)).teamAll 0 fun _ c => c.field == .on && !c.wantOff) = true
    ∧ ready (running (withField .off)) = true ∧ ready (unlocked (running (withField .off))) = true
    ∧ ready (running (withField .fault)) = true ∧ (running (withField .fault)).teamFault 0 = true
    ∧ readySwarm (swarm .off id) = true
    ∧ ((swarm .off id).teamAll 0 fun _ c => c.field == .off && !c.antPend) = true := by decide +kernel

theorem wit_fieldOff : ((running (withField .off)).teamAll 0 fun _ c => c.field == .off) = true
    ∧ ((running (withField .on)).teamAll 0 fun _ c => c.field == .off) = false
    ∧ readySwarm (swarm .on id) = true ∧ ((swarm .on id).teamAll 0 fun _ c => c.field == .off) = false := by decide +kernel

/-- Pattern 63 of channels 0 and 1, PTOT 1,000 mW, with weight 5 each. -/
def withPattern (s : State) : State :=
  { s with sram := [(0x175BD0, 3), (0x175BD2, 0xE8), (0x175BD3, 0x83), (0x175BE0, 5), (0x175BE4, 5)] }

theorem wit_airSelect :
    ready (running (withRegs 15 4095)) = true ∧ ready (running (withField .rxw)) = true
    ∧ readySwarm (swarm .off (withRegs 63 0)) = true ∧ (swarm .off (withRegs 63 0)).patOk 63 swarmJob.mask = false
    ∧ readySwarm (withPattern (swarm .off (withRegs 63 0))) = true
    ∧ (withPattern (swarm .off (withRegs 63 0))).patOk 63 swarmJob.mask = true
    ∧ ((withPattern (swarm .off (withRegs 63 0))).teamAll 0 fun _ c => c.field == .off) = true := by decide +kernel

/-- The field is ON, the air configuration is TXMODE `t`, CRC `k`, RXMODE `r`, and a frame of G1 bits is in the FIFO. -/
def sending (t : BitVec 4) (k : BitVec 2) (r : BitVec 4) (bits : Word) (bytes : Nat) : Chan → Chan := fun c =>
  withFifos bytes 0 (withField .on (withSeq (fun q => { (q.setG 1 bits) with txMode := t, txCrc := k, rxMode := r, rawb := 64 }) c))

/-- The gate units of a drain leave no window. -/
def draining (s : State) : State := { s with drain := some 0 }

theorem wit_transmit :
    ready (running (sending 12 0 0 8 1)) = true ∧ ready (running (sending 0 0 14 8 1)) = true
    ∧ ready (running (withSeq fun q => { q with rxMode := 13 })) = true
    ∧ ready (running (withField .off ∘ sending 0 1 0 8 1)) = true
    ∧ ready (running (sending 0 0 0 0 0)) = true ∧ ready (running (sending 0 1 0 7 1)) = true
    ∧ ready (running (sending 0 1 0 16 1)) = true
    ∧ ready (running (withSeq (fun q => { q with cont := true }) ∘ sending 0 1 0 8 1)) = true ∧ codeJob.started = false
    ∧ ready (running (sending 11 3 13 8192 1024)) = true
    ∧ ((running (sending 11 3 13 8192 1024)).teamAll 0 fun _ c => c.field == .on && !c.calib && !c.wantOff) = true
    ∧ (running (sending 11 3 13 8192 1024)).exchangeFits codeJob 0 = true
    ∧ ready (draining (running (sending 0 0 0 7 1))) = true
    ∧ (draining (running (sending 0 0 0 7 1))).exchangeFits codeJob 0 = false := by decide +kernel

/-- An open response window. -/
def window : Window := { mode := 0, crc := 1, toUs := 5000, engine := false }

/-- Channel 0 winds up. -/
def windingUp (k : Nat) : Chan → Chan := withSeq fun q => { q with windup := true, windN := k }

theorem wit_windup_runs : Executes (withCode 0xB005 (running (windingUp 255))) 0 0xB005 codeJob := by
  refine ⟨by decide +kernel, by decide +kernel, by decide +kernel, by decide +kernel, by decide +kernel, by decide +kernel⟩

theorem wit_receive :
    ready (running fun c => { c with ev := some 0 }) = true ∧ ready (running fun c => { c with ev := some 15 }) = true
    ∧ ready (running fun c => { c with win := some window }) = true
    ∧ ready (running fun c => { c with win := some { window with taken := true } }) = true ∧ ready (running id) = true := by decide +kernel

/-- An inventory context in a phase. -/
def withInv (p : InvPhase) (c : Chan) : Chan := { c with inv := { c.inv with phase := p, endRc := 2 } }

theorem wit_inventory :
    ready (running (withInv .start)) = true ∧ ready (running (withRegs 3 0)) = true ∧ ready (running (withRegs 0x40 0)) = true
    ∧ ready (running (withRegs 0x1000000 0)) = true ∧ ready (running (withRegs 0xFF003E 0xFFFF5555)) = true
    ∧ ready (running (withInv .ended)) = true ∧ (running (withInv .ended)).canon = true := by decide +kernel

/-- The queue of CRY holds `k` requests. -/
def queued (k : Nat) (s : State) : State := { s with cry := { s.cry with queue := List.replicate k request } }

/-- G0 is `v`, G1 is `k`, and `r` bytes can be read. -/
def asking (v k : Word) (r : Nat) : Chan → Chan := fun c => withFifos 0 r (withRegs v k c)

theorem wit_requests :
    ready (running (asking 0x4001 0 0)) = true ∧ ready (running (asking 0x4000 0 0)) = true
    ∧ ready (running (asking 0x3FFF 65 65)) = true ∧ ready (running (asking 0x3FFF 64 63)) = true
    ∧ ready (queued 31 (running (asking 0x3FFF 64 64))) = true ∧ ready (queued 32 (running (asking 0 0 0))) = true
    ∧ ready (running (withHeld ∘ asking 0x3FFF 0 16)) = true ∧ ready (running (withHeld ∘ asking 0x4000 0 15)) = true
    ∧ ready (queued 31 (running (withHeld ∘ asking 0x4000 0 16))) = true := by decide +kernel

theorem wit_stops : definedWord 0xF000 = false ∧ definedWord 0x00C1 = false ∧ definedWord 0xE3FF = false
    ∧ (let s := running (withSeq fun q => { q with ypend := true, ycnt := 2048 })
       s.canon = true ∧ s.runsOn 0 = some codeJob ∧ s.job? 0 = some codeJob)
    ∧ (running (windingUp 256)).canon = true ∧ (running (windingUp 256)).runsOn 0 = some codeJob := by decide +kernel

/-- The job has ended OK. -/
def endedJob : Job :=
  { codeJob with state := .finishing, ended := some { rc := 0, part := false, receipt := false, cut := false, detail := 7, payload := [.byte 1] } }

theorem wit_finalEntry : let s := started [endedJob]
    s.jobLead 0 = some endedJob ∧ s.job? 0 = some endedJob ∧ (∀ m ∈ maskList endedJob.mask, (s.ch m.val).field = .off)
    ∧ s.cryOutstanding 0 = false ∧ s.mergesDue 0 = false ∧ s.locatesDue endedJob = false ∧ s.thermHold = false := by decide +kernel

/-- A job that waits for its gate window. -/
def waitingJob : Job := { codeJob with state := .waiting, waited := true }

theorem wit_waiting : let u := (started [waitingJob]).advanceTo 5000
    (started [waitingJob]).canon = true ∧ u.jobLead 0 = some waitingJob ∧ u.jobOn 0 = some waitingJob
    ∧ (u.ch 0).field = .off ∧ u.syn.state = .locked ∧ u.exchangeFits waitingJob (u.rampUs waitingJob + 14) = true := by
  decide +kernel

theorem wit_fills : let s := (started [flashJob]).modCh 0 (withSeq fun q => { q with run := .run, pc := 7 })
    s.canon = true ∧ s.runsOn 0 = some flashJob ∧ s.flash.cache = [] ∧ s.flash.filling = none ∧ s.flash.cmd = none
    ∧ ({ s with flash := { s.flash with filling := some (0, 8) } }.modCh 0 (withSeq fun q =>
        { q with run := .blocked .fetch })).canon = true := by decide +kernel

/-! ## Witnesses: fields, reception, the synthesiser -/

/-- Channel 0, without a job, changed by `g`. -/
def plain (g : Chan → Chan) : State := (started []).modCh 0 g

/-- A state in which no coupling measurement holds channel 0, and channel 0 leads its own team. -/
def calm (s : State) : Bool := s.canon && decide (s.couplingOn 0 = none) && decide (s.leadAt 0 = 0) && s.team 0 == [0]

theorem wit_settle :
    calm (plain (withField .settle)) = true
    ∧ calm (plain fun c => { withField .settle c with wantOn := true }) = true
    ∧ (let s := (swarm .off fun c => { c with wantOn := true }).modCh 1 fun c => { c with wantOn := true, field := .settle }
       s.canon = true ∧ s.couplingOn 1 = none ∧ s.leadAt 1 = 0 ∧ s.team 0 = [0, 1]
         ∧ (s.ch 0).antPend = false ∧ (s.ch 0).wantOn = true) := by decide +kernel

theorem wit_ramp :
    calm (plain fun c => { withField .ramp c with wantOff := true }) = true
    ∧ calm (plain (withField .ramp)) = true ∧ (plain (withField .ramp)).isOn (R.CH_TXCTL_CC_AUTO 0) = true
    ∧ (let s := (plain fun c => { withField .ramp c with seq := { c.seq with run := .blocked .fon } }).wr (R.CH_TXCTL_CC_AUTO 0) 0
       calm s = true ∧ s.isOn (R.CH_TXCTL_CC_AUTO 0) = false)
    ∧ (let s := swarm .ramp id
       s.canon = true ∧ s.couplingOn 0 = none ∧ s.team 0 = [0, 1] ∧ (s.ch 1).field ≠ .on) := by decide +kernel

/-- A frame that is being modulated. -/
def txFrame : TxReq := { bytes := [1], bits := 8, fifo := 8, engine := false, cont := false, rxMode := 7, rxCrc := 2, rxto := 1 }

theorem wit_down :
    calm (plain fun c => { withField .down c with seq := { c.seq with run := .blocked .foff } }) = true
    ∧ calm (plain fun c => { withField .mod c with txNow := some txFrame, seq := { c.seq with run := .blocked (.tx none) } }) = true
    ∧ calm (plain fun c => { withField .mod c with txNow := some txFrame, seq := { c.seq with run := .blocked (.tx (some 7)) } }) = true
    ∧ calm (plain fun c => { c with win := some { window with done := true } }) = true := by decide +kernel

/-- The job of channel 0 receives in a window. -/
def receiving (w : Window) (r : SeqRun) : State :=
  (started [codeJob]).modCh 0 fun c => { withField .rxw c with win := some w, seq := { c.seq with run := r } }

/-- A measured SOF. -/
def sofMeas : SofMeas := { ch := 0, rssi := 65535, noise := 1, vecI := 3, vecQ := 4, overs := 0 }

theorem wit_reception : let s := receiving window (.blocked (.rx 3))
    s.canon = true ∧ s.leadAt 0 = 0 ∧ s.jobLead 0 = some codeJob ∧ s.team 0 = [0]
    ∧ 4 * (s.rd (R.CH_RXTHR_MIN_DBUV 0) : Int) ≤ levelOf (powOf sofMeas.rssi)
    ∧ (receiving { window with earliest := 18720 } .run).canon = true
    ∧ 100 * (16 * (0 + 1)) + 1356 * s.rd (R.CH_RXTIME_EARLY_US 0) ≤ 100 * 18720
    ∧ 100 * window.earliest < 100 * (16 * (0 + 1)) + 1356 * s.rd (R.CH_RXTIME_EARLY_US 0)
    ∧ (receiving { window with sof := true } .run).canon = true
    ∧ (receiving { window with sof := true } .run).jobLead 0 = some codeJob := by decide +kernel

/-- A frame of 8 data bits and their parity, whole or with its subcarrier lost. -/
def byteFrame (lost : Bool) : RxFrame :=
  { bits := List.replicate 9 (.man (-40) 0), framing := true, cut := lost, clip := 0 }

theorem wit_frameEnd : let s := receiving { window with sof := true, crc := 0 } .run
    s.canon = true ∧ (s.decodeFrame 0 { window with crc := 0 } 0 2048 (byteFrame false)).code = 0
    ∧ (s.decodeFrame 0 { window with crc := 0 } 0 2048 (byteFrame true)).code = 7
    ∧ (s.decodeFrame 0 window 0 8 (byteFrame false)).code = 9 := by decide +kernel

theorem wit_switchBus :
    (plain fun c => { c with antWait := true }).antTaken 0 = true ∧ (plain fun c => { c with antWait := true }).canon = true ∧ (plain fun c => { c with antWait := true }).syn.shift = none
    ∧ (let s := { (plain id) with syn := { state := .locked, shift := some 0x0000000F } }
       s.canon = true ∧ (s.ch 0).curPos ≠ BitVec.ofNat 3 (getBits (0x0000000F : Word) 0 3)) := by decide +kernel

theorem wit_calibrations : (plain fun c => { c with calib := true, calBase := some (0x7FF, 1) }).canon = true ∧
    (plain fun c => { c with calib := true }).canon = true ∧ (plain fun c => { c with calib := true }).jobOn 0 = none
    ∧ 4 * (plain id).rd (R.CH_CCCTL_THRESH 0) ≤ 255 ∧ 0 < 4 * (plain id).rd (R.CH_CCCTL_THRESH 0)
    ∧ ({ State.reset with boot := .imageCal, bootCal := 1 }).canon = true
    ∧ ({ (started []) with maint := [{ kind := .imageCal, mask := 1, since := 0, running := true }] }).imageCalRuns 0 = true
    ∧ (plain (withField .on)).canon = true := by decide +kernel

theorem wit_channelFaults :
    (plain (withField .down)).canon = true ∧ (plain (withField .rxw)).canon = true
    ∧ 0 ^ 2 * (plain (withField .rxw)).rd (R.CH_TXLOAD_RL 0)
      < (plain (withField .rxw)).rd (R.CH_TXLOOP_OPEN_PCT 0) ^ 2 * (plain (withField .rxw)).targetMw 0
    ∧ (let s := { (plain (withField .ramp)) with pmb := { state := .ready } }; s.canon = true ∧ s.syn.state = .locked) := by
  decide +kernel

theorem wit_synthesiser : ([SynState.cal, .acq, .lost, .step].all fun x =>
    let s := { (started []) with syn := { state := x } }
    s.canon && s.pwr.xtal && !s.thermHold) = true
    ∧ (let s := { (started []) with syn := { state := .acq }, boot := .lock }; s.canon = true ∧ s.pwr.xtal = true) := by
  decide +kernel

/-! ## Witnesses: the host -/

/-- Everything that `Accepts` asks for, as one test. -/
def accepts (s : State) (opc : Byte) (f : Frame) : Bool :=
  s.up && (s.hostEdge f.port).portReady && !s.replyWaits f.port && (s.pt f.port.val).held.isEmpty && frameOk opc f
    && (if bitOf f.tag.toNat 6 then opc == 0 else seqOf f.tag == (s.pt f.port.val).lastSeq + 1)
    && decide ((s.hostEdge f.port).preCheck f.port.val opc.toNat f.tag = none) && !(s.hostEdge f.port).keyHeld opc f

theorem accepts_spec (s : State) (opc : Byte) (f : Frame) (h : accepts s opc f = true) : Accepts s opc f := by
  simp only [accepts, Bool.and_eq_true, Bool.not_eq_true', decide_eq_true_eq, List.isEmpty_iff] at h
  obtain ⟨⟨⟨⟨⟨⟨⟨a, b⟩, c⟩, w⟩, d⟩, e⟩, g⟩, k⟩ := h
  refine ⟨⟨a, b, c, w⟩, d, ?_, g, k⟩
  cases k : bitOf f.tag.toNat 6 with
  | true => exact .inl ⟨rfl, by simpa [k] using e⟩
  | false => exact .inr ⟨rfl, by simpa [k] using e⟩

/-- Everything that `MayWrite` asks for, as one test. -/
def writable (s : State) (p : Port) (a : Nat) (w : Word) : Bool :=
  s.up && (s.hostEdge p).portReady && !s.replyWaits p && (s.pt p.val).held.isEmpty && match blockOf a, rowAt a with
    | some b, some r => (s.hostEdge p).mayWriteReg p.val b a && (s.hostEdge p).inRange a w b r
      && decide ((s.hostEdge p).turnedAway a w b = none)
    | _, _ => false

theorem writable_spec (s : State) (p : Port) (a : Nat) (w : Word) (h : writable s p a w = true) : MayWrite s p a w := by
  simp only [writable, Bool.and_eq_true, Bool.not_eq_true', List.isEmpty_iff] at h
  obtain ⟨⟨⟨⟨a', b'⟩, c'⟩, d'⟩, h⟩ := h
  split at h
  · rename_i b r hb hr
    simp only [Bool.and_eq_true, decide_eq_true_eq] at h
    exact ⟨⟨a', b', c', d'⟩, b, r, hb, hr, h.1.1, h.1.2, h.2⟩
  · cases h

/-- The next frame of a port with bits of its TAG set. -/
def tagged (s : State) (p : Port) (opc bits : Byte) (arg : Word) (body : List Byte) : Frame :=
  let f := s.nextFrame p opc arg body
  let g := { f with tag := f.tag ||| bits }
  { g with crc := hostCrc opc g }

/-- The device started, canonical and with distinct jobs. -/
def good (s : State) : Bool := s.canon && s.jobsOk

/-- A frame of port `p` in `s`, without bits of the TAG, is accepted. -/
def hears (s : State) (p : Port) (opc : Byte) (arg : Word) (body : List Byte) : Bool :=
  accepts s opc (s.nextFrame p opc arg body)

theorem wit_hostFrames : let s := started []
    good s = true ∧ hears s 0 0x00 0 [] = true ∧ accepts s 0x00 (tagged s 0 0x00 0x40 0 []) = true ∧ hears s 3 0x00 0 [] = true
    ∧ hears s 0 0x40 0 [] = true ∧ hears s 0 0x41 0x7FFFF [] = true ∧ frameOk 0x0F (s.nextFrame 0 0x0F 0 []) = true
    ∧ hears s 0 0x12 0 [] = false ∧ frameOk 0x12 (s.nextFrame 0 0x12 0 []) = true ∧ knownOpc 0x12 = false := by decide +kernel

theorem wit_badFrames : let s := started []
    let f := s.nextFrame 1 0x10 0 [1, 2, 3, 4, 5]
    frameOk 0x10 { f with crc := f.crc + 1 } = false ∧ frameOk 0x10 { f with rise := some 16 } = false
    ∧ (let g := { f with tag := 0x0F }; frameOk 0x10 { g with crc := hostCrc 0x10 g } = true ∧ seqOf g.tag = (s.pt 1).lastSeq)
    ∧ (let g := { f with tag := 0x01 }; frameOk 0x10 { g with crc := hostCrc 0x10 g } = true
        ∧ seqOf g.tag ≠ (s.pt 1).lastSeq + 1)
    ∧ frameOk 0x10 (tagged s 1 0x10 0x40 0 []) = true ∧ s.replyWaits 0 = false := by decide +kernel

/-- A frame meets a port that is not ready. -/
theorem wit_heldFrame : let s := (started []).modPt 0 fun t => { t with building := true }
    s.canon = true ∧ s.up = true ∧ (s.hostEdge 0).pwr.state ≠ .off ∧ s.replyWaits 0 = false ∧ (s.pt 0).held = []
    ∧ (let u := { (started []) with pwr := { (started []).pwr with state := .sleep, domOn := 0 } }
       u.canon = true ∧ u.up = true ∧ (u.hostEdge 0).portReady = false ∧ (u.hostEdge 0).pwr.state ≠ .off) := by decide +kernel

/-- Port 3 is OPERATOR and may read and write nothing. -/
def barred : State :=
  [R.PROT_PCFG_PRIV 3, R.PROT_RMASK_RMASK 3, R.PROT_WMASK_WMASK 3, R.PROT_MMASK_MREAD 3, R.PROT_MMASK_MWRITE 3].foldl
    (fun s f => s.wr f 0) (started []) |>.wr (R.PROT_PCFG_PRIV 3) 1

theorem wit_regRead :
    hears (started []) 0 0x10 (BitVec.ofNat 32 (R.SYS_RSTCNT + 2 ^ 16)) (List.replicate 8 0) = true
    ∧ (blockOf R.SYS_RSTCNT).isSome = true ∧ (rowAt R.SYS_RSTCNT).isSome = true
    ∧ hears barred 3 0x10 (BitVec.ofNat 32 (R.PROT_CTL + 2 ^ 16)) (List.replicate 8 0) = true
    ∧ (barred.hostEdge 3).mayReadReg 3 .prot R.PROT_CTL = false := by decide +kernel

/-- What `RegisterFrames` asks of a write of the word `w` by port `p` to the register at `a`. -/
def writesReg (s : State) (p : Port) (a : Nat) (w : Word) (right range open' : Bool) : Bool :=
  hears s p 0x11 (BitVec.ofNat 32 a) (leBytes 4 w.toNat) && match blockOf a, rowAt a with
    | some b, some r => (s.hostEdge p).mayWriteReg p.val b a == right && (s.hostEdge p).inRange a w b r == range
      && (r.rw ||| r.rwl ||| r.w1c ||| r.wo != 0) == open'
    | _, _ => false

theorem wit_regWrite :
    writesReg (started []) 0 R.SYS_RSTCAUSE 0xFFFFFFFF true true true = true ∧ blockOf R.SYS_RSTCAUSE = some .sys
    ∧ (started []).turnedAway R.SYS_RSTCAUSE 0xFFFFFFFF .sys = none ∧ (started []).committed = false
    ∧ writesReg (started []) 0 R.SYS_ID 0xFFFFFFFF true true false = true
    ∧ writesReg (started []) 0 0x600 0xFFFFFFFF true false true = true
    ∧ writesReg (started []) 3 0x1A00 1 false true true = true := by decide +kernel

/-- The flash has 16 MiB in pages of 256 bytes. -/
def withFlash (s : State) : State :=
  (((s.wr R.FLASH_GEOM_DENS_LOG2 24).wr R.FLASH_GEOM_PAGE_LOG2 8).wr R.FLASH_GEOM_SRST 1)

/-- A frame that reads the word at an address. -/
def readsMem (s : State) (p : Port) (a : Nat) : Bool := hears s p 0x20 (BitVec.ofNat 32 a) (leBytes 4 4)

/-- A frame that writes the word at an address. -/
def writesMem (s : State) (p : Port) (a : Nat) : Bool := hears s p 0x21 (BitVec.ofNat 32 a) [1, 2, 3, 4]

/-- A job that runs from the routine store holds channel 0. -/
def withStoreJob : State := (started [storeJob]).modCh 0 (withSeq fun q => { q with run := .run })

theorem wit_memory : let s := withFlash (started [])
    s.canon = true ∧ ([0, 0x7FFFC, 0x80000, 0xFFFFC, 0x140000, 0x15FFFC, 0x174000, 0x17FFFC, 0x180000, 0x1FFFFC].all fun a =>
      readsMem s 0 a && [some 0, some 1, some 2, some 4, some 7, some 8].contains (memRegion a)) = true
    ∧ readsMem barred 3 0x1FFFFC = true ∧ (barred.hostEdge 3).mayReadMem 3 8 = false ∧ barred.canon = true
    ∧ readsMem s 0 0x1FFFFFC = true ∧ memRegion 0x1FFFFFC = some 9 ∧ 0x1FFFFFC - winBase < s.density ∧ s.winClosed = false
    ∧ (let t := { s with flash := { s.flash with cmd := some (0, 1) } }; readsMem t 0 0x1000000 = true ∧ t.winClosed = true) := by
  decide +kernel

theorem wit_memWrite : let s := withFlash (started [])
    writesMem s 0 0x180000 = true ∧ writesMem s 0 0x1FFFFC = true ∧ writesMem s 0 0x140000 = true
    ∧ s.codeLatched 1 0 4 = false ∧ writesMem withStoreJob 0 0x15FFFC = true ∧ withStoreJob.codeLatched 1 0x1FFFC 4 = true
    ∧ writesMem s 0 0x7FFFC = true ∧ writesMem s 0 0xFFFFC = true ∧ writesMem barred 3 0x1FFFFC = true
    ∧ (barred.hostEdge 3).mayWriteMem 3 8 = false ∧ writesMem s 0 0x1FFFFFC = true
    ∧ s.winStatus (0x1FFFFFC - winBase) = stOk := by decide +kernel

/-- Queue 63 takes GOLD jobs of channel 7 into ring 31. -/
def withQueue (s : State) : State :=
  ((((((s.wr (R.SCHED_QCFG_EN 63) 1).wr (R.SCHED_QCFG_CLASS 63) 0).wr (R.SCHED_QCFG_ALLOW 63) 0x80).wr
    (R.SCHED_QCFG_MAXDEPTH 63) 1).wr (R.RES_CFG_EN 31) 1).wr (R.RES_CFG_SIZE 31) 16)

/-- A descriptor of ROM routine 0x010 on channel 7, ring 31, with `k` bytes of payload. -/
def descOf (k : Nat) : List Byte := wordBytes [0x00080010, 5, 0, 31, 0, 0, 0, BitVec.ofNat 32 k]

/-- The queue takes jobs, and port 0 is policed without a token. -/
def policed : State := (withQueue (started [])).wr (R.BUDG_PCFG_PEN 0) 1

/-- With no job in the pools there is a slot and a run. -/
theorem empty_pools (s : State) (k : Nat) (h : s.poolJobs = []) (hk : k ≤ 8192) :
    s.pickSlot.isSome = true ∧ (s.pickRun k).isSome = true := by
  constructor
  · simp [State.pickSlot, h]
  · simp only [State.pickRun, State.runFree, h, List.map_nil, List.all_nil, Bool.and_true]
    split
    · rename_i e; simp [List.filter, hk] at e
    · split
      · rfl
      · simp [List.filter, hk]

/-- The job of the item of the frame. -/
def itemJob (k : Nat) : Job := (withQueue (started [])).newJob 0 63 (leWords (descOf k))

theorem wit_submit : let s := withQueue (started [])
    good s = true ∧ accepts s 0x30 (tagged s 0 0x30 0x20 319 (descOf 0)) = true
    ∧ accepts s 0x30 (tagged s 0 0x30 0x10 319 (descOf 16384 ++ [1, 2])) = true
    ∧ s.queueOwner 63 = some 0 ∧ s.ringOwner (itemJob 0).ringNo = some 0 ∧ s.itemOk (itemJob 0) 0 true = true
    ∧ s.itemOk (itemJob 16384) 2 false = true ∧ s.depth 63 < s.rd (R.SCHED_QCFG_MAXDEPTH 63) ∧ s.poolJobs = []
    ∧ (itemJob 16384).payUnits = 512 ∧ 1 ≤ s.ringFree 31 ∧ s.isOn (R.BUDG_PCFG_PEN 0) = false
    ∧ good policed = true ∧ accepts policed 0x30 (tagged policed 0 0x30 0x20 319 (descOf 0)) = true
    ∧ policed.isOn (R.BUDG_PCFG_PEN 0) = true ∧ (policed.pt 0).tp < (itemJob 0).cost := by decide +kernel

/-- An item of port 0 that has 2 of its 5 bytes of payload. -/
def openJob : Job :=
  { id := 0, port := 0, queue := 63, state := .arriving, desc := leWords (descOf 5), got := 2 }

/-- That item is open. -/
def opened : State := (withQueue (started [openJob])).modPt 0 fun t => { t with openItem := some 0 }

theorem wit_continue :
    good opened = true ∧ accepts opened 0x30 (tagged opened 0 0x30 0x10 63 [7, 8, 9]) = true
    ∧ accepts opened 0x30 (tagged opened 0 0x30 0x30 63 [7, 8, 9]) = true
    ∧ (opened.pt 0).openItem = some 0 ∧ (opened.pt 0).discard = none ∧ opened.job? 0 = some openJob ∧ openJob.plen = 5
    ∧ (let s := (started []).modPt 0 fun t => { t with discard := some stPoliced }
       good s = true ∧ accepts s 0x30 (tagged s 0 0x30 0x10 63 [7]) = true ∧ accepts s 0x30 (tagged s 0 0x30 0x30 63 []) = true) := by
  decide +kernel

theorem wit_flush : let s := withQueue (started [{ openJob with state := .granted, mask := 0x80 }])
    good s = true ∧ hears s 0 0x34 63 [] = true ∧ hears s 0 0x34 319 [] = true ∧ s.queueOwner 63 = some 0
    ∧ hears barred 3 0x34 63 [] = true ∧ barred.queueOwner 63 ≠ some 3 ∧ good barred = true
    ∧ barred.ringOwner 31 ≠ some 3 ∧ hears barred 3 0x38 31 [] = true ∧ hears barred 3 0x39 31 [] = true
    ∧ hears barred 3 0x3A 31 [] = true ∧ hears barred 3 0x3B 31 [] = true
    ∧ hears s 0 0x34 (63 + 2 ^ 9) [] = true ∧ hears s 0 0x34 (63 + 2 ^ 31) [] = true ∧ hears s 0 0x34 (63 + 2 ^ 6) [] = true := by
  decide +kernel

/-- Two QUEUED jobs wait beside a GRANTED one. -/
theorem wit_flushQueued :
    let s := withQueue (started [{ openJob with state := .queued, got := 5 }, { openJob with id := 1, state := .queued, got := 5 },
      { openJob with id := 2, state := .granted, got := 5, mask := 0x80 }])
    good s = true ∧ hears s 0 0x34 319 [] = true ∧ s.depth 63 = 2 ∧ (s.abortable 63).length = 1 := by decide +kernel

/-- An entry of one unit. -/
def entry1 : EntryBytes := List.replicate 16 1

/-- Ring 31 with two entries, of which one has been read and marked. -/
def ring2 : State :=
  let s := withQueue (started [])
  { s with rings := s.rings.set 31 { entries := [entry1, entry1], rd := 1, mark := some 1 } }

theorem wit_rings : good ring2 = true ∧ ring2.ringOwner 31 = some 0 ∧ ring2.isOn (R.RES_CFG_EN 31) = true
    ∧ hears ring2 0 0x38 31 [] = true ∧ hears ring2 0 0x38 (31 + 256 * 255) [] = true ∧ hears ring2 0 0x39 31 [] = true
    ∧ hears ring2 0 0x3A 31 [] = true ∧ (ring2.ring 31).mark = some 1 ∧ hears ring2 0 0x3B (31 + 65536) [] = true
    ∧ (ring2.ring 31).rd = 1 ∧ hears ring2 0 0x3B (31 + 2 * 65536) [] = true
    ∧ hears ring2 0 0x38 (31 + 2 ^ 5) [] = true ∧ hears ring2 0 0x39 (31 + 2 ^ 31) [] = true
    ∧ hears ring2 0 0x3B (31 + 2 ^ 15) [] = true ∧ (ring2.wr (R.RES_CFG_EN 31) 0).isOn (R.RES_CFG_EN 31) = false
    ∧ hears (ring2.wr (R.RES_CFG_EN 31) 0) 0 0x38 31 [] = true
    ∧ hears (withQueue (started [])) 0 0x3A 31 [] = true ∧ ((withQueue (started [])).ring 31).mark = none := by decide +kernel

/-- The payload of a TIME_SET. -/
def timeBody (v : BitVec 64) (unc : Word) : List Byte := leBytes 8 v.toNat ++ leBytes 4 unc.toNat ++ [0, 0, 0, 0]

theorem wit_time : let s := started []
    s.canon = true ∧ hears s 0 0x50 0 (timeBody (-1) 0xFFFFFFFF) = true ∧ hears s 0 0x50 1 (timeBody 5 1) = true
    ∧ hears s 0 0x50 2 (timeBody 0 0) = true ∧ hears s 0 0x50 2 (timeBody (-1) 0) = true
    ∧ (s.time.nt.toNat : Int) + (-1 : BitVec 64).toInt < 0 ∧ hears s 0 0x50 3 (timeBody 0 0) = true
    ∧ bodyOf (s.nextFrame 0 0x50 0 (timeBody 5 1)) = timeBody 5 1 := by decide +kernel

/-- An automatic entry waits for agent 4. -/
def entering : State :=
  { (started []) with pwr := { (started []).pwr with entry := some { target := .sleep, drain := true, agent := 4 } } }

theorem wit_power : let s := (started []).wr R.PWR_WAKEEN_PIN 1
    let t := (((started []).wr R.WATCH_CTL_EN 1).wr R.WATCH_CTL_NSTEP 1).modStep 0 fun x => { x with scfg := 0x40 }
    s.canon = true ∧ ([1, 257, 2, 258, 4, 260, 5, 261].all fun a => hears s 0 0x60 a []) = true
    ∧ s.isOn R.PWR_WAKEEN_PIN = true ∧ (s.wr R.PWR_WAKEEN_PIN 0).isOn R.PWR_WAKEEN_PIN = false
    ∧ hears (s.wr R.PWR_WAKEEN_PIN 0) 0 0x60 5 [] = true
    ∧ (started []).watchReady = false ∧ hears (started []) 0 0x60 3 [] = true ∧ hears entering 0 0x60 2 [] = true
    ∧ entering.canon = true ∧ t.watchReady = true ∧ t.canon = true := by decide +kernel

theorem wit_reset : let s := started [codeJob]
    good s = true ∧ hears s 0 0x70 0 [] = true ∧ hears s 0 0x70 1 [] = true ∧ hears s 0 0x70 2 [] = true := by decide +kernel

/-- A flash operation in progress. -/
def erasing : FlashOp := { opc := 1, port := 0, off := 0x1000, left := 1 }

theorem wit_flash : let s := withFlash (started [])
    s.canon = true ∧ hears s 0 0x80 0 [] = true ∧ hears s 0 0x81 4095 [] = true ∧ hears s 0 0x81 (4095 * 4096) [] = true
    ∧ 4096 * (4095 + 1) ≤ s.density ∧ s.flashBarred 0x800000 4096 = false ∧ s.codeLatched 2 (4096 * 4095) 4096 = false
    ∧ hears s 0 0x82 0x800000 [9] = true ∧ s.flashBarred 0x800000 1 = false ∧ hears s 0 0x83 0xFFFFFF (leBytes 4 1) = true
    ∧ hears s 0 0x84 0 [] = true ∧ hears s 0 0x84 1 [] = true ∧ hears s 0 0x86 0 [] = true ∧ hears s 0 0x87 0 [] = true
    ∧ s.isOn R.FLASH_GEOM_SRST = true
    ∧ hears { s with flash := { s.flash with op := some erasing } } 0 0x85 0 [] = true := by decide +kernel

theorem wit_flashEvents : let s := withFlash (started [])
    let op (o : FlashOp) (c : Option (Nat × Nat)) : State := { s with flash := { s.flash with op := some o, cmd := c } }
    ({ State.reset with boot := .flashWait }).canon = true ∧ s.pwr.state = .run ∧ (op erasing none).canon = true
    ∧ (op { erasing with opc := 2, data := [9], left := 1 } none).canon = true ∧ (op erasing none).emu.jwrite = none
    ∧ (op { erasing with busy := true } (some (0x1000, 4096))).canon = true ∧ (op { erasing with left := 0 } none).canon = true
    ∧ (op { erasing with opc := 3 } none).canon = true ∧ bitOf (2 : Byte).toNat 1 = true ∧ bitOf (2 : Byte).toNat 0 = false := by
  decide +kernel

/-! ## Witnesses: writes of registers -/

theorem wit_protWrites : let s := started []
    writable s 0 0x404 0 = true ∧ writable s 0 (R.PROT_PCFG 1) 2 = true ∧ writable s 0 (R.PROT_PCFG 0) 1 = true
    ∧ writable s 0 (R.PROT_PCFG 0) 2 = true ∧ writable s 0 R.PROT_CTL 1 = true ∧ (rowAt (R.PROT_PCFG 3)).isSome = true
    ∧ writable s 0 R.TIME_BEAT (s.fieldWord R.TIME_BEAT_BEAT_US 1000) = true ∧ writable (s.wr R.TIME_CTL_SERVO 0) 0 R.TIME_RATE (BitVec.ofInt 32 (-858993)) = true := by
  decide +kernel

theorem wit_channelWrites : let s := started []
    writable s 0 (R.CH_ANT 7) 15 = true ∧ writable s 0 (R.CH_ANT 0) 0 = true ∧ writable s 0 (R.CH_WSDATA 7) 0xFFFFFFFF = true
    ∧ s.mayReadReg 0 (.ch 7) (R.CH_WSDATA 7) = true ∧ writable s 0 R.SYN_CTL (s.fieldWord R.SYN_CTL_RECAL 1) = true
    ∧ writable s 0 (R.CH_RXIQCAL 7) (s.fieldWord (R.CH_RXIQCAL_IQCAL 7) 1) = true := by decide +kernel

/-- Entry `k` of the tag table stands, of an ISO/IEC 15693 tag. -/
def withEntry (k : Nat) (t : TabEntry) (s : State) : State := s.swrite (32 * k) (t.bytes)

/-- An entry of the sighted tag. -/
def entryOf (locked : Bool) : TabEntry := { valid := true, lock := locked, proto := 2, id := List.replicate 8 7 }

/-- The states of commands of INV_CMD in progress. -/
def commanded (op : BitVec 4) (k : BitVec 14) (s : State) : State := { s with invCmd := some (op, k) }

theorem wit_tableWrites : let s := started []
    ([1, 2, 0x3FFF0002, 3, 0x3FFF0003, 4, 5, 6].all fun w => writable (s.wr R.INV_KEY_2_IDLEN 10) 0 R.INV_CMD w) = true
    ∧ (commanded 1 0 s).canon = true ∧ s.invKeyFind = none ∧ (commanded 2 16383 (withEntry 16383 (entryOf false) s)).canon = true
    ∧ (withEntry 16383 (entryOf false) s).tabValid 16383 = true := by decide +kernel

/-- A sighting waits in the merge queue. -/
def merging (s : State) : State := { s with mergeQ := [seen] }

theorem wit_aged : let s := (withEntry 3 (entryOf false) (started [])).wr R.INV_AGE_AGE 0
    s.canon = true ∧ (s.tab 3).valid = true ∧ (s.tab 3).lock = false
    ∧ 100 * s.rd (if (s.tab 3).volatile then R.INV_AGE_VOL_AGE else R.INV_AGE_AGE) ≤ s.ageOf (s.tab 3) := by decide +kernel

/-- No sequencer is blocked. -/
def quiet (s : State) : Bool := (List.range 8).all fun n => (s.blockOf n).isNone

theorem wit_merge : let s := merging (withEntry 3 (entryOf false) (started [codeJob]))
    s.canon = true ∧ s.mergesWait = false ∧ quiet s = true ∧ s.findTab seen = some 3 ∧ (∀ j ∈ s.jobs, j.late = [])
    ∧ (merging (started [])).findTab seen = none ∧ lowestFree (merging (started [])).tabUsed 0 = 0
    ∧ (merging (withEntry 0 { entryOf false with id := [1] } (started []))).findTab seen = none
    ∧ lowestFree (merging (withEntry 0 { entryOf false with id := [1] } (started []))).tabUsed 0 = 1 := by decide +kernel

theorem wit_mergeReported :
    let s := ({ (withEntry 3 (entryOf false) (started [codeJob])) with mergeQ := [{ seen with asked := true }] } : State).modCh 0 fun c =>
      { c with inv := { c.inv with waiting := true }, seq := { c.seq with run := .blocked (.invs 5) } }
    s.canon = true ∧ s.findTab seen = some 3 ∧ s.leadOfJob 0 = some 0 ∧ seen.cry = none ∧ s.blockOf 0 = some (.invs 5)
    ∧ ((List.range 8).all fun m => m == 0 || (s.blockOf m).isNone) = true := by decide +kernel

/-- A locate of two members whose sighting is merged. -/
def locating : LocReq :=
  { serial := 0, group := 0, job := 0, meas := [(0, 100, 0), (1, 50, 0)], entry := some (some 3), cfg := some (0, 0, 0) }

theorem wit_locate : let s := { (withEntry 3 (entryOf false) (started [])) with locQ := [locating] }
    s.canon = true ∧ quiet s = true ∧ locating.entry.isSome = true
    ∧ ({ s with locQ := [{ locating with entry := none }] }).locAlive 0 = false := by decide +kernel

theorem wit_keyCommands : let s := started []
    ([1, 0x1F01, 2, 0x1F02, 3, 4].all fun w => writable s 0 R.CRY_CMD w) = true
    ∧ ({ s with cry := { s.cry with cmd := some (4, 0) } }).canon = true ∧ s.cry.aes = none
    ∧ ({ s with cry := { s.cry with ecc := some request } }).canon = true ∧ request.dead = false ∧ request.keyIdx = none
    ∧ quiet s = true ∧ s.cry = {} := by decide +kernel

/-- A token of the identity 01 02 03 04 of ISO/IEC 14443 A, encrypted under the key of zeros. -/
def token : List Byte := [0xDB, 0xB5, 0x74, 0xF9, 0xE0, 0x2E, 0x72, 0x77, 0xEA, 0x9E, 0xB5, 0x8F, 0x97, 0x8B, 0xBC, 0x3A]

/-- FIPS 197 encrypts; R165 gives the plaintext. -/
theorem test_token : searchToken token 0 [List.replicate 16 1, List.replicate 16 0]
    = some (1, [1, 2, 3, 4, 0, 0, 0, 0, 0, 0, 0x04, 0, 0, 0xC3, 0x96, 0x3C]) := by decide +kernel

theorem wit_tokens : searchToken token 0 [List.replicate 16 1] = none ∧ (started []).mergeQ.length < 64
    ∧ quiet { (started []) with cry := { aes := some { request with sig := false, held := some seen, data := token } } } = true
    ∧ ({ (started []) with cry := { aes := some { request with sig := false, held := some seen, data := token } } }).canon = true :=
  by decide +kernel

/-- Group 0 is channels 0 and 1. -/
def grouped (s : State) : State := (s.wr (R.SWARM_GCFG_MEMBERS 0) 3).wr (R.SWARM_GCFG_GEN 0) 1

/-- A coupling measurement of the group whose members have all been driven. -/
def measured : Maint := { kind := .coupling 0 7 100, mask := 3, since := 0, running := true }

theorem wit_units : let s := started []
    writable (grouped s) 0 R.SWARM_CMD 0x00640701 = true ∧ (grouped s).isOn (R.SWARM_GCFG_GEN 0) = true
    ∧ 2 ≤ popcount8 ((grouped s).rd (R.SWARM_GCFG_MEMBERS 0)) ∧ writable s 0 R.SWARM_CMD 0x00640731 = true
    ∧ ({ s with maint := [measured] }).canon = true ∧ ({ s with maint := [measured] }).couplingOver measured = true
    ∧ writable s 0 R.CSQ_QID 0x3FF = true ∧ writable s 0 R.CSQ_QPW0 0xFFFFFFFF = true ∧ writable s 0 R.CSQ_QPW1 0 = true
    ∧ writable s 0 R.CSQ_CACHE 1 = true ∧ writable s 0 (R.SCHED_QSTAT 63) (s.fieldWord (R.SCHED_QSTAT_WM_HIT 63) 1) = true
    ∧ writable s 3 (R.BUDG_QUOTA 3) (s.fieldWord (R.BUDG_QUOTA_QUOTA 3) 0) = false
    ∧ writable s 0 (R.BUDG_QUOTA 3) (s.fieldWord (R.BUDG_QUOTA_QUOTA 3) 0x7FFFFFFF) = true := by decide +kernel

/-- One entry of the administrative gate list, of 1 µs, and a cycle of 1,000 µs. -/
def gateList (s : State) : State := ((s.wr R.GATE_ALEN_ALEN 1).wr R.GATE_ACYCLE_ACYCLE 1000).wrWord (R.GATE_ENTRY 0) 1

theorem wit_gate : let s := started []
    writable s 0 R.GATE_CTL (s.fieldWord R.GATE_CTL_SWAP 1) = true ∧ s.gate.chg = none ∧ s.rd R.GATE_ALEN_ALEN = 0
    ∧ (let t := gateList s
       t.canon = true ∧ writable t 0 R.GATE_CTL (t.fieldWord R.GATE_CTL_SWAP 1) = true ∧ t.rd R.GATE_ALEN_ALEN = 1
       ∧ t.rd R.GATE_ACYCLE_ACYCLE = 1000 ∧ getBits (t.rdWord (R.GATE_ENTRY 0)) 0 24 ≠ 0
       ∧ getBits (t.rdWord (R.GATE_ENTRY 0)) 27 5 = 0)
    ∧ writable s 0 R.GATE_CTL (s.fieldWord R.GATE_CTL_CANCEL 1) = true := by decide +kernel

theorem wit_diag : let s := started []
    writable s 0 R.DIAG_CMD 1 = true ∧ writable s 0 R.DIAG_CMD 0xFF02 = true ∧ ({ s with romTest := true }).canon = true
    ∧ ({ s with maint := [{ kind := .chTest, mask := 0x80, since := 0, running := true }] }).canon = true := by decide +kernel

/-! ## Witnesses: mailbox, Firefly, rail, beat and time -/

/-- Listen mode on channel 0. -/
def listening (s : State) : State := (s.wr R.EMU_CTL_CHMASK 1).wr R.EMU_CTL_EN 1

/-- Port 0 has the mailbox open. -/
def wireOpen (s : State) : State := { s with emu := { s.emu with arb := .wireOpen } }

theorem wit_mailbox : let s := started []
    writable s 0 R.EMU_MBCMD 1 = true ∧ s.emu.arb = .free ∧ writable (wireOpen s) 0 R.EMU_MBCMD 2 = true
    ∧ nlenOf (wireOpen s).shadow = 0 ∧ (wireOpen s).emu.ownPort = 0 ∧ writable (wireOpen s) 0 R.EMU_MBCMD 3 = true
    ∧ (let t := wireOpen { s with emu := { s.emu with bank1 := [(0, 0x1F), (1, 0xFF)] } }
       writable t 0 R.EMU_MBCMD 2 = true ∧ nlenOf t.shadow = 8191)
    ∧ writable s 0 R.EMU_MBCMD 4 = true ∧ (wireOpen s).canon = true
    ∧ writable s 0 R.EMU_CTL (s.fieldWord R.EMU_CTL_EN 1) = true ∧ s.isOn R.EMU_CTL_EN = false := by decide +kernel

/-- A record is being written. -/
def jWrite : JWrite := { slot := 3, seq := 1, data := [0, 0], src := true, ntMs := 5 }

theorem wit_journal :
    let s := { ((started []).wr R.EMU_CTL_JEN 1) with emu := { (started []).emu with jpend := true } }
    s.canon = true ∧ s.isOn R.EMU_CTL_JEN = true ∧ s.flash.op = none ∧ s.flash.cmd = none ∧ s.pwr.state = .run
    ∧ s.pwr.domOn.getLsbD 10 = true ∧ s.up = true ∧ nlenOf s.published ≤ 8190
    ∧ (let t := { s with emu := { s.emu with jwrite := some jWrite, jfails := 2 } }
       t.canon = true ∧ ((List.range 32).all fun i => t.fb (slotBase 3 + i) == 0xFF) = true) := by decide +kernel

/-- Firefly runs one step with a baseline, in WATCH. -/
def watching : State :=
  let s := (((started []).wr R.WATCH_CTL_EN 1).wr R.WATCH_CTL_NSTEP 1).modStep 0 fun w => { w with scfg := 0x00000140, sbase := 100, exceed := 63 }
  { s with pwr := { s.pwr with state := .watch } }

theorem wit_watch : let s := started []
    writable s 0 R.WATCH_SBASE 0xFFFFFFFF = true ∧ writable s 0 R.WATCH_CMD 0x3F0101 = true ∧ writable s 0 R.WATCH_CMD 1 = true
    ∧ writable s 0 R.WATCH_CMD 0x3F0102 = true ∧ watching.canon = true ∧ watching.up = true
    ∧ normSq (vecOf (watching.wstep 0).sbase) ≠ 0 ∧ vecOf (wordOf (32767, -32768)) = (32767, -32768)
    ∧ exceeds (watching.wstep 0).scfg (32767, -32768) (vecOf (watching.wstep 0).sbase) false = true
    ∧ watching.rd R.WATCH_CTL_CONFIRM ≤ (watching.wstep 0).exceed + 1 := by decide +kernel

/-- The rail controller is in a state, with 5,000 mV commanded. -/
def railIn (x : PmbState) (reads : Nat) : State := { (started []) with pmb := { state := x, cmd := 5000, reads := reads } }

theorem wit_rail :
    (railIn .ton 0).canon = true ∧ bitsOf (0x1F : Byte).toNat 5 3 = 0 ∧ bitsOf (0x20 : Byte).toNat 5 3 ≠ 0
    ∧ (railIn .change 2).canon = true ∧ mantissaMv 5 0 = 5000 ∧ mantissaMv 0 0 = 0
    ∧ (railIn .change 2).railDemand ≤ 5000 ∧ ({ (railIn .change 0) with pmb := { (railIn .change 0).pmb with cmd := 1000 } }).railDemand = 5000
    ∧ 0 < (railIn .ready 0).rd R.PMB_CTL_RETRY ∧ (0x0004 : BitVec 16) &&& 0x087C ≠ 0 ∧ (0x0002 : BitVec 16) &&& 0x087C = 0
    ∧ writable (railIn .fault 0) 0 R.PMB_CMD 1 = true
    ∧ ({ (started []) with pmb := { holdLow := true } }).canon = true := by decide +kernel

theorem wit_rawAccess :
    ([0x8B02, 0x8B03, 0xFFFF8B04, 0xFFFF8B05, 0x8B06].all fun w => writable (railIn .ready 0) 0 R.PMB_CMD w) = true
    ∧ rawBarred 0x8B = false ∧ rawBarred 0x21 = true ∧ (railIn .ready 0).pmb.raw = none
    ∧ writable (railIn .ready 0) 0 R.PMB_CMD 0x2105 = true ∧ ({ (started []) with pmb := { raw := some { op := 2, code := 0x8B, pec := false } } }).canon = true := by
  decide +kernel

theorem wit_boundary : let s := started []
    s.jobsOk = true ∧ s.rd R.TIME_BEAT_BEAT_US ≠ 0 ∧
    s.canon = true ∧ s.atBeat 1000000 = true ∧ s.time.minNt ≤ 1000000 ∧ s.locked = true
    ∧ (let t := { (unlocked s) with time := { s.time with minNt := 1000001 } }
       t.canon = true ∧ t.atBeat 1000000 = true ∧ t.pwr.preBoundary = true ∧ t.locked = false)
    ∧ s.rd R.DIAG_CNT_0_N_BKOVR < 65535
    ∧ (let t := started [{ openJob with state := .queued, got := 5, holdNs := 10 ^ 15 }]
       good t = true ∧ t.atBeat 1000000 = true ∧ t.headOf 63 = some { openJob with state := .queued, got := 5, holdNs := 10 ^ 15 }
         ∧ t.heldOut { openJob with state := .queued, got := 5, holdNs := 10 ^ 15 } = true) := by decide +kernel

/-- Network time, changed by `g`. -/
def timed (g : TimeSt → TimeSt) : State := { (started []) with time := g (started []).time }

theorem wit_synci :
    (timed fun t => { t with armed := some (5, 0xFFFFFFFF) }).canon = true ∧ (started []).ntRuns = true
    ∧ (let s := timed fun t => { t with q := .track, unc := 0 }
       s.canon = true ∧ s.isOn R.TIME_CTL_SERVO = true ∧ s.isOn R.SYN_CTL_DISC = false
       ∧ (let P : Int := s.rd R.TIME_SYNC_SYNC_PER_MS * 1000000
          ((10 ^ 9 + 7 : Nat) : Int) - s.rdS R.TIME_SYNCDLY_SYNCI_DLY_NS = (10 ^ 9 / P) * P + 7
          ∧ 2 * (s.rd R.TIME_SYNC_CAPT_NS + s.time.unc) < P ∧ 7 ≤ s.rd R.TIME_SYNC_CAPT_NS + s.time.unc
          ∧ 7 < s.rd R.TIME_STEP_STEP_NS)) := by decide +kernel

/-- An edge that steps NT, two that are outside the capture range, and an ambiguous one. -/
theorem wit_servoEdges :
    (let s := (timed fun t => { t with q := .track, unc := 10 ^ 8 }).wr R.TIME_STEP_STEP_NS 1000
     s.canon = true ∧ s.rd R.TIME_STEP_STEP_NS ≤ 10 ^ 6 ∧ 2 * (s.rd R.TIME_SYNC_CAPT_NS + 10 ^ 8) < s.rd R.TIME_SYNC_SYNC_PER_MS * 1000000
       ∧ 10 ^ 6 ≤ s.rd R.TIME_SYNC_CAPT_NS + 10 ^ 8)
    ∧ (let s := timed fun t => { t with q := .track, unc := 0, rejects := 2 }
       s.canon = true ∧ s.rd R.TIME_SYNC_CAPT_NS + 0 < 10 ^ 8)
    ∧ (timed fun t => { t with q := .slept, unc := 0xFFFFFFFF }).canon = true
    ∧ (started []).isOn R.TIME_CTL_SERVO = true ∧ (started []).time.q = .free := by decide +kernel

theorem wit_timeEvents :
    (timed fun t => { t with slew := 5 }).canon = true ∧ (timed fun t => { t with slew := 5 }).isOn R.TIME_CTL_SERVO = true
    ∧ (timed fun t => { t with q := .track }).canon = true ∧ (timed fun t => { t with q := .holdover }).canon = true
    ∧ (let s := (timed fun t => { t with q := .set }).wr R.TIME_CTL_SYNCO_EN 1
       s.canon = true ∧ s.isOn R.TIME_CTL_SYNCO_EN = true ∧ 10 ^ 9 % (s.rd R.TIME_SYNC_SYNC_PER_MS * 1000000) = 0)
    ∧ (started []).isOn R.TIME_LPO_SRC = false ∧ ((started []).wr R.TIME_LPO_SRC 1).isOn R.TIME_LPO_SRC = true
    ∧ (started []).gate.chg = none
    ∧ (let s := gateList (started []); { s with gate := { s.gate with chg := some 5 } }.canon = true)
    ∧ (timed fun t => { t with frozen := true, rcUsed := true }).canon = true
    ∧ (timed fun t => { t with frozen := true, q := .set }).canon = true := by decide +kernel

/-! ## Witnesses: cards and power -/

/-- The card of channel 0 in a state, with a UID of 7 or 4 bytes. -/
def card (x : CardState) (uid : List Byte) (f : Option T4File) (app : Bool) : State :=
  (listening (started [])).modCard 0 fun c => { c with state := x, field := true, uid := uid, file := f, app := app }

theorem wit_cardEvents : let s := listening (started [])
    s.listens 0 = true ∧ s.isOn R.EMU_CTL_EN = true ∧ s.jobHolds 0 = false ∧ s.maintHolds 0 = false ∧ s.cardState 0 = .off
    ∧ s.up = true ∧ s.canon = true ∧ (card .idle [1, 2, 3, 4] none false).listenHolds 0 = true
    ∧ (started []).cardHears 0 = false
    ∧ (let t := { s with pwr := { s.pwr with state := .sleep } }.wr R.PWR_WAKEEN_EMU 1
       t.canon = true ∧ t.cardState 0 = .off ∧ t.pwr.state.low = true ∧ t.isOn R.PWR_WAKEEN_EMU = true) := by decide +kernel

theorem wit_cards : ([CardState.idle, .ready, .active, .halt, .protocol].all fun x =>
      (card x [1, 2, 3, 4] none false).canon && (card x [1, 2, 3, 4] none false).cardHears 0
        && (card x [1, 2, 3, 4] none false).cardState 0 == x && (card x [1, 2, 3, 4] none false).listenOpen) = true
    ∧ levelUid [1, 2, 3, 4] 0x93 = some [1, 2, 3, 4] ∧ levelUid [1, 2, 3, 4, 5, 6, 7] 0x93 = some [0x88, 1, 2, 3]
    ∧ levelUid [1, 2, 3, 4, 5, 6, 7] 0x95 = some [4, 5, 6, 7] ∧ (levelBits [1, 2, 3, 4]).length = 40
    ∧ (0 : BitVec 2).toNat ≤ (card .protocol [1, 2, 3, 4] none false).rd R.EMU_CTL_MAXRATE := by decide +kernel

theorem wit_listenGate :
    let s := { (card .idle [1, 2, 3, 4] none false) with gate := { en := true, cycle := 1000, list := [(1000, 0)] } }
    s.canon = true ∧ s.cardHears 0 = true ∧ s.listenOpen = false := by decide +kernel

theorem wit_phone :
    ([none, some T4File.cc, some .sig, some .ndef].all fun f =>
      (card .protocol [1] f true).canon && (card .protocol [1] f true).cardHears 0) = true
    ∧ (card .protocol [1] none false).cardHears 0 = true ∧ (card .protocol [1] none true).rd R.EMU_FID_NFID ≠ 0xE103
    ∧ (card .protocol [1] none true).isOn R.EMU_CTL_FWP = false
    ∧ ((card .protocol [1] none true).wr R.EMU_CTL_FWP 1).isOn R.EMU_CTL_FWP = true
    ∧ (let s := ((card .protocol [1] none true).wr R.EMU_CTL_UIDMODE 1).wr R.EMU_CTL_SIGF 1
       s.canon = true ∧ s.rd R.EMU_FID_SFID ≠ 0xE103 ∧ s.rd R.EMU_FID_SFID ≠ s.rd R.EMU_FID_NFID ∧ s.isOn R.EMU_CTL_SIGF = true)
    ∧ (wireOpen (card .protocol [1] (some .ndef) true)).emu.arb ≠ .free := by decide +kernel

/-- The bytes of chained blocks and of the last one are a whole C-APDU. -/
theorem wit_chained :
    ([[0x00, 0xD6], [0x00, 0xB0, 0x00, 0x00], [0x00, 0xA4, 0x04, 0x00, 0x07], List.replicate 262 0].all fun l =>
      let s := (card .protocol [1] (some .ndef) true).modCard 0 fun c => { c with chain := l }
      s.canon && s.cardHears 0 && s.cardState 0 == .protocol) = true
    ∧ [0x00, 0xD6] ++ [0x00, 0x02, 0x01, 0x09] = [0x00, 0xD6] ++ beBytes 2 (2 : BitVec 16).toNat ++ [(1 : Byte)] ++ [9] := by
  decide +kernel

theorem wit_update : let old := (started []).published
    nlenOf (Memory.setBytes old 0 [0x1F, 0xFF]) = 8191 ∧ nlenOf (Memory.setBytes old 0 [0x1F, 0xFE]) = 8190
    ∧ nlenOf (Memory.setBytes old 0 [0, 0]) = 0 ∧ nlenOf (Memory.setBytes old 2 [9]) = 0 := by decide +kernel

theorem wit_autoEntry : let s := ((started []).wr R.PWR_CTL_AUTO_EN 1).wr R.PWR_CTL_AUTO_STATE 2
    s.canon = true ∧ s.isOn R.PWR_CTL_AUTO_EN = true ∧ s.quiescent = true ∧ pwrOf (s.rd R.PWR_CTL_AUTO_STATE) = some .sleep
    ∧ s.up = true ∧ s.pwr.waking = false ∧ s.pwr.entry = none ∧ (started []).watchReady = false
    ∧ pwrOf 3 = some .watch := by decide +kernel

/-- An entry is latched with a wake event. -/
def latched (x : PwrState) (l : List WakeEv) : State :=
  { (started []) with pwr := { (started []).pwr with entry := some { target := x, drain := false, agent := 11, latched := l } } }

theorem wit_entries :
    ([PwrState.idle, .sleep, .watch, .deep, .off].all fun x => (latched x []).canon && (latched x [.pin]).canon) = true
    ∧ ((agentsOf .sleep).filter fun k => decide (11 ≤ k)) = [11] ∧ entering.canon = true := by decide +kernel

theorem wit_wake : ([PwrState.sleep, .watch, .deep, .idle, .run].all fun x =>
      ({ (started []) with pwr := { (started []).pwr with state := x } }).canon) = true
    ∧ (started []).isOn R.PWR_WAKEEN_PIN = true ∧ (true != (started []).isOn R.PWR_WAKEEN_PIN_POL) = true
    ∧ ((started []).wr R.PWR_TIMER_TIMER_MS 1).rd R.PWR_TIMER_TIMER_MS = 1
    ∧ ({ (started []) with pwr := { (started []).pwr with waking := true, todo := [11, 10, 0], xtal := false } }).canon = true := by
  decide +kernel

theorem wit_guards : let s := started []
    s.canon = true ∧ ({ s with pwr := { s.pwr with state := .off } }).canon = true ∧ s.vinOk = true
    ∧ (125 * 16 : Int) < s.limS R.BUDG_TLIM_1_TJ_SHUT ∧ s.limS R.BUDG_TLIM_0_TJ_HARD ≤ 125 * 16
    ∧ (25 * 16 : Int) < s.limS R.BUDG_TLIM_0_TJ_HARD ∧ ({ s with thermHold := true }).canon = true
    ∧ s.tDie < s.limS R.BUDG_TLIM_1_TJ_SHUT - 320 ∧ s.pwr.state.low = false
    ∧ (started [codeJob, { openJob with id := 1, state := .granted, mask := 0x80 }, { openJob with id := 2, state := .queued }]).jobsOk = true
    := by decide +kernel

/-- Maintenance that has waited too long. -/
def waited (k : MaintKind) : State :=
  { (started []) with maint := [{ kind := k, mask := 1, since := 0 }], time := { (started []).time with nt := 0x0FFFFFFFFFFFFFFF } }

theorem wit_maintenance :
    (waited .recal).canon = true ∧ (waited .recal).overdue { kind := .recal, mask := 1, since := 0 } = true
    ∧ MaintKind.recal.isSynth = true ∧ (waited .recal).locked = true ∧ (waited .recal).drain = none
    ∧ (waited .imageCal).overdue { kind := .imageCal, mask := 1, since := 0 } = true ∧ MaintKind.imageCal.isSynth = false
    ∧ (waited .imageCal).claimOf 0 = none
    ∧ (let s := { (waited .recal) with drain := some 0 }
       s.canon = true ∧ s.synthDue = true ∧ s.rd R.TIME_MAXEX_MAX_EXCH_US * 1000 ≤ (s.time.nt - 0).toNat) := by decide +kernel

/-! ## Witnesses: steps and codes -/

/-- A queue of two commands. -/
def withQueue2 : State := { (started [codeJob]) with pending := [.por, .synciEdge 5 0] }

/-- What waits after a step. -/
def nextPending : Host.Outcome State Fault Refusal → Option (List Instr)
  | .next t => some t.pending
  | .fault _ | .refused _ => none

theorem wit_step : withQueue2.canon = true ∧ withQueue2.jobsOk = true ∧ nextPending (step withQueue2) = some [.synciEdge 5 0] := by decide +kernel

/-! ## A full table (R140) -/

/-- Entries from index `k` on, `n` of them, each VALID and LOCK and else zero. -/
def fullFrom : Nat → Nat → Memory
  | _, 0 => []
  | k, n + 1 => (32 * k + 11, 0x81) :: fullFrom (k + 1) n

theorem fullFrom_wf : ∀ n k lo, lo ≤ 32 * k + 11 → swfFrom sramDefault lo (fullFrom k n) = true
  | 0, _, _, _ => rfl
  | n + 1, k, lo, h => by
    simp only [fullFrom, swfFrom, Bool.and_eq_true, decide_eq_true_eq]
    exact ⟨⟨h, by simp [sramDefault]⟩, fullFrom_wf n (k + 1) _ (by omega)⟩

theorem fullFrom_flag : ∀ n k i, k ≤ i → i < k + n → Memory.byte (fullFrom k n) (32 * i + 11) = 0x81
  | 0, k, i, h, h' => by omega
  | n + 1, k, i, h, h' => by
    by_cases e : k = i
    · subst e; simp [Memory.byte, fullFrom, sget]
    · have hk : ¬ 32 * k + 11 = 32 * i + 11 := by omega
      have ih := fullFrom_flag n (k + 1) i (by omega) (by omega)
      simp only [Memory.byte, fullFrom, sget, hk, if_false] at ih ⊢
      exact ih

theorem fullFrom_zero : ∀ n k a, a % 32 ≠ 11 → Memory.byte (fullFrom k n) a = 0
  | 0, _, _, _ => rfl
  | n + 1, k, a, h => by
    have hk : ¬ 32 * k + 11 = a := by omega
    have ih := fullFrom_zero n (k + 1) a h
    simp only [Memory.byte, fullFrom, sget, hk, if_false] at ih ⊢
    exact ih

theorem fullFrom_used : ∀ n k, k + n ≤ tableSize →
    ((fullFrom k n).filter fun c => decide (c.1 < 32 * tableSize) && c.1 % 32 == 11 && bitOf c.2.toNat 0).map (fun c => c.1 / 32)
      = List.range' k n
  | 0, _, _ => rfl
  | n + 1, k, h => by
    have h1 : 32 * k + 11 < 32 * tableSize := by omega
    have h2 : (32 * k + 11) % 32 = 11 := by omega
    have h3 : (32 * k + 11) / 32 = k := by omega
    have ih := fullFrom_used n (k + 1) (by omega)
    simp only [fullFrom, List.filter_cons, h1, h2, List.range'_succ]
    simp only [decide_true, beq_self_eq_true, Bool.true_and]
    rw [if_pos (by decide), List.map_cons, h3, ih]

theorem lowestFree_range' : ∀ n k, lowestFree (List.range' k n) k = k + n
  | 0, _ => rfl
  | n + 1, k => by
    simp only [List.range'_succ, lowestFree, if_true]
    rw [lowestFree_range' n (k + 1)]; omega

/-- Where the first `n` entries are in use and locked and the others are not, they are the ones in use, and no entry can
make room for an identity that is not zero. -/
theorem full_of (s : State) (n : Nat) (hn : n ≤ tableSize) (hs : s.sram = fullFrom 0 n) (x : Sighting) (hx : x.proto ≠ 0) :
    s.tabUsed = List.range' 0 n ∧ s.findTab x = none ∧ s.victim = none := by
  have hu : s.tabUsed = List.range' 0 n := by
    rw [State.tabUsed, hs]; exact fullFrom_used n 0 (by omega)
  have hl : ∀ i, i < n → (s.tab i).lock = true := fun i hi => by
    have h : s.sb (32 * i + 11) = 0x81 := by rw [State.sb, hs]; exact fullFrom_flag n 0 i (Nat.zero_le i) (by omega)
    simp only [State.tab, h]; decide
  have hp : ∀ i, (s.tab i).proto = 0 := fun i => by
    have h : s.sb (32 * i + 10) = 0 := by rw [State.sb, hs]; exact fullFrom_zero n 0 _ (by omega)
    simp only [State.tab, h]; decide
  have hv : s.tabUsed.filter (fun i => !(s.tab i).lock && s.chans.toList.all fun c => !c.inv.sighted.contains i) = [] := by
    rw [List.filter_eq_nil_iff]
    intro i hi
    rw [hu, List.mem_range'] at hi
    obtain ⟨k, hk, rfl⟩ := hi
    simp [hl k hk]
  refine ⟨hu, ?_, ?_⟩
  · rw [State.findTab, List.find?_eq_none]
    intro i _
    have : ¬ 0 = x.proto.toNat := fun h => hx (BitVec.eq_of_toNat_eq (by rw [← h]; rfl))
    simp [sameIdentity, hp, this]
  · simp only [State.victim, hv, List.filter_nil, State.oldest]

theorem canon_sram (s : State) (m : Memory) (h : s.canon = true) (h' : Memory.wf m = true) : { s with sram := m }.canon = true := by
  simp only [State.canon, Bool.and_eq_true] at h ⊢
  exact ⟨⟨⟨⟨⟨⟨⟨h.1.1.1.1.1.1.1, h'⟩, h.1.1.1.1.1.2⟩, h.1.1.1.1.2⟩, h.1.1.1.2⟩, h.1.1.2⟩, h.1.2⟩, h.2⟩

theorem wit_mergeFull : ∃ s : State, s.canon = true ∧ s.mergeQ = [seen] ∧ s.mergesWait = false ∧ s.findTab seen = none
    ∧ tableSize ≤ lowestFree s.tabUsed 0 ∧ s.victim = none := by
  have hc : (merging (started [])).canon = true := by decide +kernel
  have hw : (merging (started [])).mergesWait = false := by decide +kernel
  obtain ⟨s, hs, hq, hw, hc⟩ : ∃ s : State, s.sram = fullFrom 0 tableSize ∧ s.mergeQ = [seen] ∧ s.mergesWait = false
      ∧ s.canon = true :=
    ⟨{ merging (started []) with sram := fullFrom 0 tableSize }, rfl, rfl, hw,
      canon_sram _ _ hc (fullFrom_wf tableSize 0 0 (Nat.zero_le _))⟩
  obtain ⟨hu, hf, hv⟩ := full_of s tableSize (Nat.le_refl _) hs seen (by decide)
  exact ⟨s, hc, hq, hw, hf, by rw [hu, lowestFree_range']; exact Nat.le_add_left _ _, hv⟩

/-! ## An eviction (R140) -/

/-- A full table: every entry is VALID and LOCK, but for the first, which is VALID alone. -/
def oneOpen : Memory := (11, 0x01) :: fullFrom 1 (tableSize - 1)

theorem oneOpen_wf : Memory.wf oneOpen = true := by
  simp only [Memory.wf, swf, oneOpen, swfFrom, Bool.and_eq_true, decide_eq_true_eq]
  exact ⟨⟨Nat.zero_le _, by simp [sramDefault]⟩, fullFrom_wf _ 1 _ (by omega)⟩

theorem oneOpen_byte (a : Nat) (h : a ≠ 11) : Memory.byte oneOpen a = Memory.byte (fullFrom 1 (tableSize - 1)) a := by
  simp [Memory.byte, oneOpen, sget, Ne.symm h]

/-- In a state with that table, no room is free, no entry has the identity, and the first entry is the only one that may go. -/
theorem oneOpen_of (s : State) (hs : s.sram = oneOpen) (x : Sighting) (hx : x.proto ≠ 0) :
    s.tabUsed = List.range' 0 tableSize ∧ s.findTab x = none ∧ s.tabValid 0 = true ∧ (s.tab 0).lock = false
    ∧ (s.tab 0).volatile = false ∧ ∀ m, m < tableSize → (s.tab m).lock = false → m = 0 := by
  have hb : ∀ a, a ≠ 11 → s.sb a = Memory.byte (fullFrom 1 (tableSize - 1)) a := fun a h => by
    rw [State.sb, hs]; exact oneOpen_byte a h
  have h0 : s.sb 11 = 0x01 := by rw [State.sb, hs]; rfl
  have hp : ∀ i, (s.tab i).proto = 0 := fun i => by
    have h : s.sb (32 * i + 10) = 0 := by rw [hb _ (by omega)]; exact fullFrom_zero _ _ _ (by omega)
    simp only [State.tab, h]; decide
  refine ⟨?_, ?_, ?_, ?_, ?_, ?_⟩
  · rw [State.tabUsed, hs, oneOpen]
    have := fullFrom_used (tableSize - 1) 1 (by decide)
    rw [List.filter_cons, if_pos (by decide), List.map_cons, this]
    rfl
  · rw [State.findTab, List.find?_eq_none]
    intro i _
    have : ¬ 0 = x.proto.toNat := fun h => hx (BitVec.eq_of_toNat_eq (by rw [← h]; rfl))
    simp [sameIdentity, hp, this]
  · simp only [State.tabValid, Nat.mul_zero, Nat.zero_add, h0]; decide
  · simp only [State.tab, Nat.mul_zero, Nat.zero_add, h0]; decide
  · simp only [State.tab, Nat.mul_zero, Nat.zero_add, h0]; decide
  · intro m hm hl
    by_cases e : m = 0
    · exact e
    · have h : s.sb (32 * m + 11) = 0x81 := by
        rw [hb _ (by omega)]; exact fullFrom_flag _ 1 m (by omega) (by omega)
      simp only [State.tab, h] at hl
      exact absurd hl (by decide)

theorem wit_evicts : ∃ s : State, s.canon = true ∧ s.mergeQ = [seen] ∧ s.mergesWait = false ∧ s.findTab seen = none
    ∧ tableSize ≤ lowestFree s.tabUsed 0 ∧ s.tabValid 0 = true ∧ (s.tab 0).lock = false ∧ (∀ n : Ch, 0 ∉ (s.ch n.val).inv.sighted)
    ∧ ∀ m, m < tableSize → (s.tab m).lock = false → m = 0 := by
  have hc : (merging (started [])).canon = true := by decide +kernel
  have hw : (merging (started [])).mergesWait = false := by decide +kernel
  have hi : ∀ n : Ch, 0 ∉ ((merging (started [])).ch n.val).inv.sighted := by decide +kernel
  obtain ⟨s, hs, hq, hw, hc, hi⟩ : ∃ s : State, s.sram = oneOpen ∧ s.mergeQ = [seen] ∧ s.mergesWait = false ∧ s.canon = true
      ∧ ∀ n : Ch, 0 ∉ (s.ch n.val).inv.sighted :=
    ⟨{ merging (started []) with sram := oneOpen }, rfl, rfl, hw, canon_sram _ _ hc oneOpen_wf, hi⟩
  obtain ⟨hu, hf, hv, hl, -, hm⟩ := oneOpen_of s hs seen (by decide)
  exact ⟨s, hc, hq, hw, hf, by rw [hu, lowestFree_range']; exact Nat.le_add_left _ _, hv, hl, hi, hm⟩

/-! ## Witnesses: waits, colours, discovery and heads -/

theorem wit_resume :
    (∀ m ∈ maskList waitingJob.mask, ((started [waitingJob]).advanceTo 5000).remaining waitingJob.cls m.val 5000 = none)
    ∧ ((started [waitingJob]).advanceTo 5000).drain = none ∧ ((draining (started [waitingJob])).advanceTo 5000).drain = some 0
    ∧ (draining (started [waitingJob])).canon = true ∧ ((draining (started [waitingJob])).advanceTo 5000).jobOn 0 = some waitingJob
    ∧ ((started [waitingJob]).advanceTo 5000).job? 0 = some waitingJob ∧ waitingJob.ended = none
    ∧ ((started [waitingJob]).advanceTo 5000).team 0 = [0] := by decide +kernel

/-- The field of channel 0 comes up for a frame that waits. -/
def resumed : State :=
  ((started [waitingJob]).modCh 0 fun c => { withField .ramp c with
    txReq := some { bytes := [1], bits := 8, fifo := 0, engine := false, cont := false, gate := true }
    seq := { c.seq with run := .blocked (.tx none) } }).wr (R.CH_TXCTL_CC_AUTO 0) 0

theorem wit_resumedFrame : ([resumed, draining resumed].all fun s => s.canon && decide (s.jobLead 0 = some waitingJob)
      && decide (s.jobOn 0 = some waitingJob) && decide (s.job? 0 = some waitingJob) && decide (s.couplingOn 0 = none)
      && s.team 0 == [0] && !s.isOn (R.CH_TXCTL_CC_AUTO 0) && decide ((s.ch 0).win = none)
      && decide (s.remaining waitingJob.cls 0 s.time.nt.toNat = none)) = true
    ∧ resumed.drain = none ∧ waitingJob.marked = none ∧ (resumed.ch 0).settleTicks = 0 := by decide +kernel

/-- A job that is to stop sends. -/
theorem wit_transmitStops :
    Executes (withCode 0xB044 ((runningJob stoppedJob).modCh 0 (sending 0 0 0 7 1))) 0 0xB044 stoppedJob
    ∧ ((runningJob stoppedJob).modCh 0 (sending 0 0 0 7 1)).teamAll 0
      (fun _ c => c.field == .on && !c.calib && c.settleTicks == 0 && !c.wantOff) = true := by
  refine ⟨⟨by decide +kernel, by decide +kernel, by decide +kernel, by decide +kernel, by decide +kernel, by decide +kernel⟩,
    by decide +kernel⟩

/-- The engine is at a point of an inventory, and the field is ON. -/
def engineAt (p : InvPhase) (cfg : Word) (l : List Sighting) : Chan → Chan := fun c =>
  { withField .on c with inv := { c.inv with phase := p, cfg := cfg, found := l } }

theorem wit_engine :
    (([engineAt .start 0 [], engineAt .start 4 [], engineAt .aSighted 0 [], engineAt .vReport 0x12 [seen], engineAt .vReport 2 [seen],
        engineAt .vReport 2 [], engineAt .round 2 []] : List (Chan → Chan)).all fun g => ready (running g) && ready (draining (running g))
      && (running g).teamAll 0 (fun _ c => c.field == .on && !c.calib && c.settleTicks == 0 && !c.wantOff)
      && decide (((running g).ch 0).inv.held = none)) = true
    ∧ codeJob.late = [] ∧ codeJob.marked = none ∧ (running (engineAt .start 0 [])).exchangeFits codeJob 0 = true
    ∧ (draining (running (engineAt .start 0 []))).exchangeFits codeJob 0 = false
    ∧ ((running (engineAt .aSighted 0 [])).ch 0).inv.ctl.getLsbD 2 = false := by decide +kernel

theorem wit_windowClose : let s (off : Bool) := receiving { window with done := true } .run |>.modCh 0 fun c => { c with wantOff := off }
    ([true, false].all fun b => calm (s b) && !(s b).keepsExch 0 && decide ((s b).jobLead 0 = some codeJob)
      && decide (((s b).ch 0).txReq = none)) = true ∧ codeJob.marked = none := by decide +kernel

theorem wit_switchIdle : let s := { (plain fun c => { c with antShift := true }) with
      syn := { state := .locked, shift := some 0x0000000F } }
    s.canon = true ∧ ((List.range 8).all fun m => decide (s.couplingOn m = none) && decide ((s.ch m).seq.run = .idle)
      && (!(s.ch m).antShift || (s.ch m).field == .off && !(s.ch m).wantOn)) = true := by decide +kernel

/-- Port 0 is policed, with these tokens. -/
def tokens (tc tp : Nat) : State := policed.modPt 0 fun t => { t with tc := tc, tp := tp }

theorem wit_submitColours :
    ([(25, 25), (24, 25), (24, 24)].all fun x => let s := tokens x.1 x.2
      good s && accepts s 0x30 (tagged s 0 0x30 0x20 319 (descOf 0)) && decide (s.depth 63 = 0)) = true
    ∧ (tokens 24 25).isOn (R.BUDG_PCFG_CAWARE 0) = false ∧ (tokens 24 25).isOn (R.BUDG_PCFG_PEN 0) = true
    ∧ 0 < (tokens 24 25).rd (R.SCHED_QWM_YDEPTH 63) ∧ (itemJob 0).cost = 25
    ∧ (let s := (tokens 24 25).wr (R.SCHED_QWM_YDEPTH 63) 0
       good s = true ∧ accepts s 0x30 (tagged s 0 0x30 0x20 319 (descOf 0)) = true ∧ s.rd (R.SCHED_QWM_YDEPTH 63) = 0) := by
  decide +kernel

theorem headersSafe_idle (s : State) (h : s.flash.cmd = none) : headersSafe s := fun off n h' => by
  rw [h] at h'; cases h'

theorem wit_headersSafe : headersSafe (started [codeJob]) := headersSafe_idle _ (by decide +kernel)

/-- What discovery finds in a flash of 1 MiB, and in one of which it can use nothing. -/
def disc (ok : Bool) : FlashDisc :=
  { jedec := 0xEF4014, sfdp := ok, addr4 := false, densLog2 := 20, pageLog2 := some 8, erase4k := some 0x20, srst := true }

theorem wit_discovery : let s := { State.reset with boot := .flashWait }
    s.canon = true ∧ s.thermHold = false ∧ s.bootDisc = none ∧ s.flash.cmd = none
    ∧ ({ s with flash := { s.flash with cmd := some (0, 4096) } }).canon = true
    ∧ (disc true).erase4k.isSome = true := by decide +kernel

/-- A write of two runs of a port waits at the flash window. -/
def winWrite : WinWrite := { port := 0, runs := [⟨0, 0x1000, [1, 2]⟩, ⟨2, 0x2000, [3, 4]⟩], ref := none }

theorem wit_flashWaits : let s := withFlash (started [])
    let t := { s with flash := { s.flash with win := some winWrite } }.wr R.EMU_CTL_JEN 0
    t.canon = true ∧ t.bootDisc = none ∧ t.flash.filling = none ∧ t.emu.jwrite = none ∧ t.isOn R.EMU_CTL_JEN = false
    ∧ (let u := { (t.wr R.EMU_CTL_JEN 1) with emu := { t.emu with jpend := true } }
       u.canon = true ∧ u.isOn R.EMU_CTL_JEN = true ∧ u.emu.jstop = false ∧ u.pwr.state = .run ∧ u.pwr.domOn.getLsbD 10 = true
       ∧ u.up = true)
    ∧ (let u := { s with flash := { s.flash with op := some { erasing with busy := true }, cmd := some (0x1000, 4096) } }
       u.canon = true ∧ u.rd R.FLASH_TMO_SE_MAX_MS ≤ 10 ^ 6 ∧ u.rd R.FLASH_TMO_PP_MAX_MS ≤ 10 ^ 6)
    ∧ bitOf (3 : Byte).toNat 0 = true := by decide +kernel

theorem wit_cacheWaits : let s := (started [flashJob]).modCh 0 (withSeq fun q => { q with run := .run, pc := 7 })
    let t := { s with flash := { s.flash with cmd := some (0x1000, 4096) } }
    t.canon = true ∧ t.runsOn 0 = some flashJob ∧ t.flash.filling = none ∧ t.flash.fills = [] := by decide +kernel

theorem wit_mailboxWindow : let s := started []
    s.flash.win = none ∧ s.flash.fills = [] ∧ s.flash.filling = none ∧ s.emu.jstop = false := by decide +kernel

theorem wit_watchPing : (watching.wstep 0).capture = false ∧ (watching.wstep 0).capPing = false ∧ (watching.wstep 0).now = false
    ∧ watching.pwr.entry = none := by decide +kernel

/-- A card that goes on at the rate it has. -/
theorem wit_cardRates : (card .protocol [1, 2, 3, 4] none false).rd R.EMU_CTL_MAXRATE = 2
    ∧ ((card .protocol [1, 2, 3, 4] none false).modCard 0 fun c => { c with rate := 2 }).canon = true := by decide +kernel

theorem wit_domains : let s := { (started []) with pwr := { (started []).pwr with waking := true, todo := [11, 10, 0] } }
    s.canon = true ∧ s.pmb.mode = none ∧ ((List.range 4).all fun q => (s.pt q).held.isEmpty && decide ((s.pt q).heldWrite = none)) = true := by
  decide +kernel

theorem wit_resets : (started []).pwr.state ≠ .off ∧ (started []).vinOk = true ∧ (started []).flash.cmd = none
    ∧ ({ (started []) with vinOk := false }).canon = true ∧ (started []).boot ≠ .held ∧ (started []).boot ≠ .crystal
    ∧ ({ (started []) with pwr := { (started []).pwr with state := .sleep } }).pwr.state.low = true := by decide +kernel

/-! ## The beat: heads, posted jobs, gates -/

/-- A job of a routine of the store, 0x140, on channel 7: the words of its descriptor, queued. -/
def headJob (w0 : Word) : Job :=
  { id := 0, port := 0, queue := 63, state := .queued, desc := [w0, 500, 0, 31, 0, 0, 0, 0], units := 1, cost := 500 }

/-- The rail serves channel 7, the routine is in the store, and the job waits in queue 63. -/
def headed (j : Job) : State :=
  { ((withQueue (started [j])).swrite 0x140800 (wordBytes [0x02006000, 0x27, 0x1AF4, 0, 4, 0, 0, 0])) with
    pmb := { state := .ready, ok := 60000, cmd := 60000 } }

/-- What a command leaves. -/
def after (o : Host.Outcome State Fault Refusal) : State :=
  match o with
  | .next t => t
  | .fault _ | .refused _ => State.reset

/-- The state after step 5 of the boundary at 1 ms. -/
def atFive (j : Job) : State := after (execBeatBoundary 1000000 5 (headed j))

/-- The job is the only head, its channel and its rail are there, and the limits of step 7 let it in. -/
def mayEnter (j : Job) (v : State) : Bool :=
  v.maint.isEmpty && decide (v.job? j.id = some j) && ((List.range 64).all fun q => v.headOf q == if q = 63 then some j else none)
    && v.locked && v.drain.isNone && v.pwr.entry.isNone && !v.budg.isOver && v.budg.tstate != .hard && v.unheld 7
    && decide (v.claimOf 7 = none) && !bitOf v.pmb.rail.toNat 7 && bitOf v.gate.openRec.toNat 7
    && decide (v.remaining j.cls 7 1000000 = none) && !(v.qu 63).shen && !v.isOn (R.BUDG_PCFG_QEN 0) && v.thermalOk j 0
    && decide ((j.cost : Int) ≤ v.budg.hb) && decide ((v.declOf j).wcx ≤ v.rd R.TIME_MAXEX_MAX_EXCH_US)
    && decide (2 ≤ v.ringFree 31 + j.units) && decide (v.lim R.BUDG_PBASE_PIN_BASE + 3307 ≤ v.lim R.BUDG_PIN_PIN_MAX)

theorem wit_head : let j := headJob 0x00080140
    good (headed j) = true ∧ (headed j).atBeat 1000000 = true ∧ mayEnter j (atFive j) = true := by decide +kernel
theorem wit_headLate : let j := headJob 0x01080140
    good (headed j) = true ∧ (headed j).atBeat 1000000 = true ∧ mayEnter j (atFive j) = true ∧ bitOf (j.word 0).toNat 24 = true
    ∧ ((atFive j).ntUs - j.word 2).toNat < 2 ^ 31 := by decide +kernel
theorem wit_headWaits : let j : Job := { headJob 0x00080140 with cost := 10 ^ 6 }
    good (headed j) = true ∧ (atFive j).budg.hb < j.cost := by decide +kernel

/-- A job of channel 0 has been posted. -/
theorem wit_settles : let j : Job := { codeJob with state := .posted, remain := 100, debt := 0 }
    good (started [j]) = true ∧ ((started [j]).advanceTo 1000000).jobs = [j] ∧ (started [j]).atBeat 1000000 = true := by decide +kernel

/-- A gate list in force, without a guard. -/
theorem wit_gateRecord :
    let s := ({ (started []) with gate := { en := true, cycle := 1000, list := [(600, 0x80), (400, 0)] } }.wr R.GATE_CTL_EN 1).wr
      R.GATE_GUARD_GUARD_US 0
    good s = true ∧ s.atBeat 1000000 = true ∧ s.isOn R.GATE_CTL_EN = true ∧ s.rd R.GATE_GUARD_GUARD_US + s.time.w = 0
    ∧ s.gate.chg = none := by decide +kernel

/-! ## Witnesses: the boundaries of clauses -/

/-- The sighting is held, with the answer of CRY about it, if one has come. -/
def heldAs (r : Option (Bool × Option Nat)) (c : Chan) : Chan :=
  { c with inv := { c.inv with held := some { sight := seen, handle := 0x4000, result := r } } }

theorem wit_sigHeld : ([(none, 65, 65), (none, 64, 64), (none, 16, 15), (some (true, some 3), 64, 64), (some (true, none), 64, 64),
      (some (false, none), 0, 0)] : List (Option (Bool × Option Nat) × Word × Nat)).all (fun (r, k, m) =>
        ready (queued 31 (running (heldAs r ∘ asking 0x4000 k m)))) = true
    ∧ ready (queued 32 (running (heldAs none ∘ asking 0x4000 64 64))) = true
    ∧ ready (queued 32 (running (heldAs none ∘ asking 0x4000 0 16))) = true := by decide +kernel

theorem wit_counts : yields (.yield 0) = true ∧ codeWord (.yield 0) = some 0x0040 ∧ yields (.jmp 0 0) = false
    ∧ seqChan (.yield 0) = some 0 ∧ (codeWord (.jmp 0 0)).isSome = true
    ∧ ready (running (withSeq fun q => { q with ypend := true, ycnt := 2047 })) = true
    ∧ ready ((running (withSeq fun q => { q with ycnt := 4095 })).wr (R.CSQ_YMAX_YMAX 0) 7) = true := by decide +kernel

theorem wit_settleStops : ([SeqRun.blocked .foff, .blocked .ant].all fun r =>
      let s := plain fun c => { withField .settle c with seq := { c.seq with run := r } }
      calm s && !(s.ch 0).wantOn && !(s.ch 0).antWait && !(s.ch 0).antShift) = true := by decide +kernel

theorem wit_room : let s := receiving { window with sof := true, room := false } .run
    s.canon = true ∧ s.leadAt 0 = 0 ∧ s.jobLead 0 = some codeJob
    ∧ (s.decodeFrame 0 { window with sof := true, room := false } 0 0 (byteFrame false)).code = 9
    ∧ ((plain (withFifos 0 2040)).ch 0).rxf.data.length + 8 = 2048 := by decide +kernel

/-- A channel of no group in a field state, for the loop tick. -/
def ticking (f : FieldState) (s : State) : Bool := s.canon && !s.inSwarm 0 && decide (s.couplingOn 0 = none) && decide ((s.ch 0).field = f)

theorem wit_loopTick :
    ([FieldState.on, .mod, .rxw, .settle].all fun f => ticking f (plain (withField f))) = true
    ∧ (let s := plain (withField .on)
       ticking .on ((s.wr (R.CH_TXCTL_VFF 0) 1).wr (R.CH_TXCTL_LOOP 0) 1) = true
       ∧ ((s.wr (R.CH_TXCTL_VFF 0) 1).wr (R.CH_TXCTL_LOOP 0) 1).isOn (R.CH_TXCTL_VFF 0) = true
       ∧ ticking .on (((s.wr (R.CH_TXCTL_LOOP 0) 0).wr (R.CH_TXCTL_VFF 0) 0).wr (R.CH_TXCTL_TCOMP_EN 0) 1) = true
       ∧ (s.wr (R.CH_TXCTL_VFF 0) 0).isOn (R.CH_TXCTL_VFF 0) = false
       ∧ s.phaseOf 0 = (s.ch 0).phNow + BitVec.ofInt 10 0)
    ∧ (let s := plain fun c => { withField .on c with phNow := 1 }; s.phaseOf 0 = (s.ch 0).phNow + BitVec.ofInt 10 (-1))
    ∧ (let s := plain fun c => { withField .on c with phNow := 513 }; s.phaseOf 0 = (s.ch 0).phNow + BitVec.ofInt 10 511) := by
  decide +kernel

theorem wit_asleep : ([PwrState.idle, .sleep, .watch, .deep, .off].all fun x =>
      ({ (commanded 2 3 (merging (started []))) with pwr := { (started []).pwr with state := x } }).canon) = true
    ∧ (started []).pwr.state = .run ∧ (started []).pwr.domOn.getLsbD 10 = true := by decide +kernel

theorem wit_hltaShadow : let s := card .protocol [1] (some .ndef) true
    ({ s with emu := { s.emu with arb := .fieldOpen, ownCh := 0 } }).canon = true
    ∧ s.cardHears 0 = true ∧ s.cardState 0 = .protocol := by decide +kernel

theorem wit_wakeEarly : ([true, false].all fun x => ([PwrState.sleep, .watch, .deep, .idle].all fun y =>
      ({ (started []) with pwr := { (started []).pwr with state := y, closing := x, xtal := false } }).canon)) = true
    ∧ (true != (started []).isOn R.PWR_WAKEEN_PIN_POL) = true ∧ (started []).pwr.entry = none := by decide +kernel

theorem wit_railEnable : let w := (started []).fieldWord R.PMB_CTL_EN 1
    writable (railIn .off 0) 0 R.PMB_CTL w = true ∧ w.getLsbD 0 = true ∧ (railIn .off 0).pmb.holdLow = false
    ∧ writable (railIn .ready 0) 0 R.PMB_CTL (w &&& 0xFFFFFFFE) = true ∧ (w &&& 0xFFFFFFFE).getLsbD 0 = false := by decide +kernel

/-- The rail is READY at a commanded voltage, with this count of step 4s that asked for less. -/
def railAt (cmd lower : Nat) : State := { (started []) with pmb := { state := .ready, cmd := cmd, ok := cmd, lower := lower } }

theorem wit_railBeat : ([(4000, 0), (5000, 3), (6000, 0), (6000, 255)].all fun x => let s := railAt x.1 x.2
      s.canon && s.atBeat 1000000 && decide (s.time.minNt ≤ 1000000) && s.locked
        && decide ((after (execBeatBoundary 1000000 3 s)).railDemand = 5000)) = true
    ∧ 0 + 1 < getBits ((railAt 0 0).rdWord R.PMB_VSTEP) 16 8 ∧ getBits ((railAt 0 0).rdWord R.PMB_VSTEP) 16 8 ≤ 255 + 1
    ∧ 0 < getBits ((railAt 0 0).rdWord R.PMB_VSTEP) 0 10 := by decide +kernel

/-- A register of each block whose write does no more than store its bits. -/
def plainRegs : List Nat :=
  [R.SYN_TDRIFT, R.TIME_SYNC, R.GATE_GUARD, R.SCHED_QCFG 63, R.BUDG_PCFG 3, R.CH_TXPWR 7, R.INV_AGE, R.CRY_CTL, R.SWARM_GCFG 3,
   R.WATCH_CTL, R.EMU_FID, R.PMB_VSTEP, R.RES_CFG 31, R.PWR_WAKEEN]

theorem wit_stores : (plainRegs.all fun a => match blockOf a, rowAt a with
      | some b, some _ => let w := (started []).rdWord a
        !actsBeyond b a && writesReg (started []) 0 a w true true true && decide ((started []).turnedAway a w b = none)
      | _, _ => false) = true
    ∧ blockOf (R.CH_TXPWR 7) = some (.ch 7) := by decide +kernel

theorem wit_readTime : hears (started []) 0 0x10 (BitVec.ofNat 32 (R.TIME_NT_LO + 2 ^ 16)) (List.replicate 8 0) = true
    ∧ (blockOf R.TIME_NT_LO).isSome = true ∧ (rowAt R.TIME_NT_LO).isSome = true
    ∧ (match blockOf R.TIME_NT_LO with | some b => (started []).mayReadReg 0 b R.TIME_NT_LO | none => false) = true := by
  decide +kernel

/-- Frames of two words: at the last register addresses, and over a register that the port may not reach. -/
theorem wit_words :
    hears (started []) 0 0x10 (BitVec.ofNat 32 (R.SYS_ID + 2 ^ 16 * 2)) (List.replicate 12 0) = true
    ∧ hears (started []) 0 0x11 (BitVec.ofNat 32 R.SYN_TDRIFT) (List.replicate 8 0) = true
    ∧ bodyOf ((started []).nextFrame 0 0x11 (BitVec.ofNat 32 R.SYN_TDRIFT) (List.replicate 8 0)) = ([0, 0] : List Word).flatMap (fun w => leBytes 4 w.toNat)
    ∧ blockOf R.SYN_TDRIFT ≠ some .prot ∧ blockOf (R.SYN_TDRIFT + 4) ≠ some .prot
    ∧ hears barred 3 0x10 (BitVec.ofNat 32 (R.PROT_CTL + 2 ^ 16 * 2)) (List.replicate 12 0) = true
    ∧ hears barred 3 0x11 (BitVec.ofNat 32 R.SYN_TDRIFT) (List.replicate 8 0) = true
    ∧ hears (started []) 0 0x20 0x1FFFFC (leBytes 4 8 ++ List.replicate 8 0) = true := by decide +kernel

theorem wit_tableMemory : let s := started []
    s.canon = true ∧ ([(0x160000, 5), (0x163FFC, 5), (0x164000, 5), (0x164A4C, 5), (0x164A50, 5), (0x170000, 6), (0x171FFC, 6),
      (0x172000, 6), (0x173FFC, 6), (0x174000, 7), (0x174110, 7), (0x176440, 7), (0x176444, 7)].all fun x =>
        readsMem s 0 x.1 && writesMem s 0 x.1 && memRegion x.1 == some x.2) = true
    ∧ (readsMem s 0 0x100000 = true ∧ memRegion 0x100000 = some 3 ∧ s.ringsUsed = false)
    ∧ (s.wr R.CRY_CTL_KEY_LOCK 1).isOn R.CRY_CTL_KEY_LOCK = true ∧ writesMem (s.wr R.CRY_CTL_KEY_LOCK 1) 0 0x160000 = true
    ∧ s.isOn R.CRY_CTL_KEY_LOCK = false ∧ s.emu.arb ≠ .wireOpen
    ∧ (wireOpen s).emu.arb = .wireOpen ∧ (wireOpen s).emu.ownPort = 0 ∧ readsMem (wireOpen s) 0 0x173FFC = true
    ∧ writesMem (wireOpen s) 0 0x172000 = true
    ∧ (let t := { s with emu := { s.emu with arb := .wireOpen, ownPort := 1 } }; writesMem t 0 0x172000 = true ∧ t.emu.ownPort = 1)
    ∧ ((List.range 4).filter fun i => !swarmTable (0x174000 + i)) = [] ∧ ((List.range 4).filter fun i => !swarmTable (0x176440 + i)) = [2, 3]
    ∧ ((List.range 4).filter fun i => !swarmTable (0x174110 + i)) = [0, 1, 2, 3]
    ∧ (let t := { s with maint := [{ kind := .coupling 0 0 5, mask := 3, since := 0, running := true }] }
       writesMem t 0 0x174000 = true ∧ t.slotMeasured 0x174000 = true ∧ s.slotMeasured 0x174000 = false ∧ t.canon = true) := by
  decide +kernel

theorem wit_windowBusy : let s := withFlash (started [{ flashJob with decl := { flashJob.decl with addr := 0x200000 } }])
    s.canon = true ∧ writesMem s 0 0x1200000 = true ∧ s.winStatus (0x1200000 - winBase) = stBusy := by decide +kernel

/-- What a first frame of an item says, with bits of its ARG and TAG. -/
def submits (s : State) (p : Port) (bits : Byte) (arg : Word) (body : List Byte) : Bool :=
  good s && accepts s 0x30 (tagged s p 0x30 bits arg body)

theorem wit_submitRefused : let s := withQueue (started [])
    submits s 0 0x20 (319 + 2 ^ 6) (descOf 0) = true ∧ submits s 0 0x30 319 (descOf 0) = true ∧ submits s 0 0x20 319 [1] = true
    ∧ submits s 0 0x20 63 [1] = true ∧ submits s 0 0x10 63 [] = true
    ∧ submits barred 3 0x20 319 (descOf 0) = true ∧ barred.queueOwner 63 ≠ some 3
    ∧ (submits (s.wr (R.SCHED_QCFG_EN 63) 0) 0 0x20 319 (descOf 0) = true ∧ (s.wr (R.SCHED_QCFG_EN 63) 0).isOn (R.SCHED_QCFG_EN 63) = false)
    ∧ (let t := withQueue (started [{ openJob with state := .queued, got := 5 }])
       submits t 0 0x20 319 (descOf 0) = true ∧ t.rd (R.SCHED_QCFG_MAXDEPTH 63) ≤ t.depth 63 ∧ t.queueOwner 63 = some 0)
    ∧ (let t := s.wr (R.RES_CFG_SIZE 31) 0
       submits t 0 0x20 319 (descOf 0) = true ∧ t.ringFree 31 < 1 ∧ t.ringOwner 31 = some 0) := by decide +kernel

theorem wit_continueRefused :
    submits (withQueue (started [])) 0 0x10 63 [7] = true ∧ ((withQueue (started [])).pt 0).openItem = none
    ∧ submits opened 0 0x10 62 [7] = true ∧ openJob.queue ≠ 62
    ∧ submits opened 0 0x10 63 [7, 8, 9, 10] = true ∧ openJob.plen < openJob.got + 4
    ∧ submits opened 0 0x30 63 [7, 8] = true ∧ openJob.got + 2 < openJob.plen
    ∧ (let t := opened.wrWord (R.PROT_QOWN 7) 0
       submits t 0 0x10 63 [7] = true ∧ t.queueOwner 63 ≠ some 0) := by decide +kernel

theorem wit_coldReset : ([true, false].all fun b => ({ (started []) with vddioOk := b }).canon) = true
    ∧ (plain (withField .on)).noExchange ((plain (withField .on)).leadAt 0) = true
    ∧ (plain (withField .on)).limS R.BUDG_TLIM_0_TJ_HARD ≤ 125 * 16 ∧ (plain (withField .on)).budg.tstate ≠ .hard := by decide +kernel

/-! ## Cases that the manual works out -/

/-- The listing of R258, an instruction of each line with its encoding. -/
theorem test_listing : ([(.airt 0 0x38, 0xE338), (.airr 0 0x39, 0xE439), (.bset 0 6 3, 0x4D43), (.ant 0 6, 0xB182), (.fon 0, 0xB000),
      (.waitus 0 200, 0xE2C8), (.mov 0 7 0, 0x3E00), (.shri 0 7 8, 0x4EC8), (.pushi 0 0x22, 0xE022), (.ld 0 3 2 2 0, 0x86A0),
      (.pushw 0 3, 0xA640), (.ld 0 3 2 2 1, 0x86A1), (.pushb 0 0, 0xA000), (.movi 0 5 88, 0x1A58), (.fctlMark 0 false, 0xA140),
      (.xch 0 4 5, 0xB946), (.beq 0 9, 0x5009), (.cmpi 0 7 0, 0x4FC0), (.subi 0 7 1, 0x4E41), (.fctlRewind 0 false, 0xA141),
      (.jmp 0 (-7), 0x6FF9), (.cmpi 0 4 1, 0x49C1), (.bne 0 1, 0x5101), (.endJob 0 1, 0xE501), (.popw 0 3, 0xA6C0), (.popb 0 3, 0xA680),
      (.btst 0 3 0, 0x4700), (.det 0 3, 0xD606), (.outw 0 3, 0xD602), (.endJob 0 0, 0xE500)] : List (Instr × Nat)).all
    (fun x => codeWord x.1 == some x.2 && definedWord x.2) = true := by decide +kernel

/-- The directory entry of routine 0x140 in R258 and the declarations it gives. -/
theorem test_declarations :
    let s := (started []).swrite 0x140800 (wordBytes [0x02006000, 0x27, 0x1AF4, 0, 4, 0, 0, 0])
    let d := s.declare 0x140 0 0
    d.found = true ∧ d.wcx = 6900 ∧ d.maxpay = 4 ∧ d.ninst = 39 ∧ d.addr = 0x6000 ∧ d.src = 1 := by decide +kernel

/-- R433 and R473 give the check values of their CRCs. -/
theorem test_crcs : crc32c [0x31, 0x32, 0x33, 0x34, 0x35, 0x36, 0x37, 0x38, 0x39] = 0xE3069283
    ∧ crc32 [0x31, 0x32, 0x33, 0x34, 0x35, 0x36, 0x37, 0x38, 0x39] = 0xCBF43926 := by decide +kernel

/-- R37: 2,500 mW into 20.0 Ω behind 0.8 Ω need 9,076 mV. -/
theorem test_rail : vtxNeed 2500 200 800 = 9076 := by decide +kernel

/-- R305: claims with CAP 2,500 and 2,000 at 90 %. -/
theorem test_claims :
    let s (cap : Nat) := (started []).wr (R.CH_TXPWR_CAP 0) cap
    let j : Job := { codeJob with desc := [0x00001010, 100, 0, 0, 0, 0, 0, 0] }
    (s 2500).powerClaim j = 3307 ∧ (s 2000).powerClaim j = 2668 := by decide +kernel

/-- Network time after a step: ns, fraction, uncertainty, state and POOR. -/
def nextTime : Host.Outcome State Fault Refusal → Option (Nat × Nat × Nat × TimeQ × Bool)
  | .next t => some (t.time.nt.toNat, t.time.frac, t.time.unc, t.time.q, t.time.poor)
  | .fault _ | .refused _ => none

/-- R345: the sleep of reader B. -/
theorem test_sleep :
    let s := (timed fun t => { t with frozen := true, q := .track, unc := 120, xtalRatio := 0x7736999A }).wr
      R.TIME_LPO_LPO_TOL_PPM 20
    nextTime (execNtResume 39000000 s) = some (1190225400238, 2432 * 2 ^ 24, 26185079, .slept, true) := by decide +kernel

/-- R195: the targets of four members with weights 255, 200, 128 and 64. -/
theorem test_targets :
    let s := ([0, 1, 2, 3].foldl (fun (s : State) n => s.wr (R.CH_TXLOAD_RL n) 200) (started [])).swrite 0x175000
      (wordBytes [0x8FA0000F, 0, 0, 0, 255, 200, 128, 64])
    ([0, 1, 2, 3].map fun n => ((s.takePattern 0 0x0F).ch n).swTarget) = [some 2072, some 1275, some 522, some 131] := by
  decide +kernel

/-- R271 and R272: four items of 60,020 µJ on a colour-blind port with 100,000 and 200,000 µJ of tokens. -/
theorem test_policer :
    let s := policed.modPt 0 fun t => { t with tc := 100000, tp := 200000 }
    let j : Job := { itemJob 0 with cost := 60020 }
    let x1 := s.police j
    let x2 := x1.1.police j
    let x3 := x2.1.police j
    let x4 := x3.1.police j
    [x1, x2, x3, x4].map (fun x => (x.2, (x.1.pt 0).tc, (x.1.pt 0).tp))
      = [(0, 39980, 139980), (1, 39980, 79960), (1, 39980, 19940), (2, 39980, 19940)] := by decide +kernel

end Sys2Proof.Machine
end

section
/-!
PROOFS. Every operation that a host frame can start keeps the register file canonical: the operations on registers and notices, the
waking of the device, the transfer of a frame, and the writes and reads of registers with all that they start.
-/

namespace Sys2Proof.Machine

/-! ## The register file stays canonical

Every operation of the device reaches its registers through `wrWord`, so each one keeps the register file canonical. -/

/-- What every step of a run over a list keeps, the run keeps. -/
theorem State.each_induction {α : Type} {P : State → Prop} {g : State → α → State} (hg : ∀ s a, P s → P (g s a)) :
    ∀ (l : List α) (s : State), P s → P (s.each l g)
  | [], _, h => h
  | a :: l, s, h => State.each_induction hg l (g s a) (hg s a h)

theorem State.wrSat_wf (s : State) (f : Fld) (v : Nat) (h : RegFile.wf s.regs = true) : RegFile.wf (s.wrSat f v).regs = true :=
  s.wr_wf f _ h

theorem State.bump_wf (s : State) (f : Fld) (n : Nat) (h : RegFile.wf s.regs = true) : RegFile.wf (s.bump f n).regs = true :=
  s.wrSat_wf f _ h

theorem State.setFlag_wf (s : State) (f : Fld) (h : RegFile.wf s.regs = true) : RegFile.wf (s.setFlag f).regs = true :=
  s.wr_wf f 1 h

theorem State.keepMax_wf (s : State) (f : Fld) (v : Nat) (h : RegFile.wf s.regs = true) : RegFile.wf (s.keepMax f v).regs = true := by
  unfold State.keepMax
  split
  · exact s.wrSat_wf f v h
  · exact h

theorem State.notify_wf (s : State) (p k : Nat) (h : RegFile.wf s.regs = true) : RegFile.wf (s.notify p k).regs = true :=
  s.wr_wf _ _ h

theorem State.notifyAll_wf (s : State) (k : Nat) (h : RegFile.wf s.regs = true) : RegFile.wf (s.notifyAll k).regs = true :=
  State.each_induction (P := fun t => RegFile.wf t.regs = true) (fun t p => t.notify_wf p k) _ s h

/-! ### Operations that write no register -/

@[simp] theorem State.leaveIdle_regs (s : State) : s.leaveIdle.regs = s.regs := by
  unfold State.leaveIdle
  split <;> rfl

@[simp] theorem State.addMaint_regs (s : State) (m : Maint) : (s.addMaint m).regs = s.regs := State.leaveIdle_regs _

@[simp] theorem State.queueRecal_regs (s : State) : s.queueRecal.regs = s.regs := by
  unfold State.queueRecal
  split
  · rfl
  · exact s.addMaint_regs _

@[simp] theorem State.queueImageCal_regs (s : State) (n : Nat) : (s.queueImageCal n).regs = s.regs := by
  unfold State.queueImageCal State.queueChan
  split
  · rfl
  · exact s.addMaint_regs _

@[simp] theorem State.latchWake_regs (s : State) (ev : WakeEv) : (s.latchWake ev).regs = s.regs := by
  unfold State.latchWake
  split <;> rfl

@[simp] theorem State.pmbOn_regs (s : State) : s.pmbOn.regs = s.regs := by
  unfold State.pmbOn
  split <;> rfl

@[simp] theorem State.pmbOff_regs (s : State) : s.pmbOff.regs = s.regs := rfl

@[simp] theorem State.pmbRecover_regs (s : State) : s.pmbRecover.regs = s.regs := by
  unfold State.pmbRecover
  split <;> rfl

@[simp] theorem State.pmbCtlWritten_regs (s : State) : s.pmbCtlWritten.regs = s.regs := by
  unfold State.pmbCtlWritten
  split
  · split
    · exact s.pmbOn_regs
    · rfl
  · split <;> rfl

@[simp] theorem State.railRaise_regs (s : State) : s.railRaise.regs = s.regs := by
  unfold State.railRaise
  split <;> rfl

@[simp] theorem State.beatWritten_regs (s : State) : s.beatWritten.regs = s.regs := by
  unfold State.beatWritten
  split <;> rfl

@[simp] theorem State.wmHitCleared_regs (s : State) (q : Nat) (w : Word) : (s.wmHitCleared q w).regs = s.regs := by
  unfold State.wmHitCleared
  split <;> rfl

@[simp] theorem State.dropCache_regs (s : State) : s.dropCache.regs = s.regs := by
  unfold State.dropCache
  split <;> rfl

@[simp] theorem State.modStep_regs (s : State) (k : Nat) (g : WStep → WStep) : (s.modStep k g).regs = s.regs := rfl

@[simp] theorem State.watchCmd_regs (s : State) (w : Word) : (s.watchCmd w).regs = s.regs := by
  unfold State.watchCmd State.captureSteps State.clearSteps
  simp only
  split
  · refine State.each_induction (P := fun t => t.regs = s.regs) (fun t i ht => ?_) _ s rfl
    split <;> exact ht
  · exact State.each_induction (P := fun t => t.regs = s.regs) (fun t i (ht : t.regs = s.regs) => (t.modStep_regs i _).trans ht) _ s rfl

/-! ### Waking -/

theorem State.recordWake_wf (s : State) (from_ : PwrState) (l : List WakeEv) (early : Bool) (h : RegFile.wf s.regs = true) :
    RegFile.wf (s.recordWake from_ l early).regs = true := by
  unfold State.recordWake
  iterate 7 apply State.wr_wf
  exact s.wrWord_wf _ _ h

theorem State.countWake_wf (s : State) (from_ : PwrState) (early : Bool) (h : RegFile.wf s.regs = true) :
    RegFile.wf (s.countWake from_ early).regs = true := by
  unfold State.countWake
  simp only
  have h1 : RegFile.wf (s.bump R.PWR_CNT_1_N_WAKE).regs = true := s.bump_wf _ 1 h
  split <;> split <;> simp only [State.bump_wf, h1]

theorem State.startWake_wf (s : State) (l : List WakeEv) (early : Bool) (h : RegFile.wf s.regs = true) :
    RegFile.wf (s.startWake l early).regs = true := by
  unfold State.startWake
  simp only [State.pmbOn_regs, State.modPwr_regs, State.countWake_wf, State.recordWake_wf, h]

theorem State.joinWake_wf (s : State) (ev : WakeEv) (h : RegFile.wf s.regs = true) : RegFile.wf (s.joinWake ev).regs = true := by
  unfold State.joinWake State.takeFresh
  simp only
  split
  · exact State.recordWake_wf _ _ _ _ h
  · exact h

theorem State.wakeLow_wf (s : State) (ev : WakeEv) (h : RegFile.wf s.regs = true) : RegFile.wf (s.wakeLow ev).regs = true := by
  unfold State.wakeLow State.takeFresh
  split
  · exact State.startWake_wf _ _ _ h
  · exact State.startWake_wf _ _ _ h

theorem State.wakeEvent_wf (s : State) (ev : WakeEv) (h : RegFile.wf s.regs = true) : RegFile.wf (s.wakeEvent ev).regs = true := by
  unfold State.wakeEvent
  split
  · simpa using h
  · split
    case h_1 => simpa using h
    case h_5 =>
      split
      · exact s.joinWake_wf ev h
      · exact h
    case h_6 => exact h
    all_goals exact s.wakeLow_wf ev h

theorem State.hostEdge_wf (s : State) (p : Port) (h : RegFile.wf s.regs = true) : RegFile.wf (s.hostEdge p).regs = true := by
  unfold State.hostEdge
  split
  · simpa using h
  · split
    · exact s.wakeEvent_wf _ h
    · exact h

/-! ### The transfer of a frame -/

theorem State.stallEnd_wf (s : State) (p : Nat) (h : RegFile.wf s.regs = true) : RegFile.wf (s.stallEnd p).regs = true := by
  unfold State.stallEnd State.takeFresh
  exact State.keepMax_wf _ _ _ h

theorem State.stallBuild_wf (s : State) (p : Nat) (h : RegFile.wf s.regs = true) : RegFile.wf (s.stallBuild p).regs = true := by
  unfold State.stallBuild
  split
  · exact State.stallEnd_wf _ _ (s.bump_wf _ _ h)
  · exact h

theorem State.sendWindow_wf (s : State) (f : Frame) (h : RegFile.wf s.regs = true) : RegFile.wf (s.sendWindow f).regs = true := by
  unfold State.sendWindow
  simp only
  split
  · exact State.bump_wf _ _ _ h
  · exact h

theorem State.clocked_wf (s : State) (f : Frame) (h : RegFile.wf s.regs = true) : RegFile.wf (s.clocked f).regs = true := by
  unfold State.clocked
  simp only [State.modPt_regs]
  exact State.sendWindow_wf _ _ (State.stallBuild_wf _ _ (s.hostEdge_wf _ h))

/-- The registers of a canonical state are canonical. -/
theorem State.canon_regs {s : State} (h : s.canon = true) : RegFile.wf s.regs = true := by
  unfold State.canon at h
  simp only [Bool.and_eq_true] at h
  exact h.1.1.1.1.1.1.1

/-! ### Register writes and their actions -/

theorem State.nextShape_wf (s : State) (n : Nat) (h : RegFile.wf s.regs = true) : RegFile.wf (s.nextShape n).regs = true :=
  s.wr_wf _ _ h

theorem State.synCtlWritten_wf (s : State) (was : Bool) (w : Word) (h : RegFile.wf s.regs = true) :
    RegFile.wf (s.synCtlWritten was w).regs = true := by
  unfold State.synCtlWritten
  simp only
  split <;> split <;> simp only [State.queueRecal_regs, State.setFlag_wf, State.wr_wf, h]

theorem State.iqCalWritten_wf (s : State) (n : Nat) (w : Word) (h : RegFile.wf s.regs = true) :
    RegFile.wf (s.iqCalWritten n w).regs = true := by
  unfold State.iqCalWritten
  split <;> simp only [State.queueImageCal_regs, State.setFlag_wf, h]

theorem State.quotaWritten_wf (s : State) (p : Nat) (h : RegFile.wf s.regs = true) : RegFile.wf (s.quotaWritten p).regs = true := by
  unfold State.quotaWritten State.setOver
  split
  · split
    · exact h
    · exact State.notify_wf _ _ _ h
  · exact h

theorem State.requestAnt_wf (s : State) (n pos : Nat) (en : Bool) (h : RegFile.wf s.regs = true) :
    RegFile.wf (s.requestAnt n pos en).regs = true := by
  unfold State.requestAnt
  simp only [State.modCh_regs, State.wr_wf, h]

theorem State.startMeasure_wf (s : State) (g : Nat) (slot : BitVec 3) (mw : BitVec 12) (h : RegFile.wf s.regs = true) :
    RegFile.wf (s.startMeasure g slot mw).regs = true := by
  unfold State.startMeasure State.spoilSlot
  simp only
  split
  · simp only [State.addMaint_regs, State.swrite_regs, State.wr_wf, h]
  · simp only [State.setFlag_wf, State.wr_wf, h]

theorem State.queryDecl_wf (s : State) (h : RegFile.wf s.regs = true) : RegFile.wf s.queryDecl.regs = true := by
  unfold State.queryDecl
  iterate 4 apply State.wr_wf
  exact s.wrSat_wf _ _ h

theorem State.discardShadow_wf (s : State) (h : RegFile.wf s.regs = true) : RegFile.wf s.discardShadow.regs = true :=
  State.bump_wf _ _ _ h

theorem State.dropField_wf (s : State) (n : Nat) (h : RegFile.wf s.regs = true) : RegFile.wf (s.dropField n).regs = true := by
  unfold State.dropField
  split
  · exact s.discardShadow_wf h
  · exact h

theorem State.emuCtlWritten_wf (s : State) (was : Bool) (h : RegFile.wf s.regs = true) :
    RegFile.wf (s.emuCtlWritten was).regs = true := by
  unfold State.emuCtlWritten State.emuEnabled
  split
  · exact h
  · refine State.each_induction (P := fun t => RegFile.wf t.regs = true) (fun t n ht => ?_) _ s h
    split
    · exact ht
    · exact t.dropField_wf n ht

theorem State.promote_wf (s : State) (wire : Bool) (h : RegFile.wf s.regs = true) : RegFile.wf (s.promote wire).regs = true := by
  unfold State.promote
  simp only
  split <;> simp only [State.leaveIdle_regs, State.notifyAll_wf, State.bump_wf, State.modEmu_regs, h]

theorem State.mailCmd_wf (s : State) (p : Port) (op : Nat) (h : RegFile.wf s.regs = true) :
    RegFile.wf (s.mailCmd p op).1.regs = true := by
  unfold State.mailCmd State.openShadow State.setShadow
  simp only
  split
  · split <;> exact h
  · split
    · split
      · exact h
      · split
        · exact h
        · exact s.promote_wf true h
    · split
      · split
        · exact s.discardShadow_wf h
        · exact h
      · exact h

theorem State.pmbCmd_wf (s : State) (w : Word) (h : RegFile.wf s.regs = true) : RegFile.wf (s.pmbCmd w).1.regs = true := by
  unfold State.pmbCmd State.pmbRaw
  split
  · simpa using h
  · split
    · exact h
    · split
      · exact h
      · simp only [State.wr_wf, State.modPmb_regs, h]

theorem State.diagCmd_wf (s : State) (w : Word) (h : RegFile.wf s.regs = true) : RegFile.wf (s.diagCmd w).regs = true := by
  unfold State.diagCmd State.queueChan
  split
  · simpa using h
  · refine State.each_induction (P := fun t => RegFile.wf t.regs = true) (fun t n ht => ?_) _ _ ?_
    · simpa using ht
    · simp only [State.wr_wf, h]

theorem State.startSwap_wf (s : State) (loader : Bool) (h : RegFile.wf s.regs = true) : RegFile.wf (s.startSwap loader).regs = true := by
  unfold State.startSwap
  simp only
  split
  · exact State.notifyAll_wf _ 7 (State.bump_wf _ _ 1 (State.setFlag_wf _ _ h))
  · exact h

theorem State.storeFields_wf (s : State) (a : Nat) (r : RegRow) (w : Word) (h : RegFile.wf s.regs = true) :
    RegFile.wf (s.storeFields a r w).1.regs = true :=
  s.wrWord_wf a _ h

theorem State.gateCtlWrite_wf (s : State) (r : RegRow) (w : Word) (h : RegFile.wf s.regs = true) :
    RegFile.wf (s.gateCtlWrite r w).1.regs = true := by
  have hswap : ∀ (t : State) (swap : Bool), RegFile.wf t.regs = true →
      RegFile.wf (if swap && !t.adminOk then (t, stRange)
        else (if swap then (t.storeFields R.GATE_CTL r w).1.startSwap false else (t.storeFields R.GATE_CTL r w).1, stOk)).1.regs = true := by
    intro t swap ht
    split
    · exact ht
    · have h1 : RegFile.wf (t.storeFields R.GATE_CTL r w).1.regs = true := t.storeFields_wf _ r w ht
      show RegFile.wf (State.regs (if swap = true then _ else _)) = true
      split
      · exact State.startSwap_wf _ false h1
      · exact h1
  unfold State.gateCtlWrite
  simp only
  split
  · exact h
  · exact hswap _ _ (by split <;> exact h)

theorem State.acted_wf (s : State) (a : Nat) (old w : Word) (b : RegBlock) (h : RegFile.wf s.regs = true) :
    RegFile.wf (s.acted a old w b).regs = true := by
  cases b with
  | sys | host | prot | pwr | gate | res | flash => exact h
  | syn =>
    simp only [State.acted]
    split
    · exact s.synCtlWritten_wf _ w h
    · exact h
  | time =>
    simp only [State.acted]
    split
    · simpa using h
    · split <;> exact h
  | sched =>
    simp only [State.acted]
    split
    · simpa using h
    · exact h
  | budg =>
    simp only [State.acted]
    split
    · exact s.quotaWritten_wf _ h
    · exact h
  | ch n =>
    simp only [State.acted]
    split
    · exact State.nextShape_wf _ _ h
    · split
      · exact s.requestAnt_wf _ _ _ h
      · split
        · exact s.iqCalWritten_wf n w h
        · simpa using h
  | inv =>
    simp only [State.acted]
    split
    · exact State.wr_wf _ _ _ h
    · exact h
  | cry =>
    simp only [State.acted]
    split
    · exact State.wr_wf _ _ _ h
    · exact h
  | swarm =>
    simp only [State.acted]
    split
    · exact s.startMeasure_wf _ _ _ h
    · exact h
  | csq =>
    simp only [State.acted]
    split
    · exact s.queryDecl_wf h
    · split
      · simpa using h
      · exact h
  | watch =>
    simp only [State.acted]
    split
    · exact h
    · split
      · exact h
      · split
        · simpa using h
        · exact h
  | emu =>
    simp only [State.acted]
    split
    · exact s.emuCtlWritten_wf _ h
    · exact h
  | pmb =>
    simp only [State.acted]
    split
    · simpa using h
    · exact h
  | diag =>
    simp only [State.acted]
    split
    · exact s.diagCmd_wf w h
    · exact h

theorem State.takeWrite_wf (s : State) (p : Port) (a : Nat) (w : Word) (b : RegBlock) (r : RegRow) (h : RegFile.wf s.regs = true) :
    RegFile.wf (s.takeWrite p a w b r).1.regs = true := by
  unfold State.takeWrite
  split
  · exact s.gateCtlWrite_wf r w h
  · split
    · exact s.mailCmd_wf p _ h
    · split
      · exact s.pmbCmd_wf w h
      · split
        · exact s.acted_wf a 0 w b h
        · exact State.acted_wf _ a _ w b (s.storeFields_wf a r w h)

/-- A register write keeps the register file canonical, whatever it starts. -/
theorem State.writeChecked_wf (s : State) (p : Port) (a : Nat) (w : Word) (h : RegFile.wf s.regs = true) :
    RegFile.wf (s.writeChecked p a w).1.regs = true := by
  unfold State.writeChecked
  split
  · split
    · exact h
    · split
      · exact h
      · split
        · exact h
        · exact s.takeWrite_wf p a w _ _ h
  · exact h

/-- A register read keeps the register file canonical. -/
theorem State.afterRead_wf (s : State) (p a : Nat) (b : RegBlock) (r : RegRow) (h : RegFile.wf s.regs = true) :
    RegFile.wf (s.afterRead p a b r).regs = true := by
  have h1 : RegFile.wf (if r.rc = 0 then s else s.wrWord a (s.rdWord a &&& ~~~r.rc)).regs = true := by
    split
    · exact h
    · exact s.wrWord_wf a _ h
  unfold State.afterRead
  simp only
  split
  · split
    · exact State.nextShape_wf _ _ h1
    · exact h1
  · split
    · exact h1
    · exact h1
  · exact h1

end Sys2Proof.Machine
end

section
/-!
PROOFS. Facts of the register map, and the checks of a word (R443, R449), which the transfer of a frame does not change.
-/

namespace Sys2Proof.Machine

/-! ## The register map -/

/-- First address of a block (R442). -/
def RegBlock.lo : RegBlock → Nat
  | .sys => 0 | .host => 0x200 | .prot => 0x400 | .pwr => 0x600 | .syn => 0x800 | .time => 0xA00 | .gate => 0xC00
  | .sched => 0x1000 | .budg => 0x1800 | .res => 0x1A00 | .ch n => 0x2000 + 0x100 * n | .inv => 0x2800 | .cry => 0x2A00
  | .swarm => 0x2C00 | .csq => 0x2E00 | .watch => 0x3000 | .emu => 0x3200 | .flash => 0x3400 | .pmb => 0x3600 | .diag => 0x3800

/-- Number of addresses of a block. -/
def RegBlock.size : RegBlock → Nat
  | .gate => 0x400 | .sched => 0x800 | .ch _ => 0x100 | _ => 0x200

/-- One link of the chain of addresses that `blockOf` follows. -/
theorem block_link {a k : Nat} {b c : RegBlock} {x : Option RegBlock} (h : (if Nat.blt a k then some c else x) = some b) :
    (a < k ∧ c = b) ∨ (k ≤ a ∧ x = some b) := by
  by_cases hk : a < k
  · rw [if_pos (Nat.blt_eq.mpr hk)] at h
    exact .inl ⟨hk, Option.some.inj h⟩
  · rw [if_neg (fun e => hk (Nat.blt_eq.mp e))] at h
    exact .inr ⟨Nat.le_of_not_lt hk, h⟩

/-- An address lies within its block, and there are eight channel blocks. -/
theorem blockOf_bounds {a : Nat} {b : RegBlock} (h : blockOf a = some b) :
    b.lo ≤ a ∧ a < b.lo + b.size ∧ ∀ n, b = .ch n → n < 8 := by
  unfold blockOf at h
  iterate 10
    obtain ⟨h1, rfl⟩ | ⟨h0, h⟩ := block_link h
    · exact ⟨by simp only [RegBlock.lo]; omega, by simp only [RegBlock.lo, RegBlock.size]; omega, fun n e => by cases e⟩
  by_cases h1 : a < 0x2000
  · rw [if_pos (Nat.blt_eq.mpr h1)] at h
    cases h
  rw [if_neg (fun e => h1 (Nat.blt_eq.mp e))] at h
  obtain ⟨h2, rfl⟩ | ⟨h0, h⟩ := block_link h
  · exact ⟨by simp only [RegBlock.lo]; omega, by simp only [RegBlock.lo, RegBlock.size]; omega, fun n e => by cases e; omega⟩
  iterate 9
    obtain ⟨h2, rfl⟩ | ⟨h0, h⟩ := block_link h
    · exact ⟨by simp only [RegBlock.lo]; omega, by simp only [RegBlock.lo, RegBlock.size]; omega, fun n e => by cases e⟩
  cases h

/-- Blocks lie below 0x3A00. -/
theorem blockOf_lt {a : Nat} {b : RegBlock} (h : blockOf a = some b) : a < 0x3A00 := by
  obtain ⟨-, h2, h3⟩ := blockOf_bounds h
  cases b with
  | ch n =>
    have := h3 n rfl
    simp only [RegBlock.lo, RegBlock.size] at h2
    omega
  | _ =>
    simp only [RegBlock.lo, RegBlock.size] at h2
    omega

/-- A register that is not one of HOST counts no frames. -/
theorem not_frameRegs_of_block {a p : Nat} {b : RegBlock} (hp : p < 4) (h : blockOf a = some b) (hb : b ≠ .host) :
    a ∉ frameRegs p := by
  obtain ⟨h1, h2, -⟩ := blockOf_bounds h
  cases b with
  | host => exact absurd rfl hb
  | sys =>
    simp only [RegBlock.lo, RegBlock.size] at h2
    simp only [frameRegs, R.HOST_CNT_0, R.HOST_CNT_1, R.HOST_CNT_2, R.HOST_STALL, List.mem_cons, List.not_mem_nil, or_false]
    omega
  | _ =>
    simp only [RegBlock.lo] at h1
    exact not_frameRegs hp (by omega)

/-- The row of a register is one of its block, and covers the address. -/
theorem rowAt_mem {a : Nat} {b : RegBlock} {r : RegRow} (hb : blockOf a = some b) (hr : rowAt a = some r) :
    r ∈ b.rows ∧ r.has a = true := by
  have h1 : b.rows.find? (fun r => r.has a) = some r := by
    unfold rowAt at hr
    rw [hb] at hr
    exact hr
  exact ⟨List.mem_of_find?_eq_some h1, List.find?_some (p := fun x : RegRow => x.has a) h1⟩

/-- Rows start at word addresses, and their copies lie whole words apart. -/
theorem RegBlock.rows_aligned (b : RegBlock) : ∀ r ∈ b.rows, r.base % 4 = 0 ∧ r.stride % 4 = 0 := by
  cases b <;> simp only [RegBlock.rows] <;> decide

/-- A register has a word address (R442). -/
theorem rowAt_aligned {a : Nat} {b : RegBlock} {r : RegRow} (hb : blockOf a = some b) (hr : rowAt a = some r) : a % 4 = 0 := by
  obtain ⟨hm, hh⟩ := rowAt_mem hb hr
  obtain ⟨h1, h2⟩ := b.rows_aligned r hm
  unfold RegRow.has at hh
  simp only [Bool.and_eq_true, Nat.ble_eq, Nat.blt_eq, Nat.beq_eq] at hh
  obtain ⟨⟨⟨h3, -⟩, h4⟩, -⟩ := hh
  rw [Nat.mod_mod_of_dvd _ (Nat.dvd_of_mod_eq_zero h2)] at h4
  omega

/-- Bits of a mask in which two words differ. -/
theorem word_xor_and (x y k : Word) : (x ^^^ y) &&& k = (x &&& k) ^^^ (y &&& k) := by
  ext i hi
  simp only [BitVec.getElem_and, BitVec.getElem_xor, Bool.and_xor_distrib_right]

/-- HOST has no bits that the protection commit locks. -/
theorem rowsHost_rwl : ∀ r ∈ rowsHost, r.rwl = 0 := by decide

/-- Value that a port reads at a register. -/
theorem State.regValue_eq (s : State) (p : Nat) {a : Nat} {b : RegBlock} {r : RegRow} (hb : Machine.blockOf a = some b)
    (hr : rowAt a = some r) : s.regValue p a = s.shownWord p a (s.rdWord a) b := by
  unfold State.regValue
  rw [hb, hr]

/-! ## Checks of a word that a frame's transfer does not change -/

/-- What a frame's transfer leaves of the state. -/
theorem FrameOnly.eq {p : Port} {s t : State} (h : FrameOnly p s t) :
    t = { s with ports := t.ports, regs := t.regs, fresh := t.fresh } := by
  conv_rhs => rw [← h.1]

/-- Registers from 0x400 on read as before. -/
theorem FrameOnly.rdWord_high {p : Port} {s t : State} (h : FrameOnly p s t) {a : Nat} (ha : 0x400 ≤ a) : t.rdWord a = s.rdWord a :=
  h.2.2 a (not_frameRegs p.isLt ha)

/-- Fields of registers from 0x400 on read as before. -/
theorem FrameOnly.rd_high {p : Port} {s t : State} (h : FrameOnly p s t) {f : Fld} (hf : 0x400 ≤ f.addr) : t.rd f = s.rd f :=
  h.rd f (not_frameRegs p.isLt hf)

theorem FrameOnly.isOn_high {p : Port} {s t : State} (h : FrameOnly p s t) {f : Fld} (hf : 0x400 ≤ f.addr) : t.isOn f = s.isOn f := by
  unfold State.isOn
  rw [h.rd_high hf]

section

variable {p : Port} {s t : State} (h : FrameOnly p s t)
include h

theorem FrameOnly.committed : t.committed = s.committed := (congrArg State.committed h.1 :)

theorem FrameOnly.time : t.time = s.time := (congrArg State.time h.1 :)

theorem FrameOnly.priv (q : Nat) : t.priv q = s.priv q :=
  h.rd_high (Nat.le_add_right_of_le (by decide))

/-- The right to read a register (R449). -/
theorem FrameOnly.mayReadReg (q : Nat) (b : RegBlock) (a : Nat) : t.mayReadReg q b a = s.mayReadReg q b a := by
  unfold State.mayReadReg
  rw [h.priv, h.rd_high (f := R.PROT_RMASK_RMASK q) (Nat.le_add_right_of_le (by decide))]

/-- The right to write a register (R449). -/
theorem FrameOnly.mayWriteReg (q : Nat) (b : RegBlock) (a : Nat) : t.mayWriteReg q b a = s.mayWriteReg q b a := by
  unfold State.mayWriteReg
  rw [h.priv, h.rd_high (f := R.PROT_WMASK_WMASK q) (Nat.le_add_right_of_le (by decide))]

theorem FrameOnly.ringSum (r : Nat) (w : Word) : t.ringSum r w = s.ringSum r w := by
  have h1 : ∀ k, t.ringSize k = s.ringSize k := fun k => by
    unfold State.ringSize
    rw [h.isOn_high (f := R.RES_CFG_EN k) (Nat.le_add_right_of_le (by decide)),
      h.rd_high (f := R.RES_CFG_SIZE k) (Nat.le_add_right_of_le (by decide))]
  unfold State.ringSum
  simp only [h1]

theorem FrameOnly.groupCfgOk (g : Nat) (w : Word) : t.groupCfgOk g w = s.groupCfgOk g w := by
  have h1 : ∀ k, t.isOn (R.SWARM_GCFG_GEN k) = s.isOn (R.SWARM_GCFG_GEN k) := fun k =>
    h.isOn_high (Nat.le_add_right_of_le (by decide))
  have h2 : ∀ k, t.rd (R.SWARM_GCFG_MEMBERS k) = s.rd (R.SWARM_GCFG_MEMBERS k) := fun k =>
    h.rd_high (Nat.le_add_right_of_le (by decide))
  unfold State.groupCfgOk
  simp only [h1, h2]

theorem FrameOnly.findOk : t.findOk = s.findOk := by
  unfold State.findOk
  rw [h.rd_high (f := R.INV_KEY_2_IDLEN) (by decide), h.rd_high (f := R.INV_KEY_2_PROTO) (by decide)]

/-- The ranges that rows cannot state (R443). -/
theorem FrameOnly.jointOk (a : Nat) (w : Word) (b : RegBlock) : t.jointOk a w b = s.jointOk a w b := by
  have hg : t.gate = s.gate := (congrArg State.gate h.1 :)
  cases b with
  | gate => simp only [State.jointOk, hg, h.isOn_high (f := R.GATE_CTL_EN) (by decide)]
  | budg =>
    simp only [State.jointOk, h.rd_high (f := R.BUDG_HRSV_RSV_UJ) (by decide), h.rd_high (f := R.BUDG_HBURST_H_BURST) (by decide),
      h.rd_high (f := R.BUDG_TLIM_1_TJ_SHUT) (by decide), h.rd_high (f := R.BUDG_TLIM_0_TJ_SOFT) (by decide),
      h.rd_high (f := R.BUDG_TLIM_0_TJ_HARD) (by decide)]
  | res => simp only [State.jointOk, State.ringCfgOk, h.ringSum]
  | inv => simp only [State.jointOk, h.findOk]
  | swarm => simp only [State.jointOk, h.groupCfgOk]
  | _ => rfl

/-- The ranges of a write (R443). -/
theorem FrameOnly.inRange (a : Nat) (w : Word) (b : RegBlock) (r : RegRow) : t.inRange a w b r = s.inRange a w b r := by
  unfold State.inRange
  rw [h.jointOk]

theorem FrameOnly.chBusy (n a : Nat) : t.chBusy n a = s.chBusy n a := by
  rw [h.eq]
  rfl

theorem FrameOnly.groupHeld (g : Nat) : t.groupHeld g = s.groupHeld g := by
  have h1 : ∀ n, t.chanHeld n = s.chanHeld n := fun n => by
    rw [h.eq]
    rfl
  unfold State.groupHeld
  simp only [h1, h.rd_high (f := R.SWARM_GCFG_MEMBERS g) (Nat.le_add_right_of_le (by decide))]

theorem FrameOnly.queueBusy (q : Nat) (w : Word) : t.queueBusy q w = s.queueBusy q w := by
  have h1 : t.jobs = s.jobs := (congrArg State.jobs h.1 :)
  unfold State.queueBusy
  rw [h1, h.rd_high (f := R.SCHED_QCFG_CLASS q) (Nat.le_add_right_of_le (by decide)),
    h.rd_high (f := R.SCHED_QCFG_ALLOW q) (Nat.le_add_right_of_le (by decide))]

theorem FrameOnly.ringBusy (r : Nat) : t.ringBusy r = s.ringBusy r := by
  rw [h.eq]
  rfl

theorem FrameOnly.emuBusy (a : Nat) (w : Word) : t.emuBusy a w = s.emuBusy a w := by
  have hc : ∀ n, t.card n = s.card n := fun n => by
    rw [h.eq]
    rfl
  unfold State.emuBusy State.anyListenHeld State.listenHolds State.listens
  simp only [hc, h.rd_high (f := R.EMU_CTL_CHMASK) (by decide), h.rd_high (f := R.EMU_CTL_MAXRATE) (by decide),
    h.rd_high (f := R.EMU_CTL_UIDMODE) (by decide), h.rdWord_high (a := R.EMU_FID) (by decide)]

/-- What turns a write away as a whole (R443). -/
theorem FrameOnly.turnedAway {a : Nat} {b : RegBlock} (hb : blockOf a = some b) (w : Word) :
    t.turnedAway a w b = s.turnedAway a w b := by
  cases b with
  | time => simp only [State.turnedAway, h.isOn_high (f := R.TIME_CTL_SERVO) (by decide)]
  | sched => simp only [State.turnedAway, h.queueBusy]
  | res => simp only [State.turnedAway, h.ringBusy]
  | ch n => simp only [State.turnedAway, h.chBusy]
  | cry =>
    have h1 : t.cry = s.cry := (congrArg State.cry h.1 :)
    simp only [State.turnedAway, h1, h.isOn_high (f := R.CRY_CTL_KEY_LOCK) (by decide)]
  | swarm =>
    have h1 : t.measuring = s.measuring := by
      rw [h.eq]
      rfl
    simp only [State.turnedAway, h1, h.groupHeld]
  | emu => simp only [State.turnedAway, h.emuBusy]
  | pmb =>
    have h1 : t.pmb = s.pmb := (congrArg State.pmb h.1 :)
    have h2 : t.rdWord a = s.rdWord a := h.rdWord_high (by
      have := (blockOf_bounds hb).1
      simp only [RegBlock.lo] at this
      omega)
    simp only [State.turnedAway, h1, h2]
  | gate | inv | flash | diag =>
    rw [h.eq]
    rfl
  | _ => rfl

/-- The locked bits of a register. -/
theorem FrameOnly.lockedBits {a : Nat} {b : RegBlock} {r : RegRow} (hb : blockOf a = some b) (hr : rowAt a = some r) :
    t.rdWord a &&& r.rwl = s.rdWord a &&& r.rwl := by
  by_cases hh : b = .host
  · subst hh
    rw [rowsHost_rwl r (rowAt_mem hb hr).1]
    simp
  · rw [h.2.2 a (not_frameRegs_of_block p.isLt hb hh)]

/-- The locked bits that a write would change. -/
theorem FrameOnly.lockedChange {a : Nat} {b : RegBlock} {r : RegRow} (hb : blockOf a = some b) (hr : rowAt a = some r) (w : Word) :
    (t.rdWord a ^^^ w) &&& r.rwl = (s.rdWord a ^^^ w) &&& r.rwl := by
  rw [word_xor_and, word_xor_and, h.lockedBits hb hr]

/-- The word of a write as its ranges are checked (R510). -/
theorem FrameOnly.effective {a : Nat} {b : RegBlock} {r : RegRow} (hb : blockOf a = some b) (hr : rowAt a = some r) (w : Word) :
    r.effective t.committed (t.rdWord a) w = r.effective s.committed (s.rdWord a) w := by
  unfold RegRow.effective
  rw [h.committed, h.lockedBits hb hr]

end

end Sys2Proof.Machine
end

section
/-!
PROOFS. What REG_READ and REG_WRITE of any number of words gather: the states between the words, the statuses, the refusals that are
noted, and the reply.
-/

namespace Sys2Proof.Machine

/-! ## Refusals that are noted (R456, R457) -/

theorem RegsOnly.refl (l : List Nat) (s : State) : RegsOnly l s s := ⟨rfl, fun _ _ => rfl⟩

theorem RegsOnly.trans {l : List Nat} {s t u : State} (h : RegsOnly l s t) (k : RegsOnly l t u) : RegsOnly l s u := by
  obtain ⟨h1, h2⟩ := h
  obtain ⟨k1, k2⟩ := k
  refine ⟨?_, fun a ha => (k2 a ha).trans (h2 a ha)⟩
  have e : ({ u with regs := s.regs } : State) = { ({ u with regs := t.regs } : State) with regs := s.regs } := rfl
  rw [e, k1, h1]

/-- Storing one register of a list. -/
theorem regsOnly_wrWord {l : List Nat} (s : State) {a : Nat} (w : Word) (ha : a ∈ l) : RegsOnly l s (s.wrWord a w) :=
  ⟨rfl, fun _ hc => s.rdWord_wrWord_other w fun e => hc (e ▸ ha)⟩

theorem regsOnly_noteDenied (s : State) (p : Nat) (opc : Byte) (a : Nat) :
    RegsOnly [R.HOST_CNT_2 p, R.PROT_DENY] s (s.noteDenied p opc a) := by
  unfold State.noteDenied
  have hc : (R.HOST_CNT_2_N_DENIED p).addr ∈ [R.HOST_CNT_2 p, R.PROT_DENY] := List.mem_cons_self
  have hd : R.PROT_DENY ∈ [R.HOST_CNT_2 p, R.PROT_DENY] := List.mem_cons_of_mem _ List.mem_cons_self
  exact (regsOnly_wrWord s _ hc).trans ((regsOnly_wrWord _ _ hd).trans ((regsOnly_wrWord _ _ hd).trans (regsOnly_wrWord _ _ hd)))

theorem State.noteDenied_wf (s : State) (p : Nat) (opc : Byte) (a : Nat) (h : RegFile.wf s.regs = true) :
    RegFile.wf (s.noteDenied p opc a).regs = true :=
  State.wr_wf _ _ _ (State.wr_wf _ _ _ (State.wr_wf _ _ _ (s.bump_wf _ 1 h)))

/-- A refused word counts, and PROT_DENY keeps it. -/
theorem noted_noteDenied (s : State) {p a : Nat} (opc : Byte) (h : RegFile.wf s.regs = true) (hp : p < 4) (ha : a < 2 ^ 14) :
    Noted p opc.toNat a s (s.noteDenied p opc a) := by
  have h1 := s.bump_wf (R.HOST_CNT_2_N_DENIED p) 1 h
  have h2 := State.wr_wf _ R.PROT_DENY_PORT p h1
  have h3 := State.wr_wf _ R.PROT_DENY_OPC opc.toNat h2
  have hne : (R.HOST_CNT_2_N_DENIED p).addr ≠ R.PROT_DENY := by
    simp only [R.HOST_CNT_2_N_DENIED, R.HOST_CNT_2, R.PROT_DENY]
    omega
  refine ⟨regsOnly_noteDenied s p opc a, ?_, ?_, ?_, ?_⟩ <;> unfold State.noteDenied
  · have hk := counts_bump s (R.HOST_CNT_2_N_DENIED p) h (by simp [R.HOST_CNT_2_N_DENIED])
    unfold Counts at hk ⊢
    rw [State.rd_wr_other _ _ _ _ h3 (.inl hne), State.rd_wr_other _ _ _ _ h2 (.inl hne), State.rd_wr_other _ _ _ _ h1 (.inl hne), hk]
  · rw [State.rd_wr_other _ _ _ _ h3 (by decide), State.rd_wr_other _ _ _ _ h2 (by decide), State.rd_wr_same _ _ _ h1 (by decide)]
    exact Nat.mod_eq_of_lt hp
  · rw [State.rd_wr_other _ _ _ _ h3 (by decide), State.rd_wr_same _ _ _ h2 (by decide)]
    exact Nat.mod_eq_of_lt opc.isLt
  · rw [State.rd_wr_same _ _ _ h3 (by decide)]
    exact Nat.mod_eq_of_lt ha

/-- The refusals of a frame are noted one after another. -/
def State.noteAll (s : State) (p : Nat) (opc : Byte) (l : List Nat) : State := s.each l fun s a => s.noteDenied p opc a

theorem State.noteAll_append (s : State) (p : Nat) (opc : Byte) (l : List Nat) (a : Nat) :
    s.noteAll p opc (l ++ [a]) = (s.noteAll p opc l).noteDenied p opc a :=
  List.foldl_append

theorem State.noteAll_wf (s : State) (p : Nat) (opc : Byte) (l : List Nat) (h : RegFile.wf s.regs = true) :
    RegFile.wf (s.noteAll p opc l).regs = true :=
  State.each_induction (P := fun t => RegFile.wf t.regs = true) (fun t a => t.noteDenied_wf p opc a) l s h

theorem regsOnly_noteAll (s : State) (p : Nat) (opc : Byte) (l : List Nat) :
    RegsOnly [R.HOST_CNT_2 p, R.PROT_DENY] s (s.noteAll p opc l) :=
  State.each_induction (P := RegsOnly [R.HOST_CNT_2 p, R.PROT_DENY] s)
    (fun t a ht => ht.trans (regsOnly_noteDenied t p opc a)) l s (RegsOnly.refl _ s)

/-- Every refusal of a frame counts. -/
theorem rd_denied_noteAll (s : State) {p : Nat} (opc : Byte) (hp : p < 4) (h : RegFile.wf s.regs = true) (l : List Nat)
    (hl : ∀ a ∈ l, a < 2 ^ 14) : (s.noteAll p opc l).rd (R.HOST_CNT_2_N_DENIED p)
      = min (s.rd (R.HOST_CNT_2_N_DENIED p) + l.length) (2 ^ (R.HOST_CNT_2_N_DENIED p).w - 1) := by
  induction l using List.reverseRecOn with
  | nil =>
    have : s.rd (R.HOST_CNT_2_N_DENIED p) < 2 ^ (R.HOST_CNT_2_N_DENIED p).w := Nat.mod_lt _ (Nat.two_pow_pos _)
    show s.rd (R.HOST_CNT_2_N_DENIED p) = min (s.rd (R.HOST_CNT_2_N_DENIED p) + 0) _
    omega
  | append_singleton l a ih =>
    obtain ⟨-, hc, -⟩ := noted_noteDenied (s.noteAll p opc l) opc (s.noteAll_wf p opc l h) hp (hl a (by simp))
    unfold Counts at hc
    rw [State.noteAll_append, hc, ih fun b hb => hl b (List.mem_append_left _ hb), List.length_append, List.length_singleton]
    omega

/-- PROT_DENY keeps the last refusal. -/
theorem deny_noteAll (s : State) {p a : Nat} (opc : Byte) (hp : p < 4) (h : RegFile.wf s.regs = true) {l : List Nat}
    (hl : l.getLast? = some a) (ha : a < 2 ^ 14) : (s.noteAll p opc l).rd R.PROT_DENY_PORT = p
      ∧ (s.noteAll p opc l).rd R.PROT_DENY_OPC = opc.toNat ∧ (s.noteAll p opc l).rd R.PROT_DENY_ADDR = a := by
  obtain ⟨l', rfl⟩ := List.getLast?_eq_some_iff.mp hl
  rw [State.noteAll_append]
  exact (noted_noteDenied (s.noteAll p opc l') opc (s.noteAll_wf p opc l' h) hp ha).2.2

/-! ## The reply of a frame of words (R444) -/

/-- The lowest-addressed refused one of `n` words whose statuses are `res`. -/
def firstRefused (n : Nat) (res : Nat → Byte) : Refusals := ((List.range n).find? fun i => res i != stOk).map fun i => (i, res i)

/-- One more word joins the refusals. -/
theorem lowerRefusal_firstRefused (n : Nat) (res : Nat → Byte) :
    lowerRefusal (firstRefused n res) (refusalOf n (res n)) = firstRefused (n + 1) res := by
  unfold firstRefused refusalOf
  rw [List.range_succ, List.find?_append]
  cases hf : (List.range n).find? fun i => res i != stOk with
  | none => by_cases hn : res n = stOk <;> simp [lowerRefusal, hn]
  | some i =>
    have hi : i < n := List.mem_range.mp (List.mem_of_find?_eq_some hf)
    by_cases hn : res n = stOk
    · simp [lowerRefusal, hn]
    · simp [lowerRefusal, hn, Nat.not_lt_of_lt hi]

/-- The reply names the lowest-addressed refused word. -/
theorem lowestRefused_wordsAnswer (n : Nat) (res : Nat → Byte) (payload : List Byte) :
    LowestRefused n res (wordsAnswer (firstRefused n res) payload) := by
  unfold firstRefused
  refine ⟨fun hok => ?_, fun i hi hr hlow => ?_⟩
  · have hf : (List.range n).find? (fun i => res i != stOk) = none := by
      rw [List.find?_eq_none]
      intro i hi
      simp [hok i (List.mem_range.mp hi)]
    rw [hf]
    exact ⟨rfl, rfl⟩
  · have hf : (List.range n).find? (fun i => res i != stOk) = some i := by
      rw [List.find?_range_eq_some]
      exact ⟨by simpa using hr, by simpa using hi, fun j hj => by simp [hlow j hj]⟩
    rw [hf]
    exact ⟨rfl, rfl⟩

/-! ## Words read (R440, R442 to R446) -/

/-- The state once `i` words from address `a` on have been read. -/
def State.readsFrom (s : State) (p a : Nat) : Nat → State
  | 0 => s
  | i + 1 => ((s.readsFrom p a i).readReg p (a + 4 * i)).2.2

/-- The value of the word that is read after `i` others. -/
def State.readValue (s : State) (p a i : Nat) : Word := ((s.readsFrom p a i).readReg p (a + 4 * i)).1

/-- The status of the word that is read after `i` others. -/
def State.readStatus (s : State) (p a i : Nat) : Byte := ((s.readsFrom p a i).readReg p (a + 4 * i)).2.1

theorem State.readReg_beyond (s : State) (p : Nat) {a : Nat} (ha : 0x3FFC < a) : s.readReg p a = (0, stRange, s) := if_pos ha

theorem State.readReg_hole (s : State) (p : Nat) {a : Nat} (ha : ¬ 0x3FFC < a) (hb : Machine.blockOf a = none) :
    s.readReg p a = (0, stOk, s) := by
  unfold State.readReg
  rw [if_neg ha, hb]

theorem State.readReg_denied (s : State) (p : Nat) {a : Nat} {b : RegBlock} (hb : Machine.blockOf a = some b)
    (hm : s.mayReadReg p b a = false) : s.readReg p a = (0, stDenied, s) := by
  have ha := blockOf_lt hb
  unfold State.readReg
  rw [if_neg (by omega), hb]
  simp only [hm, Bool.not_false, if_true]

/-- A register that its port may read. -/
theorem State.readReg_register (s : State) (p : Nat) {a : Nat} {b : RegBlock} {r : RegRow} (hb : Machine.blockOf a = some b)
    (hr : rowAt a = some r) (hm : s.mayReadReg p b a = true) : s.readReg p a = (s.regValue p a, stOk, s.afterRead p a b r) := by
  have ha := blockOf_lt hb
  unfold State.readReg
  rw [if_neg (by omega), hb, hr]
  simp only [hm, Bool.not_true, Bool.false_eq_true, if_false]

/-- A reserved offset reads zero (R442). -/
theorem State.readReg_reserved (s : State) (p : Nat) {a : Nat} {b : RegBlock} (hb : Machine.blockOf a = some b)
    (hr : rowAt a = none) (hm : s.mayReadReg p b a = true) : s.readReg p a = (0, stOk, s) := by
  have ha := blockOf_lt hb
  unfold State.readReg
  rw [if_neg (by omega), hb, hr]
  simp only [hm, Bool.not_true, Bool.false_eq_true, if_false]

theorem State.readReg_wf (s : State) (p a : Nat) (h : RegFile.wf s.regs = true) : RegFile.wf (s.readReg p a).2.2.regs = true := by
  unfold State.readReg
  split
  · exact h
  · split
    · exact h
    · split
      · exact h
      · split
        · exact h
        · exact s.afterRead_wf p a _ _ h

theorem State.readsFrom_wf (s : State) (p a : Nat) (h : RegFile.wf s.regs = true) :
    ∀ i, RegFile.wf (s.readsFrom p a i).regs = true
  | 0 => h
  | i + 1 => State.readReg_wf _ p _ (s.readsFrom_wf p a h i)

/-- The last word of a REG_READ. -/
theorem ReadRun.words_succ (p : Port) : ∀ (n k a : Nat) (r : ReadRun),
    r.words p k a (n + 1) = (r.words p k a n).word p (k + n) (a + 4 * n)
  | 0, _, _, _ => rfl
  | n + 1, k, a, r => by
    have h := ReadRun.words_succ p n (k + 1) (a + 4) (r.word p k a)
    rw [show k + 1 + n = k + (n + 1) by omega, show a + 4 + 4 * n = a + 4 * (n + 1) by omega] at h
    exact h

/-- What a REG_READ has gathered once its words are read. -/
theorem ReadRun.words_eq (s : State) (p : Port) (a : Nat) : ∀ n, ({ s := s } : ReadRun).words p 0 a n =
    { s := s.readsFrom p.val a n
      ref := firstRefused n (s.readStatus p.val a)
      out := (List.range n).map (s.readValue p.val a)
      denied := ((List.range n).filter fun i => s.readStatus p.val a i == stDenied).map fun i => a + 4 * i }
  | 0 => rfl
  | n + 1 => by
    rw [ReadRun.words_succ, ReadRun.words_eq s p a n, ← lowerRefusal_firstRefused, Nat.zero_add, List.range_succ, List.map_append,
      List.filter_append, List.map_append]
    by_cases hd : s.readStatus p.val a n = stDenied
    · have hd' : ((s.readsFrom p.val a n).readReg p.val (a + 4 * n)).2.1 = stDenied := hd
      simp only [ReadRun.word, hd', if_true, List.filter_cons, hd, beq_self_eq_true, List.filter_nil, List.map_cons, List.map_nil]
      rfl
    · have hd' : ((s.readsFrom p.val a n).readReg p.val (a + 4 * n)).2.1 ≠ stDenied := hd
      simp only [ReadRun.word, hd', if_false, List.filter_cons, beq_false_of_ne hd, Bool.false_eq_true, List.filter_nil, List.map_cons,
        List.map_nil, List.append_nil]
      rfl

/-- A field of the low 32 bits of a number. -/
theorem getBits_ofNat {x : Nat} (hx : x < 2 ^ 32) (lo w : Nat) : getBits (BitVec.ofNat 32 x) lo w = x / 2 ^ lo % 2 ^ w := by
  unfold getBits bitsOf
  rw [BitVec.toNat_ofNat, Nat.mod_eq_of_lt hx, Nat.shiftRight_eq_div_pow]

/-- REG_READ of `k` words from the address of a register on. -/
theorem State.regReadFrame_eq (s : State) (p : Port) {a k : Nat} {arg : Word} (ha : a < 2 ^ 14) (h4 : a % 4 = 0) (hk : 0 < k)
    (hk' : k ≤ 1024) (harg : arg = BitVec.ofNat 32 (a + 2 ^ 16 * k)) : s.regReadFrame p arg
      = ((s.readsFrom p.val a k).noteAll p.val 0x10
          (((List.range k).filter fun i => s.readStatus p.val a i == stDenied).map fun i => a + 4 * i),
        wordsAnswer (firstRefused k (s.readStatus p.val a)) (wordBytes ((List.range k).map (s.readValue p.val a)))) := by
  have hx : a + 2 ^ 16 * k < 2 ^ 32 := by omega
  have e1 : getBits arg 16 11 = k := by
    rw [harg, getBits_ofNat hx]
    omega
  have e2 : getBits arg 0 14 = a := by
    rw [harg, getBits_ofNat hx]
    omega
  have e3 : getBits arg 14 2 = 0 := by
    rw [harg, getBits_ofNat hx]
    omega
  have e4 : getBits arg 27 5 = 0 := by
    rw [harg, getBits_ofNat hx]
    omega
  unfold State.regReadFrame State.regReadRun
  simp only [e1, e2, e3, e4, h4, ReadRun.words_eq]
  rw [if_neg (by omega)]
  rfl

/-! ## Words written (R442 to R444) -/

/-- What a word of a REG_WRITE outside PROT does, and its status. -/
def State.writeWord (s : State) (p : Port) (a : Nat) (w : Word) : State × Byte :=
  if 0x3FFC < a then (s, stRange)
  else
    match Machine.blockOf a with
    | none => (s, stOk)
    | some b =>
      if s.mayWriteReg p.val b a then
        let z := s.writeChecked p a w
        (if z.2 = stDenied then z.1.noteDenied p.val 0x11 a else z.1, z.2)
      else (s.noteDenied p.val 0x11 a, stDenied)

theorem State.writeWord_beyond (s : State) (p : Port) {a : Nat} (w : Word) (ha : 0x3FFC < a) : s.writeWord p a w = (s, stRange) :=
  if_pos ha

theorem State.writeWord_hole (s : State) (p : Port) {a : Nat} (w : Word) (ha : ¬ 0x3FFC < a) (hb : Machine.blockOf a = none) :
    s.writeWord p a w = (s, stOk) := by
  unfold State.writeWord
  rw [if_neg ha, hb]

theorem State.writeWord_block (s : State) (p : Port) {a : Nat} {b : RegBlock} (w : Word) (hb : Machine.blockOf a = some b) :
    s.writeWord p a w = if s.mayWriteReg p.val b a then
        (if (s.writeChecked p a w).2 = stDenied then (s.writeChecked p a w).1.noteDenied p.val 0x11 a else (s.writeChecked p a w).1,
          (s.writeChecked p a w).2)
      else (s.noteDenied p.val 0x11 a, stDenied) := by
  have ha := blockOf_lt hb
  unfold State.writeWord
  rw [if_neg (by omega), hb]

theorem State.writeWord_denied (s : State) (p : Port) {a : Nat} {b : RegBlock} (w : Word) (hb : Machine.blockOf a = some b)
    (hm : s.mayWriteReg p.val b a = false) : s.writeWord p a w = (s.noteDenied p.val 0x11 a, stDenied) := by
  rw [s.writeWord_block p w hb, hm]
  rfl

theorem State.writeWord_taken (s : State) (p : Port) {a : Nat} {b : RegBlock} {w : Word} {u : State} {st : Byte}
    (hb : Machine.blockOf a = some b) (hm : s.mayWriteReg p.val b a = true) (hz : s.writeChecked p a w = (u, st))
    (hs : st ≠ stDenied) : s.writeWord p a w = (u, st) := by
  rw [s.writeWord_block p w hb, hm, hz, if_pos rfl, if_neg hs]

theorem State.writeWord_wf (s : State) (p : Port) (a : Nat) (w : Word) (h : RegFile.wf s.regs = true) :
    RegFile.wf (s.writeWord p a w).1.regs = true := by
  have hz := s.writeChecked_wf p a w h
  unfold State.writeWord
  split
  · exact h
  · split
    · exact h
    · split
      · show RegFile.wf (State.regs (if _ then _ else _)) = true
        split
        · exact State.noteDenied_wf _ _ _ _ hz
        · exact hz
      · exact State.noteDenied_wf _ _ _ _ h

/-- A word of a REG_WRITE that is not one of PROT, or that its port may not write. -/
theorem WriteRun.word_eq (r : WriteRun) (p : Port) (k a : Nat) (w : Word)
    (hp : blockOf a = some .prot → r.s.mayWriteReg p.val .prot a = false) :
    r.word p k a w = { r with
      s := (r.s.writeWord p a w).1, ref := lowerRefusal r.ref (refusalOf k (r.s.writeWord p a w).2) } := by
  unfold WriteRun.word
  by_cases ha : 0x3FFC < a
  · rw [if_pos ha, State.writeWord_beyond _ _ _ ha]
    rfl
  rw [if_neg ha]
  cases hb : blockOf a with
  | none =>
    rw [State.writeWord_hole _ _ _ ha hb]
    cases r with | mk s ref prot => cases ref <;> rfl
  | some b =>
    rw [State.writeWord_block _ _ _ hb]
    cases hm : r.s.mayWriteReg p.val b a with
    | false =>
      simp only [hm, Bool.not_false, Bool.false_eq_true, if_true, if_false]
      rfl
    | true =>
      have hne : b ≠ .prot := by
        rintro rfl
        rw [hp hb] at hm
        cases hm
      simp only [hm, Bool.not_true, Bool.false_eq_true, if_false, hne, if_true]
      rfl

/-- The last word of a REG_WRITE. -/
theorem WriteRun.words_append (p : Port) (w : Word) : ∀ (ws : List Word) (k a : Nat) (r : WriteRun),
    r.words p k a (ws ++ [w]) = (r.words p k a ws).word p (k + ws.length) (a + 4 * ws.length) w
  | [], _, _, _ => rfl
  | v :: ws, k, a, r => by
    have h := WriteRun.words_append p w ws (k + 1) (a + 4) (r.word p k a v)
    rw [show k + 1 + ws.length = k + (v :: ws).length by simp; omega,
      show a + 4 + 4 * ws.length = a + 4 * (v :: ws).length by simp; omega] at h
    exact h

/-- The state once the first `i` of the words `w` have been written from address `a` on. -/
def State.writesFrom (s : State) (p : Port) (a : Nat) (w : Nat → Word) : Nat → State
  | 0 => s
  | i + 1 => ((s.writesFrom p a w i).writeWord p (a + 4 * i) (w i)).1

/-- The status of the word that is written after `i` others. -/
def State.writeStatus (s : State) (p : Port) (a : Nat) (w : Nat → Word) (i : Nat) : Byte :=
  ((s.writesFrom p a w i).writeWord p (a + 4 * i) (w i)).2

theorem State.writesFrom_wf (s : State) (p : Port) (a : Nat) (w : Nat → Word) (h : RegFile.wf s.regs = true) :
    ∀ i, RegFile.wf (s.writesFrom p a w i).regs = true
  | 0 => h
  | i + 1 => State.writeWord_wf _ p _ _ (s.writesFrom_wf p a w h i)

/-- What a REG_WRITE without words of PROT that its port may write has gathered. -/
theorem WriteRun.words_eq (s : State) (p : Port) (a : Nat) (w : Nat → Word) : ∀ n,
    (∀ i, i < n → blockOf (a + 4 * i) = some .prot → (s.writesFrom p a w i).mayWriteReg p.val .prot (a + 4 * i) = false) →
    ({ s := s } : WriteRun).words p 0 a ((List.range n).map w)
      = { s := s.writesFrom p a w n, ref := firstRefused n (s.writeStatus p a w) }
  | 0, _ => rfl
  | n + 1, hb => by
    rw [List.range_succ, List.map_append, List.map_singleton, WriteRun.words_append,
      WriteRun.words_eq s p a w n fun i hi => hb i (Nat.lt_succ_of_lt hi), ← lowerRefusal_firstRefused, Nat.zero_add, List.length_map,
      List.length_range, WriteRun.word_eq _ _ _ _ _ (hb n (Nat.lt_succ_self n))]
    rfl

/-- Four bytes of a word, and the words after them. -/
theorem leWords_leBytes (w : Word) (l : List Byte) : leWords (leBytes 4 w.toNat ++ l) = w :: leWords l := by
  have hv : leNat (leBytes 4 w.toNat) = w.toNat := by
    have := w.isLt
    simp only [leBytes, leNat, BitVec.toNat_ofNat]
    omega
  have h : leWords (leBytes 4 w.toNat ++ l) = BitVec.ofNat 32 (leNat (leBytes 4 w.toNat)) :: leWords l := rfl
  rw [h, hv, BitVec.ofNat_toNat, BitVec.setWidth_eq]

/-- The bytes of words read back as the words. -/
theorem leWords_wordBytes : ∀ ws : List Word, leWords (wordBytes ws) = ws
  | [] => rfl
  | w :: ws => by
    have h := leWords_leBytes w (wordBytes ws)
    rw [leWords_wordBytes ws] at h
    exact h

theorem wordBytes_length (ws : List Word) : (wordBytes ws).length = 4 * ws.length := by
  induction ws with
  | nil => rfl
  | cons w ws ih =>
    have h : wordBytes (w :: ws) = leBytes 4 w.toNat ++ wordBytes ws := rfl
    rw [h, List.length_append, ih, List.length_cons]
    show 4 + _ = _
    omega

/-- REG_WRITE of words from the address of a register on. -/
theorem State.regWriteFrame_eq (s : State) (p : Port) {a : Nat} {arg : Word} {ws : List Word} {w : Nat → Word} (ha : a < 2 ^ 14)
    (h4 : a % 4 = 0) (harg : arg = BitVec.ofNat 32 a) (hne : ws ≠ []) (hlen : ws.length ≤ 1024)
    (hw : ws = (List.range ws.length).map w)
    (hb : ∀ i, i < ws.length → Machine.blockOf (a + 4 * i) = some .prot →
      (s.writesFrom p a w i).mayWriteReg p.val .prot (a + 4 * i) = false) :
    s.regWriteFrame p arg (wordBytes ws)
      = (s.writesFrom p a w ws.length, wordsAnswer (firstRefused ws.length (s.writeStatus p a w)) []) := by
  have hx : a < 2 ^ 32 := by omega
  have hpos : 0 < ws.length := List.length_pos_iff.mpr hne
  have e1 : getBits arg 0 14 = a := by
    rw [harg, getBits_ofNat hx]
    omega
  have e2 : getBits arg 14 18 = 0 := by
    rw [harg, getBits_ofNat hx]
    omega
  have e3 : wordData (wordBytes ws) = true := by
    unfold wordData
    rw [wordBytes_length]
    simp only [Bool.and_eq_true, beq_iff_eq, decide_eq_true_eq]
    omega
  have e4 := WriteRun.words_eq s p a w ws.length hb
  rw [← hw] at e4
  unfold State.regWriteFrame State.regWrite
  simp only [e1, e2, e3, h4, leWords_wordBytes, e4]
  rfl

end Sys2Proof.Machine
end

section
/-!
PROOFS. What one word of a REG_READ or REG_WRITE does, and how the frames execute.
-/

namespace Sys2Proof.Machine

/-! ## One word read -/

/-- The status of a word in a block. -/
theorem State.readReg_status (s : State) (p : Nat) {a : Nat} {b : RegBlock} (hb : Machine.blockOf a = some b) :
    (s.readReg p a).2.1 = if s.mayReadReg p b a then stOk else stDenied := by
  cases hm : s.mayReadReg p b a with
  | false =>
    rw [s.readReg_denied p hb hm]
    rfl
  | true =>
    cases hr : rowAt a with
    | none =>
      rw [s.readReg_reserved p hb hr hm]
      rfl
    | some r =>
      rw [s.readReg_register p hb hr hm]
      rfl

/-- A word that is refused, or where no register stands, reads zero and changes nothing. -/
theorem State.readReg_unread (s : State) (p : Nat) {a : Nat} (h : (s.readReg p a).2.1 ≠ stOk ∨ rowAt a = none) :
    (s.readReg p a).1 = 0 ∧ (s.readReg p a).2.2 = s := by
  by_cases ha : 0x3FFC < a
  · rw [s.readReg_beyond p ha]
    exact ⟨rfl, rfl⟩
  cases hb : Machine.blockOf a with
  | none =>
    rw [s.readReg_hole p ha hb]
    exact ⟨rfl, rfl⟩
  | some b =>
    cases hm : s.mayReadReg p b a with
    | false =>
      rw [s.readReg_denied p hb hm]
      exact ⟨rfl, rfl⟩
    | true =>
      have hr : rowAt a = none := h.resolve_left fun hne => hne (by rw [s.readReg_status p hb, hm]; rfl)
      rw [s.readReg_reserved p hb hr hm]
      exact ⟨rfl, rfl⟩

/-- A word that is denied lies in a block. -/
theorem State.readReg_denied_lt (s : State) (p : Nat) {a : Nat} (h : (s.readReg p a).2.1 = stDenied) : a < 2 ^ 14 := by
  by_cases ha : 0x3FFC < a
  · rw [s.readReg_beyond p ha] at h
    exact absurd (show stRange = stDenied from h) (by decide)
  · omega

/-- A REG_READ of one word that is taken. -/
theorem State.regReadFrame_taken (s : State) (p : Port) {a : Nat} {arg v : Word} {u : State} (ha : a < 2 ^ 14) (h4 : a % 4 = 0)
    (harg : arg = BitVec.ofNat 32 (a + 2 ^ 16)) (hx : s.readReg p.val a = (v, stOk, u)) :
    s.regReadFrame p arg = (u, allWords (leBytes 4 v.toNat)) := by
  have hs : s.readStatus p.val a 0 = stOk := congrArg (fun x => x.2.1) hx
  have hv : s.readValue p.val a 0 = v := congrArg (fun x => x.1) hx
  have hu : s.readsFrom p.val a 1 = u := congrArg (fun x => x.2.2) hx
  have h1 : firstRefused 1 (s.readStatus p.val a) = none := by simp [firstRefused, hs]
  rw [s.regReadFrame_eq p ha h4 Nat.one_pos (by omega) harg, hu, h1, List.range_one, List.map_singleton, hv,
    List.filter_cons_of_neg (by rw [hs]; decide)]
  rfl

/-- A REG_READ of one word that is denied. -/
theorem State.regReadFrame_denied (s : State) (p : Port) {a : Nat} {arg : Word} (ha : a < 2 ^ 14) (h4 : a % 4 = 0)
    (harg : arg = BitVec.ofNat 32 (a + 2 ^ 16)) (hx : s.readReg p.val a = (0, stDenied, s)) :
    s.regReadFrame p arg = (s.noteDenied p.val 0x10 a, firstWord stDenied [0, 0, 0, 0]) := by
  have hs : s.readStatus p.val a 0 = stDenied := congrArg (fun x => x.2.1) hx
  have hv : s.readValue p.val a 0 = 0 := congrArg (fun x => x.1) hx
  have hu : s.readsFrom p.val a 1 = s := congrArg (fun x => x.2.2) hx
  have h1 : firstRefused 1 (s.readStatus p.val a) = some (0, stDenied) := by simp [firstRefused, hs, stDenied, stOk]
  rw [s.regReadFrame_eq p ha h4 Nat.one_pos (by omega) harg, hu, h1, List.range_one, List.map_singleton, hv,
    List.filter_cons_of_pos (by rw [hs]; decide)]
  rfl

/-- The latch of a read of NT_LO by port `p` (R446). -/
def State.latchNt (s : State) (p : Nat) : State :=
  s.modPt p fun t => { t with ntHi := (s.time.nt >>> 32).setWidth 32, ntFr := BitVec.ofNat 32 (s.time.frac / 2 ^ 24) }

/-- A read of NT_LO shows the low word of NT, and latches the rest of it (R331, R446). -/
theorem State.readReg_ntLo (s : State) (p : Nat) (hm : s.mayReadReg p .time R.TIME_NT_LO = true) :
    s.readReg p R.TIME_NT_LO = (s.time.nt.setWidth 32, stOk, s.latchNt p) := by
  have hb : Machine.blockOf R.TIME_NT_LO = some .time := rfl
  have hr : rowAt R.TIME_NT_LO = some { name := "TIME_NT_LO", base := 0xA0C } := rfl
  rw [s.readReg_register p hb hr hm, s.regValue_eq p hb hr]
  rfl

/-- NT_HI and NT_FR show what a read of NT_LO has latched. -/
theorem State.latchNt_pt (s : State) {p : Nat} (hp : p < 4) : (s.latchNt p).pt p = { s.pt p with
    ntHi := (s.time.nt >>> 32).setWidth 32, ntFr := BitVec.ofNat 32 (s.time.frac / 2 ^ 24) } :=
  s.pt_modPt_same p _ hp

theorem State.regValue_ntHi (s : State) (p : Nat) : s.regValue p R.TIME_NT_HI = (s.pt p).ntHi :=
  s.regValue_eq p (b := .time) (r := { name := "TIME_NT_HI", base := 0xA10 }) rfl rfl

theorem State.regValue_ntFr (s : State) (p : Nat) : s.regValue p R.TIME_NT_FR = (s.pt p).ntFr :=
  s.regValue_eq p (b := .time) (r := { name := "TIME_NT_FR", base := 0xA14 }) rfl rfl

/-- A read clears the RC bits of any register but NT_LO and a shaping word, and changes nothing else (R6). -/
theorem State.afterRead_plain (s : State) (p : Nat) {a : Nat} {b : RegBlock} (r : RegRow) (h : RegFile.wf s.regs = true)
    (hb : Machine.blockOf a = some b) (hnt : a ≠ R.TIME_NT_LO) (hws : ∀ n : Ch, a ≠ R.CH_WSDATA n.val) :
    RegsOnly [a] s (s.afterRead p a b r) ∧ (s.afterRead p a b r).rdWord a = s.rdWord a &&& ~~~r.rc := by
  have hplain : s.afterRead p a b r = if r.rc = 0 then s else s.wrWord a (s.rdWord a &&& ~~~r.rc) := by
    unfold State.afterRead
    cases b with
    | ch n => exact if_neg (hws ⟨n, (blockOf_bounds hb).2.2 n rfl⟩)
    | time => exact if_neg hnt
    | _ => rfl
  rw [hplain]
  by_cases hrc : r.rc = 0
  · rw [if_pos hrc, hrc]
    exact ⟨RegsOnly.refl _ s, (BitVec.and_allOnes (x := s.rdWord a)).symm⟩
  · rw [if_neg hrc]
    exact ⟨regsOnly_wrWord s _ (List.mem_singleton_self a), s.rdWord_wrWord_same a _ h⟩

/-- The bytes of one word of a reply. -/
theorem wordBytes_word : ∀ (ws : List Word) (i : Nat) (h : i < ws.length),
    ((wordBytes ws).drop (4 * i)).take 4 = leBytes 4 ws[i].toNat
  | _ :: _, 0, _ => rfl
  | _ :: ws, i + 1, h => wordBytes_word ws i (Nat.lt_of_succ_lt_succ h)

/-! ## One word written -/

/-- A write that keeps the bits that the commit locks is checked as it stands (R510). -/
theorem RegRow.effective_of_kept (r : RegRow) {c : Bool} {old w : Word} (h : c = false ∨ (old ^^^ w) &&& r.rwl = 0) :
    r.effective c old w = w := by
  unfold RegRow.effective
  cases c with
  | false => rfl
  | true =>
    have hk : old &&& r.rwl = w &&& r.rwl :=
      BitVec.xor_eq_zero_iff.mp ((word_xor_and old w r.rwl).symm.trans (h.resolve_left (by decide)))
    rw [if_pos rfl, hk]
    ext i hi
    simp only [BitVec.getElem_or, BitVec.getElem_and, BitVec.getElem_not]
    cases w[i] <;> cases r.rwl[i] <;> rfl

/-- A write that keeps the locked bits stores its bits and is answered OK (R6, R510). -/
theorem State.storeFields_of_kept (s : State) (a : Nat) (r : RegRow) {w : Word}
    (h : s.committed = false ∨ (s.rdWord a ^^^ w) &&& r.rwl = 0) :
    s.storeFields a r w = (s.wrWord a (r.stored s.committed (s.rdWord a) w), stOk) := by
  unfold State.storeFields
  rcases h with h | h <;> simp [h]

/-- A register of which no bit is writable ignores a write (R6). -/
theorem State.writeChecked_readOnly (s : State) (p : Port) {a : Nat} {b : RegBlock} {r : RegRow} (w : Word)
    (hb : Machine.blockOf a = some b) (hr : rowAt a = some r) (hbits : r.rw ||| r.rwl ||| r.w1c ||| r.wo = 0) :
    s.writeChecked p a w = (s, stOk) := by
  unfold State.writeChecked
  rw [hb, hr]
  exact if_pos hbits

/-- A write out of range ends RANGE (R443). -/
theorem State.writeChecked_outOfRange (s : State) (p : Port) {a : Nat} {b : RegBlock} {r : RegRow} {w : Word}
    (hb : Machine.blockOf a = some b) (hr : rowAt a = some r) (hbits : r.rw ||| r.rwl ||| r.w1c ||| r.wo ≠ 0)
    (hrange : s.inRange a (r.effective s.committed (s.rdWord a) w) b r = false) : s.writeChecked p a w = (s, stRange) := by
  unfold State.writeChecked
  rw [hb, hr]
  simp only [hbits, hrange, if_false, Bool.not_false, if_true]

/-- A write that passes its checks is taken. -/
theorem State.writeChecked_passed (s : State) (p : Port) {a : Nat} {b : RegBlock} {r : RegRow} {w : Word}
    (hb : Machine.blockOf a = some b) (hr : rowAt a = some r) (hbits : r.rw ||| r.rwl ||| r.w1c ||| r.wo ≠ 0)
    (hrange : s.inRange a (r.effective s.committed (s.rdWord a) w) b r = true) (hturn : s.turnedAway a w b = none) :
    s.writeChecked p a w = s.takeWrite p a w b r := by
  unfold State.writeChecked
  rw [hb, hr]
  simp only [hbits, hrange, hturn, if_false, Bool.not_true, Bool.false_eq_true]

/-- Outside the channels, a write without an effect of its own starts nothing. -/
theorem State.acted_plain (s : State) {a : Nat} {b : RegBlock} (old w : Word) (hb : Machine.blockOf a = some b)
    (hp : actsBeyond b a = false) (hch : ∀ n, b ≠ .ch n) : s.acted a old w b = s := by
  obtain ⟨hlo, hhi, -⟩ := blockOf_bounds hb
  cases b with
  | ch n => exact absurd rfl (hch n)
  | sched =>
    have hq : (a - 0x1000) / 0x20 < 64 := by
      simp only [RegBlock.lo, RegBlock.size] at hlo hhi
      omega
    have hne : a ≠ R.SCHED_QSTAT ((a - 0x1000) / 0x20) := by
      simp only [actsBeyond, List.any_eq_false, List.mem_range, beq_iff_eq] at hp
      exact hp _ hq
    exact if_neg hne
  | budg =>
    have hne : ¬ (a = R.BUDG_QUOTA ((a - 0x1900) / 0x40) ∧ 0x1900 ≤ a) := by
      rintro ⟨h1, h2⟩
      have hq : (a - 0x1900) / 0x40 < 4 := by
        simp only [RegBlock.lo, RegBlock.size] at hhi
        omega
      simp only [actsBeyond, List.any_eq_false, List.mem_range, beq_iff_eq] at hp
      exact hp _ hq h1
    exact if_neg hne
  | sys | host | prot | pwr | gate | res | flash => rfl
  | _ =>
    simp only [actsBeyond, Bool.or_eq_false_iff, beq_eq_false_iff_ne, ne_eq] at hp
    simp [State.acted, hp]

/-- A write of a channel register without an effect of its own computes the demand on the rail. -/
theorem State.acted_ch (s : State) {a n : Nat} (old w : Word) (hp : actsBeyond (.ch n) a = false) :
    s.acted a old w (.ch n) = s.railRaise := by
  simp only [actsBeyond, Bool.or_eq_false_iff, beq_eq_false_iff_ne, ne_eq] at hp
  simp [State.acted, hp]

/-- A write without an effect of its own stores its bits. -/
theorem State.takeWrite_plain (s : State) (p : Port) {a : Nat} {b : RegBlock} (w : Word) (r : RegRow)
    (hb : Machine.blockOf a = some b) (hp : actsBeyond b a = false) :
    s.takeWrite p a w b r = ((s.storeFields a r w).1.acted a (s.rdWord a) w b, (s.storeFields a r w).2) := by
  have hblock : ∀ {c : Nat} {d : RegBlock}, Machine.blockOf c = some d → actsBeyond d c = true → a ≠ c := by
    rintro c d hc hd rfl
    rw [hb] at hc
    cases hc
    rw [hp] at hd
    cases hd
  have h1 : a ≠ R.GATE_CTL := hblock (d := .gate) rfl rfl
  have h2 : a ≠ R.EMU_MBCMD := hblock (d := .emu) rfl rfl
  have h3 : a ≠ R.PMB_CMD := hblock (d := .pmb) rfl rfl
  have h4 : windowReg a b = false := by
    cases b with
    | ch n | watch =>
      simp only [actsBeyond, Bool.or_eq_false_iff] at hp
      simp [windowReg, hp]
    | _ => rfl
  unfold State.takeWrite
  simp only [h1, h2, h3, h4, if_false, Bool.false_eq_true]

/-- The rail controller once a demand is computed (R418, R421). -/
theorem State.railRaise_pmb (s : State) :
    let rises : Prop := s.pmb.state = .ready ∧ s.pmb.cmd < s.railRaise.railDemand
    { s with pmb := s.railRaise.pmb } = s.railRaise
    ∧ (rises → s.railRaise.pmb.state = .change ∧ s.railRaise.pmb.cmd = s.railRaise.railDemand ∧ s.railRaise.pmb.ok = s.pmb.ok)
    ∧ (¬ rises → s.railRaise.pmb = { s.pmb with demand := s.railRaise.railDemand }) := by
  have hd : s.railRaise.railDemand = s.railDemand := by
    unfold State.railRaise
    split <;> rfl
  rw [hd]
  unfold State.railRaise
  by_cases h : s.pmb.state = .ready ∧ s.pmb.cmd < s.railDemand
  · rw [if_pos (by simpa using h)]
    exact ⟨rfl, fun _ => ⟨rfl, rfl, rfl⟩, fun hn => absurd h hn⟩
  · rw [if_neg (by simpa using h)]
    exact ⟨rfl, fun hy => absurd hy h, fun _ => rfl⟩

/-- A REG_WRITE of one word that is not one of PROT, or that its port may not write. -/
theorem State.regWriteFrame_one (s : State) (p : Port) {a : Nat} {arg w : Word} (ha : a < 2 ^ 14) (h4 : a % 4 = 0)
    (harg : arg = BitVec.ofNat 32 a) (hp : Machine.blockOf a = some .prot → s.mayWriteReg p.val .prot a = false) :
    s.regWriteFrame p arg (leBytes 4 w.toNat)
      = ((s.writeWord p a w).1, wordsAnswer (refusalOf 0 (s.writeWord p a w).2) []) := by
  have h := s.regWriteFrame_eq p (ws := [w]) (w := fun _ => w) ha h4 harg (by simp) (by simp) rfl
    fun i hi => by
      obtain rfl : i = 0 := by simpa using hi
      exact hp
  rw [show wordBytes [w] = leBytes 4 w.toNat from List.append_nil _, List.length_singleton, ← lowerRefusal_firstRefused] at h
  exact h

/-- What can become of a word of a REG_WRITE that is not one of PROT. -/
theorem State.writeWord_cases (s : State) (p : Port) (a : Nat) (w : Word) (h : RegFile.wf s.regs = true) :
    let z := s.writeChecked p a w
    (0x3FFC < a → (s.writeWord p a w).1 = s ∧ (s.writeWord p a w).2 = stRange)
    ∧ (a ≤ 0x3FFC → Machine.blockOf a = none → (s.writeWord p a w).1 = s ∧ (s.writeWord p a w).2 = stOk)
    ∧ ∀ b, a ≤ 0x3FFC → Machine.blockOf a = some b →
      (s.mayWriteReg p.val b a = false → (s.writeWord p a w).2 = stDenied ∧ Noted p.val 0x11 a s (s.writeWord p a w).1)
      ∧ (s.mayWriteReg p.val b a = true → (s.writeWord p a w).2 = z.2 ∧ (z.2 ≠ stDenied → (s.writeWord p a w).1 = z.1)
        ∧ (z.2 = stDenied → Noted p.val 0x11 a z.1 (s.writeWord p a w).1)) := by
  intro z
  refine ⟨fun hout => ?_, fun hin hb => ?_, fun b hin hb => ⟨fun hm => ?_, fun hm => ?_⟩⟩
  · rw [s.writeWord_beyond p w hout]
    exact ⟨rfl, rfl⟩
  · rw [s.writeWord_hole p w (Nat.not_lt.mpr hin) hb]
    exact ⟨rfl, rfl⟩
  · rw [s.writeWord_denied p w hb hm]
    exact ⟨rfl, noted_noteDenied s 0x11 h p.isLt (Nat.lt_of_le_of_lt hin (by decide))⟩
  · rw [s.writeWord_block p w hb, if_pos hm]
    refine ⟨rfl, fun hz => if_neg hz, fun hz => ?_⟩
    show Noted p.val 0x11 a z.1 (if z.2 = stDenied then _ else _)
    rw [if_pos hz]
    exact noted_noteDenied z.1 0x11 (s.writeChecked_wf p a w h) p.isLt (Nat.lt_of_le_of_lt hin (by decide))

/-! ## The frames -/

theorem exec_regRead (f : Frame) (s : State) : exec (.regRead f) s = .next (s.frame 0x10 f) := rfl

theorem exec_regWrite (f : Frame) (s : State) : exec (.regWrite f) s = .next (s.frame 0x11 f) := rfl

/-- A REG_READ that executes: what it does is given on the state in which the frame has been clocked. -/
theorem serves_regRead {s : State} {f : Frame} {P : State → Answer → State → Prop} (hc : s.canon = true) (ha : Accepts s 0x10 f)
    (h : ∀ m, FrameOnly f.port (s.hostEdge f.port) m → RegFile.wf m.regs = true →
      ∃ u x, m.regReadFrame f.port f.arg = (u, x) ∧ RegFile.wf u.regs = true ∧ P m x u) : Serves (.regRead f) 0x10 f s P := by
  obtain ⟨u, x, hu, hw, hP⟩ := h _ (s.clocked_frameOnly f) (s.clocked_wf f (State.canon_regs hc))
  exact serves_of (exec_regRead f s) ha (by decide) (by decide) hu hw (fun _ => rfl) hP

/-- A REG_WRITE that executes. -/
theorem serves_regWrite {s : State} {f : Frame} {P : State → Answer → State → Prop} (hc : s.canon = true) (ha : Accepts s 0x11 f)
    (h : ∀ m, FrameOnly f.port (s.hostEdge f.port) m → RegFile.wf m.regs = true →
      ∃ u x, m.regWriteFrame f.port f.arg (bodyOf f) = (u, x) ∧ RegFile.wf u.regs = true ∧ P m x u) : Serves (.regWrite f) 0x11 f s P := by
  obtain ⟨u, x, hu, hw, hP⟩ := h _ (s.clocked_frameOnly f) (s.clocked_wf f (State.canon_regs hc))
  exact serves_of (exec_regWrite f s) ha (by decide) (by decide) hu hw (fun _ => rfl) hP

end Sys2Proof.Machine
end

section
/-!
PROOFS. REG_READ and REG_WRITE: one law for each clause of O34, and O34.
-/

namespace Sys2Proof.Machine

section

variable {s : State} {f : Frame} {a : Nat} {b : RegBlock} {r : RegRow}
  (hc : s.canon = true) (hb : blockOf a = some b) (hr : rowAt a = some r)
include hc hb hr

/-! ### REG_READ of one word -/

/-- A read of NT_LO shows it and latches NT_HI and NT_FR for the port (R331, R446). -/
theorem serves_regRead_ntLo (ha : Accepts s 0x10 f) (harg : f.arg = BitVec.ofNat 32 (a + 2 ^ 16))
    (hm : (s.hostEdge f.port).mayReadReg f.port.val b a = true) (hnt : a = R.TIME_NT_LO) :
    let p := f.port.val
    let e := s.hostEdge f.port
    let hi : Word := (e.time.nt >>> 32).setWidth 32
    let fr : Word := BitVec.ofNat 32 (e.time.frac / 2 ^ 24)
    Serves (.regRead f) 0x10 f s fun m x u => x = allWords (leBytes 4 (e.time.nt.toNat % 2 ^ 32))
      ∧ { u with ports := m.ports } = m ∧ (∀ q, q ≠ p → u.pt q = m.pt q) ∧ u.pt p = { m.pt p with ntHi := hi, ntFr := fr }
      ∧ u.regValue p R.TIME_NT_HI = hi ∧ u.regValue p R.TIME_NT_FR = fr := by
  refine serves_regRead hc ha fun m hf hw => ?_
  have h4 := rowAt_aligned hb hr
  have hlt : a < 2 ^ 14 := Nat.lt_trans (blockOf_lt hb) (by decide)
  subst hnt
  obtain rfl : RegBlock.time = b := Option.some.inj hb
  have hread := m.readReg_ntLo f.port.val (by rw [hf.mayReadReg]; exact hm)
  have hpt := m.latchNt_pt f.port.isLt
  refine ⟨_, _, m.regReadFrame_taken f.port hlt h4 harg hread, hw, ?_⟩
  rw [State.regValue_ntHi, State.regValue_ntFr, hpt, BitVec.toNat_setWidth, hf.time]
  exact ⟨rfl, rfl, fun q hq => m.pt_modPt_other _ hq, rfl, rfl, rfl⟩

/-- A read shows the register and clears its RC bits (R6, R442). -/
theorem serves_regRead_plain (ha : Accepts s 0x10 f) (harg : f.arg = BitVec.ofNat 32 (a + 2 ^ 16))
    (hm : (s.hostEdge f.port).mayReadReg f.port.val b a = true) (hnt : a ≠ R.TIME_NT_LO) (hws : ∀ n : Ch, a ≠ R.CH_WSDATA n.val) :
    Serves (.regRead f) 0x10 f s fun m x u => x = allWords (leBytes 4 (m.regValue f.port.val a).toNat) ∧ RegsOnly [a] m u
      ∧ u.rdWord a = m.rdWord a &&& ~~~r.rc := by
  refine serves_regRead hc ha fun m hf hw => ?_
  have hlt : a < 2 ^ 14 := Nat.lt_trans (blockOf_lt hb) (by decide)
  have hread := m.readReg_register f.port.val hb hr (by rw [hf.mayReadReg]; exact hm)
  exact ⟨_, _, m.regReadFrame_taken f.port hlt (rowAt_aligned hb hr) harg hread, m.afterRead_wf _ _ b r hw, rfl,
    m.afterRead_plain f.port.val r hw hb hnt hws⟩

/-- A read without the right is DENIED and noted (R449, R456). -/
theorem serves_regRead_denied (ha : Accepts s 0x10 f) (harg : f.arg = BitVec.ofNat 32 (a + 2 ^ 16))
    (hm : (s.hostEdge f.port).mayReadReg f.port.val b a = false) :
    Serves (.regRead f) 0x10 f s fun m x u => x = firstWord stDenied [0, 0, 0, 0] ∧ Noted f.port.val 0x10 a m u := by
  refine serves_regRead hc ha fun m hf hw => ?_
  have hlt : a < 2 ^ 14 := Nat.lt_trans (blockOf_lt hb) (by decide)
  have hread := m.readReg_denied f.port.val hb (by rw [hf.mayReadReg]; exact hm)
  exact ⟨_, _, m.regReadFrame_denied f.port hlt (rowAt_aligned hb hr) harg hread, m.noteDenied_wf _ _ _ hw, rfl,
    noted_noteDenied m 0x10 hw f.port.isLt hlt⟩

/-! ### REG_WRITE of one word -/

/-- A REG_WRITE of one word ends as its word does. -/
theorem serves_regWrite_word {w : Word} {P : State → Answer → State → Prop} (ha : Accepts s 0x11 f)
    (harg : f.arg = BitVec.ofNat 32 a) (hbody : bodyOf f = leBytes 4 w.toNat)
    (hprot : b = .prot → (s.hostEdge f.port).mayWriteReg f.port.val b a = false)
    (h : ∀ m, FrameOnly f.port (s.hostEdge f.port) m → RegFile.wf m.regs = true →
      P m (wordsAnswer (refusalOf 0 (m.writeWord f.port a w).2) []) (m.writeWord f.port a w).1) :
    Serves (.regWrite f) 0x11 f s P := by
  refine serves_regWrite hc ha fun m hf hw => ?_
  have hlt : a < 2 ^ 14 := Nat.lt_trans (blockOf_lt hb) (by decide)
  have hpr : blockOf a = some .prot → m.mayWriteReg f.port.val .prot a = false := by
    intro hbp
    obtain rfl : b = .prot := Option.some.inj (hb.symm.trans hbp)
    rw [hf.mayWriteReg]
    exact hprot rfl
  rw [hbody]
  exact ⟨_, _, m.regWriteFrame_one f.port hlt (rowAt_aligned hb hr) harg hpr, m.writeWord_wf _ _ _ hw, h m hf hw⟩

/-- A write without the right is DENIED and noted (R449, R456). -/
theorem serves_regWrite_denied {w : Word} (ha : Accepts s 0x11 f) (harg : f.arg = BitVec.ofNat 32 a)
    (hbody : bodyOf f = leBytes 4 w.toNat) (hm : (s.hostEdge f.port).mayWriteReg f.port.val b a = false) :
    Serves (.regWrite f) 0x11 f s fun m x u => x = firstWord stDenied [] ∧ Noted f.port.val 0x11 a m u := by
  refine serves_regWrite_word hc hb hr ha harg hbody (fun _ => hm) fun m hf hw => ?_
  rw [m.writeWord_denied f.port w hb (by rw [hf.mayWriteReg]; exact hm)]
  exact ⟨rfl, noted_noteDenied m 0x11 hw f.port.isLt (Nat.lt_trans (blockOf_lt hb) (by decide))⟩

/-- A register of which no bit is writable ignores the write (R6). -/
theorem serves_regWrite_readOnly {w : Word} (ha : Accepts s 0x11 f) (harg : f.arg = BitVec.ofNat 32 a)
    (hbody : bodyOf f = leBytes 4 w.toNat) (hm : (s.hostEdge f.port).mayWriteReg f.port.val b a = true) (hp : b ≠ .prot)
    (hbits : r.rw ||| r.rwl ||| r.w1c ||| r.wo = 0) :
    Serves (.regWrite f) 0x11 f s fun m x u => x = allWords [] ∧ u = m := by
  refine serves_regWrite_word hc hb hr ha harg hbody (fun e => absurd e hp) fun m hf hw => ?_
  have hz := m.writeChecked_readOnly f.port w hb hr hbits
  rw [m.writeWord_taken f.port hb (by rw [hf.mayWriteReg]; exact hm) hz (by decide)]
  exact ⟨rfl, rfl⟩

/-- A write out of range ends RANGE (R443). -/
theorem serves_regWrite_outOfRange {w : Word} (ha : Accepts s 0x11 f) (harg : f.arg = BitVec.ofNat 32 a)
    (hbody : bodyOf f = leBytes 4 w.toNat) (hm : (s.hostEdge f.port).mayWriteReg f.port.val b a = true) (hp : b ≠ .prot)
    (hbits : r.rw ||| r.rwl ||| r.w1c ||| r.wo ≠ 0)
    (hrange : (s.hostEdge f.port).inRange a
      (r.effective (s.hostEdge f.port).committed ((s.hostEdge f.port).rdWord a) w) b r = false) :
    Serves (.regWrite f) 0x11 f s fun m x u => x = firstWord stRange [] ∧ u = m := by
  refine serves_regWrite_word hc hb hr ha harg hbody (fun e => absurd e hp) fun m hf hw => ?_
  have hz := m.writeChecked_outOfRange f.port hb hr hbits (by rw [hf.effective hb hr, hf.inRange]; exact hrange)
  rw [m.writeWord_taken f.port hb (by rw [hf.mayWriteReg]; exact hm) hz (by decide)]
  exact ⟨rfl, rfl⟩

/-- A write of a register without an effect of its own sets its RW bits and clears its W1C bits; one of a channel may move the
demand on the rail (R6, R418, R443). -/
theorem serves_regWrite_plain {w : Word} (ha : Accepts s 0x11 f) (harg : f.arg = BitVec.ofNat 32 a)
    (hbody : bodyOf f = leBytes 4 w.toNat) (hm : (s.hostEdge f.port).mayWriteReg f.port.val b a = true)
    (hp : actsBeyond b a = false) (hbits : r.rw ||| r.rwl ||| r.w1c ||| r.wo ≠ 0) (hrange : (s.hostEdge f.port).inRange a w b r = true)
    (hturn : (s.hostEdge f.port).turnedAway a w b = none)
    (hlock : (s.hostEdge f.port).committed = false ∨ ((s.hostEdge f.port).rdWord a ^^^ w) &&& r.rwl = 0) :
    Serves (.regWrite f) 0x11 f s fun m x u => x = allWords [] ∧ RegsOnly [a] { m with pmb := u.pmb } u
      ∧ u.rdWord a = r.stored (s.hostEdge f.port).committed (m.rdWord a) w
      ∧ ((∀ n, b ≠ .ch n) → u.pmb = m.pmb)
      ∧ ∀ n, b = .ch n → let rises : Prop := m.pmb.state = .ready ∧ m.pmb.cmd < u.railDemand
        (rises → u.pmb.state = .change ∧ u.pmb.cmd = u.railDemand ∧ u.pmb.ok = m.pmb.ok)
        ∧ (¬ rises → u.pmb = { m.pmb with demand := u.railDemand }) := by
  have hprot : b ≠ .prot := by
    rintro rfl
    cases hp
  refine serves_regWrite_word hc hb hr ha harg hbody (fun e => absurd e hprot) fun m hf hw => ?_
  rw [← hf.committed, ← hf.lockedChange hb hr] at hlock
  rw [← hf.committed]
  have hz : m.writeChecked f.port a w = ((m.wrWord a (r.stored m.committed (m.rdWord a) w)).acted a (m.rdWord a) w b, stOk) := by
    rw [m.writeChecked_passed f.port hb hr hbits (by rw [r.effective_of_kept hlock, hf.inRange]; exact hrange)
      (by rw [hf.turnedAway hb]; exact hturn), m.takeWrite_plain f.port w r hb hp, m.storeFields_of_kept a r hlock]
  rw [m.writeWord_taken f.port hb (by rw [hf.mayWriteReg]; exact hm) hz (by decide)]
  by_cases hch : ∀ n, b ≠ .ch n
  · rw [State.acted_plain _ _ _ hb hp hch]
    exact ⟨rfl, regsOnly_wrWord m _ (List.mem_singleton_self a), m.rdWord_wrWord_same a _ hw, fun _ => rfl, fun n e => absurd e (hch n)⟩
  · push Not at hch
    obtain ⟨n, rfl⟩ := hch
    rw [State.acted_ch _ _ _ hp]
    obtain ⟨hpmb, hup, hdown⟩ := (m.wrWord a (r.stored m.committed (m.rdWord a) w)).railRaise_pmb
    generalize hu : (m.wrWord a (r.stored m.committed (m.rdWord a) w)).railRaise = u at hpmb hup hdown ⊢
    have hregs : u.regs = (m.wrWord a (r.stored m.committed (m.rdWord a) w)).regs := by rw [← hpmb]
    refine ⟨rfl, ⟨?_, fun c hne => ?_⟩, ?_, fun hno => absurd rfl (hno n), fun _ _ => ⟨hup, hdown⟩⟩
    · rw [← hpmb]
      rfl
    · unfold State.rdWord
      rw [hregs]
      exact m.rdWord_wrWord_other _ (by simpa using hne)
    · unfold State.rdWord
      rw [hregs]
      exact m.rdWord_wrWord_same a _ hw

/-! ### Frames of more words -/

/-- A REG_READ handles each word on its own, in ascending order; its refusals are noted once the words are read (R440, R444,
R445). -/
theorem serves_regRead_words {k : Nat} (hk : 0 < k) (hk' : k ≤ 1024) (ha : Accepts s 0x10 f)
    (harg : f.arg = BitVec.ofNat 32 (a + 2 ^ 16 * k)) :
    let p := f.port.val
    Serves (.regRead f) 0x10 f s fun m x u => ∃ st : Nat → State, st 0 = m
      ∧ (let res (i : Nat) : Byte := if 0x3FFC < a + 4 * i then stRange else match blockOf (a + 4 * i) with
          | none => stOk
          | some g => if (st i).mayReadReg p g (a + 4 * i) then stOk else stDenied
        let denied := (List.range k).filter fun i => res i == stDenied
        x.payload.length = 4 * k ∧ LowestRefused k res x
        ∧ (∀ i, i < k → let c := a + 4 * i
          let word := (x.payload.drop (4 * i)).take 4
          (res i ≠ stOk ∨ rowAt c = none → st (i + 1) = st i ∧ word = [0, 0, 0, 0])
          ∧ (∀ g, blockOf c = some g → ∀ y, rowAt c = some y → res i = stOk →
            st (i + 1) = (st i).afterRead p c g y ∧ word = leBytes 4 ((st i).regValue p c).toNat))
        ∧ (denied = [] → u = st k)
        ∧ (∀ i, denied.getLast? = some i → RegsOnly [R.HOST_CNT_2 p, R.PROT_DENY] (st k) u
          ∧ u.rd (R.HOST_CNT_2_N_DENIED p) = min ((st k).rd (R.HOST_CNT_2_N_DENIED p) + denied.length) (2 ^ (R.HOST_CNT_2_N_DENIED p).w - 1)
          ∧ u.rd R.PROT_DENY_PORT = p ∧ u.rd R.PROT_DENY_OPC = 0x10 ∧ u.rd R.PROT_DENY_ADDR = a + 4 * i)) := by
  intro p
  refine serves_regRead hc ha fun m hf hw => ?_
  have hlt : a < 2 ^ 14 := Nat.lt_trans (blockOf_lt hb) (by decide)
  have hwk := m.readsFrom_wf p a hw k
  refine ⟨_, _, m.regReadFrame_eq f.port hlt (rowAt_aligned hb hr) hk hk' harg, State.noteAll_wf _ _ _ _ hwk, m.readsFrom p a, rfl, ?_⟩
  intro res denied
  have hres : res = m.readStatus p a := by
    funext i
    by_cases hi : 0x3FFC < a + 4 * i
    · simp only [res, if_pos hi, State.readStatus, State.readReg_beyond _ _ hi]
    · cases hg : blockOf (a + 4 * i) with
      | none => simp only [res, if_neg hi, hg, State.readStatus, State.readReg_hole _ _ hi hg]
      | some g => simp only [res, if_neg hi, hg, State.readStatus, State.readReg_status _ _ hg]
  clear_value res
  subst hres
  have hin : ∀ i, m.readStatus p a i = stDenied → a + 4 * i < 2 ^ 14 := fun i => State.readReg_denied_lt _ _
  refine ⟨?_, lowestRefused_wordsAnswer _ _ _, fun i hi => ?_, fun hd => ?_, fun i hi => ?_⟩
  · show (wordBytes _).length = 4 * k
    rw [wordBytes_length, List.length_map, List.length_range]
  · have hword : ((wordBytes ((List.range k).map (m.readValue p a))).drop (4 * i)).take 4 = leBytes 4 (m.readValue p a i).toNat := by
      rw [wordBytes_word _ i (by simpa using hi), List.getElem_map, List.getElem_range]
    intro c word
    refine ⟨fun hun => ?_, fun g hg y hy hok => ?_⟩
    · obtain ⟨h1, h2⟩ := (m.readsFrom p a i).readReg_unread p hun
      exact ⟨h2, hword.trans (by rw [State.readValue, h1]; rfl)⟩
    · have hmay : (m.readsFrom p a i).mayReadReg p g c = true := by
        by_contra hno
        rw [State.readStatus, State.readReg_status _ _ hg, if_neg hno] at hok
        exact absurd hok (by decide)
      have h1 := (m.readsFrom p a i).readReg_register p hg hy hmay
      exact ⟨congrArg (fun x => x.2.2) h1, hword.trans (by rw [State.readValue, h1])⟩
  · show State.noteAll _ _ _ (denied.map _) = _
    rw [hd]
    rfl
  · have hmem : ∀ c ∈ denied.map (fun i => a + 4 * i), c < 2 ^ 14 := by
      intro c hcm
      obtain ⟨j, hj, rfl⟩ := List.mem_map.mp hcm
      exact hin j (by simpa using (List.mem_filter.mp hj).2)
    have hlast : (denied.map fun i => a + 4 * i).getLast? = some (a + 4 * i) := by rw [List.getLast?_map, hi, Option.map_some]
    have hcount := rd_denied_noteAll _ (0x10 : Byte) f.port.isLt hwk _ hmem
    rw [List.length_map] at hcount
    exact ⟨regsOnly_noteAll _ _ _ _, hcount,
      deny_noteAll _ (0x10 : Byte) f.port.isLt hwk hlast (hmem _ (List.mem_of_getLast? hlast))⟩

/-- A REG_WRITE outside PROT handles each word on its own, in ascending order (R440, R443, R444). -/
theorem serves_regWrite_words {ws : List Word} (hne : ws ≠ []) (hlen : ws.length ≤ 1024) (ha : Accepts s 0x11 f)
    (harg : f.arg = BitVec.ofNat 32 a) (hbody : bodyOf f = ws.flatMap (fun w => leBytes 4 w.toNat))
    (hprot : ∀ i, i < ws.length → blockOf (a + 4 * i) ≠ some .prot) :
    let p := f.port.val
    Serves (.regWrite f) 0x11 f s fun m x u => ∃ (st : Nat → State) (res : Nat → Byte), st 0 = m ∧ st ws.length = u
      ∧ x.payload = [] ∧ LowestRefused ws.length res x
      ∧ ∀ i, i < ws.length → let c := a + 4 * i
        let y := st i
        (0x3FFC < c → st (i + 1) = y ∧ res i = stRange)
        ∧ (c ≤ 0x3FFC → blockOf c = none → st (i + 1) = y ∧ res i = stOk)
        ∧ (∀ g, c ≤ 0x3FFC → blockOf c = some g →
          let z := y.writeChecked f.port c (ws.getD i 0)
          (y.mayWriteReg p g c = false → res i = stDenied ∧ Noted p 0x11 c y (st (i + 1)))
          ∧ (y.mayWriteReg p g c = true → res i = z.2 ∧ (z.2 ≠ stDenied → st (i + 1) = z.1)
            ∧ (z.2 = stDenied → Noted p 0x11 c z.1 (st (i + 1))))) := by
  intro p
  refine serves_regWrite hc ha fun m hf hw => ?_
  have hlt : a < 2 ^ 14 := Nat.lt_trans (blockOf_lt hb) (by decide)
  have hws : ws = (List.range ws.length).map fun i => ws.getD i 0 :=
    List.ext_getElem (by simp) fun i h1 h2 => by simp [h1]
  have hframe := m.regWriteFrame_eq f.port hlt (rowAt_aligned hb hr) harg hne hlen hws fun i hi hp => absurd hp (hprot i hi)
  rw [hbody]
  refine ⟨_, _, hframe, m.writesFrom_wf _ _ _ hw _, m.writesFrom f.port a fun i => ws.getD i 0,
    m.writeStatus f.port a fun i => ws.getD i 0, rfl, rfl, rfl, lowestRefused_wordsAnswer _ _ _, fun i hi => ?_⟩
  exact State.writeWord_cases _ f.port _ _ (m.writesFrom_wf f.port a _ hw i)

end

/-- Settles O34: each clause is the law of its frame above. -/
theorem registerFrames : Obligations.RegisterFrames := by
  intro s f a b r w hc hb hr p e value
  refine ⟨fun ha harg => ⟨?_, ?_, ?_⟩, fun ha harg hbody => ⟨?_, ?_, ?_, ?_⟩, ?_, ?_⟩
  · exact serves_regRead_ntLo hc hb hr ha harg
  · exact serves_regRead_plain hc hb hr ha harg
  · exact serves_regRead_denied hc hb hr ha harg
  · exact serves_regWrite_plain hc hb hr ha harg hbody
  · exact serves_regWrite_readOnly hc hb hr ha harg hbody
  · exact serves_regWrite_outOfRange hc hb hr ha harg hbody
  · exact serves_regWrite_denied hc hb hr ha harg hbody
  · exact fun k hk hk' ha harg => serves_regRead_words hc hb hr hk hk' ha harg
  · exact fun ws hne hlen ha harg hbody hprot => serves_regWrite_words hc hb hr hne hlen ha harg hbody hprot

end Sys2Proof.Machine
end

section
/-!
PROOFS. The serial numbers of jobs and open items stay in order: what the invariant depends on, and the operations on the parts of
the state.
-/

namespace Sys2Proof.Machine

/-! ## The invariant -/

/-- The serial numbers of jobs and open items are in order. -/
def JobsOk (s : State) : Prop := s.jobsOk = true

/-- Every state that a command answers has its serial numbers in order. -/
def KeepsJobs (o : Host.Outcome State Fault Refusal) : Prop := ∀ t, o = .next t → JobsOk t

/-- What the invariant sees of a job: its serial number and its queue. -/
def Job.tag (j : Job) : Nat × Nat := (j.id, j.queue)

theorem jobsOk_iff {s : State} : JobsOk s ↔ ((s.jobs.map Job.tag).map Prod.fst).Nodup
    ∧ (∀ a ∈ s.jobs.map Job.tag, a.1 < s.nextJob ∧ a.2 < 64) ∧ s.openIds.Nodup ∧ ∀ i ∈ s.openIds, i < s.nextJob := by
  simp only [JobsOk, State.jobsOk, Job.tag, List.all_eq_true, Bool.and_eq_true, decide_eq_true_eq, List.forall_mem_map,
    List.map_map, Function.comp_def, and_assoc]

/-- Values that are dropped from a list of options leave a sublist. -/
theorem filterMap_sublist {α β : Type} {f g : α → Option β} (h : ∀ a, f a = g a ∨ f a = none) :
    ∀ l : List α, (l.filterMap f).Sublist (l.filterMap g)
  | [] => .slnil
  | a :: l => by
    have ih := filterMap_sublist h l
    rcases h a with e | e
    · cases hg : g a with
      | none => rwa [List.filterMap_cons_none hg, List.filterMap_cons_none (e.trans hg)]
      | some b => rw [List.filterMap_cons_some hg, List.filterMap_cons_some (e.trans hg)]; exact ih.cons_cons b
    · rw [List.filterMap_cons_none e]
      exact ih.trans (List.Sublist.filterMap g (List.sublist_cons_self a l))

/-- The invariant stays when jobs are changed but for their serial numbers and queues, or taken out, and when ports close their
open items. -/
theorem JobsOk.shrink {s t : State} (hj : (t.jobs.map Job.tag).Sublist (s.jobs.map Job.tag)) (hn : t.nextJob = s.nextJob)
    (hp : ∀ p, (t.pt p).openItem = (s.pt p).openItem ∨ (t.pt p).openItem = none) (h : JobsOk s) : JobsOk t := by
  obtain ⟨hd, hb, hu, hi⟩ := jobsOk_iff.mp h
  have hs : t.openIds.Sublist s.openIds := filterMap_sublist hp _
  rw [jobsOk_iff, hn]
  exact ⟨hd.sublist (hj.map _), fun a ha => hb a (hj.subset ha), hu.sublist hs, fun i hm => hi i (hs.subset hm)⟩

/-- The invariant stays when every job is changed but for its serial number and queue. -/
theorem JobsOk.mapJobs {s t : State} {g : Job → Job} (hj : t.jobs = s.jobs.map g) (hn : t.nextJob = s.nextJob)
    (hp : t.ports = s.ports) (hg : ∀ j, (g j).tag = j.tag) (h : JobsOk s) : JobsOk t := by
  refine h.shrink ?_ hn fun p => .inl ?_
  · rw [hj, List.map_map, show Job.tag ∘ g = Job.tag from funext hg]
  · unfold State.pt
    rw [hp]

/-! ## The parts of the state -/

theorem JobsOk.ite {c : Prop} [Decidable c] {s t : State} (hs : JobsOk s) (ht : JobsOk t) : JobsOk (if c then s else t) := by
  split
  · exact hs
  · exact ht

/-- An operation that is done or left out. -/
theorem JobsOk.when {c : Prop} [Decidable c] {s t : State} (hs : JobsOk s) (ht : JobsOk s → JobsOk t) :
    JobsOk (if c then t else s) := .ite (ht hs) hs

/-- An operation that is left out or done. -/
theorem JobsOk.unless {c : Prop} [Decidable c] {s t : State} (hs : JobsOk s) (ht : JobsOk s → JobsOk t) :
    JobsOk (if c then s else t) := .ite hs (ht hs)

theorem JobsOk.iteFst {α : Type} {c : Prop} [Decidable c] {x y : State × α} (hx : JobsOk x.1) (hy : JobsOk y.1) :
    JobsOk (if c then x else y).1 := by
  split
  · exact hx
  · exact hy

/-- The first component of a pair that is taken apart. -/
theorem JobsOk.of_eq {α : Type} {s : State} {a : α} {x : State × α} (e : x = (s, a)) (h : JobsOk x.1) : JobsOk s := by
  subst e
  exact h

theorem JobsOk.pair {α : Type} {s : State} {x : α} (h : JobsOk s) : JobsOk (s, x).1 := h

theorem KeepsJobs.ite {c : Prop} [Decidable c] {o u : Host.Outcome State Fault Refusal} (ho : KeepsJobs o) (hu : KeepsJobs u) :
    KeepsJobs (if c then o else u) := by
  split
  · exact ho
  · exact hu

theorem KeepsJobs.next {s : State} (h : JobsOk s) : KeepsJobs (.next s) := fun t e => by
  cases e
  exact h

/-- The invariant stays over a run of a list whose steps keep it. -/
theorem JobsOk.each {α : Type} {l : List α} {g : State → α → State} {s : State} (hg : ∀ s a, JobsOk s → JobsOk (g s a))
    (h : JobsOk s) : JobsOk (s.each l g) := State.each_induction hg l s h

/-- Fields other than jobs, ports and the next serial number do not matter. -/
theorem JobsOk.same {s t : State} (hj : t.jobs = s.jobs) (hn : t.nextJob = s.nextJob) (hp : t.ports = s.ports) (h : JobsOk s) :
    JobsOk t := h.mapJobs (g := id) (by rw [hj, List.map_id]) hn hp fun _ => rfl

section

variable {regs : RegFile} {sram : Memory} {chans : Vector Chan 8} {queues : Vector QueueSt 64} {rr : Vector Nat 4}
  {rings : Vector RingSt 32} {claims : Vector (Option Claim) 8} {syn : SynSt} {time : TimeSt} {gate : GateSt}
  {budg : BudgSt} {mergeQ : List Sighting} {invCmd : Option (BitVec 4 × BitVec 14)} {cry : Cry} {locQ : List LocReq}
  {nextLoc : Nat} {cards : Vector Card 8} {emu : EmuSt} {pwr : PwrSt} {watch : WatchSt} {pmb : PmbSt} {flash : FlashSt}
  {maint : List Maint} {drain : Option (BitVec 64)} {romTest committed : Bool} {boot : BootPhase} {bootCal : BitVec 8}
  {bootDisc : Option FlashDisc} {vinOk vddioOk resetN thermHold ringsUsed : Bool} {fresh : Nat} {pending : List Instr}

/-- A state that takes its jobs, its ports and the next serial number from another. -/
theorem JobsOk.with {s : State} (h : JobsOk s) :
    JobsOk ⟨regs, sram, s.ports, chans, s.jobs, s.nextJob, queues, rr, rings, claims, syn, time, gate, budg, mergeQ,
      invCmd, cry, locQ, nextLoc, cards, emu, pwr, watch, pmb, flash, maint, drain, romTest, committed, boot, bootCal,
      bootDisc, vinOk, vddioOk, resetN, thermHold, ringsUsed, fresh, pending⟩ :=
  .same (s := s) rfl rfl rfl h

/-- The same with every job changed but for its serial number and queue. -/
theorem JobsOk.withJobs {s : State} {g : Job → Job} (hg : ∀ j, (g j).tag = j.tag) (h : JobsOk s) :
    JobsOk ⟨regs, sram, s.ports, chans, (s.jobs.map g), s.nextJob, queues, rr, rings, claims, syn, time, gate, budg,
      mergeQ, invCmd, cry, locQ, nextLoc, cards, emu, pwr, watch, pmb, flash, maint, drain, romTest, committed, boot,
      bootCal, bootDisc, vinOk, vddioOk, resetN, thermHold, ringsUsed, fresh, pending⟩ :=
  .mapJobs (s := s) rfl rfl rfl hg h

end

/-- A port past the last one reads as a port with no item open. -/
theorem State.pt_of_le (s : State) {p : Nat} (hp : 4 ≤ p) : s.pt p = {} := by
  unfold State.pt
  rw [List.getD_eq_default _ _ (by simpa using hp)]

theorem JobsOk.modPt {s : State} {p : Nat} {g : PortSt → PortSt}
    (hg : ∀ t, (g t).openItem = t.openItem ∨ (g t).openItem = none) (h : JobsOk s) : JobsOk (s.modPt p g) := by
  refine .shrink (s := s) (.refl _) rfl (fun q => ?_) h
  by_cases hq : q = p
  · subst hq
    by_cases hlt : q < 4
    · rw [s.pt_modPt_same q g hlt]
      exact hg _
    · rw [State.pt_of_le _ (Nat.le_of_not_lt hlt)]
      exact .inr rfl
  · rw [s.pt_modPt_other g hq]
    exact .inl rfl

theorem JobsOk.modJob {s : State} {id : Nat} {g : Job → Job} (hg : ∀ j, (g j).tag = j.tag) (h : JobsOk s) :
    JobsOk (s.modJob id g) := by
  refine h.mapJobs (g := fun j => if j.id = id then g j else j) rfl rfl rfl fun j => ?_
  split
  · exact hg j
  · rfl

theorem JobsOk.dropJob {s : State} {id : Nat} (h : JobsOk s) : JobsOk (s.dropJob id) :=
  h.shrink (List.filter_sublist.map _) rfl fun _ => .inl rfl

end Sys2Proof.Machine
end

section
/-!
PROOFS. The serial numbers of jobs and open items stay in order: the named operations over the state.
-/

namespace Sys2Proof.Machine

theorem jobsOk_reset : JobsOk State.reset := by
  unfold JobsOk
  decide

/-! ## Registers -/

theorem JobsOk.wrWord {s : State} {a : Nat} {w : Word} (h : JobsOk s) : JobsOk (s.wrWord a w) := .with h

theorem JobsOk.wr {s : State} {f : Fld} {v : Nat} (h : JobsOk s) : JobsOk (s.wr f v) := .wrWord h

theorem JobsOk.wrS {s : State} {f : Fld} {v : Int} (h : JobsOk s) : JobsOk (s.wrS f v) := .wr h

theorem JobsOk.wrSat {s : State} {f : Fld} {v : Nat} (h : JobsOk s) : JobsOk (s.wrSat f v) := .wr h

theorem JobsOk.bump {s : State} {f : Fld} {n : Nat} (h : JobsOk s) : JobsOk (s.bump f n) := .wrSat h

theorem JobsOk.setFlag {s : State} {f : Fld} (h : JobsOk s) : JobsOk (s.setFlag f) := .wr h

theorem JobsOk.keepMax {s : State} {f : Fld} {v : Nat} (h : JobsOk s) : JobsOk (s.keepMax f v) := .ite (.wrSat h) h

/-! ## Vectors of parts -/

theorem JobsOk.modCh {s : State} {n : Nat} {g : Chan → Chan} (h : JobsOk s) : JobsOk (s.modCh n g) := .with h

theorem JobsOk.modQu {s : State} {q : Nat} {g : QueueSt → QueueSt} (h : JobsOk s) : JobsOk (s.modQu q g) := .with h

theorem JobsOk.modRing {s : State} {r : Nat} {g : RingSt → RingSt} (h : JobsOk s) : JobsOk (s.modRing r g) := .with h

theorem JobsOk.modCard {s : State} {n : Nat} {g : Card → Card} (h : JobsOk s) : JobsOk (s.modCard n g) := .with h

theorem JobsOk.setClaim {s : State} {n : Nat} {c : Option Claim} (h : JobsOk s) : JobsOk (s.setClaim n c) := .with h

theorem JobsOk.modSeq {s : State} {n : Nat} {g : Seq → Seq} (h : JobsOk s) : JobsOk (s.modSeq n g) := .modCh h

theorem JobsOk.modInv {s : State} {n : Nat} {g : InvCtx → InvCtx} (h : JobsOk s) : JobsOk (s.modInv n g) := .modCh h

theorem JobsOk.unclaim {s : State} {id : Nat} (h : JobsOk s) : JobsOk (s.unclaim id) := .each (fun _ _ h => .ite (.setClaim h) h) h

/-! ## Memory -/

theorem JobsOk.swrite {s : State} {a : Nat} {bs : List Byte} (h : JobsOk s) : JobsOk (s.swrite a bs) := .with h

theorem JobsOk.swriteNat {s : State} {a n v : Nat} (h : JobsOk s) : JobsOk (s.swriteNat a n v) := .swrite h

theorem JobsOk.fset {s : State} {a : Nat} {b : Byte} (h : JobsOk s) : JobsOk (s.fset a b) := .with h

theorem JobsOk.startFill {s : State} (h : JobsOk s) : JobsOk s.startFill := by
  unfold State.startFill
  split
  · exact .ite h (.bump (.with h))
  · exact h

theorem JobsOk.modFlash {s : State} {g : FlashSt → FlashSt} (h : JobsOk s) : JobsOk (s.modFlash g) := .with h

/-! ## Notices (R31 to R34) -/

theorem JobsOk.notify {s : State} {p k : Nat} (h : JobsOk s) : JobsOk (s.notify p k) := .wr h

theorem JobsOk.notifyAll {s : State} {k : Nat} (h : JobsOk s) : JobsOk (s.notifyAll k) := .each (fun _ _ => .notify) h

/-! ## Network time and free values -/

theorem JobsOk.takeFresh {α : Type} {s : State} {g : Nat → α} (h : JobsOk s) : JobsOk (s.takeFresh g).2 := .with h

/-! ## Leaving IDLE and wake events -/

theorem JobsOk.leaveIdle {s : State} (h : JobsOk s) : JobsOk s.leaveIdle := .ite (.with h) h

theorem JobsOk.addMaint {s : State} {m : Maint} (h : JobsOk s) : JobsOk (s.addMaint m) := .leaveIdle (.with h)

theorem JobsOk.latchWake {s : State} {ev : WakeEv} (h : JobsOk s) : JobsOk (s.latchWake ev) := by
  unfold State.latchWake
  split
  · exact h
  · exact .with h

end Sys2Proof.Machine
end

section
/-!
PROOFS. The serial numbers of jobs and open items stay in order: network time and gate lists.
-/

namespace Sys2Proof.Machine

/-! ## Gate lists (R346 to R357) -/

theorem JobsOk.settleGate {s : State} (h : JobsOk s) : JobsOk s.settleGate := by
  unfold State.settleGate
  split
  · exact h
  · exact .ite h (.when (.bump (.with h)) .setFlag)

theorem JobsOk.startSwap {s : State} {loader : Bool} (h : JobsOk s) : JobsOk (s.startSwap loader) := by
  unfold State.startSwap
  split
  · exact .when (.with h) fun hs => .notifyAll (.bump (.setFlag hs))

/-! ## Time that passes -/

theorem JobsOk.elapse {s : State} {ns : Nat} (h : JobsOk s) : JobsOk (s.elapse ns) := by
  unfold State.elapse
  refine .each (fun _ _ => .modCh) (.withJobs (fun _ => ?_) h)
  split
  · rfl
  · rfl

theorem JobsOk.advanceTo {s : State} {t : BitVec 64} (h : JobsOk s) : JobsOk (s.advanceTo t) :=
  .ite h (.settleGate (.with (.elapse h)))

theorem JobsOk.crystalCycle {s : State} (h : JobsOk s) : JobsOk s.crystalCycle := .settleGate (.with (.elapse h))

theorem JobsOk.idleTick {s : State} (h : JobsOk s) : JobsOk (idleTick s) := .ite (.crystalCycle h) h

/-! ## Steps and quality -/

theorem JobsOk.evalPoor {s : State} (h : JobsOk s) : JobsOk s.evalPoor := .ite (.ite h (.notifyAll (.with h))) (.ite (.with h) h)

theorem JobsOk.moveInstants {s : State} {t : BitVec 64} (h : JobsOk s) : JobsOk (s.moveInstants t) :=
  .each (fun _ _ => .modCh) (.withJobs (fun _ => rfl) h)

theorem JobsOk.stepNt {s : State} {t : BitVec 64} {frac : Nat} (h : JobsOk s) : JobsOk (s.stepNt t frac) :=
  .settleGate (.bump (.setFlag (.with (.moveInstants h))))

theorem JobsOk.setTime {s : State} {t : BitVec 64} {frac unc : Nat} (h : JobsOk s) : JobsOk (s.setTime t frac unc) :=
  .evalPoor (.with (.stepNt h))

theorem JobsOk.putRate {s : State} (h : JobsOk s) : JobsOk s.putRate := .wrS h

theorem JobsOk.applyArmed {s : State} {v : BitVec 64} {unc : Word} (h : JobsOk s) : JobsOk (s.applyArmed v unc) :=
  .evalPoor (.with (.stepNt h))

theorem JobsOk.acceptEdge {s : State} {e : Int} {third : Bool} (h : JobsOk s) : JobsOk (s.acceptEdge e third) :=
  .evalPoor (.putRate (.with (.ite (.with (.stepNt (.bump h))) (.with (.bump h)))))

theorem JobsOk.phaseUpdate {s : State} {ph : BitVec 10} (h : JobsOk s) : JobsOk (s.phaseUpdate ph) :=
  .ite h (.ite (.with (.setFlag (.wr h))) (.ite (.with (.setFlag (.wr h))) (.addMaint (.setFlag (.wr h)))))

theorem JobsOk.servoEdge {s : State} {ts : BitVec 64} {ph : BitVec 10} (h : JobsOk s) : JobsOk (s.servoEdge ts ph) := by
  have h0 : JobsOk (s.wrS R.TIME_PHERR_E (clampInt (-(2 ^ 31)) (2 ^ 31 - 1) ((s.edgeError ts).tdiv (2 ^ 40)))) := .wrS h
  have h1 := JobsOk.bump (f := R.TIME_CNT_0_N_REJ) (n := 1) (.setFlag (f := R.TIME_STAT_REJ_SEEN) h0)
  exact .ite (.with h0) (.ite (.phaseUpdate (.acceptEdge h0)) (.ite (.phaseUpdate (.acceptEdge h1)) (.with h1)))

/-! ## Commands -/

theorem JobsOk.takePeriod {s : State} (h : JobsOk s) : JobsOk s.takePeriod := .with h

theorem keepsJobs_execSynciEdge {ts : BitVec 64} {ph : BitVec 10} {s : State} (h : JobsOk s) :
    KeepsJobs (execSynciEdge ts ph s) := by
  unfold execSynciEdge
  refine .ite (.next h) ?_
  dsimp only
  split
  · exact .next (.applyArmed (.takePeriod (.advanceTo h)))
  · exact .ite (.next (.servoEdge (.takePeriod (.advanceTo h)))) (.next (.takePeriod (.advanceTo h)))

theorem keepsJobs_execSlewEnd {nt : BitVec 64} {s : State} (h : JobsOk s) : KeepsJobs (execSlewEnd nt s) :=
  .ite (.next (.advanceTo h)) (.next (.when (.with (.advanceTo h)) .putRate))

theorem keepsJobs_execHoldoverTimeout {nt : BitVec 64} {s : State} (h : JobsOk s) : KeepsJobs (execHoldoverTimeout nt s) :=
  .ite (.next (.bump (.with (.advanceTo h)))) (.next (.advanceTo h))

theorem keepsJobs_execUncUpdate {nt : BitVec 64} {s : State} (h : JobsOk s) : KeepsJobs (execUncUpdate nt s) :=
  .ite (.next h) (.next (.with (.evalPoor (.with (.when (.advanceTo h) .with)))))

theorem JobsOk.endSynco {s : State} (h : JobsOk s) : JobsOk s.endSynco := .with h

theorem keepsJobs_execSyncoPulse {nt : BitVec 64} {s : State} (h : JobsOk s) : KeepsJobs (execSyncoPulse nt s) :=
  .next (.when (.advanceTo h) .with)

theorem keepsJobs_execSyncoPulseEnd {s : State} (h : JobsOk s) : KeepsJobs (execSyncoPulseEnd s) := by
  unfold execSyncoPulseEnd
  split
  · exact .next h
  · exact .next (.endSynco (.advanceTo h))

end Sys2Proof.Machine
end

section
/-!
PROOFS. The serial numbers of jobs and open items stay in order: the inventory table.
-/

namespace Sys2Proof.Machine

theorem JobsOk.putTab {s : State} {i : Nat} {e : TabEntry} (h : JobsOk s) : JobsOk (s.putTab i e) := .swrite h

theorem JobsOk.freeTab {s : State} {i : Nat} (h : JobsOk s) : JobsOk (s.freeTab i) := by
  unfold State.freeTab
  extract_lets s1 u s2 s3 cry s4
  have h2 : JobsOk s2 := .each (fun _ _ h => .modSeq (.modInv h)) (.swrite h)
  have h3 : JobsOk s3 := .with h2
  have h4 : JobsOk s4 := .withJobs (fun _ => rfl) h3
  exact .wr h4

theorem JobsOk.takeIndex {s : State} (h : JobsOk s) : JobsOk s.takeIndex.1 := by
  unfold State.takeIndex
  refine .iteFst h ?_
  split
  · exact h
  · exact .bump (.freeTab h)

theorem JobsOk.bindLocate {s : State} {x : Sighting} {i : Option Nat} (h : JobsOk s) : JobsOk (s.bindLocate x i) := .with h

theorem JobsOk.mergeIntoTable {s : State} {x : Sighting} (h : JobsOk s) : JobsOk (s.mergeIntoTable x).1 := by
  unfold State.mergeIntoTable
  dsimp only
  split
  · split
    · exact .bump (.putTab h)
    · exact .modInv (.bump (.putTab h))
  · have ht := JobsOk.takeIndex h
    split
    next s1 e =>
      have h1 : JobsOk ((s1.setFlag R.INV_STAT_FULL).bump R.INV_CNT_2_N_DROP) := .bump (.setFlag (.of_eq e ht))
      split
      · exact h1
      · exact .modInv h1
    next s1 i e =>
      have h2 : JobsOk ((s1.putTab i (mergedEntry {} x true s.ntMs)).bump R.INV_CNT_0_N_NEW) := .bump (.putTab (.of_eq e ht))
      split
      · exact h2
      · exact .modInv h2

theorem JobsOk.mergeSighting {s : State} {x : Sighting} (h : JobsOk s) : JobsOk (s.mergeSighting x).1 :=
  .bindLocate (.mergeIntoTable h)

/-! ## Records and summary (R142, R143, R238) -/

theorem JobsOk.bindHeld {s : State} {n id handle : Nat} {r : Option Nat} {failed : Bool} (h : JobsOk s) :
    JobsOk (s.bindHeld n id handle r failed) := .with (.modJob (fun _ => rfl) (.modSeq h))

end Sys2Proof.Machine
end

section
/-!
PROOFS. The serial numbers of jobs and open items stay in order: the life of a job.
-/

namespace Sys2Proof.Machine

/-! ## Result rings (R287 to R291) -/

theorem JobsOk.postEntry {s : State} {r units : Nat} {hdr payload : List Byte} (h : JobsOk s) :
    JobsOk (s.postEntry r units hdr payload) := .bump (.with (.modRing h))

theorem JobsOk.reserveUnits {s : State} {r n : Nat} (h : JobsOk s) : JobsOk (s.reserveUnits r n) := .modRing h

theorem JobsOk.returnUnits {s : State} {r n : Nat} (h : JobsOk s) : JobsOk (s.returnUnits r n) := .modRing h

/-! ## Depth and watermarks (R279, R281) -/

theorem JobsOk.crossing {s : State} {q : Nat} (h : JobsOk s) : JobsOk (s.crossing q) := by
  unfold State.crossing
  refine .ite ?_ h
  dsimp only
  split
  · exact .modQu (.setFlag h)
  · exact .notify (.modQu (.setFlag h))

/-! ## The field at the end of a job (R49) -/

theorem JobsOk.setField {s : State} {n : Nat} {f : FieldState} (h : JobsOk s) : JobsOk (s.setField n f) := .modCh h

theorem JobsOk.startDown {s : State} {n : Nat} (h : JobsOk s) : JobsOk (s.startDown n) := .modCh h

theorem JobsOk.stopField {s : State} {n : Nat} (h : JobsOk s) : JobsOk (s.stopField n) := by
  unfold State.stopField
  split
  · exact .startDown (.modCh h)
  all_goals exact .modCh h

theorem JobsOk.stopFields {s : State} {m : BitVec 8} (h : JobsOk s) : JobsOk (s.stopFields m) := .each (fun _ _ => .stopField) h

theorem JobsOk.reserveBeats {s : State} {n start stop : Nat} (h : JobsOk s) : JobsOk (s.reserveBeats n start stop) := by
  unfold State.reserveBeats
  split
  · exact h
  · exact .each (fun _ _ => .modCh) h

theorem JobsOk.endExchange {s : State} {n : Nat} (h : JobsOk s) : JobsOk (s.endExchange n) := by
  unfold State.endExchange
  split
  · exact h
  refine .ite (.modCh (.when (.ite (.reserveBeats h) h) .bump)) ?_
  split
  · exact .modCh (.when (.ite (.reserveBeats h) h) .bump)
  · exact .modJob (fun _ => rfl) (.modCh (.when (.ite (.reserveBeats h) h) .bump))

theorem JobsOk.clearFifos {s : State} {n : Nat} (h : JobsOk s) : JobsOk (s.clearFifos n) := .modCh h

/-! ## Ends of a job (R19, R22) -/

theorem JobsOk.enqueueLate {s : State} {id : Nat} (h : JobsOk s) : JobsOk (s.enqueueLate id) := by
  unfold State.enqueueLate
  split
  · exact h
  · exact .modJob (fun _ => rfl) (.with h)

theorem JobsOk.sendLate {s : State} {id : Nat} {l : List Sighting} (h : JobsOk s) : JobsOk (s.sendLate id l) :=
  .enqueueLate (.modJob (fun _ => rfl) h)

theorem JobsOk.releaseHeld {s : State} {n id : Nat} (h : JobsOk s) : JobsOk (s.releaseHeld n id) := by
  unfold State.releaseHeld
  split
  · exact h
  · exact .unless (.modInv h) .sendLate

theorem JobsOk.releaseFound {s : State} {n id : Nat} (h : JobsOk s) : JobsOk (s.releaseFound n id) := .sendLate (.modInv h)

theorem JobsOk.endRunning {s : State} {j : Job} {rc : Byte} {partialE : Bool} {detail : BitVec 16} (h : JobsOk s) :
    JobsOk (s.endRunning j rc partialE detail) := by
  unfold State.endRunning
  extract_lets n s0 q items rec' st s1 s2 s3
  have h0 : JobsOk s0 := .releaseFound (.releaseHeld h)
  have h2 : JobsOk s2 := .modCh (.modJob (fun _ => rfl) h0)
  have h3 : JobsOk s3 := .when h2 .endExchange
  exact .stopFields (.each (fun _ _ => .clearFifos) h3)

theorem JobsOk.postReceipt {s : State} {j : Job} {rc : Byte} (h : JobsOk s) : JobsOk (s.postReceipt j rc) :=
  .ite (.modJob (fun _ => rfl) (.unclaim (.postEntry (.takeFresh h)))) (.dropJob (.unclaim (.postEntry (.takeFresh h))))

theorem JobsOk.endJob {s : State} {id : Nat} {rc : Byte} {partialE : Bool} {detail : BitVec 16} (h : JobsOk s) :
    JobsOk (s.endJob id rc partialE detail) := by
  unfold State.endJob
  split
  · exact h
  split
  · exact .postReceipt h
  · exact .endRunning h
  · exact .endRunning h
  · exact h

theorem JobsOk.endJobInForce {s : State} {id : Nat} {rc : Byte} {partialE : Bool} (h : JobsOk s) :
    JobsOk (s.endJobInForce id rc partialE) := by
  unfold State.endJobInForce
  split
  · exact h
  · exact .endJob h

theorem JobsOk.seqFault {s : State} {n : Nat} {fcode : Byte} (h : JobsOk s) : JobsOk (s.seqFault n fcode) := by
  unfold State.seqFault
  split
  · exact h
  · exact .endJob (.bump (.setFlag (.wr (.wr h))))

theorem JobsOk.stopJob {s : State} {j : Job} {rc : Byte} (h : JobsOk s) : JobsOk (s.stopJob j rc) := by
  unfold State.stopJob
  split
  · exact .postReceipt h
  · exact .ite h (.ite (.endJobInForce h) (.modJob (fun _ => rfl) h))
  · exact .ite h (.ite (.endJobInForce h) (.modJob (fun _ => rfl) h))
  · exact h

/-! ## Final entries (R22, R18) -/

theorem JobsOk.postFinal {s : State} {j : Job} {e : EndRec} (h : JobsOk s) : JobsOk (s.postFinal j e) :=
  .each (fun _ _ h => .modCh (.clearFifos h)) (.modJob (fun _ => rfl) (.postEntry h))

theorem keepsJobs_execFinalEntryWrite {n : Ch} {s : State} (h : JobsOk s) : KeepsJobs (execFinalEntryWrite n s) := by
  unfold execFinalEntryWrite
  split
  · exact .next h
  split
  · exact .next h
  · exact .next (.ite (.postFinal h) h)

end Sys2Proof.Machine
end

section
/-!
PROOFS. The serial numbers of jobs and open items stay in order: the ROM routines.
-/

namespace Sys2Proof.Machine

/-! ## What a ROM routine has seen (R95, R101, R257, R258) -/

theorem JobsOk.modRom {s : State} {j : Job} {g : RomCtx → RomCtx} (h : JobsOk s) : JobsOk (s.modRom j g) :=
  .ite (.modJob (fun _ => rfl) h) h

theorem JobsOk.noteCommand {s : State} {j : Job} {own : Bool} {txMode : Nat} {f : List Byte} (h : JobsOk s) :
    JobsOk (s.noteCommand j own txMode f) := .modRom h

theorem JobsOk.noteAnswer {s : State} {j : Job} {code : Nat} {delivered : Bool} {d : List Byte} (h : JobsOk s) :
    JobsOk (s.noteAnswer j code delivered d) := .modRom h

theorem JobsOk.noteSighting {s : State} {n : Nat} {x : Sighting} (h : JobsOk s) : JobsOk (s.noteSighting n x) := by
  unfold State.noteSighting
  split
  · exact h
  · exact .modRom h

theorem JobsOk.noteRound {s : State} {j : Job} {nodes : Nat} (h : JobsOk s) : JobsOk (s.noteRound j nodes) := .modRom h

end Sys2Proof.Machine
end

section
/-!
PROOFS. The serial numbers of jobs and open items stay in order: the ROM write routines.
-/

namespace Sys2Proof.Machine

/-! ## Following the frames -/

theorem JobsOk.modWrite {s : State} {j : Job} {g : WriteCtx → WriteCtx} (h : JobsOk s) : JobsOk (s.modWrite j g) :=
  .ite (.modSeq (.modJob (fun _ => rfl) h)) h

/-! ## The write that comes next (R174, R176, R177) -/

theorem JobsOk.noteTx {s : State} {j : Job} {own : Bool} {txMode : Nat} {f : List Byte} {nbytes bits : Nat} {cont : Bool}
    (h : JobsOk s) :
    JobsOk (s.noteTx j own txMode f nbytes bits cont) := by
  unfold State.noteTx
  exact .modWrite h

theorem JobsOk.noteMod {s : State} {j : Job} (h : JobsOk s) : JobsOk (s.noteMod j) := .modWrite h

theorem JobsOk.noteSof {s : State} {j : Job} (h : JobsOk s) : JobsOk (s.noteSof j) := .modWrite h

theorem JobsOk.noteEvent {s : State} {j : Job} {code : Nat} {delivered : Bool} {nbits : Nat} {d : List Byte} (h : JobsOk s) :
    JobsOk (s.noteEvent j code delivered nbits d) := by
  unfold State.noteEvent
  exact .modWrite (.noteAnswer h)

theorem JobsOk.noteClose {s : State} {j : Job} (h : JobsOk s) : JobsOk (s.noteClose j) := .modWrite h

theorem JobsOk.noteFault {s : State} {j : Job} {live inMod : Bool} (h : JobsOk s) : JobsOk (s.noteFault j live inMod) :=
  .modWrite (.modRom h)

end Sys2Proof.Machine
end

section
/-!
PROOFS. The serial numbers of jobs and open items stay in order: what is shared on the air.
-/

namespace Sys2Proof.Machine

/-! ## Members and targets -/

theorem JobsOk.teamField {s : State} {n : Nat} {f : FieldState} (h : JobsOk s) : JobsOk (s.teamField n f) :=
  .each (fun _ _ => .setField) h

theorem JobsOk.railCommand {s : State} (h : JobsOk s) : JobsOk s.railCommand := .with h

theorem JobsOk.railRaise {s : State} (h : JobsOk s) : JobsOk s.railRaise := .ite (.railCommand h) (.with h)

/-! ## Sequencer control -/

theorem JobsOk.resumeIf {s : State} {n : Nat} {b : Block} (h : JobsOk s) : JobsOk (s.resumeIf n b) := .ite (.modSeq h) h

/-! ## Patterns (R194 to R198) -/

theorem JobsOk.takePattern {s : State} {p : Nat} {members : BitVec 8} (h : JobsOk s) : JobsOk (s.takePattern p members) :=
  .each (fun _ _ h => .when (.modCh h) .setFlag) h

theorem JobsOk.startCalib {s : State} {n : Nat} (h : JobsOk s) : JobsOk (s.startCalib n) := .each (fun _ _ => .modCh) h

theorem JobsOk.selectPattern {s : State} {n p : Nat} (h : JobsOk s) : JobsOk (s.selectPattern n p) := by
  unfold State.selectPattern
  split
  · exact h
  · exact .ite (.seqFault h) (.modSeq (.when (.railRaise (.takePattern h)) fun hs => .each (fun _ _ => .modCh)
      (.startCalib hs)))

/-! ## Ramps and the switch bus -/

theorem JobsOk.requestAnt {s : State} {n pos : Nat} {en : Bool} (h : JobsOk s) : JobsOk (s.requestAnt n pos en) :=
  .modCh (.wr (.wr h))

theorem JobsOk.startRamp {s : State} {n : Nat} (h : JobsOk s) : JobsOk (s.startRamp n) := .modCh (.with h)

theorem JobsOk.refuseOn {s : State} {n : Nat} (h : JobsOk s) : JobsOk (s.refuseOn n) :=
  .seqFault (.each (fun _ _ h => .modCh (.setFlag h)) h)

theorem JobsOk.tryRamp {s : State} {n : Nat} (h : JobsOk s) : JobsOk (s.tryRamp n) :=
  .ite (.ite (.each (fun _ _ => .startRamp) h) (.refuseOn h)) h

/-! ## Transmit requests and exchanges (R16, R227, R228) -/

theorem JobsOk.waitForGate {s : State} {n : Nat} {j : Job} (h : JobsOk s) : JobsOk (s.waitForGate n j) :=
  .stopFields (.modCh (.modJob (fun _ => rfl) h))

theorem JobsOk.startMod {s : State} {n : Nat} {j : Job} {r : TxReq} (h : JobsOk s) : JobsOk (s.startMod n j r) := by
  unfold State.startMod
  extract_lets t last coil s1 s2 body s3 s4 w
  have h1 : JobsOk s1 := .modCh (.ite h (.endExchange h))
  have h2 : JobsOk s2 := .modJob (fun _ => rfl) h1
  have h3 : JobsOk s3 := .noteTx (.noteCommand h2)
  have h4 : JobsOk s4 := .unless h3 .reserveBeats
  exact .teamField (.each (fun _ _ => .modCh) h4)

theorem JobsOk.tryTx {s : State} {n : Nat} (h : JobsOk s) : JobsOk (s.tryTx n) := by
  unfold State.tryTx
  split
  · refine .ite ?_ h
    split
    · exact .endJobInForce (.endExchange h)
    · exact .ite (.startMod h) (.waitForGate h)
  · exact h

theorem JobsOk.kick {s : State} {n : Nat} (h : JobsOk s) : JobsOk (s.kick n) := by
  unfold State.kick
  split
  · exact .ite (.selectPattern h) h
  · exact .ite (.modSeq h) h
  · exact .tryTx h

theorem JobsOk.afterExchange {s : State} {n : Nat} (h : JobsOk s) : JobsOk (s.afterExchange n) := by
  unfold State.afterExchange
  refine .ite (.kick h) ?_
  split
  · exact .endJobInForce h
  · exact .ite (.each (fun _ _ => .stopField) h) (.kick h)

theorem JobsOk.closeWindow {s : State} {n : Nat} (h : JobsOk s) : JobsOk (s.closeWindow n) := by
  unfold State.closeWindow
  refine .afterExchange (.ite (.modCh (.modCh (.teamField ?_))) (.endExchange (.modCh (.teamField ?_))))
  · split
    · exact h
    · exact .ite h (.noteClose h)
  split
  · exact h
  · exact .ite h (.noteClose h)

theorem JobsOk.contGone {s : State} {n : Nat} (h : JobsOk s) : JobsOk (s.contGone n) := .ite (.afterExchange (.endExchange h)) h

/-! ## Channel faults (R51, R52, R230) -/

theorem JobsOk.cutAir {s : State} {n : Nat} (h : JobsOk s) : JobsOk (s.cutAir n) := by
  unfold State.cutAir
  split
  iterate 7 exact .modSeq h
  · exact .modSeq (.modInv h)
  · exact h

theorem JobsOk.leaveAir {s : State} {n : Nat} (h : JobsOk s) : JobsOk (s.leaveAir n) := by
  unfold State.leaveAir
  refine .each (fun _ _ h => ?_) h
  split
  · exact .when (.setField h) .stopField
  · exact .when (.setField h) .stopField
  all_goals exact h

theorem JobsOk.faultJob {s : State} {n : Nat} (h : JobsOk s) : JobsOk (s.faultJob n) := by
  unfold State.faultJob
  split
  · exact h
  extract_lets c s1 unfinished s2 s3
  have h2 : JobsOk s2 := .when (.noteFault h) .wr
  have h3 : JobsOk s3 := .leaveAir (.endExchange (.modCh h2))
  refine .ite h3 ?_
  split
  · exact .endJobInForce h3
  · exact .ite (.seqFault h3) (.modSeq (.cutAir (.modJob (fun _ => rfl) h3)))

theorem JobsOk.stopCoupling {s : State} {n : Nat} (h : JobsOk s) : JobsOk (s.stopCoupling n) := .ite (.wr (.setFlag (.with h))) h

theorem JobsOk.pauseCoupling {s : State} (h : JobsOk s) : JobsOk s.pauseCoupling := .each (fun _ _ => .stopField) (.with h)

theorem JobsOk.driveNext {s : State} {n : Nat} (h : JobsOk s) : JobsOk (s.driveNext n) := by
  unfold State.driveNext
  split
  · exact h
  split
  · exact h
  · exact .ite (.ite (.startRamp (.with h)) (.stopCoupling (.setFlag h))) h

theorem JobsOk.faultChan {s : State} {n : Nat} {bit cnt : Fld} (h : JobsOk s) : JobsOk (s.faultChan n bit cnt) :=
  .ite (.modCh (.bump (.setFlag h))) h

theorem JobsOk.faultChans {s : State} {l : List Nat} {bit : Nat → Fld} {cnt : Fld} (h : JobsOk s) :
    JobsOk (s.faultChans l bit cnt) :=
  .each (fun _ _ => .faultJob) (.each (fun _ _ => .stopCoupling) (.each (fun _ _ => .faultChan) h))

end Sys2Proof.Machine
end

section
/-!
PROOFS. The serial numbers of jobs and open items stay in order: the inventory engine.
-/

namespace Sys2Proof.Machine

/-! ## Reports (R233, R234) -/

theorem JobsOk.returnInvs {s : State} {n : Nat} {w : Word} {isEnd : Bool} (h : JobsOk s) : JobsOk (s.returnInvs n w isEnd) := by
  unfold State.returnInvs
  split
  · exact .modSeq h
  · exact h

theorem JobsOk.endRound {s : State} {n nodes : Nat} (h : JobsOk s) : JobsOk (s.endRound n nodes) := by
  unfold State.endRound
  refine .returnInvs ?_
  split
  · exact .modInv h
  · exact .noteRound (.modInv h)

theorem JobsOk.endInv {s : State} {n : Nat} {rc : Byte} (h : JobsOk s) : JobsOk (s.endInv n rc) := .returnInvs (.modInv h)

theorem JobsOk.report {s : State} {n : Nat} (h : JobsOk s) : JobsOk (s.report n) := by
  unfold State.report
  dsimp only
  split
  · exact h
  · exact .ite (.returnInvs (.modInv (.noteSighting h))) (.ite (.modInv (.noteSighting (.with h))) h)

/-! ## Frames -/

theorem JobsOk.engineSend {s : State} {n : Nat} {phase : InvPhase} {body : List Byte} {bits txCrc rxCrc : Nat} (h : JobsOk s) :
    JobsOk (s.engineSend n phase body bits txCrc rxCrc) :=
  .ite (.seqFault h) (.ite (.seqFault h) (.ite (.seqFault h) (.ite (.seqFault h) (.tryTx (.modCh h)))))

theorem JobsOk.sendSelect {s : State} {n : Nat} {phase : InvPhase} {level : Nat} {u : List Byte} (h : JobsOk s) :
    JobsOk (s.sendSelect n phase level u) := .engineSend h

theorem JobsOk.sendAc {s : State} {n : Nat} {phase : InvPhase} (h : JobsOk s) : JobsOk (s.sendAc n phase) := .engineSend h

theorem JobsOk.sendReqA {s : State} {n : Nat} {opening : Bool} (h : JobsOk s) : JobsOk (s.sendReqA n opening) := .engineSend h

/-! ## ISO/IEC 14443 A (R119 to R125) -/

theorem JobsOk.nodeA {s : State} {n k : Nat} (h : JobsOk s) : JobsOk (s.nodeA n k) :=
  .ite (.sendSelect h) (.ite (.sendAc h) (.ite (.ite (.sendSelect (.modInv h)) (.sendAc h)) (.sendSelect h)))

theorem JobsOk.popIdent {s : State} {n : Nat} (h : JobsOk s) : JobsOk (s.popIdent n) := by
  unfold State.popIdent
  dsimp only
  split
  · exact .endInv h
  · exact .nodeA (.modInv h)

theorem JobsOk.nextA {s : State} {n : Nat} (h : JobsOk s) : JobsOk (s.nextA n) := .ite (.popIdent h) (.endRound h)

theorem JobsOk.passA {s : State} {n : Nat} (h : JobsOk s) : JobsOk (s.passA n) := by
  unfold State.passA
  dsimp only
  split
  · exact .ite (.engineSend h) (.sendReqA (.modInv h))
  · exact .sendReqA (.modInv h)

theorem JobsOk.retryA {s : State} {n : Nat} {again : State → State} (hagain : ∀ t, JobsOk t → JobsOk (again t)) (h : JobsOk s) :
    JobsOk (s.retryA n again) := .ite (hagain _ (.modInv h)) (.nextA (.modInv h))

theorem JobsOk.tagErrA {s : State} {n : Nat} (h : JobsOk s) : JobsOk (s.tagErrA n) := .nextA (.modInv h)

theorem JobsOk.foundA {s : State} {n : Nat} {sak : Option Byte} {r : RxInfo} (h : JobsOk s) : JobsOk (s.foundA n sak r) :=
  .report (.modInv h)

theorem JobsOk.cleanTry {s : State} {n : Nat} (h : JobsOk s) : JobsOk (s.cleanTry n) := .modInv h

theorem JobsOk.eventAc {s : State} {n : Nat} {r : RxInfo} (h : JobsOk s) : JobsOk (s.eventAc n r) :=
  .ite (.nextA h) (.ite (.ite (.retryA (fun _ h => .sendAc h) h) (.nodeA (.modInv h)))
    (.ite (.ite (.nodeA (.modInv h)) (.retryA (fun _ h => .sendAc h) h)) (.retryA (fun _ h => .sendAc h) h)))

theorem JobsOk.eventSelect {s : State} {n : Nat} {r : RxInfo} (h : JobsOk s) : JobsOk (s.eventSelect n r) :=
  .ite (.nextA h) (.ite (.ite (.ite (.tagErrA h) (.nodeA (.modInv h))) (.foundA (.cleanTry h)))
    (.ite (.tagErrA h) (.retryA (fun _ h => .sendSelect h) h)))

theorem JobsOk.eventA {s : State} {n : Nat} {r : RxInfo} (h : JobsOk s) : JobsOk (s.eventA n r) := by
  unfold State.eventA
  dsimp only
  split
  · exact .ite (.endInv h) (.nodeA (.modInv h))
  · exact .ite (.nextA h) (.ite (.nodeA (.cleanTry h)) (.ite (.tagErrA h) (.retryA (fun _ h => .nodeA h) h)))
  · exact .eventAc h
  · exact .ite (.nextA h) (.ite (.foundA (.cleanTry h)) (.retryA (fun _ h => .sendAc h) h))
  · exact .eventSelect h
  · exact .endInv h
  · exact .ite (.nextA h) (.tagErrA h)
  · exact h

/-! ## ISO/IEC 14443 B (R126 to R128) -/

theorem JobsOk.sendSlotB {s : State} {n k : Nat} (h : JobsOk s) : JobsOk (s.sendSlotB n k) := .ite (.engineSend h) (.engineSend h)

theorem JobsOk.afterSlotB {s : State} {n k : Nat} (h : JobsOk s) : JobsOk (s.afterSlotB n k) := .ite (.sendSlotB h) (.endRound h)

theorem JobsOk.roundB {s : State} {n : Nat} (h : JobsOk s) : JobsOk (s.roundB n) := .ite (.endInv h) (.sendSlotB (.modInv h))

theorem JobsOk.eventB {s : State} {n : Nat} {r : RxInfo} (h : JobsOk s) : JobsOk (s.eventB n r) := by
  unfold State.eventB
  dsimp only
  split
  · exact .ite (.afterSlotB (.modInv h)) (.ite (.engineSend (.modInv h)) (.afterSlotB (.modInv h)))
  · exact .ite (.report (.modInv h)) (.afterSlotB (.modInv h))
  · exact h

/-! ## ISO/IEC 15693 (R129 to R131, R511) -/

theorem JobsOk.sendSlotV {s : State} {n k : Nat} (h : JobsOk s) : JobsOk (s.sendSlotV n k) := .ite (.engineSend h) (.engineSend h)

theorem JobsOk.nextV {s : State} {n : Nat} (h : JobsOk s) : JobsOk (s.nextV n) := by
  unfold State.nextV
  dsimp only
  split
  · exact .endInv h
  · exact .sendSlotV (.modInv h)

theorem JobsOk.reportV {s : State} {n : Nat} (h : JobsOk s) : JobsOk (s.reportV n) := .ite (.endRound h) (.report (.modInv h))

theorem JobsOk.quietV {s : State} {n : Nat} (h : JobsOk s) : JobsOk (s.quietV n) := by
  unfold State.quietV
  dsimp only
  split
  · exact .reportV h
  · exact .engineSend (.modInv h)

theorem JobsOk.slotV {s : State} {n k : Nat} {r : RxInfo} (h : JobsOk s) : JobsOk (s.slotV n k r) := .modInv h

theorem JobsOk.eventV {s : State} {n : Nat} {r : RxInfo} (h : JobsOk s) : JobsOk (s.eventV n r) := by
  unfold State.eventV
  split
  · exact .ite (.sendSlotV (.slotV h)) (.quietV (.modInv (.slotV h)))
  · exact .quietV h
  · exact h

/-! ## The engine -/

theorem JobsOk.engineEvent {s : State} {n : Nat} {r : RxInfo} (h : JobsOk s) : JobsOk (s.engineEvent n r) := by
  unfold State.engineEvent
  refine .ite ?_ ?_
  · split
    · exact .modInv h
    · exact .endJobInForce (.modInv h)
  split
  · exact .eventA (.modInv h)
  · exact .eventB (.modInv h)
  · exact .eventV (.modInv h)

theorem JobsOk.engineGo {s : State} {n : Nat} (h : JobsOk s) : JobsOk (s.engineGo n) := by
  unfold State.engineGo
  dsimp only
  split
  · split
    · exact .sendReqA h
    · exact .sendSlotB (.modInv h)
    · exact .nextV (.modInv h)
  · exact .ite (.popIdent h) (.engineSend h)
  · exact .afterSlotB h
  · exact .reportV h
  · split
    · exact .passA h
    · exact .roundB h
    · exact .nextV h
  · exact .returnInvs h
  · exact h

theorem JobsOk.invsGo {s : State} {n : Nat} (h : JobsOk s) : JobsOk (s.invsGo n) := by
  unfold State.invsGo
  split
  · exact h
  · exact .ite (.engineGo (.modInv h)) (.modInv h)

theorem JobsOk.retryReports {s : State} (h : JobsOk s) : JobsOk s.retryReports := by
  unfold State.retryReports
  refine .each (fun _ _ h => ?_) (.each (fun _ _ => .enqueueLate) h)
  split
  · exact .ite (.invsGo h) (.ite (.report h) h)
  · exact h

/-! ## Commands: the merge unit, the ager and INV_CMD -/

theorem JobsOk.mergeHead {s : State} (h : JobsOk s) : JobsOk s.mergeHead := by
  unfold State.mergeHead
  split
  · exact h
  refine .retryReports ?_
  split
  · exact .mergeSighting (.with h)
  · split
    · exact .bindHeld (.mergeSighting (.with h))
    · exact .when (.mergeSighting (.with h)) fun hs => .returnInvs (.modInv hs)
  · exact .modJob (fun _ => rfl) (.modInv (.bindHeld (.mergeSighting (.with h))))

theorem keepsJobs_execAgerVisit {index : BitVec 14} {s : State} (h : JobsOk s) : KeepsJobs (execAgerVisit index s) :=
  .next (.ite (.bump (.freeTab h)) h)

theorem JobsOk.invEffect {s : State} {op i : Nat} (h : JobsOk s) : JobsOk (s.invEffect op i) := by
  unfold State.invEffect
  dsimp only
  split
  · split
    · exact .wr h
    · exact .wr (.setFlag h)
  · exact .ite (.freeTab h) h
  · exact .ite (.putTab h) h
  · exact .ite (.putTab h) h
  · exact .each (fun _ _ h => .ite h (.freeTab h)) h
  · exact .each (fun _ _ => .freeTab) h

theorem keepsJobs_execInvCommandDone {s : State} (h : JobsOk s) : KeepsJobs (execInvCommandDone s) := by
  unfold execInvCommandDone
  split
  · exact .next h
  · exact .next (.ite h (.setFlag (.with (.invEffect h))))

end Sys2Proof.Machine
end

section
/-!
PROOFS. The serial numbers of jobs and open items stay in order: combined reception and locating.
-/

namespace Sys2Proof.Machine

/-! ## The SOF of a swarm frame (R202 to R204) -/

theorem JobsOk.swarmSof {s : State} {lead : Nat} {meas : List SofMeas} (h : JobsOk s) : JobsOk (s.swarmSof lead meas).1 :=
  .wr (.wrS (.each (fun _ _ h => .wrS (.wrS h)) (.each (fun _ _ => .wrS) h)))

/-! ## The locate unit (R207 to R210) -/

theorem JobsOk.startLocate {l : List LocReq} : ∀ {s : State}, JobsOk s → JobsOk (s.startLocate l) := by
  induction l with
  | nil => exact fun h => .with h
  | cons q rest ih =>
    intro s h
    unfold State.startLocate
    exact .ite (.with h) (.ite (ih (.bump (.setFlag h))) (.with h))

theorem JobsOk.askLocate {s : State} {j : Job} {sof : SwarmSof} (h : JobsOk s) : JobsOk (s.askLocate j sof).1 :=
  .iteFst h (.iteFst (.pair (.bump h)) (.iteFst (.pair (.bump h)) (.pair (.startLocate (.with h)))))

theorem JobsOk.endLocate {s : State} {q : LocReq} {b0 b1 cfg : Word} (h : JobsOk s) : JobsOk (s.endLocate q b0 b1 cfg) := by
  unfold State.endLocate
  refine .startLocate (.ite (.bump (.wrWord (.wrS (.wrS (.with h))))) ?_)
  split
  · exact .bump (.wrWord (.wrS (.wrS (.with h))))
  · exact .bump (.putTab (.wrWord (.wrS (.wrS (.with h)))))

end Sys2Proof.Machine
end

section
/-!
PROOFS. The serial numbers of jobs and open items stay in order: the receive path.
-/

namespace Sys2Proof.Machine

/-! ## Windows (R80, R92, R95, R512) -/

theorem JobsOk.armGain {s : State} {n : Nat} (h : JobsOk s) : JobsOk (s.armGain n) := .when (.modCh h) .setFlag

/-! ## Frames (R96 to R101) -/

theorem JobsOk.countEvent {s : State} {n code crc ncoll : Nat} (h : JobsOk s) : JobsOk (s.countEvent n code crc ncoll) := by
  unfold State.countEvent
  extract_lets s1 s2 s3 s4 s5
  have h2 : JobsOk s2 := .when (.wr h) .bump
  have h3 : JobsOk s3 := .when h2 .bump
  have h4 : JobsOk s4 := .when h3 .bump
  have h5 : JobsOk s5 := .when h4 fun h => .setFlag (.bump h)
  exact .when h5 .bump

theorem JobsOk.handEvent {s : State} {n code : Nat} {good : Bool} (h : JobsOk s) : JobsOk (s.handEvent n code good) := by
  unfold State.handEvent
  split
  · exact .modSeq h
  · exact .ite h (.modCh h)

theorem JobsOk.noteColl {s : State} {n : Nat} {d : Decoded} (h : JobsOk s) : JobsOk (s.noteColl n d) := .wr (.wr (.wrWord h))

theorem JobsOk.endFrame {s : State} {n : Nat} {w : Window} {r : RxFrame} (h : JobsOk s) : JobsOk (s.endFrame n w r) := by
  unfold State.endFrame
  extract_lets c d raw vals data got s1 s2 clipped s3 rec'
  have h2 : JobsOk s2 := .modCh (.countEvent (.noteColl (.with h)))
  have h3 : JobsOk s3 := .each (fun _ _ => .setFlag) h2
  split
  · exact h3
  extract_lets ask s4
  have ha : JobsOk ask.1 := .iteFst (.askLocate h3) (.pair h3)
  have h4 : JobsOk s4 := .when ha .modCh
  exact .ite (.engineEvent ha) (.handEvent (.noteEvent h4))

/-! ## Commands -/

theorem JobsOk.collectEvent {s : State} {n : Nat} {rd : GReg} (h : JobsOk s) : JobsOk (s.collectEvent n rd) := by
  unfold State.collectEvent
  split
  · exact .modCh h
  · exact .modSeq h

theorem keepsJobs_execModEnd {n : Ch} {s : State} (h : JobsOk s) : KeepsJobs (execModEnd n s) := by
  unfold execModEnd
  dsimp only
  split
  · refine .next ?_
    split
    · refine .modSeq ?_
      split
      · exact .modCh (.each (fun _ _ => .armGain) (.teamField h))
      · exact .noteMod (.modCh (.each (fun _ _ => .armGain) (.teamField h)))
    · refine .collectEvent ?_
      split
      · exact .modCh (.each (fun _ _ => .armGain) (.teamField h))
      · exact .noteMod (.modCh (.each (fun _ _ => .armGain) (.teamField h)))
    split
    · exact .modCh (.each (fun _ _ => .armGain) (.teamField h))
    · exact .noteMod (.modCh (.each (fun _ _ => .armGain) (.teamField h)))
  · exact .next h

theorem JobsOk.measureSof {s : State} {m : SofMeas} (h : JobsOk s) : JobsOk (s.measureSof m) :=
  .when (.wrS (.wrS (.wr (.wr h)))) .modCh

theorem keepsJobs_execSofDetect {n : Ch} {meas : List SofMeas} {fdt : Nat} {s : State} (h : JobsOk s) :
    KeepsJobs (execSofDetect n meas fdt s) := by
  unfold execSofDetect
  extract_lets l ms s1 rssi
  split
  · refine .ite (.next h) (.ite (.next (.bump h)) ?_)
    extract_lets sw t s2
    have h1 : JobsOk s1 := .each (fun _ _ => .measureSof) h
    have hsw : JobsOk sw.1 := .iteFst (.swarmSof h1) (.pair h1)
    have h2 : JobsOk s2 := .modCh (.wr (.with hsw))
    exact .next (.noteSof (.modInv h2))
  · exact .next h

theorem keepsJobs_execFrameEnd {n : Ch} {r : RxFrame} {s : State} (h : JobsOk s) : KeepsJobs (execFrameEnd n r s) := by
  unfold execFrameEnd
  dsimp only
  split
  · exact .next (.ite (.endFrame h) h)
  · exact .next h

theorem keepsJobs_execResponseTimeout {n : Ch} {s : State} (h : JobsOk s) : KeepsJobs (execResponseTimeout n s) := by
  unfold execResponseTimeout
  dsimp only
  split
  · refine .ite (.next h) (.next (.closeWindow (.ite (.engineEvent (.modCh (.countEvent h))) ?_)))
    split
    · exact .modCh (.countEvent h)
    · exact .handEvent (.noteEvent (.modCh (.countEvent h)))
  · exact .next h

theorem keepsJobs_execWindowClose {n : Ch} {s : State} (h : JobsOk s) : KeepsJobs (execWindowClose n s) := by
  unfold execWindowClose
  dsimp only
  split
  · exact .next (.ite (.closeWindow h) h)
  · exact .next h

theorem keepsJobs_execEarlySubcarrier {n : Ch} {s : State} (h : JobsOk s) : KeepsJobs (execEarlySubcarrier n s) := by
  unfold execEarlySubcarrier
  dsimp only
  split
  · exact .next (.ite h (.bump h))
  · exact .next h

end Sys2Proof.Machine
end

section
/-!
PROOFS. The serial numbers of jobs and open items stay in order: field drive and the synthesiser.
-/

namespace Sys2Proof.Machine

/-! ## Synthesiser maintenance (R480, R483) -/

theorem JobsOk.startSynth {s : State} (h : JobsOk s) : JobsOk s.startSynth := by
  unfold State.startSynth
  split
  · exact h
  · exact .with h

theorem JobsOk.drainStart {s : State} (h : JobsOk s) : JobsOk s.drainStart := .ite (.startSynth h) h

/-! ## The switch bus (R58 to R61) -/

theorem keepsJobs_execAntShiftStart {s : State} (h : JobsOk s) : KeepsJobs (execAntShiftStart s) :=
  .ite (.next h) (.next (.each (fun _ _ h => .ite (.modCh h) h) (.with h)))

theorem JobsOk.antDone {s : State} {n : Nat} (h : JobsOk s) : JobsOk (s.antDone n) :=
  .ite h (.driveNext (.tryRamp (.kick (.resumeIf h))))

theorem JobsOk.latchAnt {s : State} {n : Nat} {word : Word} (h : JobsOk s) : JobsOk (s.latchAnt n word) := .modCh h

theorem keepsJobs_execAntShiftComplete {s : State} (h : JobsOk s) : KeepsJobs (execAntShiftComplete s) := by
  unfold execAntShiftComplete
  split
  · exact .next h
  · exact .next (.each (fun _ _ => .antDone) (.each (fun _ _ => .latchAnt) (.wrWord (.with h))))

theorem JobsOk.offReached {s : State} {n : Nat} (h : JobsOk s) : JobsOk (s.offReached n) := .ite (.resumeIf h) h

theorem keepsJobs_execSettleEnd {n : Ch} {s : State} (h : JobsOk s) : KeepsJobs (execSettleEnd n s) :=
  .ite (.next (.drainStart (.antDone (.offReached (.setField h))))) (.next h)

/-! ## Ramps and calibration (R49, R54 to R57, R191, R192) -/

theorem JobsOk.onDone {s : State} {n : Nat} (h : JobsOk s) : JobsOk (s.onDone n) := .ite (.kick h) h

theorem keepsJobs_execRampEnd {n : Ch} {s : State} (h : JobsOk s) : KeepsJobs (execRampEnd n s) := by
  unfold execRampEnd
  extract_lets c s1
  have h1 : JobsOk s1 := .modCh h
  exact .ite (.next h) (.ite (.next (.stopField h1)) (.ite (.next (.modCh h1))
    (.ite (.next (.onDone (.startCalib h1))) (.next h1))))

theorem keepsJobs_execCalibrationEnd {n : Ch} {i q : BitVec 12} {resDb us : BitVec 8} {s : State} (h : JobsOk s) :
    KeepsJobs (execCalibrationEnd n i q resDb us s) := by
  unfold execCalibrationEnd
  extract_lets m base i q s1 k s2
  have h1 : JobsOk s1 := .wr (.wr (.wr (.wr h)))
  have h2 : JobsOk s2 := .ite (.setFlag h1) (.ite h1 (.wr (.wr (.wr h1))))
  exact .ite (.next h) (.next (.onDone (.modCh h2)))

theorem keepsJobs_execOpenAntennaCheck {n : Ch} {iMa : Nat} {s : State} (h : JobsOk s) : KeepsJobs (execOpenAntennaCheck n iMa s) :=
  .next (.ite (.faultChans h) h)

theorem keepsJobs_execDownEnd {n : Ch} {s : State} (h : JobsOk s) : KeepsJobs (execDownEnd n s) := by
  unfold execDownEnd
  extract_lets m s1 l
  have h1 : JobsOk s1 := .offReached (.setField h)
  exact .ite (.next h) (.ite (.next (.drainStart (.driveNext (.tryRamp (.kick h1))))) (.next (.drainStart h1)))

/-! ## The loop tick (R38 to R44, R56, R64) -/

theorem JobsOk.tickAmp {s : State} {n p vtxMv : Nat} (h : JobsOk s) : JobsOk (s.tickAmp n p vtxMv) :=
  .modCh (.wr (.ite (.setFlag h) h))

theorem JobsOk.tickOther {s : State} {n : Nat} (h : JobsOk s) : JobsOk (s.tickOther n) := by
  unfold State.tickOther
  dsimp only
  split
  iterate 4 exact .wr h
  all_goals exact h

theorem JobsOk.tickSettle {s : State} {n p : Nat} (h : JobsOk s) : JobsOk (s.tickSettle n p) := .modCh h

theorem JobsOk.settled {s : State} {n : Nat} (h : JobsOk s) : JobsOk (s.settled n) := .ite (.tryTx h) h

theorem JobsOk.columnTick {s : State} {n : Nat} (h : JobsOk s) : JobsOk (s.columnTick n) := by
  unfold State.columnTick
  split
  · exact h
  · exact .when (.modCh h) fun hs => .startDown (.with hs)

theorem keepsJobs_execLoopTick {n : Ch} {pMw iMa vtxMv : Nat} {dI dQ : Int} {s : State} (h : JobsOk s) :
    KeepsJobs (execLoopTick n pMw iMa vtxMv dI dQ s) := by
  unfold execLoopTick
  extract_lets m c p e s1 ph s2 s3
  have h2 : JobsOk s2 := .modCh (.wr (.wrSat (.wrSat h)))
  have h3 : JobsOk s3 := .tickSettle (.tickAmp h2)
  exact .ite (.next h) (.ite (.next (.tickOther h2)) (.ite (.next (.settled (.wrS (.wrS h3)))) (.next (.columnTick (.settled h3)))))

/-! ## The synthesiser (R65 to R68, R71) -/

theorem JobsOk.setSyn {s : State} {x : SynState} (h : JobsOk s) : JobsOk (s.setSyn x) := .with h

theorem JobsOk.lockFailed {s : State} (h : JobsOk s) : JobsOk s.lockFailed := .bump (.setFlag (.setSyn h))

theorem keepsJobs_execBandFound {s : State} (h : JobsOk s) : KeepsJobs (execBandFound s) :=
  .ite (.next h) (.next (.with (.wr (.wrS (.setSyn h)))))

theorem keepsJobs_execLockAttemptTimeout {s : State} (h : JobsOk s) : KeepsJobs (execLockAttemptTimeout s) :=
  .next (.ite (.lockFailed h) h)

theorem keepsJobs_execLockLost {s : State} (h : JobsOk s) : KeepsJobs (execLockLost s) :=
  .ite (.next h) (.next (.faultChans (.notifyAll (.bump (.setFlag (.setSyn h))))))

theorem JobsOk.maintEnd {s : State} {p : Maint → Bool} (h : JobsOk s) : JobsOk (s.maintEnd p) := .ite (.bump (.with h)) h

theorem JobsOk.becomeLocked {s : State} {us : BitVec 16} (h : JobsOk s) : JobsOk (s.becomeLocked us) :=
  .maintEnd (.withJobs (fun _ => rfl) (.wr (.setSyn h)))

theorem keepsJobs_execPhaseStepRelock {us : BitVec 16} {s : State} (h : JobsOk s) : KeepsJobs (execPhaseStepRelock us s) :=
  .next (.ite (.becomeLocked h) h)

theorem keepsJobs_execStepRelockTimeout {s : State} (h : JobsOk s) : KeepsJobs (execStepRelockTimeout s) :=
  .next (.ite (.notifyAll (.lockFailed h)) h)

/-! ## Image calibration (R84, R85) -/

theorem JobsOk.imageCalDone {s : State} {n : Nat} {g p : BitVec 12} {irrA irrB : BitVec 8} (h : JobsOk s) :
    JobsOk (s.imageCalDone n g p irrA irrB) := .when (.modCh (.wr (.wr (.wr (.wr h))))) .setFlag

theorem JobsOk.imageCalOver {s : State} {n : Nat} (h : JobsOk s) : JobsOk (s.imageCalOver n) := .maintEnd h

end Sys2Proof.Machine
end

section
/-!
PROOFS. The serial numbers of jobs and open items stay in order: the transmitter rail.
-/

namespace Sys2Proof.Machine

/-! ## The rail controller (R416 to R421) -/

theorem JobsOk.modPmb {s : State} {g : PmbSt → PmbSt} (h : JobsOk s) : JobsOk (s.modPmb g) := .with h

theorem JobsOk.pmbOff {s : State} (h : JobsOk s) : JobsOk s.pmbOff := .modPmb h

theorem JobsOk.pmbOn {s : State} (h : JobsOk s) : JobsOk s.pmbOn := .ite (.modPmb h) h

theorem JobsOk.pmbFault {s : State} {err : Nat} (h : JobsOk s) : JobsOk (s.pmbFault err) :=
  .notifyAll (.bump (.setFlag (.wr (.modPmb h))))

theorem JobsOk.pmbSetup {s : State} {voutMode : Byte} (h : JobsOk s) : JobsOk (s.pmbSetup voutMode) :=
  .ite (.pmbFault (.modPmb h)) (.railCommand (.modPmb (.modPmb h)))

theorem keepsJobs_execPmbTonEnd {voutMode : Byte} {s : State} (h : JobsOk s) : KeepsJobs (execPmbTonEnd voutMode s) :=
  .ite (.next h) (.ite (.next (.pmbSetup h)) (.next (.modPmb h)))

theorem JobsOk.pmbEngineOn {s : State} (h : JobsOk s) : JobsOk s.pmbEngineOn := by
  unfold State.pmbEngineOn
  split
  · exact .pmbSetup h
  · exact h

theorem keepsJobs_execPmbVsettleEnd {mantissa : BitVec 16} {s : State} (h : JobsOk s) :
    KeepsJobs (execPmbVsettleEnd mantissa s) := by
  unfold execPmbVsettleEnd
  extract_lets v s1
  have h1 : JobsOk s1 := .modPmb (.wrSat h)
  exact .ite (.next h) (.ite (.next (.railRaise (.bump (.modPmb h1)))) (.ite (.next (.pmbFault h1)) (.next (.modPmb h1))))

theorem keepsJobs_execPmbBusError {e : BusFail} {s : State} (h : JobsOk s) : KeepsJobs (execPmbBusError e s) :=
  .ite (.next h) (.ite (.next (.pmbFault h)) (.next (.modPmb h)))

theorem keepsJobs_execPmalert {statusWord : BitVec 16} {s : State} (h : JobsOk s) : KeepsJobs (execPmalert statusWord s) :=
  .ite (.next h) (.next (.when (.modPmb (.wr h)) .pmbFault))

theorem keepsJobs_execPmbRecoverEnd {s : State} (h : JobsOk s) : KeepsJobs (execPmbRecoverEnd s) :=
  .ite (.next h) (.next (.pmbOn (.modPmb h)))

theorem JobsOk.pmbRecover {s : State} (h : JobsOk s) : JobsOk s.pmbRecover := .ite (.modPmb (.pmbOff h)) h

theorem keepsJobs_execVtxlow {pair : Fin 4} {s : State} (h : JobsOk s) : KeepsJobs (execVtxlow pair s) :=
  .ite (.next (.unless (.faultChans h) .pmbFault)) (.next h)

/-! ## Step 4 (R418, R419, R421) -/

theorem JobsOk.placeRailHolds {s : State} (h : JobsOk s) : JobsOk s.placeRailHolds := .modPmb (.modPmb h)

theorem JobsOk.railStep4 {s : State} (h : JobsOk s) : JobsOk s.railStep4 := by
  unfold State.railStep4
  extract_lets s1
  have h1 : JobsOk s1 := .railRaise (.placeRailHolds h)
  exact .ite h1 (.ite (.ite (.modPmb (.railCommand h1)) (.modPmb h1)) (.modPmb h1))

/-! ## Raw access (R422) -/

theorem JobsOk.pmbRaw {s : State} {op : Nat} {code : Byte} {data : BitVec 16} (h : JobsOk s) : JobsOk (s.pmbRaw op code data).1 :=
  .iteFst h (.iteFst h (.pair (.wr (.wr (.modPmb h)))))

theorem keepsJobs_execPmbRawDone {data : BitVec 16} {failed : Bool} {s : State} (h : JobsOk s) :
    KeepsJobs (execPmbRawDone data failed s) := by
  unfold execPmbRawDone
  split
  · exact .next h
  refine .next ?_
  split
  · exact .unless (.wr (.setFlag (.modPmb h))) .wr
  · exact .wr (.setFlag (.modPmb h))

end Sys2Proof.Machine
end

section
/-!
PROOFS. The serial numbers of jobs and open items stay in order: Firefly.
-/

namespace Sys2Proof.Machine

/-! ## Steps -/

theorem JobsOk.modStep {s : State} {k : Nat} {g : WStep → WStep} (h : JobsOk s) : JobsOk (s.modStep k g) := .with h

theorem JobsOk.detect {s : State} {k : Nat} (h : JobsOk s) : JobsOk (s.detect k) :=
  .leaveIdle (.when (.notifyAll (.bump (.with (.wr (.modStep h))))) .latchWake)

theorem JobsOk.compareStep {s0 : State} {k : Nat} (h : JobsOk s0) : JobsOk (s0.compareStep k) := by
  unfold State.compareStep
  extract_lets w0 s1 w b v confirm fr s
  have h1 : JobsOk s1 := .modStep h
  have hs : JobsOk s := .takeFresh h1
  exact .ite h1 (.ite (.ite (.modStep hs) (.ite (.detect hs) (.modStep hs)))
    (.ite (.ite (.modStep hs) (.ite (.modStep hs) (.modStep hs))) (.modStep hs)))

theorem JobsOk.compareWatch {s : State} (h : JobsOk s) : JobsOk s.compareWatch := .each (fun _ _ h => .ite (.compareStep h) h) h

theorem JobsOk.ping {s : State} {k : Nat} {m : Int × Int} (h : JobsOk s) : JobsOk (s.ping k m) := .bump (.modStep (.with h))

theorem JobsOk.showWord {s : State} (h : JobsOk s) : JobsOk s.showWord := .wrWord h

theorem JobsOk.latchStep {s : State} {may : WStep → Bool} {k total : Nat} (h : JobsOk s) : JobsOk (s.latchStep may k total) := by
  unfold State.latchStep
  refine .ite h (.showWord (.each (fun _ _ h => ?_) h))
  split
  · exact h
  · exact .modCh h

theorem JobsOk.restoreAnt {s : State} {n : Nat} (h : JobsOk s) : JobsOk (s.restoreAnt n) := .ite h (.showWord (.modCh h))

theorem JobsOk.stepAwake {s : State} {total k : Nat} {m : Int × Int} (h : JobsOk s) : JobsOk (s.stepAwake total k m) :=
  .ite h (.ite (.bump h) (.ite (.modStep (.restoreAnt (.ping (.latchStep h)))) (.compareStep (.restoreAnt (.ping (.latchStep h))))))

theorem JobsOk.roundAwake {total : Nat} {ms : List (Int × Int)} :
    ∀ {s : State} {k : Nat}, JobsOk s → JobsOk (s.roundAwake total k ms) := by
  induction ms with
  | nil => exact fun h => h
  | cons m ms ih => exact fun h => ih (.stepAwake h)

theorem JobsOk.roundWatch {total : Nat} {ms : List (Int × Int)} :
    ∀ {s : State} {k : Nat}, JobsOk s → JobsOk (s.roundWatch total k ms).1 := by
  induction ms with
  | nil => exact fun h => h
  | cons m ms ih =>
    intro s k h
    unfold State.roundWatch
    extract_lets w s1
    have hs : JobsOk s1 := .compareStep (.ping (.latchStep h))
    clear_value s1
    split
    · exact hs
    · exact ih hs

theorem JobsOk.writeCfg {s : State} {k : Nat} {v : Word} (h : JobsOk s) : JobsOk (s.writeCfg k v) := .modStep h

theorem JobsOk.writeBase {s : State} {k : Nat} {v : Word} (h : JobsOk s) : JobsOk (s.writeBase k v) := .modStep h

theorem JobsOk.openRound {s : State} (h : JobsOk s) : JobsOk s.openRound := .each (fun _ _ => .modStep) (.with h)

theorem JobsOk.captureSteps {s : State} {one : Bool} {k : Nat} (h : JobsOk s) : JobsOk (s.captureSteps one k) :=
  .each (fun _ _ h => .ite (.modStep h) h) h

theorem JobsOk.clearSteps {s : State} {one : Bool} {k : Nat} (h : JobsOk s) : JobsOk (s.clearSteps one k) :=
  .each (fun _ _ => .modStep) h

theorem keepsJobs_execPingOscTrim {s : State} (h : JobsOk s) : KeepsJobs (execPingOscTrim s) := .next h

end Sys2Proof.Machine
end

section
/-!
PROOFS. The serial numbers of jobs and open items stay in order: accounts of energy, power and heat.
-/

namespace Sys2Proof.Machine

/-! ## The accounts -/

theorem JobsOk.modBudg {s : State} {g : BudgSt → BudgSt} (h : JobsOk s) : JobsOk (s.modBudg g) := .with h

theorem JobsOk.latchLim {s : State} (h : JobsOk s) : JobsOk s.latchLim := .modBudg h

theorem JobsOk.addHb {s : State} {x : Int} (h : JobsOk s) : JobsOk (s.addHb x) := .modBudg h

theorem JobsOk.addBal {s : State} {q : Nat} {x : Int} (h : JobsOk s) : JobsOk (s.addBal q x) := .modQu h

/-! ## Quota (R308 to R310) -/

theorem JobsOk.setOver {s : State} {p : Nat} (h : JobsOk s) : JobsOk (s.setOver p) :=
  .ite h (.notify (.modPt (fun _ => .inl rfl) h))

theorem JobsOk.quotaWritten {s : State} {p : Nat} (h : JobsOk s) : JobsOk (s.quotaWritten p) := .ite (.setOver h) h

/-! ## Step 1: settlement (R18, R190, R275, R298, R301, R308) -/

theorem JobsOk.openBeat {s : State} (h : JobsOk s) : JobsOk s.openBeat :=
  .each (fun _ _ => .modCh) (.withJobs (fun _ => rfl) (.modBudg h))

theorem JobsOk.chargeJob {s : State} {j : Job} (h : JobsOk s) : JobsOk (s.chargeJob j) :=
  .modPt (fun _ => .inl rfl) (.modJob (fun _ => rfl) h)

theorem JobsOk.settleJob {s : State} {j : Job} (h : JobsOk s) : JobsOk (s.settleJob j) :=
  .when (.addHb (.dropJob h)) .addBal

theorem JobsOk.portStep1 {s : State} {p : Nat} (h : JobsOk s) : JobsOk (s.portStep1 p) := by
  unfold State.portStep1
  extract_lets s1 off
  have h1 : JobsOk s1 := .modPt (fun _ => .inl rfl) h
  have hoff : JobsOk off := .modPt (fun _ => .inl rfl) h1
  exact .ite hoff (.ite (.setOver h1) (.ite hoff h1))

theorem JobsOk.clearFault {s : State} {n : Nat} (h : JobsOk s) : JobsOk (s.clearFault n) := .ite (.setField h) h

theorem JobsOk.step1 {s0 : State} (h : JobsOk s0) : JobsOk s0.step1 :=
  .each (fun _ _ => .clearFault) (.each (fun _ _ => .portStep1)
    (.each (fun _ _ => .settleJob) (.each (fun _ _ => .modCh) (.addHb (.each (fun _ _ => .chargeJob) (.openBeat h))))))

/-! ## Step 2: refills (R270, R275, R277, R278, R298) -/

theorem JobsOk.refillQueue {s : State} {q : Nat} (h : JobsOk s) : JobsOk (s.refillQueue q) := .modQu h

theorem JobsOk.refillPort {s : State} {p : Nat} (h : JobsOk s) : JobsOk (s.refillPort p) := .modPt (fun _ => .inl rfl) h

theorem JobsOk.refillHb {s : State} (h : JobsOk s) : JobsOk s.refillHb := .modBudg h

theorem JobsOk.step2 {s : State} (h : JobsOk s) : JobsOk s.step2 :=
  .refillHb (.each (fun _ _ => .refillPort) (.each (fun _ _ => .refillQueue) h))

/-! ## The thermal model (R312, R313). Its fixed-point widths are the model's: DESIGN CHOICE, log entry 46 -/

theorem JobsOk.stepModel {s : State} (h : JobsOk s) : JobsOk s.stepModel := .modBudg h

theorem JobsOk.thermStep4 {s : State} (h : JobsOk s) : JobsOk s.thermStep4 := by
  unfold State.thermStep4
  dsimp only
  split
  · exact .ite (.notifyAll (.setFlag (.modBudg h))) h
  · exact .ite (.modBudg h) h
  · exact .ite (.modBudg h) h

/-! ## Step 4 -/

theorem JobsOk.powerStep4 {s : State} (h : JobsOk s) : JobsOk s.powerStep4 :=
  .when (.when (.when (.modBudg h) .setFlag) .bump) fun hs => .latchLim (.wr hs)

theorem JobsOk.showPort {s : State} {p : Nat} (h : JobsOk s) : JobsOk (s.showPort p) :=
  .modPt (fun _ => .inl rfl) (.when (.wr (.wrSat (.wr (.wr h)))) .setFlag)

theorem JobsOk.showDeferrals {s : State} (h : JobsOk s) : JobsOk s.showDeferrals := .modBudg (.bump (.bump (.bump h)))

theorem JobsOk.showBudget {s : State} (h : JobsOk s) : JobsOk s.showBudget := by
  unfold State.showBudget
  extract_lets b sen amb s1 s2 s3 s4 s5 s6
  have h3 : JobsOk s3 := .keepMax (.wrSat (.wrS (.wrS (.wrSat (.wrSat (.wrS h))))))
  have h6 : JobsOk s6 := .wrSat (.wrSat (.wrS (.wrS (.wrS (.wrS (.wrS (.wrS h3)))))))
  exact .each (fun _ _ => .showPort) (.wr (.showDeferrals h6))

theorem JobsOk.step4 {s : State} (h : JobsOk s) : JobsOk s.step4 :=
  .showBudget (.railStep4 (.powerStep4 (.thermStep4 (.stepModel (.latchLim h)))))

/-! ## Step 6 (R280) -/

theorem JobsOk.step6 {s : State} (h : JobsOk s) : JobsOk s.step6 := .each (fun _ _ h => .keepMax (.modQu h)) h

theorem keepsJobs_execSupplySample {shuntUv vinMv : Nat} {s : State} (h : JobsOk s) :
    KeepsJobs (execSupplySample shuntUv vinMv s) := .next (.ite (.modBudg h) h)

end Sys2Proof.Machine
end

section
/-!
PROOFS. The serial numbers of jobs and open items stay in order: results of a running job.
-/

namespace Sys2Proof.Machine

/-! ## The result buffer (R237, R238, R240) -/

theorem JobsOk.refill {s : State} {n : Nat} (h : JobsOk s) : JobsOk (s.refill n) := by
  unfold State.refill
  split
  · exact h
  · exact .modSeq h

/-! ## Interim and final entries (R239, R241) -/

theorem JobsOk.doPost {s : State} {n : Nat} {j : Job} {r : GReg} (h : JobsOk s) : JobsOk (s.doPost n j r) :=
  .ite (.modSeq h) (.ite (.modSeq (.modRom h)) (.modSeq (.modRom (.postEntry h))))

theorem JobsOk.doEnd {s : State} {n : Nat} {j : Job} {rc : Byte} (h : JobsOk s) : JobsOk (s.doEnd n j rc) := by
  unfold State.doEnd
  split
  · exact .endJobInForce h
  · exact .endJob (.modSeq h)

theorem JobsOk.unblock {s : State} {n : Nat} (h : JobsOk s) : JobsOk (s.unblock n) := by
  unfold State.unblock
  split
  · exact h
  split
  · exact .ite (.doPost h) h
  · exact .ite (.doEnd h) h
  · exact .ite h (.modSeq h)
  · exact h

theorem JobsOk.refillEnded {s : State} (h : JobsOk s) : JobsOk s.refillEnded := .withJobs (fun _ => rfl) h

theorem JobsOk.delivered {s : State} (h : JobsOk s) : JobsOk s.delivered :=
  .each (fun _ _ h => .unblock (.refill h)) (.refillEnded h)

/-! ## Commands -/

theorem keepsJobs_execLocateDone {s : State} (h : JobsOk s) : KeepsJobs (execLocateDone s) := by
  unfold execLocateDone
  split
  · exact .next h
  split
  · exact .next h
  · exact .next (.ite h (.delivered (.endLocate h)))

end Sys2Proof.Machine
end

section
/-!
PROOFS. The serial numbers of jobs and open items stay in order: CRY.
-/

namespace Sys2Proof.Machine

/-! ## The queue (R146 to R148, R394) -/

theorem JobsOk.takeReq {s : State} {r : CryReq} (h : JobsOk s) : JobsOk (s.takeReq r) := .with h

theorem JobsOk.startEcc {s : State} (h : JobsOk s) : JobsOk s.startEcc := by
  unfold State.startEcc
  split
  · exact .with (.takeReq h)
  · exact h

theorem JobsOk.startAes {s : State} (h : JobsOk s) : JobsOk s.startAes := by
  unfold State.startAes
  split
  · exact .with (.takeReq h)
  · exact h

theorem JobsOk.startCry {s : State} (h : JobsOk s) : JobsOk s.startCry := .startAes (.startEcc h)

theorem JobsOk.powerCry {s : State} (h : JobsOk s) : JobsOk s.powerCry := .with h

theorem JobsOk.request {s : State} {n : Nat} {r : CryReq} (h : JobsOk s) : JobsOk (s.request n r) :=
  .ite (.modSeq (.startCry (.with (.powerCry h)))) (.modSeq (.bump h))

theorem JobsOk.retryRequests {s : State} (h : JobsOk s) : JobsOk s.retryRequests := by
  unfold State.retryRequests
  refine .each (fun _ _ h => .ite h ?_) h
  split
  · exact .request h
  · exact .request h
  · exact h

/-! ## Signatures (R159 to R163) -/

theorem JobsOk.logCry {s : State} {job entry : Nat} {w : Word} (h : JobsOk s) : JobsOk (s.logCry job entry w) :=
  .modJob (fun _ => rfl) h

theorem JobsOk.deliverSig {s : State} {r : CryReq} (h : JobsOk s) : JobsOk (s.deliverSig r) := by
  unfold State.deliverSig
  refine .ite (.bump h) ?_
  dsimp only
  split
  · exact .logCry (.ite (.bump (.putTab h)) (.ite (.bump (.putTab h)) (.bump (.putTab h))))
  · exact .logCry (.logCry (.ite (.bump (.putTab h)) (.ite (.bump (.putTab h)) (.bump (.putTab h)))))

theorem keepsJobs_execMerge {s : State} (h : JobsOk s) : KeepsJobs (execMerge s) :=
  .next (.ite h (.delivered (.retryRequests (.startCry (.mergeHead h)))))

theorem keepsJobs_execEcdsaDone {latUs : Nat} {s : State} (h : JobsOk s) : KeepsJobs (execEcdsaDone latUs s) := by
  unfold execEcdsaDone
  split
  · exact .next h
  · exact .next (.delivered (.retryRequests (.startCry (.with (.keepMax (.deliverSig h))))))

/-! ## Privacy tokens (R165 to R168) -/

theorem JobsOk.searchEnd {s t : State} {lat : Nat} (h : JobsOk s) (ht : s.searchEnd lat = some t) : JobsOk t := by
  unfold State.searchEnd at ht
  split at ht
  · cases ht
  split at ht
  · cases ht
  cases ht
  exact .with (.keepMax (.ite (.bump h) (.bump h)))

/-! ## Key commands (R155, R181) -/

theorem JobsOk.validateKey {s : State} {k : Nat} (h : JobsOk s) : JobsOk (s.validateKey k) := .ite (.wr h) h

theorem JobsOk.noteCheck {s : State} {ks : List Nat} (h : JobsOk s) : JobsOk (s.noteCheck ks) := by
  unfold State.noteCheck
  split
  · exact .wr h
  · exact .wr (.wr h)

theorem JobsOk.cryEffect {s : State} {op k : Nat} (h : JobsOk s) : JobsOk (s.cryEffect op k) := by
  unfold State.cryEffect
  split
  · exact .noteCheck (.validateKey h)
  · exact .wr h
  · exact .noteCheck (.each (fun _ _ => .validateKey) h)
  · exact .wr (.with h)

theorem keepsJobs_execCryCommandDone {s : State} (h : JobsOk s) : KeepsJobs (execCryCommandDone s) := by
  unfold execCryCommandDone
  split
  · exact .next h
  · exact .ite (.next h) (.next (.when (.setFlag (.with (.cryEffect h))) fun hs => .delivered (.retryRequests (.startCry hs))))

theorem keepsJobs_execPdCryPowerOff {s : State} (h : JobsOk s) : KeepsJobs (execPdCryPowerOff s) := .ite (.next (.with h)) (.next h)

end Sys2Proof.Machine
end

section
/-!
PROOFS. The serial numbers of jobs and open items stay in order: job queues and result rings.
-/

namespace Sys2Proof.Machine

/-! ## Items (R262 to R268) -/

theorem JobsOk.police {s : State} {j : Job} (h : JobsOk s) : JobsOk (s.police j).1 :=
  .iteFst h (.iteFst (.pair (.bump h)) (.iteFst (.pair (.bump (.modPt (fun _ => .inl rfl) h)))
    (.pair (.modPt (fun _ => .inl rfl) h))))

theorem JobsOk.refuseItem {s : State} {q : Nat} {st : Byte} (h : JobsOk s) : JobsOk (s.refuseItem q st).1 := .bump h

theorem JobsOk.dropItem {s : State} {id : Nat} (h : JobsOk s) : JobsOk (s.dropItem id) := by
  unfold State.dropItem
  split
  · exact h
  · exact .dropJob (.returnUnits h)

theorem JobsOk.discardOpen {s : State} {p : Nat} (h : JobsOk s) : JobsOk (s.discardOpen p) := by
  unfold State.discardOpen
  split
  · exact h
  · exact .modPt (fun _ => .inr rfl) (.dropItem h)

/-- A job is added whose serial number no other has. -/
theorem JobsOk.append {s t : State} {k : Job} (hj : t.jobs = s.jobs ++ [k]) (hn : s.nextJob ≤ t.nextJob) (hp : t.ports = s.ports)
    (hk : k.id < t.nextJob) (hq : k.queue < 64) (hd : ∀ j ∈ s.jobs, j.id ≠ k.id) (h : JobsOk s) : JobsOk t := by
  obtain ⟨hnd, hb, hu, hi⟩ := jobsOk_iff.mp h
  have ho : t.openIds = s.openIds := by
    unfold State.openIds State.pt
    rw [hp]
  rw [jobsOk_iff, hj, ho]
  refine ⟨?_, fun a ha => ?_, hu, fun i hm => Nat.lt_of_lt_of_le (hi i hm) hn⟩
  · rw [List.map_append, List.map_append]
    refine hnd.append (List.nodup_singleton _) fun i hm hm' => ?_
    obtain ⟨j, hjm, rfl⟩ : ∃ j ∈ s.jobs, j.id = i := by simpa [Job.tag] using hm
    exact hd j hjm (by simpa [Job.tag] using hm')
  · rw [List.map_append, List.mem_append] at ha
    rcases ha with ha | ha
    · exact ⟨Nat.lt_of_lt_of_le (hb a ha).1 hn, (hb a ha).2⟩
    · rw [List.mem_singleton.mp ha]
      exact ⟨hk, hq⟩

theorem State.mem_openIds {s : State} {i : Nat} : i ∈ s.openIds ↔ ∃ p < 4, (s.pt p).openItem = some i := by
  simp only [State.openIds, List.mem_filterMap, List.mem_range]

/-- The open item of a port after that of one port is set. -/
theorem State.openItem_modPt {s : State} {p q i b : Nat} (hq : q < 4)
    (e : ((s.modPt p fun t => { t with openItem := some i }).pt q).openItem = some b) :
    q = p ∧ b = i ∨ (s.pt q).openItem = some b := by
  by_cases hqp : q = p
  · subst hqp
    rw [State.pt_modPt_same _ _ _ hq] at e
    exact .inl ⟨rfl, (Option.some.inj e).symm⟩
  · rw [State.pt_modPt_other _ _ hqp] at e
    exact .inr e

/-- A port opens an item whose serial number was given out and that no port has open. -/
theorem JobsOk.openPort {s : State} {p i : Nat} (hn : i < s.nextJob) (hi : i ∉ s.openIds) (h : JobsOk s) :
    JobsOk (s.modPt p fun t => { t with openItem := some i }) := by
  obtain ⟨hd, hb, hu, ho⟩ := jobsOk_iff.mp h
  refine jobsOk_iff.mpr ⟨hd, hb, ?_, fun b hm => ?_⟩
  · rw [State.openIds, List.nodup_iff_pairwise_ne, List.pairwise_filterMap] at hu ⊢
    refine ((List.pairwise_and_iff.mpr ⟨hu, List.nodup_range⟩).imp_of_mem fun {a c} ha hc hac b hb b' hb' => ?_)
    have ha' := List.mem_range.mp ha
    have hc' := List.mem_range.mp hc
    rcases State.openItem_modPt ha' hb with ⟨rfl, rfl⟩ | eb <;> rcases State.openItem_modPt hc' hb' with ⟨rfl, rfl⟩ | eb'
    · exact absurd rfl hac.2
    · rintro rfl
      exact hi (State.mem_openIds.mpr ⟨c, hc', eb'⟩)
    · rintro rfl
      exact hi (State.mem_openIds.mpr ⟨a, ha', eb⟩)
    · exact hac.1 b eb b' eb'
  · obtain ⟨q, hq, e⟩ := State.mem_openIds.mp hm
    rcases State.openItem_modPt hq e with ⟨-, rfl⟩ | e'
    · exact hn
    · exact ho b (State.mem_openIds.mpr ⟨q, hq, e'⟩)

theorem JobsOk.takeItem {s : State} {j : Job} {slot run colour : Nat} {bytes : List Byte} (hid : j.id = s.nextJob)
    (hq : j.queue < 64)
    (h : JobsOk s) : JobsOk (s.takeItem j slot run colour bytes).1 := by
  obtain ⟨-, hb, -, -⟩ := jobsOk_iff.mp h
  refine h.append rfl (Nat.le_succ _) rfl (hid ▸ Nat.lt_succ_self _) hq fun i hi => ?_
  exact Nat.ne_of_lt (hid ▸ (hb i.tag (List.mem_map_of_mem hi)).1)

theorem JobsOk.enqueue {s : State} {id : Nat} (h : JobsOk s) : JobsOk (s.enqueue id) := by
  unfold State.enqueue
  split
  · exact h
  next j hj =>
    obtain ⟨-, hb, -, -⟩ := jobsOk_iff.mp h
    obtain ⟨hid, hmem⟩ : j.id = id ∧ j ∈ s.jobs := ⟨by simpa using List.find?_some hj, List.mem_of_find?_eq_some hj⟩
    obtain ⟨hlt, hq⟩ := hb j.tag (List.mem_map_of_mem hmem)
    refine .crossing (.append (s := s.dropJob id) rfl (Nat.le_refl _) rfl hlt hq (fun i hi => ?_) (.dropJob h))
    simpa [hid] using (List.mem_filter.mp hi).2

/-- A change of a port that keeps its open item keeps the open items. -/
theorem State.openIds_modPt {s : State} {p : Nat} {g : PortSt → PortSt} (hg : ∀ t, (g t).openItem = t.openItem) :
    (s.modPt p g).openIds = s.openIds := by
  refine List.filterMap_congr fun q hq => ?_
  by_cases hqp : q = p
  · subst hqp
    rw [State.pt_modPt_same _ _ _ (List.mem_range.mp hq), hg]
  · rw [State.pt_modPt_other _ _ hqp]

theorem State.openIds_bump {s : State} {f : Fld} {n : Nat} : (s.bump f n).openIds = s.openIds := rfl

/-- The marker leaves the next serial number and the open items. -/
theorem State.police_frame (s : State) (j : Job) :
    (s.police j).1.nextJob = s.nextJob ∧ (s.police j).1.openIds = s.openIds := by
  unfold State.police
  extract_lets p aware
  split
  · exact ⟨rfl, rfl⟩
  split
  · exact ⟨rfl, rfl⟩
  split
  · exact ⟨rfl, State.openIds_bump.trans (State.openIds_modPt fun _ => rfl)⟩
  · exact ⟨rfl, State.openIds_modPt fun _ => rfl⟩

/-- The port opens the item whose job it was given. -/
theorem JobsOk.openTaken {s : State} {j : Job} {p slot run colour : Nat} {bytes : List Byte} (hid : j.id = s.nextJob)
    (hq : j.queue < 64) (h : JobsOk s) :
    JobsOk ((s.takeItem j slot run colour bytes).1.modPt p fun t =>
      { t with openItem := some (s.takeItem j slot run colour bytes).2.id }) := by
  obtain ⟨-, -, -, ho⟩ := jobsOk_iff.mp h
  refine .openPort (hid.trans_lt (Nat.lt_succ_self _)) (fun hm => ?_) (.takeItem hid hq h)
  exact absurd hid (Nat.ne_of_lt (ho j.id hm))

theorem JobsOk.submitNew {s0 : State} {p : Port} {q : Nat} {fin : Bool} {bytes : List Byte} (hq : q < 64) (h : JobsOk s0) :
    JobsOk (s0.submitNew p q fin bytes).1 := by
  unfold State.submitNew
  extract_lets s j body
  have hs : JobsOk s := .modPt (fun _ => .inl rfl) (.discardOpen h)
  refine .iteFst hs (.iteFst hs ?_)
  split
  · refine .iteFst (.refuseItem (.bump hs)) ?_
    have hp := JobsOk.police (j := j) hs
    have hf := State.police_frame s j
    split
    next s1 colour e =>
    rw [e] at hp hf
    refine .iteFst (.refuseItem (.notify (.ite hp (.modPt (fun _ => .inl rfl) hp)))) ?_
    cases fin
    · exact .openTaken hf.1.symm hq hp
    · exact .enqueue (.takeItem hf.1.symm hq hp)
  · exact .refuseItem hs

theorem JobsOk.submitMore {s : State} {p : Port} {q : Nat} {fin : Bool} {bytes : List Byte} (h : JobsOk s) :
    JobsOk (s.submitMore p q fin bytes).1 := by
  unfold State.submitMore
  split
  · exact h
  · exact h
  extract_lets n s1 s2
  have h1 : JobsOk s1 := .modJob (fun _ => rfl) (.swrite h)
  have h2 : JobsOk s2 := .enqueue (.modPt (fun _ => .inr rfl) h1)
  exact .iteFst h (.iteFst (.discardOpen h) (.iteFst (.discardOpen h) (.iteFst h1 h2)))

theorem JobsOk.submit {s : State} {p : Port} {arg : Word} {part fin : Bool} {bytes : List Byte} (h : JobsOk s) :
    JobsOk (s.submit p arg part fin bytes).1 :=
  .iteFst h (.iteFst (.iteFst h (.submitNew (Nat.mod_lt _ (by decide)) h)) (.iteFst h (.submitMore h)))

/-! ## Flush (R283 to R286) -/

theorem JobsOk.flushOpen {s : State} {q p : Nat} (h : JobsOk s) : JobsOk (s.flushOpen q p) := by
  unfold State.flushOpen
  split
  · exact h
  · exact .ite (.modPt (fun _ => .inl rfl) (.discardOpen h)) h

theorem JobsOk.flushQueue {s : State} {p : Port} {arg : Word} (h : JobsOk s) : JobsOk (s.flushQueue p arg).1 :=
  .iteFst h (.iteFst h (.pair (.each (fun _ _ => .stopJob)
    (.each (fun _ _ => .postReceipt) (.each (fun _ _ => .flushOpen) h)))))

/-! ## Ring commands (R289, R290) -/

theorem JobsOk.resRead {s : State} {r maxEnt : Nat} (h : JobsOk s) : JobsOk (s.resRead r maxEnt).1 := .modRing h

theorem JobsOk.resMark {s : State} {r : Nat} (h : JobsOk s) : JobsOk (s.resMark r).1 := .modRing h

theorem JobsOk.resRewind {s : State} {r : Nat} (h : JobsOk s) : JobsOk (s.resRewind r).1 := by
  unfold State.resRewind
  split
  · exact h
  · exact .modRing h

theorem JobsOk.resRelease {s : State} {r count : Nat} (h : JobsOk s) : JobsOk (s.resRelease r count).1 :=
  .iteFst h (.pair (.modRing h))

theorem JobsOk.ringCmd {s : State} {p : Port} {arg reserved : Word} {act : State → Nat → State × Answer}
    (hact : ∀ t a, JobsOk t → JobsOk (act t a).1) (h : JobsOk s) :
    JobsOk (s.ringCmd p arg reserved act).1 := .iteFst h (.iteFst h (hact _ _ h))

end Sys2Proof.Machine
end

section
/-!
PROOFS. The serial numbers of jobs and open items stay in order: power states.
-/

namespace Sys2Proof.Machine

theorem JobsOk.modPwr {s : State} {g : PwrSt → PwrSt} (h : JobsOk s) : JobsOk (s.modPwr g) := .with h

/-! ## Cold resets (R458, R459) -/

theorem JobsOk.coldReset {s : State} {k : ColdKind} (_ : JobsOk s) : JobsOk (s.coldReset k) :=
  .same (s := State.reset) rfl rfl rfl jobsOk_reset

/-! ## Waking (R403, R404) -/

theorem JobsOk.recordWake {s : State} {old : PwrState} {l : List WakeEv} {early : Bool} (h : JobsOk s) :
    JobsOk (s.recordWake old l early) := .wr (.wr (.wr (.wr (.wr (.wr (.wr (.wrWord h)))))))

theorem JobsOk.countWake {s : State} {old : PwrState} {early : Bool} (h : JobsOk s) : JobsOk (s.countWake old early) :=
  .when (.when (.bump h) .bump) .bump

theorem JobsOk.startWake {s : State} {l : List WakeEv} {early : Bool} (h : JobsOk s) : JobsOk (s.startWake l early) :=
  .pmbOn (.modPwr (.countWake (.recordWake h)))

theorem JobsOk.joinWake {s : State} {ev : WakeEv} (h : JobsOk s) : JobsOk (s.joinWake ev) := by
  unfold State.joinWake
  dsimp only [State.takeFresh]
  exact .when (.with h) fun hs => .modPwr (.recordWake hs)

theorem JobsOk.wakeLow {s : State} {ev : WakeEv} (h : JobsOk s) : JobsOk (s.wakeLow ev) := by
  unfold State.wakeLow
  refine .ite ?_ (.startWake h)
  dsimp only [State.takeFresh]
  exact .startWake (.with h)

theorem JobsOk.wakeEvent {s : State} {ev : WakeEv} (h : JobsOk s) : JobsOk (s.wakeEvent ev) := by
  unfold State.wakeEvent
  split
  · exact .latchWake h
  split
  · exact .leaveIdle h
  · exact .wakeLow h
  · exact .wakeLow h
  · exact .wakeLow h
  · exact .ite (.joinWake h) h
  · exact h

/-! ## Entering a state (R397 to R400) -/

theorem JobsOk.switchOff {s : State} (h : JobsOk s) : JobsOk s.switchOff :=
  .each (fun _ _ => .clearFifos) (.modPmb (.with (.pmbOff (.modPwr h))))

theorem JobsOk.commitEntry {s : State} {e : Entry} (h : JobsOk s) : JobsOk (s.commitEntry e) := by
  unfold State.commitEntry
  dsimp only
  split
  · exact .bump (.modPwr h)
  · exact .unless (.bump (.modPwr h)) .leaveIdle
  · exact .ite (.coldReset (.bump (.modPwr h))) (.with (.switchOff (.bump (.modPwr h))))
  all_goals exact .ite (.modPwr (.switchOff (.bump (.modPwr h)))) (.startWake (.switchOff (.bump (.modPwr h))))

theorem JobsOk.abandonEntry {s : State} {e : Entry} {reason : Nat} (h : JobsOk s) : JobsOk (s.abandonEntry e reason) :=
  .when (.bump (.wr (.wr (.modPwr h)))) .notifyAll

theorem JobsOk.askAgents {e : Entry} {l : List Nat} : ∀ {s : State}, JobsOk s → JobsOk (s.askAgents e l) := by
  induction l with
  | nil => exact fun h => .commitEntry h
  | cons k ks ih =>
    intro s h
    unfold State.askAgents
    split
    · exact ih h
    · exact .modPwr h
    · exact .abandonEntry h

theorem JobsOk.pollEntry {s : State} (h : JobsOk s) : JobsOk s.pollEntry := by
  unfold State.pollEntry
  split
  · exact .modPwr h
  · exact .askAgents h

theorem JobsOk.beginEntry {s : State} {t : PwrState} {drain : Bool} (h : JobsOk s) : JobsOk (s.beginEntry t drain) :=
  .pollEntry (.modPwr (.wr (.wr (.wr h))))

theorem JobsOk.powerFrame {s : State} {arg : Word} {payload : List Byte} (h : JobsOk s) : JobsOk (s.powerFrame arg payload).1 := by
  unfold State.powerFrame
  split
  · exact h
  · exact .iteFst h (.iteFst h (.iteFst h (.iteFst h (.pair (.beginEntry h)))))

/-! ## Commands: entry -/

theorem keepsJobs_execAutoEntry {s : State} (h : JobsOk s) : KeepsJobs (execAutoEntry s) := by
  unfold execAutoEntry
  refine .ite ?_ (.next h)
  split
  · exact .next h
  · exact .next (.beginEntry h)

theorem keepsJobs_execEntryTimeout {s : State} (h : JobsOk s) : KeepsJobs (execEntryTimeout s) := by
  unfold execEntryTimeout
  split
  · exact .next h
  · exact .next (.abandonEntry h)

/-! ## Commands: wake events -/

theorem keepsJobs_execWakePin {rising : Bool} {s : State} (h : JobsOk s) : KeepsJobs (execWakePin rising s) :=
  .ite (.next (.wakeEvent h)) (.next h)

theorem JobsOk.hostEdge {s : State} {p : Port} (h : JobsOk s) : JobsOk (s.hostEdge p) := .ite (.leaveIdle h) (.ite (.wakeEvent h) h)

theorem keepsJobs_execTimerWake {s : State} (h : JobsOk s) : KeepsJobs (execTimerWake s) := .ite (.next (.wakeEvent h)) (.next h)

/-! ## Commands: the wake sequence (R404, R407, R408) -/

theorem JobsOk.powerDomain {s : State} {k : Nat} (h : JobsOk s) : JobsOk (s.powerDomain k) := .modPwr h

theorem JobsOk.nextDomain {s : State} (h : JobsOk s) : JobsOk s.nextDomain := by
  unfold State.nextDomain
  split
  · exact h
  · exact .modPwr (.powerDomain (.powerDomain h))
  · exact .modPwr (.powerDomain h)

theorem keepsJobs_execCrystalStable {s : State} (h : JobsOk s) : KeepsJobs (execCrystalStable s) :=
  .ite (.next h) (.next (.with (.wr (.modPwr (.powerDomain h)))))

theorem JobsOk.wakeDone {s : State} (h : JobsOk s) : JobsOk s.wakeDone := by
  unfold State.wakeDone
  dsimp only [State.takeFresh]
  exact .notifyAll (.wr (.modPwr (.with h)))

theorem keepsJobs_execCrystalStartTimeout {s : State} (h : JobsOk s) : KeepsJobs (execCrystalStartTimeout s) :=
  .ite (.next h) (.next (.when (.setFlag h) .wakeDone))

/-! ## Time across a sleep (R342 to R345) -/

theorem keepsJobs_execNtResume {ticks : Nat} {s : State} (h : JobsOk s) : KeepsJobs (execNtResume ticks s) :=
  .ite (.next h) (.next (.settleGate (.unless (.wrSat (.wrSat (.with h))) fun hs => .notifyAll (.with hs))))

theorem JobsOk.putRatio {s : State} {rc : Bool} {ratio : Nat} (h : JobsOk s) : JobsOk (s.putRatio rc ratio) :=
  .when (.ite (.wrSat (.with h)) (.with h)) .wrSat

theorem keepsJobs_execLpoSpan {rc : Bool} {ticks spanNs : Nat} {s : State} (h : JobsOk s) :
    KeepsJobs (execLpoSpan rc ticks spanNs s) := .ite (.next h) (.next (.putRatio h))

theorem JobsOk.switchLpo {s : State} {rc : Bool} {ticks : Nat} (h : JobsOk s) : JobsOk (s.switchLpo rc ticks) :=
  .ite h (.wr (.ite (.setFlag (.with h)) h))

/-! ## Firefly rounds (R410, R414, R415) -/

theorem keepsJobs_execWatchRound {meas : List (Int × Int)} {s : State} (h : JobsOk s) : KeepsJobs (execWatchRound meas s) := by
  unfold execWatchRound
  extract_lets total ms s1
  have h1 : JobsOk s1 := .openRound h
  refine .ite (.next h) ?_
  split
  · have hr := JobsOk.roundWatch (total := total) (k := 0) (ms := ms) (.modPwr (g := fun p => { p with closing := false }) h1)
    split
    next s2 e => exact .next (.of_eq e hr)
    next s2 k e => exact .next (.startWake (.of_eq e hr))
  · exact .next (.ite (.roundAwake h1) h)
  · exact .next (.ite (.roundAwake h1) h)
  all_goals exact .next h

end Sys2Proof.Machine
end

section
/-!
PROOFS. The serial numbers of jobs and open items stay in order: listen mode and the commissioning mailbox.
-/

namespace Sys2Proof.Machine

/-! ## The mailbox (R375 to R380) -/

theorem JobsOk.modEmu {s : State} {g : EmuSt → EmuSt} (h : JobsOk s) : JobsOk (s.modEmu g) := .with h

theorem JobsOk.setShadow {s : State} {m : Memory} (h : JobsOk s) : JobsOk (s.setShadow m) := .modEmu h

theorem JobsOk.openShadow {s : State} {a : Arbiter} (h : JobsOk s) : JobsOk (s.openShadow a) := .modEmu (.setShadow h)

theorem JobsOk.discardShadow {s : State} (h : JobsOk s) : JobsOk s.discardShadow := .bump (.modEmu h)

theorem JobsOk.dropField {s : State} {n : Nat} (h : JobsOk s) : JobsOk (s.dropField n) := .ite (.discardShadow h) h

theorem JobsOk.promote {s : State} {wire : Bool} (h : JobsOk s) : JobsOk (s.promote wire) :=
  .when (.notifyAll (.bump (.modEmu h))) .leaveIdle

theorem JobsOk.mailCmd {s : State} {p : Port} {op : Nat} (h : JobsOk s) : JobsOk (s.mailCmd p op).1 := by
  unfold State.mailCmd
  refine .iteFst ?_ (.iteFst (.iteFst h (.iteFst h (.pair (.promote h))))
    (.iteFst (.pair (.ite (.discardShadow h) h)) (.pair (.modEmu h))))
  split
  · exact .modEmu (.openShadow h)
  · exact h
  · exact h

theorem keepsJobs_execWireLockExpiry {s : State} (h : JobsOk s) : KeepsJobs (execWireLockExpiry s) :=
  .next (.ite (.discardShadow h) h)

/-! ## The card (R360 to R371) -/

theorem JobsOk.emuEnabled {s : State} {on : Bool} (h : JobsOk s) : JobsOk (s.emuEnabled on) :=
  .each (fun _ _ h => .ite (.modCard h) (.modCard (.dropField h))) h

theorem JobsOk.suspendCards {s : State} {m : BitVec 8} (h : JobsOk s) : JobsOk (s.suspendCards m) :=
  .each (fun _ _ h => .modCard (.dropField h)) h

theorem JobsOk.drawUid {s : State} (h : JobsOk s) : JobsOk s.drawUid.2 := by
  unfold State.drawUid
  dsimp only [State.takeFresh]
  split
  · exact h
  · exact .with h

theorem JobsOk.fieldOn {s : State} {n : Ch} (h : JobsOk s) : JobsOk (s.fieldOn n) := by
  unfold State.fieldOn
  split
  next u s1 e =>
  have h1 : JobsOk s1 := by
    have hd := JobsOk.drawUid h
    rwa [e] at hd
  have h2 : JobsOk (s1.modCard n.val fun _ => { state := .idle, field := true, uid := u }) := .modCard h1
  exact .unless (.notifyAll (.setFlag h2)) .wakeEvent

theorem keepsJobs_execEmuFieldDetect {n : Ch} {s : State} (h : JobsOk s) : KeepsJobs (execEmuFieldDetect n s) :=
  .next (.ite (.fieldOn h) h)

theorem keepsJobs_execEmuFieldLoss {n : Ch} {s : State} (h : JobsOk s) : KeepsJobs (execEmuFieldLoss n s) :=
  .next (.ite (.notifyAll (.modCard (.dropField h))) h)

theorem JobsOk.cardSends {s : State} {n : Nat} {bs : List Byte} (h : JobsOk s) : JobsOk (s.cardSends n bs) := .modCard h

theorem JobsOk.otherFrame {s : State} {n : Nat} (h : JobsOk s) : JobsOk (s.otherFrame n) := by
  unfold State.otherFrame
  split
  · exact .cardSends (.modCard h)
  · exact .cardSends (.modCard h)
  all_goals exact h

theorem KeepsJobs.cardFrame {s : State} {n : Ch} {st : CardState} {g : State → State} (hg : ∀ t, JobsOk t → JobsOk (g t))
    (h : JobsOk s) :
    KeepsJobs (s.cardFrame n st g) := .next (.ite h (.ite (hg _ h) (.otherFrame h)))

theorem JobsOk.toReady {s : State} {n : Nat} {halt : Bool} (h : JobsOk s) : JobsOk (s.toReady n halt) := .cardSends (.modCard h)

theorem keepsJobs_execEmuReqa {n : Ch} {s : State} (h : JobsOk s) : KeepsJobs (execEmuReqa n s) :=
  .cardFrame (fun _ h => .ite (.toReady h) h) h

theorem keepsJobs_execEmuWupa {n : Ch} {s : State} (h : JobsOk s) : KeepsJobs (execEmuWupa n s) :=
  .ite (.cardFrame (fun _ h => .ite (.toReady h) h) h) (.cardFrame (fun _ h => .ite (.toReady h) h) h)

theorem keepsJobs_execEmuAnticollision {n : Ch} {sel : Byte} {known : List Bool} {s : State} (h : JobsOk s) :
    KeepsJobs (execEmuAnticollision n sel known s) := by
  unfold execEmuAnticollision
  refine .cardFrame (fun _ h => ?_) h
  split
  · exact .otherFrame h
  · exact .ite (.cardSends h) (.otherFrame h)

theorem keepsJobs_execEmuSelect {n : Ch} {sel : Byte} {uid : List Byte} {s : State} (h : JobsOk s) :
    KeepsJobs (execEmuSelect n sel uid s) :=
  .cardFrame (fun _ h => .ite (.otherFrame h) (.ite (.cardSends h) (.cardSends (.modCard h)))) h

theorem keepsJobs_execEmuRats {n : Ch} {param : Byte} {s : State} (h : JobsOk s) : KeepsJobs (execEmuRats n param s) :=
  .cardFrame (fun _ h => .bump (.cardSends (.modCard h))) h

theorem keepsJobs_execEmuPps {n : Ch} {dri dsi : BitVec 2} {s : State} (h : JobsOk s) : KeepsJobs (execEmuPps n dri dsi s) :=
  .cardFrame (fun _ h => .ite (.modCard (.cardSends h)) (.cardSends h)) h

theorem keepsJobs_execEmuHlta {n : Ch} {s : State} (h : JobsOk s) : KeepsJobs (execEmuHlta n s) :=
  .ite (.next (.ite (.dropField h) h)) (.cardFrame (fun _ h => .cardSends (.modCard (.dropField h))) h)

theorem keepsJobs_execSDeselect {n : Ch} {s : State} (h : JobsOk s) : KeepsJobs (execSDeselect n s) :=
  .cardFrame (fun _ h => .cardSends (.modCard (.dropField h))) h

theorem keepsJobs_execEmuOtherFrame {n : Ch} {s : State} (h : JobsOk s) : KeepsJobs (execEmuOtherFrame n s) :=
  .next (.ite (.otherFrame h) h)

/-! ## The Type 4 Tag application (R371 to R377) -/

theorem keepsJobs_execChainedIBlock {n : Ch} {data : List Byte} {s : State} (h : JobsOk s) :
    KeepsJobs (execChainedIBlock n data s) := .cardFrame (fun _ h => .cardSends (.modCard h)) h

theorem JobsOk.refuseApdu {s : State} (h : JobsOk s) : JobsOk s.refuseApdu.1 := by
  unfold State.refuseApdu
  dsimp only [State.takeFresh]
  exact .with h

theorem JobsOk.selectName {s : State} {n : Ch} {aid : List Byte} (h : JobsOk s) : JobsOk (s.selectName n aid).1 :=
  .iteFst (.pair (.modCard h)) (.refuseApdu h)

theorem JobsOk.selectFile {s : State} {n : Ch} {f : Nat} (h : JobsOk s) : JobsOk (s.selectFile n f).1 :=
  .iteFst (.refuseApdu h) (.iteFst (.pair (.modCard h)) (.iteFst (.pair (.modCard h)) (.iteFst (.pair (.modCard h)) h)))

theorem JobsOk.readFile {s : State} {n : Ch} {off le : Nat} (h : JobsOk s) : JobsOk (s.readFile n off le).1 := by
  unfold State.readFile
  split
  · exact .refuseApdu h
  all_goals exact h

theorem JobsOk.phoneWrite {s : State} {off : Nat} {data : List Byte} (h : JobsOk s) : JobsOk (s.phoneWrite off data).1 :=
  .iteFst h (.iteFst h (.iteFst (.pair (.promote (.setShadow h))) (.pair (.setShadow h))))

theorem JobsOk.updateFile {s : State} {n : Ch} {off lc : Nat} {data : List Byte} (h : JobsOk s) :
    JobsOk (s.updateFile n off lc data).1 := by
  unfold State.updateFile
  refine .iteFst h (.iteFst h (.iteFst (.refuseApdu h) ?_))
  split
  · exact h
  · exact .iteFst (.phoneWrite h) h
  · exact .phoneWrite (.modEmu (.openShadow h))

theorem JobsOk.unknownApdu {s : State} {cla : Byte} (h : JobsOk s) : JobsOk (s.unknownApdu cla).1 := h

theorem JobsOk.runApdu {s : State} {n : Ch} {bytes : List Byte} (h : JobsOk s) : JobsOk (s.runApdu n bytes).1 := by
  unfold State.runApdu
  split
  · exact .iteFst (.unknownApdu h) (.iteFst h (.iteFst (.selectName h)
      (.iteFst (.selectFile h) (.iteFst (.refuseApdu h) (.iteFst (.readFile h) (.iteFst (.updateFile h) (.unknownApdu h)))))))
  · exact h

theorem KeepsJobs.apdu {s : State} {n : Ch} {len : Nat} {tail : List Byte} {g : State → Apdu} (hg : ∀ t, JobsOk t → JobsOk (g t).1)
    (h : JobsOk s) :
    KeepsJobs (s.apdu n len tail g) :=
  .cardFrame (fun _ h => .cardSends (.iteFst (.pair (.modCard h)) (.iteFst (hg _ (.modCard h)) (.runApdu (.modCard h))))) h

theorem keepsJobs_execSelectByName {n : Ch} {aid : List Byte} {s : State} (h : JobsOk s) : KeepsJobs (execSelectByName n aid s) :=
  .apdu (fun _ h => .selectName h) h

theorem keepsJobs_execSelectByFileId {n : Ch} {fid : BitVec 16} {s : State} (h : JobsOk s) :
    KeepsJobs (execSelectByFileId n fid s) := .apdu (fun _ h => .selectFile h) h

theorem keepsJobs_execReadBinary {n : Ch} {off : BitVec 16} {le : Nat} {s : State} (h : JobsOk s) :
    KeepsJobs (execReadBinary n off le s) := .apdu (fun _ h => .readFile h) h

theorem keepsJobs_execUpdateBinary {n : Ch} {off : BitVec 16} {lc : Nat} {data : List Byte} {s : State} (h : JobsOk s) :
    KeepsJobs (execUpdateBinary n off lc data s) := .apdu (fun _ h => .updateFile h) h

theorem keepsJobs_execEmuUnknownApdu {n : Ch} {cla ins : Byte} {s : State} (h : JobsOk s) :
    KeepsJobs (execEmuUnknownApdu n cla ins s) := .apdu (fun _ h => .unknownApdu h) h

/-! ## The journal (R381 to R385) -/

theorem JobsOk.eraseSector {s : State} {off : Nat} (h : JobsOk s) : JobsOk (s.eraseSector off) := .with h

theorem JobsOk.programBytes {bs : List Byte} : ∀ {s : State} {a : Nat}, JobsOk s → JobsOk (s.programBytes a bs) := by
  induction bs with
  | nil => exact fun h => h
  | cons b bs ih => exact fun h => ih (.fset h)

theorem keepsJobs_execJournalWrite {s : State} (h : JobsOk s) : KeepsJobs (execJournalWrite s) := by
  unfold execJournalWrite
  refine .ite (.next h) ?_
  split
  · exact .next (.modEmu (.modFlash (.programBytes (.bump (.bump (.each (fun _ _ => .eraseSector) h))))))

theorem JobsOk.journalFails {s : State} {slot : Nat} (h : JobsOk s) : JobsOk (s.journalFails slot) :=
  .when (.modEmu (.bump h)) .setFlag

theorem keepsJobs_execJournalCommit {good : Bool} {s : State} (h : JobsOk s) : KeepsJobs (execJournalCommit good s) := by
  unfold execJournalCommit
  dsimp only [State.takeFresh]
  split
  · exact .next h
  · exact .ite (.next h) (.ite (.next (.modEmu (.wr (.bump (.programBytes (.modFlash h))))))
      (.next (.journalFails (.bump (.programBytes (.with (.modFlash h)))))))

end Sys2Proof.Machine
end

section
/-!
PROOFS. The serial numbers of jobs and open items stay in order: maintenance.
-/

namespace Sys2Proof.Machine

/-! ## Claims (R188, R320, R482) -/

theorem JobsOk.endClaim {s : State} {n : Nat} (h : JobsOk s) : JobsOk (s.endClaim n) := by
  unfold State.endClaim
  split
  · exact .unclaim h
  · exact .setClaim h

theorem JobsOk.claimAll {s : State} {mask : BitVec 8} {c : Claim} (h : JobsOk s) : JobsOk (s.claimAll mask c) :=
  .each (fun _ _ => .setClaim) (.each (fun _ _ => .endClaim) h)

theorem JobsOk.modMaint {s : State} {i : Nat} {g : Maint → Maint} (h : JobsOk s) : JobsOk (s.modMaint i g) := by
  unfold State.modMaint
  split
  · exact h
  · exact .with h

theorem JobsOk.claimMaint {s : State} {i : Nat} (h : JobsOk s) : JobsOk (s.claimMaint i) := by
  unfold State.claimMaint
  split
  · exact h
  · exact .ite (.modMaint (.claimAll h)) h

/-! ## Grants (R356, R481) -/

theorem JobsOk.startCoupling {s : State} {mask : BitVec 8} {g : Nat} (h : JobsOk s) : JobsOk (s.startCoupling mask g) :=
  .each (fun _ _ => .requestAnt) h

theorem JobsOk.grantMaint {s : State} {i : Nat} (h : JobsOk s) : JobsOk (s.grantMaint i) := by
  unfold State.grantMaint
  split
  · exact h
  refine .ite h ?_
  dsimp only
  split
  · exact .startCoupling (.modMaint (.modBudg (.ite (.each (fun _ _ => .setClaim) h) h)))
  all_goals exact .modMaint (.modBudg (.ite (.each (fun _ _ => .setClaim) h) h))

theorem JobsOk.serveAt {s : State} {i : Nat} (h : JobsOk s) : JobsOk (s.serveAt i) := by
  unfold State.serveAt
  split
  · exact h
  · exact .ite (.grantMaint h) (.ite (.startSynth h) h)

theorem JobsOk.serveMaint {s : State} (h : JobsOk s) : JobsOk s.serveMaint :=
  .drainStart (.each (fun _ _ => .serveAt) (.each (fun _ _ => .claimMaint) h))

/-! ## The drain (R483) -/

theorem keepsJobs_execMaintDrainTimeout {s : State} (h : JobsOk s) : KeepsJobs (execMaintDrainTimeout s) :=
  .ite (.next (.drainStart (.notifyAll (.bump (.with (.each (fun _ _ => .claimMaint) h))))))
    (.next (.each (fun _ _ => .claimMaint) h))

theorem JobsOk.forceDown {s : State} {n : Nat} (h : JobsOk s) : JobsOk (s.forceDown n) := .ite (.startDown (.modCh h)) (.modCh h)

theorem keepsJobs_execDrainForce {s : State} (h : JobsOk s) : KeepsJobs (execDrainForce s) := by
  unfold execDrainForce
  split
  · exact .next h
  · exact .ite (.next (.drainStart (.each (fun _ _ => .faultJob)
      (.each (fun _ _ => .stopCoupling) (.each (fun _ _ => .forceDown) h))))) (.next h)

/-! ## Coupling measurements (R199 to R201) -/

theorem keepsJobs_execCouplingMeasurementDone {avg : List (Int × Int)} {clipped : Bool} {s : State} (h : JobsOk s) :
    KeepsJobs (execCouplingMeasurementDone avg clipped s) := by
  unfold execCouplingMeasurementDone
  split
  · exact .next h
  split
  · exact .next (.maintEnd (.wr (.setFlag (.swrite h))))
  all_goals exact .next h

/-! ## Self-tests (R484) -/

theorem JobsOk.romDone {s : State} {failed : Bool} (h : JobsOk s) : JobsOk (s.romDone failed) :=
  .ite (.bump (.setFlag (.wr (.bump (.with h))))) (.setFlag (.bump (.with h)))

theorem JobsOk.chTestDone {s : State} {failed : BitVec 8} (h : JobsOk s) : JobsOk (s.chTestDone failed) :=
  .bump (.bump (.with (.wr (.wr h))))

theorem keepsJobs_execDiagTestDone {rom : Bool} {failed : BitVec 8} {s : State} (h : JobsOk s) :
    KeepsJobs (execDiagTestDone rom failed s) := .next (.ite h (.ite (.ite (.romDone h) h) (.chTestDone h)))

end Sys2Proof.Machine
end

section
/-!
PROOFS. The serial numbers of jobs and open items stay in order: the beat boundary.
-/

namespace Sys2Proof.Machine

/-! ## Step 3 (R354) -/

theorem JobsOk.step3 {s : State} (h : JobsOk s) : JobsOk s.step3 := .with h

/-! ## Outcomes of the checks (R188, R189, R276, R319, R320) -/

theorem JobsOk.placeClaim {s : State} {j : Job} {k : Nat} {gold : Bool} (h : JobsOk s) : JobsOk (s.placeClaim j k gold) :=
  .when (.claimAll h) .bump

theorem JobsOk.claimAfter {s : State} {j : Job} {k : Nat} (h : JobsOk s) : JobsOk (s.claimAfter j k) :=
  .ite (.ite (.placeClaim h) h) (.ite h (.ite (.ite (.placeClaim h) h) (.unclaim h)))

theorem JobsOk.closedClaims {s : State} (h : JobsOk s) : JobsOk s.closedClaims := .each (fun _ _ h => .ite (.setClaim h) h) h

theorem JobsOk.countFail {s : State} {j : Job} {k : Nat} (h : JobsOk s) : JobsOk (s.countFail j k) := by
  unfold State.countFail
  split
  · exact .bump h
  · exact .modBudg h
  · exact .modBudg h
  · exact .modBudg h
  · exact .bump h
  · exact h

theorem JobsOk.showElig {s : State} {j : Job} {k : Nat} (h : JobsOk s) : JobsOk (s.showElig j k) := .ite h (.modQu h)

theorem JobsOk.grant {s : State} {j : Job} {d : Decl} (h : JobsOk s) : JobsOk (s.grant j d) :=
  .suspendCards (.unclaim (.bump (.when (.addHb (.modJob (fun _ => rfl) (.reserveUnits h))) .addBal)))

/-- The invariant stays over a fold whose steps keep it in the state of a pair. -/
theorem JobsOk.foldl {α β : Type} {f : State × β → α → State × β} {l : List α} {s : State} {b : β}
    (hf : ∀ x a, JobsOk x.1 → JobsOk (f x a).1) (h : JobsOk s) : JobsOk (l.foldl f (s, b)).1 :=
  List.foldlRecOn (motive := fun x => JobsOk x.1) l f h fun x hx a _ => hf x a hx

theorem JobsOk.consider {a : Admission} {j : Job} (h : JobsOk a.s) : JobsOk (a.consider j).1.s := by
  unfold Admission.consider
  extract_lets d k s1
  have h1 : JobsOk s1 := .showElig h
  split
  · exact .grant h1
  · exact .claimAfter (.countFail h1)

theorem JobsOk.serveClass {a : Admission} {c : Nat} {heads : List Job} (h : JobsOk a.s) : JobsOk (a.serveClass c heads).s := by
  unfold Admission.serveClass
  extract_lets step
  have hstep (x : Admission × Option Nat) (hx : JobsOk x.1.s) (j : Job) : JobsOk (step x j).1.s := by
    have hc := JobsOk.consider (j := j) hx
    unfold step
    split
    next b e => rw [e] at hc; exact hc
    next b e => rw [e] at hc; exact hc
  have hl := List.foldlRecOn (motive := fun x : Admission × Option Nat => JobsOk x.1.s) heads step (b := (a, none)) h
    fun x hx j _ => hstep x hx j
  generalize heads.foldl step (a, none) = x at hl
  obtain ⟨b, q⟩ := x
  cases q with
  | none => exact hl
  | some q => exact .with hl

theorem JobsOk.expireClass {s : State} {heads : List Job} (h : JobsOk s) : JobsOk (s.expireClass heads).1 := by
  refine .foldl (fun x j hx => ?_) h
  split
  · exact hx
  · exact .postReceipt hx

theorem JobsOk.expireAll {s : State} (h : JobsOk s) : JobsOk s.expireAll.1 := by
  unfold State.expireAll
  refine .foldl (fun x a hx => ?_) h
  dsimp only
  exact .expireClass hx

theorem JobsOk.admitHeads {s : State} {heads : List (Nat × List Job)} (h : JobsOk s) : JobsOk (s.admitHeads heads) := by
  unfold State.admitHeads
  extract_lets a s1
  have ha : JobsOk a.s :=
    List.foldlRecOn (motive := fun a : Admission => JobsOk a.s) heads _ h fun _ hx _ _ => .serveClass hx
  exact .when (.wr (.wr ha)) .railRaise

theorem JobsOk.step7 {s : State} (h : JobsOk s) : JobsOk s.step7 := by
  have he := JobsOk.expireAll (.serveMaint h)
  unfold State.step7
  split
  next s1 heads e =>
    have h1 : JobsOk s1 := .of_eq e he
    exact .ite (.admitHeads h1) (.admitHeads (.closedClaims h1))

/-! ## Step 8: dispatch (R11, R186, R196, R217) -/

theorem JobsOk.dispatch {s : State} {j : Job} (h : JobsOk s) : JobsOk (s.dispatch j) := by
  unfold State.dispatch
  dsimp -zeta only [State.takeFresh]
  extract_lets n g f ctl s1 s1' s2 s3 s4
  have h1 : JobsOk s1 := .each (fun _ _ => .modCh) (.with h)
  have h2 : JobsOk s2 := .when (.modSeq h1) .modWrite
  have h4 : JobsOk s4 := .wr (.wr (.modJob (fun _ => rfl) h2))
  clear_value g f s4
  split
  · exact .railRaise (.takePattern h4)
  · exact h4

theorem JobsOk.step8 {s : State} (h : JobsOk s) : JobsOk s.step8 :=
  .each (fun _ _ => .modSeq) (.each (fun _ _ => .dispatch) h)

/-! ## The boundary -/

theorem JobsOk.switchBeat {s : State} (h : JobsOk s) : JobsOk s.switchBeat := .ite (.each (fun _ _ => .modCh) (.with h)) h

theorem JobsOk.laterSteps {f : State → State} (hf : f ∈ laterSteps) {s : State} (h : JobsOk s) : JobsOk (f s) := by
  simp only [Machine.laterSteps, List.mem_cons, List.not_mem_nil, or_false] at hf
  rcases hf with rfl | rfl | rfl | rfl | rfl | rfl | rfl
  · exact .step2 h
  · exact .step3 h
  · exact .step4 h
  · exact .compareWatch h
  · exact .step6 h
  · exact .step7 h
  · exact .step8 h

theorem JobsOk.boundary {s : State} {k : Nat} (h : JobsOk s) : JobsOk (s.boundary k) := by
  have h2 : JobsOk ((Machine.laterSteps.take k).foldl (fun s f => f s) s.step1.switchBeat) :=
    List.foldlRecOn _ _ (.switchBeat (.step1 h)) fun _ ht _ hf => .laterSteps (List.mem_of_mem_take hf) ht
  exact .ite (.notifyAll (.bump h2)) h2

theorem keepsJobs_execBeatBoundary {nt : BitVec 64} {steps : Nat} {s : State} (h : JobsOk s) :
    KeepsJobs (execBeatBoundary nt steps s) := .ite (.next (.boundary (.with (.modPwr (.advanceTo h))))) (.next h)

theorem keepsJobs_execHoldSweep {nt : BitVec 64} {s : State} (h : JobsOk s) : KeepsJobs (execHoldSweep nt s) :=
  .ite (.next (.each (fun _ _ => .postReceipt) (.advanceTo h))) (.next h)

end Sys2Proof.Machine
end

section
/-!
PROOFS. The serial numbers of jobs and open items stay in order: the frame of every sequencer instruction.
-/

namespace Sys2Proof.Machine

/-! ## Fetch (R219, R245, R250, R251) -/

theorem JobsOk.touchLine {s : State} {j : Job} {pc : BitVec 16} (h : JobsOk s) : JobsOk (s.touchLine j pc) := .ite (.modFlash h) h

theorem JobsOk.countInstr {s : State} {n : Nat} {yields : Bool} (h : JobsOk s) : JobsOk (s.countInstr n yields) :=
  .when (.modSeq h) .keepMax

theorem JobsOk.instr {s : State} {n w : Nat} {yields : Bool} {body : State → Job → State}
    (hbody : ∀ t a, JobsOk t → JobsOk (body t a)) (h : JobsOk s) :
    JobsOk (s.instr n w yields body) := by
  unfold State.instr
  split
  · exact h
  refine .ite h ?_
  split
  · exact .seqFault h
  · exact .ite (.seqFault h) (.ite (.seqFault h) (.ite h (hbody _ _ (.countInstr (.touchLine h)))))

/-! ## Operations on the registers and flags (R220) -/

theorem JobsOk.pure {s : State} {n w : Nat} {yields : Bool} {g : Seq → Seq} (h : JobsOk s) : JobsOk (s.pure n w yields g) :=
  .instr (fun _ _ => .modSeq) h

/-! ## Data space (R218) -/

theorem JobsOk.store {s : State} {n a k v : Nat} (h : JobsOk s) : JobsOk (s.store n a k v) := .ite (.modSeq h) (.swriteNat h)

/-! ## FIFO operations (R103, R222) -/

theorem JobsOk.push {s : State} {n : Nat} {bs : List Byte} (h : JobsOk s) : JobsOk (s.push n bs) := .ite (.seqFault h) (.modCh h)

theorem JobsOk.pop {s : State} {n : Nat} {r : GReg} {k : Nat} (h : JobsOk s) : JobsOk (s.pop n r k) := .ite (.seqFault h) (.modCh h)

theorem JobsOk.onFifo {s : State} {n : Nat} {rx : Bool} {g : Fifo → Nat → Fifo} (h : JobsOk s) : JobsOk (s.onFifo n rx g) :=
  .modCh h

theorem JobsOk.block {s : State} {n : Nat} {b : Block} (h : JobsOk s) : JobsOk (s.block n b) := .modSeq h

theorem JobsOk.airBody {n : Nat} {wind : Seq → Seq} {body : State → Job → State} {s : State} {j : Job}
    (hbody : ∀ t a, JobsOk t → JobsOk (body t a)) (h : JobsOk s) :
    JobsOk (State.airBody n wind body s j) := .ite (.modSeq h) (hbody _ _ h)

end Sys2Proof.Machine
end

section
/-!
PROOFS. The serial numbers of jobs and open items stay in order: arithmetic, branch, memory, FIFO and immediate instructions.
-/

namespace Sys2Proof.Machine

/-! ## SYS -/

theorem keepsJobs_execRet {n : Ch} {s : State} (h : JobsOk s) : KeepsJobs (execRet n s) := by
  unfold execRet
  refine .next (.instr (fun _ _ h => ?_) h)
  split
  · exact .seqFault h
  · exact .modSeq h

theorem keepsJobs_execSeqFault {n : Ch} {s : State} (h : JobsOk s) : KeepsJobs (execSeqFault n s) :=
  .next (.instr (fun _ _ => .seqFault) h)

theorem keepsJobs_execWait {n : Ch} {ra : GReg} {s : State} (h : JobsOk s) : KeepsJobs (execWait n ra s) :=
  .next (.instr (fun _ _ => .block) h)

theorem keepsJobs_execJr {n : Ch} {ra : GReg} {s : State} (h : JobsOk s) : KeepsJobs (execJr n ra s) :=
  .next (.instr (fun _ _ => .modSeq) h)

/-! ## Branches -/

theorem keepsJobs_execCall {n : Ch} {ofs : BitVec 12} {s : State} (h : JobsOk s) : KeepsJobs (execCall n ofs s) :=
  .next (.instr (fun _ _ h => .ite (.seqFault h) (.modSeq h)) h)

/-! ## Loads and stores (R218) -/

theorem keepsJobs_execLd {n : Ch} {rd rs : GReg} {size : Fin 3} {off : BitVec 4} {s : State} (h : JobsOk s) :
    KeepsJobs (execLd n rd rs size off s) := .next (.instr (fun _ _ h => .ite (.seqFault h) (.modSeq h)) h)

theorem keepsJobs_execSt {n : Ch} {r rs : GReg} {size : Fin 3} {off : BitVec 4} {s : State} (h : JobsOk s) :
    KeepsJobs (execSt n r rs size off s) := .next (.instr (fun _ _ h => .ite (.seqFault h) (.modSeq (.store h))) h)

/-! ## FIFO instructions (R222) -/

theorem keepsJobs_execPushb {n : Ch} {r : GReg} {s : State} (h : JobsOk s) : KeepsJobs (execPushb n r s) :=
  .next (.instr (fun _ _ => .push) h)

theorem keepsJobs_execPushw {n : Ch} {r : GReg} {s : State} (h : JobsOk s) : KeepsJobs (execPushw n r s) :=
  .next (.instr (fun _ _ => .push) h)

theorem keepsJobs_execPopb {n : Ch} {r : GReg} {s : State} (h : JobsOk s) : KeepsJobs (execPopb n r s) :=
  .next (.instr (fun _ _ => .pop) h)

theorem keepsJobs_execPopw {n : Ch} {r : GReg} {s : State} (h : JobsOk s) : KeepsJobs (execPopw n r s) :=
  .next (.instr (fun _ _ => .pop) h)

theorem keepsJobs_execPoph {n : Ch} {r : GReg} {s : State} (h : JobsOk s) : KeepsJobs (execPoph n r s) :=
  .next (.instr (fun _ _ => .pop) h)

theorem keepsJobs_execPeek {n : Ch} {r : GReg} {imm : BitVec 6} {s : State} (h : JobsOk s) : KeepsJobs (execPeek n r imm s) :=
  .next (.instr (fun _ _ h => .ite (.seqFault h) (.modSeq h)) h)

theorem keepsJobs_execFctlMark {n : Ch} {rx : Bool} {s : State} (h : JobsOk s) : KeepsJobs (execFctlMark n rx s) :=
  .next (.instr (fun _ _ => .onFifo) h)

theorem keepsJobs_execFctlRewind {n : Ch} {rx : Bool} {s : State} (h : JobsOk s) : KeepsJobs (execFctlRewind n rx s) :=
  .next (.instr (fun _ _ h => .ite (.onFifo h) (.seqFault h)) h)

theorem keepsJobs_execFctlRelease {n : Ch} {rx : Bool} {s : State} (h : JobsOk s) : KeepsJobs (execFctlRelease n rx s) :=
  .next (.instr (fun _ _ => .onFifo) h)

theorem keepsJobs_execFctlDrop {n : Ch} {rx : Bool} {s : State} (h : JobsOk s) : KeepsJobs (execFctlDrop n rx s) :=
  .next (.instr (fun _ _ => .onFifo) h)

theorem keepsJobs_execAvail {n : Ch} {r : GReg} {rx : Bool} {s : State} (h : JobsOk s) : KeepsJobs (execAvail n r rx s) :=
  .next (.instr (fun _ _ => .modSeq) h)

/-! ## Immediate instructions (R223) -/

theorem keepsJobs_execPushi {n : Ch} {imm : Byte} {s : State} (h : JobsOk s) : KeepsJobs (execPushi n imm s) :=
  .next (.instr (fun _ _ => .push) h)

theorem keepsJobs_execWaitus {n : Ch} {imm : Byte} {s : State} (h : JobsOk s) : KeepsJobs (execWaitus n imm s) :=
  .next (.instr (fun _ _ => .block) h)

theorem keepsJobs_execAirt {n : Ch} {imm : Byte} {s : State} (h : JobsOk s) : KeepsJobs (execAirt n imm s) :=
  .next (.instr (fun _ _ h => .ite (.seqFault h) (.contGone (.modSeq h))) h)

theorem keepsJobs_execAirr {n : Ch} {imm : Byte} {s : State} (h : JobsOk s) : KeepsJobs (execAirr n imm s) :=
  .next (.instr (fun _ _ h => .ite (.seqFault h) (.modSeq h)) h)

theorem keepsJobs_execUndefinedInstruction {n : Ch} {w : BitVec 16} {s : State} (h : JobsOk s) :
    KeepsJobs (execUndefinedInstruction n w s) := .next (.ite h (.instr (fun _ _ => .seqFault) h))

end Sys2Proof.Machine
end

section
/-!
PROOFS. The serial numbers of jobs and open items stay in order: air, engine, CRY and result instructions.
-/

namespace Sys2Proof.Machine

/-! ## Air instructions (R225 to R230) -/

theorem JobsOk.requestOn {s : State} {n : Nat} {j : Job} (h : JobsOk s) : JobsOk (s.requestOn n j) := by
  unfold State.requestOn
  refine .tryRamp (.block ?_)
  split
  · exact .each (fun _ _ => .modCh) h
  · exact .each (fun _ _ => .requestAnt) (.each (fun _ _ => .modCh) h)

theorem JobsOk.doFon {s : State} {n : Nat} {j : Job} (h : JobsOk s) : JobsOk (s.doFon n j) :=
  .ite (.seqFault h) (.ite (.modSeq h) (.ite (.refuseOn h) (.ite (.requestOn h) (.block h))))

theorem keepsJobs_execFon {n : Ch} {s : State} (h : JobsOk s) : KeepsJobs (execFon n s) :=
  .next (.instr (fun _ _ h => .airBody (fun _ _ => .doFon) h) h)

theorem keepsJobs_execFoff {n : Ch} {s : State} (h : JobsOk s) : KeepsJobs (execFoff n s) :=
  .next (.instr (fun _ _ h => .airBody (fun _ _ h => .ite (.modSeq h) (.block (.each (fun _ _ => .stopField) h))) h) h)

theorem keepsJobs_execAnt {n : Ch} {rs : GReg} {s : State} (h : JobsOk s) : KeepsJobs (execAnt n rs s) :=
  .next (.instr (fun _ _ h => .airBody (fun _ _ h => .ite (.seqFault h)
    (.ite (.seqFault h) (.block (.modRom (.requestAnt h))))) h) h)

theorem keepsJobs_execPwr {n : Ch} {rs : GReg} {s : State} (h : JobsOk s) : KeepsJobs (execPwr n rs s) :=
  .next (.instr (fun _ _ h => .airBody (fun _ _ h => .ite (.seqFault h) (.modSeq (.railRaise (.modJob (fun _ => rfl) h)))) h) h)

theorem JobsOk.doTx {s : State} {n : Nat} {j : Job} {bits : Nat} {rd : Option GReg} (h : JobsOk s) :
    JobsOk (s.doTx n j bits rd) := by
  unfold State.doTx
  split
  · exact .seqFault h
  · exact .tryTx (.modCh h)

theorem keepsJobs_execTx {n : Ch} {rs : GReg} {s : State} (h : JobsOk s) : KeepsJobs (execTx n rs s) :=
  .next (.instr (fun _ _ h => .airBody (fun _ _ => .doTx) h) h)

theorem keepsJobs_execRx {n : Ch} {rd : GReg} {s : State} (h : JobsOk s) : KeepsJobs (execRx n rd s) := by
  unfold execRx
  refine .next (.instr (fun _ _ h => .airBody (fun _ _ h => ?_) h) h)
  dsimp only
  split
  · exact .collectEvent h
  · exact .ite (.seqFault h) (.collectEvent h)
  · exact .seqFault h

theorem keepsJobs_execXch {n : Ch} {rd rs : GReg} {s : State} (h : JobsOk s) : KeepsJobs (execXch n rd rs s) :=
  .next (.instr (fun _ _ h => .airBody (fun _ _ => .doTx) h) h)

theorem keepsJobs_execRxto {n : Ch} {rs : GReg} {s : State} (h : JobsOk s) : KeepsJobs (execRxto n rs s) :=
  .next (.instr (fun _ _ h => .airBody (fun _ _ => .modSeq) h) h)

theorem keepsJobs_execRawb {n : Ch} {rs : GReg} {s : State} (h : JobsOk s) : KeepsJobs (execRawb n rs s) :=
  .next (.instr (fun _ _ h => .airBody (fun _ _ h => .ite (.seqFault h) (.modSeq h)) h) h)

theorem JobsOk.doPat {s : State} {n : Nat} {j : Job} {p : BitVec 6} (h : JobsOk s) : JobsOk (s.doPat n j p) :=
  .ite (.seqFault h) (.ite (.selectPattern h) (.block h))

theorem keepsJobs_execPat {n : Ch} {rs : GReg} {s : State} (h : JobsOk s) : KeepsJobs (execPat n rs s) :=
  .next (.instr (fun _ _ h => .airBody (fun _ _ => .doPat) h) h)

theorem keepsJobs_execPati {n : Ch} {imm : Byte} {s : State} (h : JobsOk s) : KeepsJobs (execPati n imm s) :=
  .next (.instr (fun _ _ h => .airBody (fun _ _ => .doPat) h) h)

theorem keepsJobs_execTxst {n : Ch} {rd : GReg} {s : State} (h : JobsOk s) : KeepsJobs (execTxst n rd s) :=
  .next (.instr (fun _ _ h => .airBody (fun _ _ => .modSeq) h) h)

/-! ## The inventory engine (R231 to R235) -/

theorem keepsJobs_execInvo {n : Ch} {ra rb : GReg} {s : State} (h : JobsOk s) : KeepsJobs (execInvo n ra rb s) :=
  .next (.instr (fun _ _ h => .ite (.seqFault h) (.ite (.seqFault h) (.modCh (.modRom h)))) h)

theorem keepsJobs_execInvs {n : Ch} {rd : GReg} {s : State} (h : JobsOk s) : KeepsJobs (execInvs n rd s) :=
  .next (.instr (fun _ _ h => .airBody (fun _ _ h => .ite (.seqFault h) (.invsGo (.block (.releaseHeld h)))) h) h)

theorem keepsJobs_execInve {n : Ch} {rd : GReg} {s : State} (h : JobsOk s) : KeepsJobs (execInve n rd s) :=
  .next (.instr (fun _ _ h => .modCh (.releaseFound h)) h)

/-! ## CRY (R231, R235, R236) -/

theorem keepsJobs_execSigq {n : Ch} {ra rb : GReg} {s : State} (h : JobsOk s) : KeepsJobs (execSigq n ra rb s) := by
  unfold execSigq
  refine .next (.instr (fun _ _ h => .airBody (fun _ _ h => ?_) h) h)
  dsimp only
  split
  · exact .seqFault h
  refine .ite (.seqFault h) (.ite (.seqFault h) ?_)
  split
  · exact .modSeq (.modCh (.modRom h))
  · exact .request (.modCh (.modRom h))

theorem keepsJobs_execResq {n : Ch} {ra : GReg} {s : State} (h : JobsOk s) : KeepsJobs (execResq n ra s) := by
  unfold execResq
  refine .next (.instr (fun _ _ h => .airBody (fun _ _ h => ?_) h) h)
  dsimp only
  split
  · exact .seqFault h
  · exact .ite (.seqFault h) (.ite (.seqFault h) (.request (.modCh (.modRom h))))

theorem keepsJobs_execCryw {n : Ch} {s : State} (h : JobsOk s) : KeepsJobs (execCryw n s) :=
  .next (.instr (fun _ _ h => .ite (.block h) (.modSeq h)) h)

theorem keepsJobs_execCryr {n : Ch} {rd rs : GReg} {s : State} (h : JobsOk s) : KeepsJobs (execCryr n rd rs s) :=
  .next (.instr (fun _ _ => .modSeq) h)

/-! ## Results (R237 to R241) -/

theorem keepsJobs_execOutrec {n : Ch} {r : GReg} {s : State} (h : JobsOk s) : KeepsJobs (execOutrec n r s) := by
  unfold execOutrec
  refine .next (.instr (fun _ _ h => ?_) h)
  dsimp only
  split
  · exact .seqFault h
  · exact .refill (.modSeq (.modRom h))

theorem keepsJobs_execPost {n : Ch} {r : GReg} {s : State} (h : JobsOk s) : KeepsJobs (execPost n r s) :=
  .next (.instr (fun _ _ h => .unblock (.block (.refill h))) h)

theorem JobsOk.endWith {s : State} {n : Nat} {rc : Byte} (h : JobsOk s) : JobsOk (s.endWith n rc) := by
  unfold State.endWith
  refine .ite (.unblock (.block (.refill ?_))) (.seqFault h)
  split
  · exact h
  · exact .releaseHeld h

theorem keepsJobs_execEndJob {n : Ch} {rc : Byte} {s : State} (h : JobsOk s) : KeepsJobs (execEndJob n rc s) :=
  .next (.instr (fun _ _ => .endWith) h)

theorem keepsJobs_execEndr {n : Ch} {r : GReg} {s : State} (h : JobsOk s) : KeepsJobs (execEndr n r s) :=
  .next (.instr (fun _ _ => .endWith) h)

/-! ## Limits (R230, R244) and the gate wait (R355) -/

theorem keepsJobs_execYieldMissed {n : Ch} {s : State} (h : JobsOk s) : KeepsJobs (execYieldMissed n s) := by
  unfold execYieldMissed
  refine .next ?_
  split
  · exact h
  · exact .ite (.endJobInForce (.bump h)) h

theorem keepsJobs_execWindupExpiry {n : Ch} {s : State} (h : JobsOk s) : KeepsJobs (execWindupExpiry n s) := by
  unfold execWindupExpiry
  refine .next ?_
  split
  · exact h
  · exact .ite (.seqFault h) h

theorem keepsJobs_execWaitingResume {n : Ch} {nt : BitVec 64} {s : State} (h : JobsOk s) :
    KeepsJobs (execWaitingResume n nt s) := by
  unfold execWaitingResume
  refine .next ?_
  split
  · exact .advanceTo h
  · exact .when (.advanceTo h) fun hs => .tryRamp (.each (fun _ _ => .modCh) (.modJob (fun _ => rfl) hs))

/-! ## The routine cache (R251, R252) -/

theorem keepsJobs_execRoutineCacheFill {n : Ch} {s : State} (h : JobsOk s) : KeepsJobs (execRoutineCacheFill n s) := by
  unfold execRoutineCacheFill
  refine .next ?_
  split
  · exact .startFill h
  · exact .ite (.startFill (.block (.with (.ite (.bump h) h)))) (.startFill h)

theorem keepsJobs_execCacheFillDone {s : State} (h : JobsOk s) : KeepsJobs (execCacheFillDone s) := by
  unfold execCacheFillDone
  split
  · exact .next h
  · exact .next (.startFill (.when (.with h) .modSeq))

end Sys2Proof.Machine
end

section
/-!
PROOFS. The serial numbers of jobs and open items stay in order: register reads.
-/

namespace Sys2Proof.Machine

/-! ## Reads -/

theorem JobsOk.nextShape {s : State} {n : Nat} (h : JobsOk s) : JobsOk (s.nextShape n) := .wr h

theorem JobsOk.afterRead {s : State} {p a : Nat} {b : RegBlock} {r : RegRow} (h : JobsOk s) : JobsOk (s.afterRead p a b r) := by
  unfold State.afterRead
  dsimp only
  split
  · exact .when (.ite h (.wrWord h)) .nextShape
  · exact .when (.ite h (.wrWord h)) fun hs => .modPt (fun _ => .inl rfl) hs
  · exact .ite h (.wrWord h)

theorem JobsOk.readReg {s : State} {p a : Nat} (h : JobsOk s) : JobsOk (s.readReg p a).2.2 := by
  unfold State.readReg
  split
  · exact h
  split
  · exact h
  split
  · exact h
  split
  · exact h
  · exact .afterRead h

end Sys2Proof.Machine
end

section
/-!
PROOFS. The serial numbers of jobs and open items stay in order: register writes.
-/

namespace Sys2Proof.Machine

/-! ## Fields -/

theorem JobsOk.storeFields {s : State} {a : Nat} {r : RegRow} {w : Word} (h : JobsOk s) : JobsOk (s.storeFields a r w).1 :=
  .wrWord h

/-! ## Actions -/

theorem JobsOk.queueChan {s : State} {k : MaintKind} {n : Nat} (h : JobsOk s) : JobsOk (s.queueChan k n) := .addMaint h

theorem JobsOk.queueRecal {s : State} (h : JobsOk s) : JobsOk s.queueRecal := .ite h (.addMaint h)

theorem JobsOk.synCtlWritten {s : State} {was : Bool} {w : Word} (h : JobsOk s) : JobsOk (s.synCtlWritten was w) :=
  .when (.ite (.wr h) h) fun hs => .queueRecal (.setFlag hs)

theorem JobsOk.queueImageCal {s : State} {n : Nat} (h : JobsOk s) : JobsOk (s.queueImageCal n) := .ite h (.queueChan h)

theorem JobsOk.iqCalWritten {s : State} {n : Nat} {w : Word} (h : JobsOk s) : JobsOk (s.iqCalWritten n w) :=
  .ite (.queueImageCal (.setFlag h)) h

theorem JobsOk.writeShape {s : State} {n : Nat} {w : Word} (h : JobsOk s) : JobsOk (s.writeShape n w) := .nextShape (.modCh h)

theorem JobsOk.startInvCmd {s : State} {w : Word} (h : JobsOk s) : JobsOk (s.startInvCmd w) := .wr (.with h)

theorem JobsOk.startCryCmd {s : State} {w : Word} (h : JobsOk s) : JobsOk (s.startCryCmd w) := .powerCry (.wr (.with h))

theorem JobsOk.spoilSlot {s : State} {slot : Nat} (h : JobsOk s) : JobsOk (s.spoilSlot slot) := .swrite h

theorem JobsOk.startMeasure {s : State} {g : Nat} {slot : BitVec 3} {mw : BitVec 12} (h : JobsOk s) :
    JobsOk (s.startMeasure g slot mw) := .ite (.addMaint (.spoilSlot (.wr (.wr h)))) (.setFlag (.wr h))

theorem JobsOk.queryDecl {s : State} (h : JobsOk s) : JobsOk s.queryDecl := .wr (.wr (.wr (.wr (.wrSat h))))

theorem JobsOk.dropCache {s : State} (h : JobsOk s) : JobsOk s.dropCache := .ite (.with h) (.with h)

theorem JobsOk.wmHitCleared {s : State} {q : Nat} {w : Word} (h : JobsOk s) : JobsOk (s.wmHitCleared q w) := .ite (.modQu h) h

theorem JobsOk.beatWritten {s : State} (h : JobsOk s) : JobsOk s.beatWritten := .ite h (.with h)

theorem JobsOk.emuCtlWritten {s : State} {was : Bool} (h : JobsOk s) : JobsOk (s.emuCtlWritten was) := .ite h (.emuEnabled h)

theorem JobsOk.pmbCtlWritten {s : State} (h : JobsOk s) : JobsOk s.pmbCtlWritten := .ite (.ite (.pmbOn h) h) (.ite h (.pmbOff h))

theorem JobsOk.pmbCmd {s : State} {w : Word} (h : JobsOk s) : JobsOk (s.pmbCmd w).1 := .iteFst (.pair (.pmbRecover h)) (.pmbRaw h)

theorem JobsOk.watchCmd {s : State} {w : Word} (h : JobsOk s) : JobsOk (s.watchCmd w) := .ite (.captureSteps h) (.clearSteps h)

theorem JobsOk.diagCmd {s : State} {w : Word} (h : JobsOk s) : JobsOk (s.diagCmd w) :=
  .ite (.leaveIdle (.with h)) (.each (fun _ _ => .queueChan) (.wr (.wr h)))

theorem JobsOk.gateCtlWrite {s : State} {r : RegRow} {w : Word} (h : JobsOk s) : JobsOk (s.gateCtlWrite r w).1 :=
  .iteFst h (.iteFst (.pair (.ite (.with h) h)) (.pair (.when (.storeFields (.ite (.with h) h)) .startSwap)))

theorem JobsOk.acted {s : State} {a : Nat} {old w : Word} {b : RegBlock} (h : JobsOk s) : JobsOk (s.acted a old w b) := by
  unfold State.acted
  split
  · exact .ite (.synCtlWritten h) h
  · exact .ite (.beatWritten h) (.ite (.endSynco h) h)
  · exact .ite (.wmHitCleared h) h
  · exact .ite (.quotaWritten h) h
  · exact .ite (.writeShape h) (.ite (.requestAnt h) (.ite (.iqCalWritten h) (.railRaise h)))
  · exact .ite (.startInvCmd h) h
  · exact .ite (.startCryCmd h) h
  · exact .ite (.startMeasure h) h
  · exact .ite (.queryDecl h) (.ite (.dropCache h) h)
  · exact .ite (.writeCfg h) (.ite (.writeBase h) (.ite (.watchCmd h) h))
  · exact .ite (.emuCtlWritten h) h
  · exact .ite (.pmbCtlWritten h) h
  · exact .ite (.diagCmd h) h
  all_goals exact h

theorem JobsOk.takeWrite {s : State} {p : Port} {a : Nat} {w : Word} {b : RegBlock} {r : RegRow} (h : JobsOk s) :
    JobsOk (s.takeWrite p a w b r).1 :=
  .iteFst (.gateCtlWrite h) (.iteFst (.mailCmd h) (.iteFst (.pmbCmd h)
    (.iteFst (.pair (.acted h)) (.pair (.acted (.storeFields h))))))

theorem JobsOk.writeChecked {s : State} {p : Port} {a : Nat} {w : Word} (h : JobsOk s) : JobsOk (s.writeChecked p a w).1 := by
  unfold State.writeChecked
  split
  · refine .iteFst h (.iteFst h ?_)
    split
    · exact h
    · exact .takeWrite h
  · exact h

/-! ## PROT (R451 to R454) -/

theorem JobsOk.putProt {s : State} {x : ProtWord} (h : JobsOk s) : JobsOk (s.putProt x) := by
  unfold State.putProt
  split
  · exact h
  · exact .wrWord h

theorem JobsOk.applyProt {s t : State} {p : Nat} {ws : List ProtWord} (h : JobsOk s) (ht : s.applyProt p ws = some t) :
    JobsOk t := by
  unfold State.applyProt at ht
  split at ht
  · cases ht
    exact h
  split at ht
  · cases ht
  cases ht
  have hf : JobsOk (ws.foldl (fun s x => s.putProt x) s) := .each (fun _ _ => .putProt) h
  exact .ite (.notifyAll (.with (.ite hf (.wr hf)))) (.with (.ite hf (.wr hf)))

/-! ## Words of a frame (R443, R444) -/

theorem JobsOk.noteDenied {s : State} {p : Nat} {opc : Byte} {a : Nat} (h : JobsOk s) : JobsOk (s.noteDenied p opc a) :=
  .wr (.wr (.wr (.bump h)))

theorem JobsOk.writeRunNote {r : WriteRun} {p : Port} {k a : Nat} {s : State} {st : Byte} (h : JobsOk s) :
    JobsOk (r.note p k a s st).s := .ite (.noteDenied h) h

theorem JobsOk.writeRunWord {r : WriteRun} {p : Port} {k a : Nat} {w : Word} (h : JobsOk r.s) : JobsOk (r.word p k a w).s := by
  unfold WriteRun.word
  split
  · exact .writeRunNote h
  split
  · exact h
  next b _ =>
  split
  · exact .writeRunNote h
  split
  · split
    · exact h
    split
    · exact h
    split
    · exact .writeRunNote h
    · exact h
  · exact .writeRunNote (.writeChecked h)

theorem JobsOk.writeRunWords {p : Port} {ws : List Word} :
    ∀ {r : WriteRun} {k a : Nat}, JobsOk r.s → JobsOk (r.words p k a ws).s := by
  induction ws with
  | nil => exact fun h => h
  | cons w ws ih => exact fun h => ih (.writeRunWord h)

theorem JobsOk.writeRunFinish {r : WriteRun} {p : Port} (h : JobsOk r.s) : JobsOk (r.finish p).s := by
  unfold WriteRun.finish
  split
  case h_1 t ht => exact h.applyProt ht
  case h_2 => exact h

theorem JobsOk.regWrite {s : State} {p : Port} {a : Nat} {ws : List Word} (h : JobsOk s) : JobsOk (s.regWrite p a ws).1 :=
  .writeRunFinish (.writeRunWords h)

theorem JobsOk.readRunWord {r : ReadRun} {p : Port} {k a : Nat} (h : JobsOk r.s) : JobsOk (ReadRun.word r p k a).s := .readReg h

theorem JobsOk.readRunWords {p : Port} {n : Nat} :
    ∀ {r : ReadRun} {k a : Nat}, JobsOk r.s → JobsOk (r.words p k a n).s := by
  induction n with
  | zero => exact fun h => h
  | succ n ih => exact fun h => ih (.readRunWord h)

theorem JobsOk.regReadRun {s : State} {p : Port} {a n : Nat} (h : JobsOk s) : JobsOk (s.regReadRun p a n).2.1 :=
  .each (fun _ _ => .noteDenied) (.readRunWords h)

end Sys2Proof.Machine
end

section
/-!
PROOFS. The serial numbers of jobs and open items stay in order: the MEM space.
-/

namespace Sys2Proof.Machine

/-! ## Reads -/

theorem JobsOk.memRunNote {r : MemRun} {p : Nat} {opc : Byte} {k : Nat} {st : Byte} (h : JobsOk r.s) :
    JobsOk (MemRun.note r p opc k st).s := .ite (.noteDenied h) h

theorem JobsOk.memRunRead {r : MemRun} {p k a : Nat} (h : JobsOk r.s) : JobsOk (r.read p k a).s :=
  JobsOk.memRunNote (r := r) (k := k) h

theorem JobsOk.memRunReads {p n : Nat} :
    ∀ {r : MemRun} {k a : Nat}, JobsOk r.s → JobsOk (r.reads p k a n).s := by
  induction n with
  | zero => exact fun h => h
  | succ n ih => exact fun h => ih (.memRunRead h)

theorem JobsOk.memRunClose {r : MemRun} (h : JobsOk r.s) : JobsOk (MemRun.close r) :=
  .when (.ite (.bump h) h) .modFlash

theorem JobsOk.memRead {s : State} {p a n : Nat} (h : JobsOk s) : JobsOk (s.memRead p a n).2.1 :=
  .when (.memRunClose (.memRunReads h)) .with

/-! ## Writes -/

theorem JobsOk.swarmMem {s : State} {a : Nat} {w : Word} (h : JobsOk s) : JobsOk (s.swarmMem a w).1 :=
  .iteFst h (.iteFst h (.pair (.swrite h)))

theorem JobsOk.spoilKey {s : State} {a : Nat} (h : JobsOk s) : JobsOk (s.spoilKey a) := by
  unfold State.spoilKey
  split
  · exact h
  · exact .wr h

theorem JobsOk.keyMem {s : State} {a : Nat} {w : Word} (h : JobsOk s) : JobsOk (s.keyMem a w).1 :=
  .iteFst h (.iteFst h (.pair (.spoilKey (.swrite h))))

theorem JobsOk.mailMem {s : State} {p a : Nat} {w : Word} (h : JobsOk s) : JobsOk (s.mailMem p a w).1 :=
  .iteFst (.pair (.setShadow h)) h

theorem JobsOk.memStore {s : State} {p k a : Nat} {w : Word} (h : JobsOk s) : JobsOk (s.memStore p k a w).1 := by
  unfold State.memStore
  split
  iterate 4 exact h
  · exact .iteFst h (.pair (.swrite h))
  · exact .keyMem h
  · exact .mailMem h
  · exact .swarmMem h
  · exact .swrite h

theorem JobsOk.memRunWrite {r : MemRun} {p k a : Nat} {w : Word} (h : JobsOk r.s) : JobsOk (r.write p k a w).s := by
  unfold MemRun.write
  split
  · exact .memRunNote h
  · split
    · exact .memRunNote h
    dsimp only
    split
    · exact h
    · exact JobsOk.memRunNote (r := r) (k := k) h
  · split
    · exact .memRunNote h
    · exact JobsOk.memRunNote (r := { r with s := (r.s.memStore p _ a w).1 }) (.memStore h)

theorem JobsOk.memRunWrites {p : Nat} {ws : List Word} :
    ∀ {r : MemRun} {k a : Nat}, JobsOk r.s → JobsOk (r.writes p k a ws).s := by
  induction ws with
  | nil => exact fun h => h
  | cons w ws ih => exact fun h => ih (.memRunWrite h)

theorem JobsOk.memWrite {s : State} {p : Port} {a : Nat} {ws : List Word} (h : JobsOk s) : JobsOk (s.memWrite p a ws).1 :=
  .iteFst (.pair (.memRunClose (.memRunWrites h))) (.pair (.modFlash (.memRunClose (.memRunWrites h))))

end Sys2Proof.Machine
end

section
/-!
PROOFS. The serial numbers of jobs and open items stay in order: the flash port.
-/

namespace Sys2Proof.Machine

/-! ## Images (R473 to R476) -/

theorem JobsOk.noteImage {s : State} {slot why : Nat} (h : JobsOk s) : JobsOk (s.noteImage slot why) :=
  .ite (.wr (.wr (.wr h))) (.wr (.wr (.wr h)))

/-! ## Flash operations (R470 to R472) -/

theorem JobsOk.startFlashOp {s : State} {o : FlashOp} (h : JobsOk s) : JobsOk (s.startFlashOp o) := .modFlash (.wr (.wr (.wr h)))

theorem JobsOk.offerFlashOp {s : State} {o : FlashOp} {bytes : Nat} {ok erases writes : Bool} (h : JobsOk s) :
    JobsOk (s.offerFlashOp o bytes ok erases writes).1 := .iteFst h (.iteFst h (.iteFst h (.pair (.startFlashOp h))))

theorem JobsOk.flInfo {s : State} {arg : Word} (h : JobsOk s) : JobsOk (s.flInfo arg).1 :=
  .iteFst h (.iteFst h (.pair (.modFlash h)))

theorem JobsOk.flErase {s : State} {p : Port} {arg : Word} (h : JobsOk s) : JobsOk (s.flErase p arg).1 := .offerFlashOp h

theorem JobsOk.flProgram {s : State} {p : Port} {arg : Word} {data : List Byte} (h : JobsOk s) :
    JobsOk (s.flProgram p arg data).1 := .offerFlashOp h

theorem JobsOk.flCrc {s : State} {p : Port} {arg : Word} {data : List Byte} (h : JobsOk s) : JobsOk (s.flCrc p arg data).1 :=
  .offerFlashOp h

theorem JobsOk.imgCheck {s : State} {p : Port} {arg : Word} (h : JobsOk s) : JobsOk (s.imgCheck p arg).1 := .offerFlashOp h

theorem JobsOk.flAbort {s : State} {arg : Word} (h : JobsOk s) : JobsOk (s.flAbort arg).1 := by
  unfold State.flAbort
  refine .iteFst h ?_
  split
  · exact h
  · exact .modFlash h

theorem JobsOk.flSleep {s : State} {p : Port} {arg : Word} (h : JobsOk s) : JobsOk (s.flSleep p arg).1 := .offerFlashOp h

theorem JobsOk.flReset {s : State} {arg : Word} (h : JobsOk s) : JobsOk (s.flReset arg).1 :=
  .iteFst h (.iteFst h (.pair (.modFlash h)))

/-! ## Erase and program commands (R469 to R471) -/

theorem JobsOk.spoilFlash {s : State} {off n : Nat} (h : JobsOk s) : JobsOk (s.spoilFlash off n) := by
  unfold State.spoilFlash
  dsimp only [State.takeFresh]
  exact .modFlash (.with h)

theorem JobsOk.breakHeader {s : State} {off n k : Nat} (h : JobsOk s) : JobsOk (s.breakHeader off n k) := .ite (.fset h) h

theorem JobsOk.cutRange {s : State} {off n : Nat} (h : JobsOk s) : JobsOk (s.cutRange off n) :=
  .each (fun _ _ => .breakHeader) (.spoilFlash h)

theorem JobsOk.dropLines {s : State} {off n : Nat} (h : JobsOk s) : JobsOk (s.dropLines off n) := .modFlash h

theorem JobsOk.sendUnit {s : State} {o : FlashOp} (h : JobsOk s) : JobsOk (s.sendUnit o) :=
  .ite (.modFlash (.eraseSector h)) (.modFlash (.programBytes h))

theorem JobsOk.flashError {s : State} {err : Nat} (h : JobsOk s) : JobsOk (s.flashError err) := .wr (.bump (.setFlag h))

theorem JobsOk.settleReply {s : State} {p : Port} {ref : Option (Nat × Byte)} (h : JobsOk s) : JobsOk (s.settleReply p ref) :=
  .modPt (fun _ => .inl rfl) h

theorem JobsOk.endWindow {s : State} {w : WinWrite} {ref : Option (Nat × Byte)} (h : JobsOk s) : JobsOk (s.endWindow w ref) :=
  .settleReply (.modFlash h)

theorem JobsOk.stopWindow {s : State} {w : WinWrite} {err : Nat} (h : JobsOk s) : JobsOk (s.stopWindow w err) :=
  .endWindow (.flashError h)

theorem JobsOk.sendRun {s : State} {w : WinWrite} (h : JobsOk s) : JobsOk (s.sendRun w) := by
  unfold State.sendRun
  split
  · exact .endWindow h
  · exact .modFlash (.dropLines (.programBytes h))

theorem JobsOk.unitDone {s : State} {o : FlashOp} {n : Nat} (h : JobsOk s) : JobsOk (s.unitDone o n) := .bump (.modFlash h)

theorem JobsOk.runDone {s : State} {w : WinWrite} (h : JobsOk s) : JobsOk (s.runDone w) := by
  unfold State.runDone
  dsimp only
  split
  · exact .modFlash (.bump h)
  · exact .endWindow (.bump h)

theorem JobsOk.cmdDone {s : State} {n : Nat} (h : JobsOk s) : JobsOk (s.cmdDone n) := by
  unfold State.cmdDone
  refine .startFill ?_
  split
  · exact .unitDone (.modFlash h)
  · exact .runDone (.modFlash h)
  · exact .modEmu (.modFlash h)

theorem JobsOk.cmdTimeout {s : State} {off n : Nat} (h : JobsOk s) : JobsOk (s.cmdTimeout off n) := by
  unfold State.cmdTimeout
  split
  · exact .modFlash (.spoilFlash h)
  · exact .stopWindow (.spoilFlash h)
  split
  · exact .journalFails (.spoilFlash h)
  · exact .modFlash (.spoilFlash h)

theorem JobsOk.sendJournal {s : State} {w : JWrite} {wel : Bool} (h : JobsOk s) : JobsOk (s.sendJournal w wel) := by
  unfold State.sendJournal
  split
  · exact h
  · exact .ite (.modFlash h) (.journalFails h)

theorem JobsOk.sendNext {s : State} {wel : Bool} (h : JobsOk s) : JobsOk (s.sendNext wel) := by
  unfold State.sendNext
  split
  · exact .ite (.ite (.sendUnit h) (.modFlash h)) h
  · exact .sendJournal h
  · exact .ite h (.ite (.sendRun h) (.stopWindow h))
  · exact h

theorem JobsOk.pollFlash {s : State} {sr : Byte} {ms : Nat} (h : JobsOk s) : JobsOk (s.pollFlash sr ms) := by
  unfold State.pollFlash
  refine .ite h ?_
  dsimp only
  split
  · exact .ite (.cmdDone (.wr h)) (.when (.wr h) .cmdTimeout)
  · exact .unless (.wr h) .sendNext

/-! ## The end of an operation (R472) -/

theorem JobsOk.flashResult {s : State} {o : FlashOp} (h : JobsOk s) : JobsOk (s.flashResult o) := by
  unfold State.flashResult
  split
  · exact .wr h
  · exact .wr h
  · exact .ite (.wr h) h
  · exact .ite (.noteImage h) h
  · exact .ite (.modFlash h) h
  · exact h

theorem keepsJobs_execFlashOpDone {s : State} (h : JobsOk s) : KeepsJobs (execFlashOpDone s) := by
  unfold execFlashOpDone
  split
  · exact .next h
  · exact .ite (.next h) (.next (.notify (.setFlag (.unless (.flashResult (.modFlash h)) .flashError))))

end Sys2Proof.Machine
end

section
/-!
PROOFS. The serial numbers of jobs and open items stay in order: resets, thermal shutdown and start-up.
-/

namespace Sys2Proof.Machine

/-! ## Flash commands that a reset or a power loss cuts (R460, R479) -/

theorem JobsOk.cutFlash {s : State} (h : JobsOk s) : JobsOk s.cutFlash := by
  unfold State.cutFlash
  split
  · exact h
  · exact .modFlash (.cutRange h)

theorem JobsOk.cutHeader {s : State} (h : JobsOk s) : JobsOk s.cutHeader := by
  unfold State.cutHeader
  split
  · exact h
  · exact .each (fun _ _ h => .ite (.cutRange h) h) h

/-! ## WARM resets (R459, R462) -/

theorem JobsOk.cutClear {s : State} (h : JobsOk s) : JobsOk s.cutClear := by
  unfold State.cutClear
  split
  · exact h
  · exact .when (.wr (.with h)) fun hs => .with (.each (fun _ _ => .freeTab) hs)

theorem Job.lose_tag {j : Job} {d : BitVec 16} : (j.lose d).tag = j.tag := by
  unfold Job.lose
  split <;> rfl

theorem JobsOk.warmClear {s0 : State} (h : JobsOk s0) : JobsOk s0.warmClear := by
  unfold State.warmClear
  extract_lets s s1
  have hs : JobsOk s := .cutClear (.each (fun _ _ => .discardOpen) h)
  have h1 : JobsOk s1 := .pmbOff (.ite hs (.discardShadow hs))
  split
  next d s2 e =>
  extract_lets s3
  have h2 : JobsOk s2 := by
    have ht := JobsOk.takeFresh (g := Config.receiptDetail) h1
    rwa [e] at ht
  have h3 : JobsOk s3 := .each (fun _ _ => .modCh) (.each (fun _ _ h => .modPt (fun _ => .inl rfl) h) h2)
  exact .withJobs (fun _ => Job.lose_tag) h3

theorem JobsOk.postLost {s : State} {j : Job} (h : JobsOk s) : JobsOk (s.postLost j) := by
  unfold State.postLost
  split
  · exact .postFinal h
  · exact .postReceipt h

theorem JobsOk.warmPost {s : State} (h : JobsOk s) : JobsOk s.warmPost := .notifyAll (.modPmb (.each (fun _ _ => .postLost) h))

theorem JobsOk.warmReset {s : State} {p : Port} (h : JobsOk s) : JobsOk (s.warmReset p) :=
  .warmPost (.warmClear (.bump (.wr (.setFlag (.cutHeader h)))))

theorem JobsOk.systemReset {s : State} {p : Port} (h : JobsOk s) : JobsOk (s.systemReset p) := .wr (.coldReset (.cutHeader h))

/-! ## The supply and RESET_N (R458, R492, R495) -/

theorem JobsOk.release {s : State} (h : JobsOk s) : JobsOk s.release := .ite (.with h) h

theorem JobsOk.powerVddio {s : State} (h : JobsOk s) : JobsOk s.powerVddio := by
  unfold State.powerVddio
  dsimp only [State.takeFresh]
  exact .with h

theorem keepsJobs_execPor {s : State} (h : JobsOk s) : KeepsJobs (execPor s) :=
  .next (.coldReset (.with (.powerVddio (.cutFlash h))))

theorem keepsJobs_execBrownOut {s : State} (h : JobsOk s) : KeepsJobs (execBrownOut s) := .next (.coldReset (.with (.cutFlash h)))

theorem keepsJobs_execOffexit {s : State} (h : JobsOk s) : KeepsJobs (execOffexit s) := .next (.ite (.coldReset (.powerVddio h)) h)

theorem keepsJobs_execPinReset {s : State} (h : JobsOk s) : KeepsJobs (execPinReset s) :=
  .next (.unless (.with h) fun hs => .coldReset (.cutHeader hs))

theorem keepsJobs_execResetNRelease {s : State} (h : JobsOk s) : KeepsJobs (execResetNRelease s) := .next (.release (.with h))

theorem keepsJobs_execVddioGood {s : State} (h : JobsOk s) : KeepsJobs (execVddioGood s) := .next (.release (.with h))

/-! ## Temperatures (R67, R85, R311, R315 to R317) -/

theorem JobsOk.enterHard {s : State} (h : JobsOk s) : JobsOk s.enterHard := by
  unfold State.enterHard
  refine .pauseCoupling (.each (fun _ _ h => ?_) (.each (fun _ _ => .stopField) (.notifyAll (.setFlag (.modBudg h)))))
  split
  · exact h
  · exact .stopJob h

theorem JobsOk.thermalShut {s : State} (h : JobsOk s) : JobsOk s.thermalShut :=
  .with (.modBudg (.setSyn (.warmClear (.bump (.setFlag h)))))

theorem JobsOk.driftRecal {s : State} (h : JobsOk s) : JobsOk s.driftRecal := .ite (.queueRecal h) h

theorem JobsOk.driftImage {s : State} {n : Nat} (h : JobsOk s) : JobsOk (s.driftImage n) := .ite (.queueImageCal h) h

theorem keepsJobs_execThermalSample {s0 s1 s2 s3 s4 : BitVec 16} {s : State} (h : JobsOk s) :
    KeepsJobs (execThermalSample s0 s1 s2 s3 s4 s) := by
  unfold execThermalSample
  extract_lets t t1
  have ht : JobsOk t := .modBudg h
  have h1 : JobsOk t1 := .when ht .enterHard
  exact .ite (.next h) (.ite (.next ht)
    (.ite (.next (.thermalShut h1)) (.ite (.next (.each (fun _ _ => .driftImage) (.driftRecal h1))) (.next h1))))

theorem keepsJobs_execThermalResetRelease {s : State} (h : JobsOk s) : KeepsJobs (execThermalResetRelease s) := by
  unfold execThermalResetRelease
  refine .ite (.next ?_) (.next h)
  split
  · exact .warmPost (.setSyn (.with h))
  · exact .setSyn (.with h)
  · exact .setSyn (.with h)
  all_goals exact .with (.setSyn (.with h))

/-! ## Lock and image calibration (R65, R85, R407, R464) -/

theorem keepsJobs_execSynLock {us : BitVec 16} {s : State} (h : JobsOk s) : KeepsJobs (execSynLock us s) :=
  .ite (.next (.when (.when (.becomeLocked h) fun hs => .wakeDone (.modPwr hs)) .with)) (.next h)

theorem JobsOk.bootCalEnd {s : State} {n : Ch} (h : JobsOk s) : JobsOk (s.bootCalEnd n) := .with h

theorem keepsJobs_execImageCalibrationEnd {n : Ch} {g p : BitVec 12} {irrA irrB : BitVec 8} {s : State} (h : JobsOk s) :
    KeepsJobs (execImageCalibrationEnd n g p irrA irrB s) :=
  .ite (.next (.bootCalEnd (.imageCalDone h))) (.ite (.next (.imageCalOver (.imageCalDone h))) (.next h))

/-! ## Discovery (R467) -/

theorem JobsOk.discover {s : State} {d : FlashDisc} (h : JobsOk s) : JobsOk (s.discover d) :=
  .modFlash (.wr (.wr (.wr (.wr (.wr (.wr h))))))

/-! ## The loader (R477, R478) -/

theorem JobsOk.keepDenials {s old : State} (h : JobsOk s) : JobsOk (s.keepDenials old) := .wrWord (.wrWord h)

theorem JobsOk.loadRegs {s : State} {a : Nat} {ws : List Word}
    (h : JobsOk s) : JobsOk (s.loadRegs a ws).1 := .keepDenials (.regWrite h)

theorem JobsOk.loadWords {s : State} {g : State → Nat → Word → State × Byte} {a : Nat} {ws : List Word}
    (hg : ∀ t a b, JobsOk t → JobsOk (g t a b).1) (h : JobsOk s) : JobsOk (s.loadWords g a ws).1 := by
  unfold State.loadWords
  refine .foldl (fun x a hx => ?_) h
  dsimp only
  exact hg _ _ _ hx

theorem JobsOk.loadKey {s : State} {k : Nat} {bytes : List Byte} (h : JobsOk s) : JobsOk (s.loadKey k bytes).1 := by
  unfold State.loadKey
  extract_lets x y st
  have hx : JobsOk x.1 := .loadWords (fun _ _ _ h => .keyMem h) h
  have hy : JobsOk y.1 := .loadWords (fun _ _ _ h => .keyMem h) hx
  exact .iteFst hy (.pair (.validateKey hy))

theorem JobsOk.loadKeys {s : State} {r : ImgRec} (h : JobsOk s) : JobsOk (s.loadKeys r).1 := by
  unfold State.loadKeys
  dsimp only
  split
  · exact .loadWords (fun _ _ _ h => .keyMem h) h
  · refine .foldl (fun x a hx => ?_) h
    dsimp only
    exact .loadKey hx
  · exact .loadWords (fun _ _ _ h => .keyMem h) h

theorem JobsOk.loadGate {s : State} {r : ImgRec} (h : JobsOk s) : JobsOk (s.loadGate r).1 := by
  unfold State.loadGate
  extract_lets x st s1
  have hx : JobsOk x.1 := by
    refine .foldl (fun x a hx => ?_) h
    dsimp only
    exact .loadRegs hx
  clear_value x
  exact .ite (.with hx) hx

theorem JobsOk.loadProt {s : State} {r : ImgRec} (h : JobsOk s) : JobsOk (s.loadProt r).1 :=
  .iteFst (.pair (.loadRegs (.loadRegs h))) (.loadRegs h)

theorem JobsOk.loadRoutine {s : State} {r : ImgRec} (h : JobsOk s) : JobsOk (s.loadRoutine r) :=
  .when (.swrite h) .swrite

theorem JobsOk.loadWatch {s : State} {r : ImgRec} (h : JobsOk s) : JobsOk (s.loadWatch r) :=
  .each (fun _ _ h => .writeBase (.writeCfg h)) h

theorem JobsOk.loadRecord {s : State} {r : ImgRec} (h : JobsOk s) : JobsOk (s.loadRecord r).1 := by
  unfold State.loadRecord
  split
  · exact .loadRegs h
  · exact .swrite h
  · exact .loadRoutine h
  · exact .loadKeys h
  · exact .loadGate h
  · exact .loadProt h
  · exact .loadWords (fun _ _ _ h => .swarmMem h) h
  · exact .loadWatch h
  · exact h

theorem JobsOk.loadRecords {rs : List ImgRec} :
    ∀ {s : State} {k : Nat} {e : RecErr}, JobsOk s → JobsOk (s.loadRecords k e rs).1 := by
  induction rs with
  | nil => exact fun h => h
  | cons r rs ih =>
    intro s k e h
    rw [State.loadRecords]
    exact ih (.loadRecord h)

theorem JobsOk.applyImage {s : State} (h : JobsOk s) : JobsOk s.applyImage := by
  unfold State.applyImage
  split
  next img alt _ =>
  extract_lets s1
  have h1 : JobsOk s1 := .wr (.noteImage (.noteImage h))
  split
  · exact .setFlag h1
  next k _ =>
  extract_lets s2
  have hr := JobsOk.loadRecords (k := 0) (e := none) (rs := (s.imgRecords k).getD []) (.wr (.wr h1) : JobsOk s2)
  split
  next s3 e => exact .of_eq e hr
  next s3 i st t e => exact .wr (.wr (.wr (.setFlag (.of_eq e hr))))

theorem JobsOk.loadJournal {s : State} (h : JobsOk s) : JobsOk s.loadJournal := by
  unfold State.loadJournal
  split
  · exact h
  · exact .setFlag (.wr (.modEmu h))

theorem JobsOk.raiseBoot {s : State} (h : JobsOk s) : JobsOk s.raiseBoot := by
  unfold State.raiseBoot
  dsimp only [State.takeFresh]
  exact .pmbOn (.when (.each (fun _ _ => .wr) (.setFlag (.wr (.with h)))) .startSwap)

theorem JobsOk.finishBoot {s : State} {d : FlashDisc} (h : JobsOk s) : JobsOk (s.finishBoot d) :=
  .raiseBoot (.loadJournal (.applyImage (.discover (.with h))))

theorem keepsJobs_execFlashPowerupWaitEnd {d : FlashDisc} {s : State} (h : JobsOk s) : KeepsJobs (execFlashPowerupWaitEnd d s) :=
  .ite (.next (.ite (.with h) (.finishBoot h))) (.next h)

theorem keepsJobs_execFlashStatusPoll {sr : Byte} {ms : Nat} {s : State} (h : JobsOk s) :
    KeepsJobs (execFlashStatusPoll sr ms s) := by
  unfold execFlashStatusPoll
  refine .next ?_
  split
  · exact .when (.pollFlash h) .finishBoot
  · exact .pollFlash h

end Sys2Proof.Machine
end

section
/-!
PROOFS. The serial numbers of jobs and open items stay in order: host frames.
-/

namespace Sys2Proof.Machine

/-! ## Replies on HnSDO (R431 to R433) -/

theorem JobsOk.sendWindow {s : State} {f : Frame} (h : JobsOk s) : JobsOk (s.sendWindow f) :=
  .when (.modPt (fun _ => .inl rfl) h) .bump

/-! ## Opcodes -/

theorem JobsOk.nopFrame {s : State} {p : Nat} {arg : Word} (h : JobsOk s) : JobsOk (s.nopFrame p arg).1 := h

theorem JobsOk.noticeRead {s : State} {p : Nat} {arg : Word} (h : JobsOk s) : JobsOk (s.noticeRead p arg).1 := h

theorem JobsOk.noticeAck {s : State} {p : Nat} {arg : Word} (h : JobsOk s) : JobsOk (s.noticeAck p arg).1 :=
  .iteFst h (.pair (.wr h))

theorem JobsOk.regReadFrame {s : State} {p : Port} {arg : Word} (h : JobsOk s) : JobsOk (s.regReadFrame p arg).1 :=
  .iteFst h (.pair (.regReadRun h))

theorem JobsOk.regWriteFrame {s : State} {p : Port} {arg : Word} {body : List Byte} (h : JobsOk s) :
    JobsOk (s.regWriteFrame p arg body).1 := .iteFst h (.pair (.regWrite h))

theorem JobsOk.memReadFrame {s : State} {p : Port} {arg : Word} {body : List Byte} (h : JobsOk s) :
    JobsOk (s.memReadFrame p arg body).1 := .iteFst h (.pair (.memRead h))

theorem JobsOk.memWriteFrame {s : State} {p : Port} {arg : Word} {body : List Byte} (h : JobsOk s) :
    JobsOk (s.memWriteFrame p arg body).1 := .iteFst h (.pair (.memWrite h))

theorem JobsOk.offsetTime {s : State} {v : BitVec 64} {unc : Nat} (h : JobsOk s) : JobsOk (s.offsetTime v unc).1 :=
  .iteFst h (.pair (.setTime h))

theorem JobsOk.timeSet {s : State} {arg : Word} {body : List Byte} (h : JobsOk s) : JobsOk (s.timeSet arg body).1 := by
  unfold State.timeSet
  refine .iteFst h ?_
  split
  · exact .setTime h
  · exact .with h
  · exact .offsetTime h
  · exact .with h

theorem JobsOk.flashFrame {s : State} {p : Port} {opc : Nat} {arg : Word} {body : List Byte} (h : JobsOk s) :
    JobsOk (s.flashFrame p opc arg body).1 := by
  unfold State.flashFrame
  split
  · exact .flInfo h
  · exact .flErase h
  · exact .flProgram h
  · exact .flCrc h
  · exact .imgCheck h
  · exact .flAbort h
  · exact .flSleep h
  · exact .flReset h

theorem JobsOk.opFrame {s : State} {p : Port} {opc : Nat} {tag : Byte} {arg : Word} {body : List Byte} (h : JobsOk s) :
    JobsOk (s.opFrame p opc tag arg body).1 := by
  unfold State.opFrame
  split
  · exact .nopFrame h
  · exact .regReadFrame h
  · exact .regWriteFrame h
  · exact .memReadFrame h
  · exact .memWriteFrame h
  · exact .submit h
  · exact .flushQueue h
  · exact .ringCmd (fun _ _ => .resRead) h
  · exact .ringCmd (fun _ _ => .resMark) h
  · exact .ringCmd (fun _ _ => .resRewind) h
  · exact .ringCmd (fun _ _ => .resRelease) h
  · exact .noticeRead h
  · exact .noticeAck h
  · exact .timeSet h
  · exact .powerFrame h
  · exact .flashFrame h

/-! ## Execution (R435, R441) -/

theorem JobsOk.noteFrame {s : State} {p opc : Nat} {x : Answer} (h : JobsOk s) : JobsOk (s.noteFrame p opc x) :=
  .ite (.noteDenied h) h

theorem JobsOk.resetFrame {s : State} {p : Port} {arg : Word} (h : JobsOk s) : JobsOk (s.resetFrame p arg).1 :=
  .iteFst h (.iteFst (.pair (.systemReset h)) (.pair (.warmReset h)))

theorem JobsOk.execute {s : State} {p : Port} {opc : Nat} {tag : Byte} {arg : Word} {body : List Byte} (h : JobsOk s) :
    JobsOk (s.execute p opc tag arg body).1 := by
  unfold State.execute
  split
  · exact .ite (.noteDenied h) h
  · exact .iteFst (.resetFrame h) (.pair (.noteFrame (.opFrame h)))

theorem JobsOk.carry {s : State} {p : Nat} {r : Reply} (h : JobsOk s) : JobsOk (s.carry p r) := .modPt (fun _ => .inl rfl) h

theorem JobsOk.executed {s : State} {opc : Byte} {f : Frame} (h : JobsOk s) : JobsOk (s.executed opc f) := by
  unfold State.executed
  extract_lets p s1
  have h1 : JobsOk s1 := .modPt (fun _ => .inl rfl) h
  have he := JobsOk.execute (p := f.port) (opc := opc.toNat) (tag := f.tag) (arg := f.arg) (body := bodyOf f) h1
  split
  next s2 x e => exact .bump (.carry (.modPt (fun _ => .inl rfl) (.of_eq e he)))
  next s2 e => exact .when (.of_eq e he) .bump

theorem JobsOk.riseFrame {s : State} {opc : Byte} {f : Frame} {before : Reply} (h : JobsOk s) : JobsOk (s.riseFrame opc f before) :=
  .ite (.bump (.carry h)) (.ite (.carry h) (.ite (.ite (.executed h) (.carry h))
    (.ite (.bump (.carry h)) (.ite (.bump (.carry h)) (.executed h)))))

/-! ## RDY (R151, R402, R405, R438, R464) -/

theorem JobsOk.stallEnd {s : State} {p : Nat} (h : JobsOk s) : JobsOk (s.stallEnd p) := by
  unfold State.stallEnd
  dsimp only [State.takeFresh]
  exact .keepMax (.with h)

theorem JobsOk.holdFrame {s : State} {opc : Byte} {f : Frame} (h : JobsOk s) : JobsOk (s.holdFrame opc f) :=
  .bump (.modPt (fun _ => .inl rfl) h)

theorem JobsOk.holdWrite {s : State} {opc : Byte} {f : Frame} (h : JobsOk s) : JobsOk (s.holdWrite opc f) :=
  .modPt (fun _ => .inl rfl) h

theorem JobsOk.finishWrite {s : State} {p : Port} (h : JobsOk s) : JobsOk (s.finishWrite p) := by
  unfold State.finishWrite
  split
  · exact h
  · exact .ite h (.executed (.modPt (fun _ => .inl rfl) h))

theorem JobsOk.clockFrame {s : State} {opc : Byte} {f : Frame} {hold : Bool} (h : JobsOk s) : JobsOk (s.clockFrame opc f hold) :=
  .ite (.holdWrite (.sendWindow (.modPt (fun _ => .inl rfl) h))) (.riseFrame (.sendWindow (.modPt (fun _ => .inl rfl) h)))

theorem JobsOk.releaseOne {s : State} {p : Port} (h : JobsOk s) : JobsOk (s.releaseOne p) := by
  unfold State.releaseOne
  split
  · exact h
  · exact .ite (.clockFrame (.stallEnd (.modPt (fun _ => .inl rfl) h))) h

theorem JobsOk.releasePort {s : State} {p : Port} (h : JobsOk s) : JobsOk (s.releasePort p) := .each (fun _ _ => .releaseOne) h

theorem JobsOk.releaseAll {s : State} (h : JobsOk s) : JobsOk s.releaseAll := .each (fun _ _ h => .releaseOne (.finishWrite h)) h

theorem JobsOk.stallBuild {s : State} {p : Nat} (h : JobsOk s) : JobsOk (s.stallBuild p) := .ite (.stallEnd (.bump h)) h

theorem JobsOk.frame {s0 : State} {opc : Byte} {f : Frame} (h : JobsOk s0) : JobsOk (s0.frame opc f) :=
  .ite (.clockFrame (.stallBuild (.releasePort (.ite (.hostEdge h) h))))
    (.when (.releasePort (.ite (.hostEdge h) h)) .holdFrame)

/-! ## Commands: the end of a stall -/

theorem keepsJobs_execReplyBuildDone {p : Port} {s : State} (h : JobsOk s) : KeepsJobs (execReplyBuildDone p s) :=
  .next (.ite h (.releaseOne (.modPt (fun _ => .inl rfl) h)))

theorem keepsJobs_execDomainPowerUp {s : State} (h : JobsOk s) : KeepsJobs (execDomainPowerUp s) :=
  .next (.when (.nextDomain h) fun hs => .releaseAll (.pmbEngineOn hs))

theorem keepsJobs_execPrivacySearchDone {lat : Nat} {s : State} (h : JobsOk s) : KeepsJobs (execPrivacySearchDone lat s) := by
  refine .next ?_
  split
  · exact h
  next t e => exact .delivered (.retryRequests (.startCry (.releaseAll (.searchEnd h e))))

end Sys2Proof.Machine
end

section
/-!
PROOFS. The serial numbers of jobs and open items stay in order: writes of one register by a host port.
-/

namespace Sys2Proof.Machine

theorem JobsOk.writeOne {s : State} {p : Port} {a : Nat} {w : Word} (h : JobsOk s) : JobsOk (s.writeOne p a w) := .frame h

theorem JobsOk.readOne {s : State} {p : Port} {a : Nat} (h : JobsOk s) : JobsOk (s.readOne p a) := .frame h

theorem JobsOk.writeField {s : State} {p : Port} {f : Fld} {v : Nat} (h : JobsOk s) : JobsOk (s.writeField p f v) := .writeOne h

theorem keepsJobs_execChnWsdataAccess {p : Port} {n : Ch} {w : Option Word} {s : State} (h : JobsOk s) :
    KeepsJobs (execChnWsdataAccess p n w s) := by
  unfold execChnWsdataAccess
  refine .next ?_
  split
  · exact .writeOne h
  · exact .readOne h

theorem JobsOk.writeInv {s : State} {p : Port} {op index : Nat} (h : JobsOk s) : JobsOk (s.writeInv p op index) := .writeOne h

theorem JobsOk.writeCry {s : State} {p : Port} {op key : Nat} (h : JobsOk s) : JobsOk (s.writeCry p op key) := .writeOne h

theorem JobsOk.writeWatch {s : State} {p : Port} {op : Nat} {one : Bool} {step : BitVec 6} (h : JobsOk s) :
    JobsOk (s.writeWatch p op one step) := .writeOne h

theorem JobsOk.writePmb {s : State} {p : Port} {op : Nat} {code : Byte} {data : BitVec 16} (h : JobsOk s) :
    JobsOk (s.writePmb p op code data) := .writeOne h

end Sys2Proof.Machine
end

section
/-!
PROOFS. The serial numbers of jobs and open items stay in order: every command, and the step.
-/

namespace Sys2Proof.Machine

/-- Every command keeps the serial numbers in order. -/
theorem keepsJobs_exec {s : State} (h : JobsOk s) : ∀ i, KeepsJobs (exec i s)
  | .nop .. => .next (.frame h)
  | .nopResync .. => .next (.frame h)
  | .lastReply .. => .next (.frame h)
  | .regRead .. => .next (.frame h)
  | .regWrite .. => .next (.frame h)
  | .memRead .. => .next (.frame h)
  | .memWrite .. => .next (.frame h)
  | .submitSingle .. => .next (.frame h)
  | .submitOpen .. => .next (.frame h)
  | .submitCont .. => .next (.frame h)
  | .submitFinal .. => .next (.frame h)
  | .queueFlush .. => .next (.frame h)
  | .queueFlushAbort .. => .next (.frame h)
  | .resRead .. => .next (.frame h)
  | .resMark .. => .next (.frame h)
  | .resRewind .. => .next (.frame h)
  | .resRelease .. => .next (.frame h)
  | .noticeRead .. => .next (.frame h)
  | .noticeAck .. => .next (.frame h)
  | .timeSetNow .. => .next (.frame h)
  | .timeSetAtSynci .. => .next (.frame h)
  | .timeSetOffset .. => .next (.frame h)
  | .timeSetDisarm .. => .next (.frame h)
  | .powerIdle .. => .next (.frame h)
  | .powerSleep .. => .next (.frame h)
  | .powerWatch .. => .next (.frame h)
  | .powerDeep .. => .next (.frame h)
  | .powerOff .. => .next (.frame h)
  | .resetWarm .. => .next (.frame h)
  | .resetSystem .. => .next (.frame h)
  | .flInfo .. => .next (.frame h)
  | .flErase .. => .next (.frame h)
  | .flProgram .. => .next (.frame h)
  | .flCrc .. => .next (.frame h)
  | .imgCheck .. => .next (.frame h)
  | .flAbort .. => .next (.frame h)
  | .flSleep .. => .next (.frame h)
  | .flReset .. => .next (.frame h)
  | .replyBuildDone .. => keepsJobs_execReplyBuildDone h
  | .protWrite .. => .next (.writeOne h)
  | .protCommit .. => .next (.writeOne h)
  | .beatUsWrite .. => .next (.writeField h)
  | .timeRateWrite .. => .next (.writeOne h)
  | .chnAntWrite .. => .next (.writeOne h)
  | .chnWsdataAccess .. => keepsJobs_execChnWsdataAccess h
  | .recal .. => .next (.writeField h)
  | .iqcal .. => .next (.writeField h)
  | .find .. => .next (.writeInv h)
  | .free .. => .next (.writeInv h)
  | .lock .. => .next (.writeInv h)
  | .unlock .. => .next (.writeInv h)
  | .clear .. => .next (.writeInv h)
  | .clearAll .. => .next (.writeInv h)
  | .validate .. => .next (.writeCry h)
  | .invalidate .. => .next (.writeCry h)
  | .validateAll .. => .next (.writeCry h)
  | .zeroAes .. => .next (.writeCry h)
  | .measure .. => .next (.writeOne h)
  | .declarationQuery .. => .next (.writeOne h)
  | .cacheInvalidate .. => .next (.writeOne h)
  | .wmHitClear .. => .next (.writeField h)
  | .quotaWrite .. => .next (.writeField h)
  | .swap .. => .next (.writeField h)
  | .cancel .. => .next (.writeField h)
  | .emuEnableWrite .. => .next (.writeField h)
  | .mbOpen .. => .next (.writeOne h)
  | .mbCommit .. => .next (.writeOne h)
  | .mbDiscard .. => .next (.writeOne h)
  | .rejournal .. => .next (.writeOne h)
  | .capture .. => .next (.writeWatch h)
  | .watchClear .. => .next (.writeWatch h)
  | .sbaseWrite .. => .next (.writeOne h)
  | .recover .. => .next (.writePmb h)
  | .readByte .. => .next (.writePmb h)
  | .readWord .. => .next (.writePmb h)
  | .writeByte .. => .next (.writePmb h)
  | .writeWord .. => .next (.writePmb h)
  | .sendByte .. => .next (.writePmb h)
  | .pmbRawDone .. => keepsJobs_execPmbRawDone h
  | .romtest .. => .next (.writeOne h)
  | .chtest .. => .next (.writeOne h)
  | .diagTestDone .. => keepsJobs_execDiagTestDone h
  | .beatBoundary .. => keepsJobs_execBeatBoundary h
  | .holdSweep .. => keepsJobs_execHoldSweep h
  | .seqNop .. => .next (.pure h)
  | .yield .. => .next (.pure h)
  | .ret .. => keepsJobs_execRet h
  | .seqFault .. => keepsJobs_execSeqFault h
  | .wait .. => keepsJobs_execWait h
  | .waitExpiry .. => .next (.resumeIf h)
  | .time .. => .next (.pure h)
  | .jr .. => keepsJobs_execJr h
  | .movi .. => .next (.pure h)
  | .movx .. => .next (.pure h)
  | .mov .. => .next (.pure h)
  | .add .. => .next (.pure h)
  | .sub .. => .next (.pure h)
  | .and .. => .next (.pure h)
  | .or .. => .next (.pure h)
  | .xor .. => .next (.pure h)
  | .shl .. => .next (.pure h)
  | .shr .. => .next (.pure h)
  | .asr .. => .next (.pure h)
  | .mul .. => .next (.pure h)
  | .cmp .. => .next (.pure h)
  | .tst .. => .next (.pure h)
  | .not .. => .next (.pure h)
  | .addi .. => .next (.pure h)
  | .subi .. => .next (.pure h)
  | .shli .. => .next (.pure h)
  | .shri .. => .next (.pure h)
  | .btst .. => .next (.pure h)
  | .bset .. => .next (.pure h)
  | .bclr .. => .next (.pure h)
  | .cmpi .. => .next (.pure h)
  | .beq .. => .next (.pure h)
  | .bne .. => .next (.pure h)
  | .blo .. => .next (.pure h)
  | .bhs .. => .next (.pure h)
  | .blt .. => .next (.pure h)
  | .bge .. => .next (.pure h)
  | .bmi .. => .next (.pure h)
  | .bpl .. => .next (.pure h)
  | .jmp .. => .next (.pure h)
  | .call .. => keepsJobs_execCall h
  | .ld .. => keepsJobs_execLd h
  | .st .. => keepsJobs_execSt h
  | .pushb .. => keepsJobs_execPushb h
  | .pushw .. => keepsJobs_execPushw h
  | .popb .. => keepsJobs_execPopb h
  | .popw .. => keepsJobs_execPopw h
  | .poph .. => keepsJobs_execPoph h
  | .peek .. => keepsJobs_execPeek h
  | .fctlMark .. => keepsJobs_execFctlMark h
  | .fctlRewind .. => keepsJobs_execFctlRewind h
  | .fctlRelease .. => keepsJobs_execFctlRelease h
  | .fctlDrop .. => keepsJobs_execFctlDrop h
  | .avail .. => keepsJobs_execAvail h
  | .pushi .. => keepsJobs_execPushi h
  | .outi .. => .next (.pure h)
  | .waitus .. => keepsJobs_execWaitus h
  | .airt .. => keepsJobs_execAirt h
  | .airr .. => keepsJobs_execAirr h
  | .endJob .. => keepsJobs_execEndJob h
  | .deti .. => .next (.pure h)
  | .pati .. => keepsJobs_execPati h
  | .fon .. => keepsJobs_execFon h
  | .foff .. => keepsJobs_execFoff h
  | .ant .. => keepsJobs_execAnt h
  | .pwr .. => keepsJobs_execPwr h
  | .tx .. => keepsJobs_execTx h
  | .rx .. => keepsJobs_execRx h
  | .xch .. => keepsJobs_execXch h
  | .rxto .. => keepsJobs_execRxto h
  | .rawb .. => keepsJobs_execRawb h
  | .pat .. => keepsJobs_execPat h
  | .txst .. => keepsJobs_execTxst h
  | .invo .. => keepsJobs_execInvo h
  | .invs .. => keepsJobs_execInvs h
  | .inve .. => keepsJobs_execInve h
  | .sigq .. => keepsJobs_execSigq h
  | .resq .. => keepsJobs_execResq h
  | .cryw .. => keepsJobs_execCryw h
  | .cryr .. => keepsJobs_execCryr h
  | .outb .. => .next (.pure h)
  | .outh .. => .next (.pure h)
  | .outw .. => .next (.pure h)
  | .outrec .. => keepsJobs_execOutrec h
  | .outsum .. => .next (.pure h)
  | .post .. => keepsJobs_execPost h
  | .det .. => .next (.pure h)
  | .endr .. => keepsJobs_execEndr h
  | .olen .. => .next (.pure h)
  | .yieldMissed .. => keepsJobs_execYieldMissed h
  | .windupExpiry .. => keepsJobs_execWindupExpiry h
  | .waitingResume .. => keepsJobs_execWaitingResume h
  | .finalEntryWrite .. => keepsJobs_execFinalEntryWrite h
  | .settleEnd .. => keepsJobs_execSettleEnd h
  | .rampEnd .. => keepsJobs_execRampEnd h
  | .calibrationEnd .. => keepsJobs_execCalibrationEnd h
  | .openAntennaCheck .. => keepsJobs_execOpenAntennaCheck h
  | .modEnd .. => keepsJobs_execModEnd h
  | .sofDetect .. => keepsJobs_execSofDetect h
  | .frameEnd .. => keepsJobs_execFrameEnd h
  | .responseTimeout .. => keepsJobs_execResponseTimeout h
  | .windowClose .. => keepsJobs_execWindowClose h
  | .downEnd .. => keepsJobs_execDownEnd h
  | .loopTick .. => keepsJobs_execLoopTick h
  | .overcurrent .. => .next (.faultChans h)
  | .vtxlow .. => keepsJobs_execVtxlow h
  | .synLock .. => keepsJobs_execSynLock h
  | .phaseStepRelock .. => keepsJobs_execPhaseStepRelock h
  | .imageCalibrationEnd .. => keepsJobs_execImageCalibrationEnd h
  | .agerVisit .. => keepsJobs_execAgerVisit h
  | .ecdsaDone .. => keepsJobs_execEcdsaDone h
  | .privacySearchDone .. => keepsJobs_execPrivacySearchDone h
  | .couplingMeasurementDone .. => keepsJobs_execCouplingMeasurementDone h
  | .routineCacheFill .. => keepsJobs_execRoutineCacheFill h
  | .synciEdge .. => keepsJobs_execSynciEdge h
  | .slewEnd .. => keepsJobs_execSlewEnd h
  | .holdoverTimeout .. => keepsJobs_execHoldoverTimeout h
  | .uncUpdate .. => keepsJobs_execUncUpdate h
  | .syncoPulse .. => keepsJobs_execSyncoPulse h
  | .lpoSpan .. => keepsJobs_execLpoSpan h
  | .lpoFallback .. => .next (.switchLpo h)
  | .gateChange .. => .next (.advanceTo h)
  | .emuFieldDetect .. => keepsJobs_execEmuFieldDetect h
  | .emuFieldLoss .. => keepsJobs_execEmuFieldLoss h
  | .emuReqa .. => keepsJobs_execEmuReqa h
  | .emuWupa .. => keepsJobs_execEmuWupa h
  | .emuAnticollision .. => keepsJobs_execEmuAnticollision h
  | .emuSelect .. => keepsJobs_execEmuSelect h
  | .emuRats .. => keepsJobs_execEmuRats h
  | .emuPps .. => keepsJobs_execEmuPps h
  | .emuHlta .. => keepsJobs_execEmuHlta h
  | .sDeselect .. => keepsJobs_execSDeselect h
  | .emuOtherFrame .. => keepsJobs_execEmuOtherFrame h
  | .selectByName .. => keepsJobs_execSelectByName h
  | .selectByFileId .. => keepsJobs_execSelectByFileId h
  | .readBinary .. => keepsJobs_execReadBinary h
  | .updateBinary .. => keepsJobs_execUpdateBinary h
  | .emuUnknownApdu _ _ ins => keepsJobs_execEmuUnknownApdu (ins := ins) h
  | .journalCommit .. => keepsJobs_execJournalCommit h
  | .wakePin .. => keepsJobs_execWakePin h
  | .hostWake .. => .next (.hostEdge h)
  | .ntResume .. => keepsJobs_execNtResume h
  | .watchRound .. => keepsJobs_execWatchRound h
  | .pmbTonEnd .. => keepsJobs_execPmbTonEnd h
  | .pmbVsettleEnd .. => keepsJobs_execPmbVsettleEnd h
  | .pmbBusError .. => keepsJobs_execPmbBusError h
  | .pmalert .. => keepsJobs_execPmalert h
  | .thermalSample .. => keepsJobs_execThermalSample h
  | .supplySample .. => keepsJobs_execSupplySample h
  | .flashPowerupWaitEnd .. => keepsJobs_execFlashPowerupWaitEnd h
  | .flashStatusPoll .. => keepsJobs_execFlashStatusPoll h
  | .earlySubcarrier .. => keepsJobs_execEarlySubcarrier h
  | .lpoCrystalStart .. => .next (.switchLpo h)
  | .badOpc .. => .next (.frame h)
  | .undefinedInstruction .. => keepsJobs_execUndefinedInstruction h
  | .chainedIBlock .. => keepsJobs_execChainedIBlock h
  | .invCommandDone .. => keepsJobs_execInvCommandDone h
  | .cryCommandDone .. => keepsJobs_execCryCommandDone h
  | .antShiftStart .. => keepsJobs_execAntShiftStart h
  | .antShiftComplete .. => keepsJobs_execAntShiftComplete h
  | .bandFound .. => keepsJobs_execBandFound h
  | .lockAttemptTimeout .. => keepsJobs_execLockAttemptTimeout h
  | .lockLost .. => keepsJobs_execLockLost h
  | .stepRelockTimeout .. => keepsJobs_execStepRelockTimeout h
  | .merge .. => keepsJobs_execMerge h
  | .pdCryPowerOff .. => keepsJobs_execPdCryPowerOff h
  | .locateDone .. => keepsJobs_execLocateDone h
  | .cacheFillDone .. => keepsJobs_execCacheFillDone h
  | .syncoPulseEnd .. => keepsJobs_execSyncoPulseEnd h
  | .wireLockExpiry .. => keepsJobs_execWireLockExpiry h
  | .journalWrite .. => keepsJobs_execJournalWrite h
  | .autoEntry .. => keepsJobs_execAutoEntry h
  | .entryAgentPoll .. => .next (.pollEntry h)
  | .entryTimeout .. => keepsJobs_execEntryTimeout h
  | .timerWake .. => keepsJobs_execTimerWake h
  | .domainPowerUp .. => keepsJobs_execDomainPowerUp h
  | .crystalStable .. => keepsJobs_execCrystalStable h
  | .crystalStartTimeout .. => keepsJobs_execCrystalStartTimeout h
  | .pingOscTrim .. => keepsJobs_execPingOscTrim h
  | .pmbRecoverEnd .. => keepsJobs_execPmbRecoverEnd h
  | .thermalResetRelease .. => keepsJobs_execThermalResetRelease h
  | .por .. => keepsJobs_execPor h
  | .brownOut .. => keepsJobs_execBrownOut h
  | .offexit .. => keepsJobs_execOffexit h
  | .pinReset .. => keepsJobs_execPinReset h
  | .flashOpDone .. => keepsJobs_execFlashOpDone h
  | .maintDrainTimeout .. => keepsJobs_execMaintDrainTimeout h
  | .drainForce .. => keepsJobs_execDrainForce h
  | .vddioGood .. => keepsJobs_execVddioGood h
  | .resetNRelease .. => keepsJobs_execResetNRelease h

/-- A step keeps the serial numbers in order: the command in front of the queue runs on the state that holds the rest, and on an empty
queue the device runs on by a cycle of its crystal. -/
theorem keepsJobs_step {s : State} (h : JobsOk s) : KeepsJobs (step s) := by
  unfold step
  split
  · exact .next (.idleTick h)
  · exact keepsJobs_exec (.with h) _

/-- Settles O59: every command keeps the serial numbers of jobs and open items in order, function by function of the model. -/
theorem stepKeepsJobs : Obligations.StepKeepsJobs := by
  unfold Obligations.StepKeepsJobs
  exact fun _ t h e => keepsJobs_step h t e

end Sys2Proof.Machine
end

section
/-!
PROOFS. The final entry of a job: numbers as bytes, the words of an entry, and what its posting changes.
-/

namespace Sys2Proof.Machine

/-! ## Numbers as bytes -/

theorem leBytes_length : ∀ n v, (leBytes n v).length = n
  | 0, _ => rfl
  | n + 1, v => congrArg (· + 1) (leBytes_length n (v / 256))

theorem leNat_leBytes : ∀ n v, leNat (leBytes n v) = v % 256 ^ n
  | 0, v => (Nat.mod_one v).symm
  | n + 1, v => by
    rw [leBytes, leNat, leNat_leBytes n, BitVec.toNat_ofNat]
    change v % 256 + 256 * (v / 256 % 256 ^ n) = v % 256 ^ (n + 1)
    rw [Nat.pow_succ', Nat.mod_mul]

theorem leNat_leBytes_word {v : Nat} (h : v < 2 ^ 32) : leNat (leBytes 4 v) = v := by
  rw [leNat_leBytes]
  exact Nat.mod_eq_of_lt h

theorem bitsOf_eq (x lo w : Nat) : bitsOf x lo w = x / 2 ^ lo % 2 ^ w := by
  rw [bitsOf, Nat.shiftRight_eq_div_pow]

/-! ## The words of an entry (R25, R26) -/

/-- Word 1 of an entry. -/
def entryWord1 (routine ch coil mask flags : Nat) : Nat := routine + 2 ^ 10 * ch + 2 ^ 13 * coil + 2 ^ 16 * mask + 2 ^ 24 * flags

theorem entryFlags_lt : ∀ final receipt partialE debt cut swarm restart : Bool,
    entryFlags final receipt partialE debt cut swarm restart < 128 := by decide

/-- Each flag has a bit of its own, and bit 7 is free. -/
theorem entryFlags_bits : ∀ final receipt partialE debt cut swarm restart : Bool,
    let f := entryFlags final receipt partialE debt cut swarm restart
    bitOf f 0 = final ∧ bitOf f 1 = receipt ∧ bitOf f 2 = partialE ∧ bitOf f 3 = debt ∧ bitOf f 4 = cut ∧ bitOf f 5 = swarm
      ∧ bitOf f 6 = restart ∧ bitOf f 7 = false := by decide

section

variable {routine ch coil mask flags : Nat} (hr : routine < 2 ^ 10) (hc : ch < 2 ^ 3) (hk : coil < 2 ^ 3) (hm : mask < 2 ^ 8)

include hr hc hk hm

theorem entryWord1_lt (hf : flags < 2 ^ 7) : entryWord1 routine ch coil mask flags < 2 ^ 32 := by
  unfold entryWord1
  omega

theorem entryWord1_fields :
    let x := entryWord1 routine ch coil mask flags
    bitsOf x 0 10 = routine ∧ bitsOf x 10 3 = ch ∧ bitsOf x 13 3 = coil ∧ bitsOf x 16 8 = mask := by
  simp only [bitsOf_eq, entryWord1]
  omega

/-- FLAGS stand from bit 24. -/
theorem bitOf_entryWord1 (k : Nat) : bitOf (entryWord1 routine ch coil mask flags) (24 + k) = bitOf flags k := by
  have h : entryWord1 routine ch coil mask flags / 2 ^ 24 = flags := by
    unfold entryWord1
    omega
  rw [bitOf, Nat.add_comm, Nat.testBit_add, h, bitOf]

end

theorem entryHeader_length {cookie : Nat} {rc : Byte} {routine ch coil mask flags : Nat} {w : Word} {len : Nat}
    {detail : BitVec 16} : (entryHeader cookie rc routine ch coil mask flags w len detail).length = 16 := by
  simp only [entryHeader, List.length_append, leBytes_length]

/-- The four words of a header, and what follows it. -/
theorem header_words {a b c d l : List Byte} (ha : a.length = 4) (hb : b.length = 4) (hc : c.length = 4) (hd : d.length = 4) :
    let x := a ++ b ++ c ++ d ++ l
    x.take 4 = a ∧ (x.drop 4).take 4 = b ∧ (x.drop 8).take 4 = c ∧ (x.drop 12).take 4 = d ∧ x.drop 16 = l := by
  intro x
  have h4 : x = a ++ (b ++ (c ++ (d ++ l))) := by simp only [x, List.append_assoc]
  have h8 : x = (a ++ b) ++ (c ++ (d ++ l)) := by simp only [x, List.append_assoc]
  have h12 : x = (a ++ b ++ c) ++ (d ++ l) := by simp only [x, List.append_assoc]
  refine ⟨?_, ?_, ?_, ?_, ?_⟩
  · rw [h4, List.take_left' ha]
  · rw [h4, List.drop_left' ha, List.take_left' hb]
  · rw [h8, List.drop_left' (by simp [ha, hb]), List.take_left' hc]
  · rw [h12, List.drop_left' (by simp [ha, hb, hc]), List.take_left' hd]
  · exact List.drop_left' (by simp [ha, hb, hc, hd])

/-- A field of a word is below its size. -/
theorem getBits_lt (x : Word) (lo w : Nat) : getBits x lo w < 2 ^ w := Nat.mod_lt _ (Nat.two_pow_pos w)

theorem Job.ringNo_lt (j : Job) : j.ringNo < 32 := getBits_lt _ 0 5

/-! ## What the posting changes (R18, R22) -/

/-- A job that was changed but for its serial number. -/
theorem State.job?_modJob {s : State} {id : Nat} {g : Job → Job} (hg : ∀ k, (g k).id = k.id) :
    (s.modJob id g).job? id = (s.job? id).map g := by
  unfold State.job? State.modJob
  have hp : ((fun k : Job => k.id == id) ∘ fun k => if k.id = id then g k else k) = fun k => k.id == id := by
    funext k
    simp only [Function.comp_apply]
    split
    · rw [hg]
    · rfl
  rw [List.find?_map, hp]
  cases h : s.jobs.find? fun k => k.id == id with
  | none => rfl
  | some k => simp only [Option.map_some, if_pos (by simpa using List.find?_some h : k.id = id)]

/-- The job that a sequencer leads is past admission, and the sequencer is its lead. -/
theorem State.jobLead_spec {s : State} {n : Nat} {j : Job} (h : s.jobLead n = some j) : j.state.holds = true ∧ j.lead = n := by
  have hp := List.find?_some h
  simp only [Bool.and_eq_true, beq_iff_eq] at hp
  obtain ⟨⟨hs, -⟩, hl⟩ := hp
  exact ⟨hs, hl⟩

/-- The entry joins the end of its ring, and its reserved units return. -/
theorem State.ring_postEntry {s : State} {r units : Nat} {hdr payload : List Byte} (hr : r < 32) :
    let e := hdr ++ padTo (ceilDiv payload.length 16 * 16) payload
    ((s.postEntry r units hdr payload).ring r).entries = (s.ring r).entries ++ [e]
      ∧ ((s.postEntry r units hdr payload).ring r).resv = (s.ring r).resv - units := by
  intro e
  have h := s.ring_modRing_same r (fun g => { g with entries := g.entries ++ [e], resv := g.resv - units }) hr
  exact ⟨congrArg RingSt.entries h, congrArg RingSt.resv h⟩

/-- The final entry of a job. -/
def State.finalEntry (s : State) (j : Job) (e : EndRec) : EntryBytes :=
  let c := (s.ch j.lead).inv
  let body := (outBytes c (s.fillItems j.id c e.payload)).take j.maxPayload
  let fl := entryFlags true false e.part (s.jobDebt j) e.cut j.swarm j.waited
  entryHeader j.cookie e.rc j.routine j.lead j.coil0.toNat j.mask.toNat fl j.ntStart body.length e.detail
    ++ padTo (ceilDiv body.length 16 * 16) body

theorem State.postFinal_effect {s : State} {j : Job} {e : EndRec} (hj : s.job? j.id = some j) :
    ((s.postFinal j e).job? j.id).map Job.state = some .posted
      ∧ ((s.postFinal j e).ring j.ringNo).entries = (s.ring j.ringNo).entries ++ [s.finalEntry j e]
      ∧ ((s.postFinal j e).ring j.ringNo).resv = (s.ring j.ringNo).resv - j.units := by
  unfold State.postFinal
  extract_lets n c body fl hdr s1 s2
  obtain ⟨hentries, hresv⟩ := State.ring_postEntry (s := s) (units := j.units) (hdr := hdr) (payload := body) (j.ringNo_lt)
  have hjob : s2.job? j.id = (s1.job? j.id).map _ := State.job?_modJob fun _ => rfl
  obtain ⟨h1, h2⟩ := State.each_induction (P := fun t => t.job? j.id = s2.job? j.id ∧ t.ring j.ringNo = s1.ring j.ringNo)
    (g := fun s (n : Ch) => (s.clearFifos n.val).modCh n.val fun c => { c with
      inv := {}, swTarget := none, muted := false, w := 0, ev := none, lastExch := none, settleTicks := 0 })
    (fun _ _ h => h) (maskList j.mask) s2 ⟨rfl, rfl⟩
  rw [h1, h2, hjob, show s1.job? j.id = some j from hj]
  exact ⟨rfl, hentries, hresv⟩

/-! ## The obligation -/

/-- What R22 asks for, in the parts of the statement. -/
theorem State.mayPost_of {s : State} {n : Ch} {j : Job} {e : EndRec} (hh : s.thermHold = false) (hlead : s.jobLead n.val = some j)
    (he : j.ended = some e) (hoff : ∀ m ∈ maskList j.mask, (s.ch m.val).field = .off) (hcry : s.cryOutstanding j.id = false)
    (hm : s.mergesDue j.id = false) (hl : s.locatesDue j = false) : s.mayPost j = true := by
  have hall : ((maskList j.mask).all fun m => (s.ch m.val).field == .off) = true :=
    List.all_eq_true.mpr fun m hmem => by rw [hoff m hmem]; rfl
  rw [State.mayPost, hh, he, (State.jobLead_spec hlead).1, hall, hcry, hm, hl]
  rfl

theorem exec_finalEntryWrite {s : State} {n : Ch} {j : Job} {e : EndRec} (hlead : s.jobLead n.val = some j) (he : j.ended = some e)
    (hmay : s.mayPost j = true) : exec (.finalEntryWrite n) s = .next (s.postFinal j e) := by
  change execFinalEntryWrite n s = _
  simp only [execFinalEntryWrite, hlead, he, hmay, if_true]

theorem padTo_take {n : Nat} {l : List Byte} (h : l.length ≤ n) : (padTo n l).take l.length = l := by
  rw [padTo, List.take_take, Nat.min_eq_left h, List.take_left]

/-- The bytes of a final entry: the words of R25 with the FLAGS of R26, and the payload in whole units. -/
theorem State.finalEntry_spec (s : State) (j : Job) (e : EndRec) (hn : j.lead < 8) :
    let x := s.finalEntry j e
    let body := (outBytes (s.ch j.lead).inv (s.fillItems j.id (s.ch j.lead).inv e.payload)).take j.maxPayload
    leNat (x.take 4) = j.cookie + 2 ^ 24 * e.rc.toNat
      ∧ leNat ((x.drop 4).take 4) = entryWord1 j.routine j.lead j.coil0.toNat j.mask.toNat
          (entryFlags true false e.part (s.jobDebt j) e.cut j.swarm j.waited)
      ∧ leNat ((x.drop 8).take 4) = j.ntStart.toNat ∧ leNat ((x.drop 12).take 4) = body.length + 2 ^ 16 * e.detail.toNat
      ∧ (x.drop 16).take body.length = body ∧ x.length = 16 + (body.length + 15) / 16 * 16 := by
  intro x body
  have hbody : body.length ≤ 1008 := (List.length_take_le _ _).trans (Nat.min_le_right _ _)
  obtain ⟨h0, h4, h8, h12, h16⟩ := header_words (l := padTo (ceilDiv body.length 16 * 16) body)
    (leBytes_length 4 (j.cookie + 2 ^ 24 * e.rc.toNat)) (leBytes_length 4 (entryWord1 j.routine j.lead j.coil0.toNat j.mask.toNat
      (entryFlags true false e.part (s.jobDebt j) e.cut j.swarm j.waited))) (leBytes_length 4 j.ntStart.toNat)
    (leBytes_length 4 (body.length + 2 ^ 16 * e.detail.toNat))
  have hcookie : j.cookie < 2 ^ 24 := getBits_lt _ 8 24
  have hrc := e.rc.isLt
  have hd := e.detail.isLt
  refine ⟨?_, ?_, ?_, ?_, ?_, ?_⟩
  · exact (congrArg leNat h0).trans (leNat_leBytes_word (by omega))
  · exact (congrArg leNat h4).trans (leNat_leBytes_word (entryWord1_lt (getBits_lt _ 0 10) hn j.coil0.isLt j.mask.isLt
      (entryFlags_lt _ _ _ _ _ _ _)))
  · exact (congrArg leNat h8).trans (leNat_leBytes_word j.ntStart.isLt)
  · exact (congrArg leNat h12).trans (leNat_leBytes_word (by omega))
  · refine (congrArg (List.take body.length) h16).trans (padTo_take ?_)
    unfold ceilDiv
    omega
  · refine List.length_append.trans ?_
    rw [entryHeader_length, padTo_length]
    rfl

/-- Word 1 of a final entry: its fields and FLAGS (R25, R26). -/
theorem State.finalEntry_word1 (s : State) (j : Job) (e : EndRec) (hn : j.lead < 8) :
    let w := leNat (((s.finalEntry j e).drop 4).take 4)
    (bitsOf w 0 10 = j.routine ∧ bitsOf w 10 3 = j.lead ∧ bitsOf w 13 3 = j.coil0.toNat ∧ bitsOf w 16 8 = j.mask.toNat)
      ∧ bitOf w 24 = true ∧ bitOf w 25 = false ∧ bitOf w 26 = e.part ∧ bitOf w 27 = s.jobDebt j ∧ bitOf w 28 = e.cut
      ∧ bitOf w 29 = j.swarm ∧ bitOf w 30 = j.waited ∧ bitOf w 31 = false := by
  intro w
  obtain ⟨-, hw, -⟩ := s.finalEntry_spec j e hn
  have hr : j.routine < 2 ^ 10 := getBits_lt _ 0 10
  have hflag := bitOf_entryWord1 (flags := entryFlags true false e.part (s.jobDebt j) e.cut j.swarm j.waited) hr hn
    j.coil0.isLt j.mask.isLt
  obtain ⟨f0, f1, f2, f3, f4, f5, f6, f7⟩ := entryFlags_bits true false e.part (s.jobDebt j) e.cut j.swarm j.waited
  rw [show w = _ from hw]
  exact ⟨entryWord1_fields hr hn j.coil0.isLt j.mask.isLt, (hflag 0).trans f0, (hflag 1).trans f1, (hflag 2).trans f2,
    (hflag 3).trans f3, (hflag 4).trans f4, (hflag 5).trans f5, (hflag 6).trans f6, (hflag 7).trans f7⟩

/-- Settles O25: the sequencer of the job's lead posts the final entry, whose words are read off its header. -/
theorem finalEntry : Obligations.FinalEntry := by
  unfold Obligations.FinalEntry
  intro s n j e hh hlead hj he hoff hcry hm hl
  obtain ⟨-, hn⟩ := State.jobLead_spec hlead
  obtain ⟨hstate, hentries, hresv⟩ := State.postFinal_effect (e := e) hj
  have hlt : j.lead < 8 := hn ▸ n.isLt
  obtain ⟨h0, -, h2, h3, hbody, hlen⟩ := s.finalEntry_spec j e hlt
  obtain ⟨⟨hr, hc, hk, hmask⟩, f24, f25, f26, f27, f28, f29, f30, f31⟩ := s.finalEntry_word1 j e hlt
  rw [hn] at hc h3 hbody hlen
  exact ⟨_, exec_finalEntryWrite hlead he (State.mayPost_of hh hlead he hoff hcry hm hl), hstate, hresv, _, hentries, h0, hr, hc,
    hk, hmask, f24, f25, f26, f27, f28, f29, f30, f31, h2, h3, hbody, hlen⟩

end Sys2Proof.Machine
end

section
/-!
PROOFS. Writes and reads of one register by a host port: the frame that carries them is accepted, and what its word does.
-/

namespace Sys2Proof.Machine

/-! ## The frame of one word (R431, R435, R441) -/

theorem nextFrame_tag : ∀ x : BitVec 4, bitOf (x.setWidth 8 : Byte).toNat 6 = false ∧ seqOf (x.setWidth 8) = x
    ∧ getBits ((x.setWidth 8 : Byte).setWidth 32) 4 2 = 0 := by decide

theorem State.bodyOf_nextFrame (s : State) (p : Port) (opc : Byte) (arg : Word) {body : List Byte} (hl : body.length < 2 ^ 16) :
    bodyOf (s.nextFrame p opc arg body) = body := by
  refine List.take_of_length_le ?_
  show body.length ≤ (BitVec.ofNat 16 body.length).toNat
  rw [BitVec.toNat_ofNat, Nat.mod_eq_of_lt hl]

/-- The next frame of a port is whole, and its CRC is right. -/
theorem State.frameOk_nextFrame (s : State) (p : Port) (opc : Byte) (arg : Word) {body : List Byte} (hl : body.length ≤ 4096) :
    frameOk opc (s.nextFrame p opc arg body) = true := by
  have hlen : (s.nextFrame p opc arg body).len.toNat = body.length := by
    show (BitVec.ofNat 16 body.length).toNat = body.length
    rw [BitVec.toNat_ofNat, Nat.mod_eq_of_lt (by omega)]
  have hclk : bytesClocked (s.nextFrame p opc arg body) = 12 + body.length := by
    unfold bytesClocked
    rw [hlen]
    exact if_neg (Nat.lt_irrefl _)
  have hcrc : ((s.nextFrame p opc arg body).crc == hostCrc opc (s.nextFrame p opc arg body)) = true := beq_self_eq_true _
  unfold frameOk isRunt
  rw [hclk, hlen, hcrc]
  simp
  omega

/-- Frames that read and write registers are known, need no right of their own and wait for no wake. -/
theorem State.preCheck_word (s : State) (p : Nat) {opc : Byte} {tag : Byte} (ho : opc = 0x10 ∨ opc = 0x11)
    (ht : getBits (tag.setWidth 32) 4 2 = 0) : s.preCheck p opc.toNat tag = none := by
  rcases ho with rfl | rfl <;> simp [State.preCheck, ht, knownOpc, State.mayOpc, openOpc]

/-- The next frame of a port that hears is accepted when it reads or writes registers. -/
theorem accepts_nextFrame {s : State} {p : Port} {opc : Byte} {arg : Word} {body : List Byte} (hh : Hears s p)
    (ho : opc = 0x10 ∨ opc = 0x11) (hl : body.length ≤ 4096) : Accepts s opc (s.nextFrame p opc arg body) := by
  obtain ⟨ht, hs, hb⟩ := nextFrame_tag ((s.pt p.val).lastSeq + 1)
  refine ⟨hh, s.frameOk_nextFrame p opc arg hl, .inr ⟨ht, hs⟩, State.preCheck_word _ _ ho hb, ?_⟩
  have hne : (opc == 0x21) = false := by
    rcases ho with rfl | rfl <;> rfl
  simp only [State.keyHeld, hne, Bool.false_and]

/-- A command that writes one word: what its frame does is given on the state in which it has been clocked. -/
theorem serves_writeOne {i : Instr} {s : State} {p : Port} {a : Nat} {w : Word} {P : State → Answer → State → Prop}
    (hc : s.canon = true) (hi : exec i s = .next (s.writeOne p a w)) (hh : Hears s p)
    (h : ∀ m, FrameOnly p (s.hostEdge p) m → RegFile.wf m.regs = true →
      ∃ u x, m.regWriteFrame p (BitVec.ofNat 32 a) (leBytes 4 w.toNat) = (u, x) ∧ RegFile.wf u.regs = true ∧ P m x u) :
    Serves i 0x11 (s.nextFrame p 0x11 (BitVec.ofNat 32 a) (leBytes 4 w.toNat)) s P := by
  have hl : (leBytes 4 w.toNat).length = 4 := leBytes_length 4 _
  let f := s.nextFrame p 0x11 (BitVec.ofNat 32 a) (leBytes 4 w.toNat)
  have hacc : Accepts s 0x11 f := accepts_nextFrame hh (.inr rfl) (by omega)
  obtain ⟨u, x, hu, hw, hP⟩ := h (s.clocked f) (s.clocked_frameOnly f) (s.clocked_wf f (State.canon_regs hc))
  refine serves_of hi hacc (by decide) (by decide) ?_ hw (fun _ => rfl) hP
  rw [s.bodyOf_nextFrame p _ _ (by omega)]
  exact hu

/-- A command that reads one word. -/
theorem serves_readOne {i : Instr} {s : State} {p : Port} {a : Nat} {P : State → Answer → State → Prop} (hc : s.canon = true)
    (hi : exec i s = .next (s.readOne p a)) (hh : Hears s p)
    (h : ∀ m, FrameOnly p (s.hostEdge p) m → RegFile.wf m.regs = true →
      ∃ u x, m.regReadFrame p (BitVec.ofNat 32 (a + 2 ^ 16)) = (u, x) ∧ RegFile.wf u.regs = true ∧ P m x u) :
    Serves i 0x10 (s.nextFrame p 0x10 (BitVec.ofNat 32 (a + 2 ^ 16)) (List.replicate 8 0)) s P := by
  let f := s.nextFrame p 0x10 (BitVec.ofNat 32 (a + 2 ^ 16)) (List.replicate 8 0)
  have hacc : Accepts s 0x10 f := accepts_nextFrame hh (.inl rfl) (by decide)
  obtain ⟨u, x, hu, hw, hP⟩ := h (s.clocked f) (s.clocked_frameOnly f) (s.clocked_wf f (State.canon_regs hc))
  exact serves_of hi hacc (by decide) (by decide) hu hw (fun _ => rfl) hP

/-! ## The stored word (R6) -/

/-- A field whose bits are all writable is stored as written. -/
theorem getBits_stored {r : RegRow} {c : Bool} {old w : Word} {lo k : Nat} (h : ∀ i, i < k → r.rw.getLsbD (lo + i) = true) :
    getBits (r.stored c old w) lo k = getBits w lo k := by
  apply Nat.eq_of_testBit_eq
  intro i
  rw [getBits_testBit, getBits_testBit]
  by_cases hi : i < k
  · simp [RegRow.stored, h i hi]
  · simp [hi]

/-- A field that a mask keeps. -/
theorem getBits_and {x k : Word} {lo w : Nat} (h : ∀ i, i < w → k.getLsbD (lo + i) = true) :
    getBits (x &&& k) lo w = getBits x lo w := by
  apply Nat.eq_of_testBit_eq
  intro i
  rw [getBits_testBit, getBits_testBit]
  by_cases hi : i < w
  · simp [h i hi]
  · simp [hi]

/-- A register whose bits are all writable is stored as written. -/
theorem stored_of_allOnes {r : RegRow} {c : Bool} {old w : Word} (h : r.rw = BitVec.allOnes 32) : r.stored c old w = w := by
  unfold RegRow.stored
  simp only [h, BitVec.allOnes_or, BitVec.not_allOnes, BitVec.and_zero, BitVec.and_allOnes, BitVec.zero_or]

/-- The value of a field of a word that was put together from the fields as they stand. -/
theorem getBits_fieldWord {s : State} {f : Fld} {v : Nat} (hf : f.lo + f.w ≤ 32) (hv : v < 2 ^ f.w) :
    getBits (s.fieldWord f v) f.lo f.w = v := by
  unfold State.fieldWord Fld.put
  rw [getBits_setBits_same _ _ _ _ hf, Nat.mod_eq_of_lt hv]

/-! ## A word outside PROT -/

/-- A register without an access of its own stores the word; then its write acts. -/
theorem State.takeWrite_stored (s : State) (p : Port) {a : Nat} {w : Word} {b : RegBlock} {r : RegRow}
    (ha : a ∉ [R.GATE_CTL, R.EMU_MBCMD, R.PMB_CMD]) (hx : windowReg a b = false) (hl : r.rwl = 0) :
    s.takeWrite p a w b r = ((s.wrWord a (r.stored s.committed (s.rdWord a) w)).acted a (s.rdWord a) w b, stOk) := by
  simp only [List.mem_cons, List.not_mem_nil, or_false, not_or] at ha
  obtain ⟨h1, h2, h3⟩ := ha
  unfold State.takeWrite
  simp only [h1, h2, h3, hx, if_false, Bool.false_eq_true]
  rw [s.storeFields_of_kept a r (.inr (by rw [hl]; exact BitVec.and_zero))]

/-- A command that writes one word outside PROT to a register that no commit locks. -/
theorem writes_word {i : Instr} {s : State} {p : Port} {a : Nat} {w : Word} {P : State → State → Prop} {b : RegBlock} {r : RegRow}
    (hc : s.canon = true) (hi : exec i s = .next (s.writeOne p a w)) (hm : MayWrite s p a w) (hb : blockOf a = some b)
    (hr : rowAt a = some r) (hp : b ≠ .prot) (hl : r.rwl = 0) (hbits : r.rw ||| r.rwl ||| r.w1c ||| r.wo ≠ 0)
    (h : ∀ m, FrameOnly p (s.hostEdge p) m → RegFile.wf m.regs = true → ∃ u, m.takeWrite p a w b r = (u, stOk) ∧ P m u) :
    Writes i s p a w P := by
  obtain ⟨hh, b', r', hb', hr', hmay, hrange, hturn⟩ := hm
  obtain rfl : b = b' := Option.some.inj (hb.symm.trans hb')
  obtain rfl : r = r' := Option.some.inj (hr.symm.trans hr')
  refine serves_writeOne hc hi hh fun m hf hw => ?_
  obtain ⟨u, hu, hP⟩ := h m hf hw
  have hlt : a < 2 ^ 14 := Nat.lt_trans (blockOf_lt hb) (by decide)
  have hkept : m.committed = false ∨ (m.rdWord a ^^^ w) &&& r.rwl = 0 := .inr (by rw [hl]; exact BitVec.and_zero)
  have hz : m.writeChecked p a w = (u, stOk) := by
    rw [m.writeChecked_passed p hb hr hbits (by rw [r.effective_of_kept hkept, hf.inRange]; exact hrange)
      (by rw [hf.turnedAway hb]; exact hturn), hu]
  have hword := m.writeWord_taken p hb (by rw [hf.mayWriteReg]; exact hmay) hz (by decide)
  have hframe := m.regWriteFrame_one p (w := w) hlt (rowAt_aligned hb hr) rfl fun e => absurd (Option.some.inj (hb.symm.trans e)) hp
  rw [hword] at hframe
  exact ⟨u, _, hframe, (congrArg (fun z => RegFile.wf z.1.regs) hword).symm.trans (m.writeWord_wf p a w hw), rfl, hP⟩

end Sys2Proof.Machine
end

section
/-!
PROOFS. Control writes outside PROT: the beat, the rate, the antenna, the shaping words, and the calibrations.
-/

namespace Sys2Proof.Machine

/-! ## Registers across the fall of HnCS_N -/

/-- The registers that a wake writes (R403). -/
def wakeRegs : List Nat := [R.PWR_LAST_WAKE, R.PWR_CNT_1, R.WATCH_CNT_1]

theorem State.rdWord_of_regs {s t : State} (h : t.regs = s.regs) (a : Nat) : t.rdWord a = s.rdWord a := by
  unfold State.rdWord
  rw [h]

theorem State.rd_of_regs {s t : State} (h : t.regs = s.regs) (f : Fld) : t.rd f = s.rd f := by
  unfold State.rd
  rw [State.rdWord_of_regs h]

theorem State.rdWord_wr_other {s : State} {f : Fld} {v a : Nat} (h : a ≠ f.addr) : (s.wr f v).rdWord a = s.rdWord a :=
  s.rdWord_wrWord_other _ h

section

variable {a : Nat} (ha : a ∉ wakeRegs)
include ha

theorem ne_of_not_wakeRegs : a ≠ R.PWR_LAST_WAKE ∧ a ≠ R.PWR_CNT_1 ∧ a ≠ R.WATCH_CNT_1 := by
  simpa only [wakeRegs, List.mem_cons, List.not_mem_nil, or_false, not_or] using ha

theorem State.recordWake_rdWord (s : State) (old : PwrState) (l : List WakeEv) (early : Bool) :
    (s.recordWake old l early).rdWord a = s.rdWord a := by
  obtain ⟨h, -, -⟩ := ne_of_not_wakeRegs ha
  unfold State.recordWake
  iterate 7 refine (State.rdWord_wr_other (by exact h)).trans ?_
  exact s.rdWord_wrWord_other _ h

theorem State.countWake_rdWord (s : State) (old : PwrState) (early : Bool) : (s.countWake old early).rdWord a = s.rdWord a := by
  obtain ⟨-, h1, h2⟩ := ne_of_not_wakeRegs ha
  have hbump {t : State} {f : Fld} (hf : a ≠ f.addr) : (t.bump f).rdWord a = t.rdWord a := State.rdWord_wr_other hf
  have hwake : (s.bump R.PWR_CNT_1_N_WAKE).rdWord a = s.rdWord a := hbump h1
  have hearly : (if early then (s.bump R.PWR_CNT_1_N_WAKE).bump R.PWR_CNT_1_N_EARLY else s.bump R.PWR_CNT_1_N_WAKE).rdWord a
      = s.rdWord a := by
    split
    · exact (hbump h1).trans hwake
    · exact hwake
  unfold State.countWake
  dsimp only
  split
  · exact (hbump h2).trans hearly
  · exact hearly

theorem State.startWake_rdWord (s : State) (l : List WakeEv) (early : Bool) : (s.startWake l early).rdWord a = s.rdWord a := by
  unfold State.startWake
  refine (State.rdWord_of_regs (State.pmbOn_regs _) a).trans ((State.countWake_rdWord ha _ _ _).trans ?_)
  exact State.recordWake_rdWord ha _ _ _ _

theorem State.wakeLow_rdWord (s : State) (ev : WakeEv) : (s.wakeLow ev).rdWord a = s.rdWord a := by
  unfold State.wakeLow State.takeFresh
  split
  · exact (State.startWake_rdWord ha _ _ _).trans (State.rdWord_of_regs rfl a)
  · exact State.startWake_rdWord ha _ _ _

theorem State.joinWake_rdWord (s : State) (ev : WakeEv) : (s.joinWake ev).rdWord a = s.rdWord a := by
  unfold State.joinWake State.takeFresh
  dsimp only
  split
  · refine (State.rdWord_of_regs (State.modPwr_regs _ _) a).trans ((State.recordWake_rdWord ha _ _ _ _).trans ?_)
    exact State.rdWord_of_regs rfl a
  · exact State.rdWord_of_regs rfl a

theorem State.wakeEvent_rdWord (s : State) (ev : WakeEv) : (s.wakeEvent ev).rdWord a = s.rdWord a := by
  unfold State.wakeEvent
  split
  · exact State.rdWord_of_regs (State.latchWake_regs s ev) a
  split
  · exact State.rdWord_of_regs (State.leaveIdle_regs s) a
  · exact State.wakeLow_rdWord ha s ev
  · exact State.wakeLow_rdWord ha s ev
  · exact State.wakeLow_rdWord ha s ev
  · split
    · exact State.joinWake_rdWord ha s ev
    · rfl
  · rfl

/-- The fall of HnCS_N writes no other register. -/
theorem State.hostEdge_rdWord (s : State) (p : Port) : (s.hostEdge p).rdWord a = s.rdWord a := by
  unfold State.hostEdge
  split
  · exact State.rdWord_of_regs (State.leaveIdle_regs s) a
  split
  · exact State.wakeEvent_rdWord ha s _
  · rfl

end

/-! ## Queued calibrations -/

theorem State.addMaint_maint (s : State) (m : Maint) : (s.addMaint m).maint = s.maint ++ [m] := by
  unfold State.addMaint State.leaveIdle
  split <;> rfl

/-- A recalibration is queued once (R67). -/
theorem State.queueRecal_maint (s : State) : s.queueRecal.maint
    = if s.maint.any fun m => m.kind == .recal && (!m.running || s.syn.state == .cal) then s.maint
      else s.maint ++ [{ kind := .recal, mask := 0, since := s.time.nt }] := by
  unfold State.queueRecal
  split
  · rfl
  · exact s.addMaint_maint _

/-- An image calibration of a channel is queued once (R85). -/
theorem State.queueImageCal_maint (s : State) (n : Nat) : (s.queueImageCal n).maint
    = if s.maint.any fun m => m.kind == .imageCal && bitOf m.mask.toNat n then s.maint
      else s.maint ++ [{ kind := .imageCal, mask := BitVec.ofNat 8 (2 ^ n), since := s.time.nt }] := by
  unfold State.queueImageCal
  split
  · rfl
  · exact s.addMaint_maint _

theorem bitOf_of_getBits {w : Word} {k : Nat} (h : getBits w k 1 = 1) : bitOf w.toNat k = true := by
  rw [bitOf, Nat.testBit_eq_decide_div_mod_eq]
  rw [getBits, bitsOf_eq] at h
  exact decide_eq_true h

/-- RECAL stands and a recalibration is queued; DISC stays (R67). -/
theorem State.synCtlWritten_recal (s : State) (was : Bool) {w : Word} (hw : RegFile.wf s.regs = true) (h : bitOf w.toNat 8 = true) :
    (s.synCtlWritten was w).rd R.SYN_CTL_RECAL = 1 ∧ (s.synCtlWritten was w).rd R.SYN_CTL_DISC = s.rd R.SYN_CTL_DISC
      ∧ (s.synCtlWritten was w).maint = if s.maint.any fun m => m.kind == .recal && (!m.running || s.syn.state == .cal) then s.maint
          else s.maint ++ [{ kind := .recal, mask := 0, since := s.time.nt }] := by
  unfold State.synCtlWritten
  extract_lets s1
  have hs1 : RegFile.wf s1.regs = true ∧ s1.rd R.SYN_CTL_DISC = s.rd R.SYN_CTL_DISC ∧ s1.maint = s.maint ∧ s1.syn = s.syn
      ∧ s1.time = s.time := by
    unfold s1
    split
    · exact ⟨s.wr_wf _ _ hw, s.rd_wr_other _ _ _ hw (.inl (by decide)), rfl, rfl, rfl⟩
    · exact ⟨hw, rfl, rfl, rfl, rfl⟩
  clear_value s1
  obtain ⟨hw1, hdisc, hmaint, hsyn, htime⟩ := hs1
  have hregs : (s1.setFlag R.SYN_CTL_RECAL).queueRecal.regs = (s1.wr R.SYN_CTL_RECAL 1).regs := State.queueRecal_regs _
  rw [if_pos h, State.rd_of_regs hregs, State.rd_of_regs hregs, s1.rd_wr_same _ _ hw1 (by decide),
    s1.rd_wr_other _ _ _ hw1 (.inr (.inl (by decide))), State.queueRecal_maint, ← hmaint, ← hsyn, ← htime]
  exact ⟨rfl, hdisc, rfl⟩

/-- IQCAL stands and an image calibration is queued (R85). -/
theorem State.iqCalWritten_effect (s : State) (n : Nat) {w : Word} (hw : RegFile.wf s.regs = true) (h : bitOf w.toNat 8 = true) :
    (s.iqCalWritten n w).rd (R.CH_RXIQCAL_IQCAL n) = 1
      ∧ (s.iqCalWritten n w).maint = if s.maint.any fun m => m.kind == .imageCal && bitOf m.mask.toNat n then s.maint
          else s.maint ++ [{ kind := .imageCal, mask := BitVec.ofNat 8 (2 ^ n), since := s.time.nt }] := by
  have hregs : ((s.setFlag (R.CH_RXIQCAL_IQCAL n)).queueImageCal n).regs = (s.wr (R.CH_RXIQCAL_IQCAL n) 1).regs :=
    State.queueImageCal_regs _ n
  unfold State.iqCalWritten
  rw [if_pos h, State.rd_of_regs hregs, s.rd_wr_same _ _ hw (by simp [R.CH_RXIQCAL_IQCAL]), State.queueImageCal_maint]
  exact ⟨rfl, rfl⟩

/-! ## The rows -/

/-- The row of CHn_ANT. -/
def rowAnt : RegRow := { name := "CHn_ANT", base := 0x2030, n := 8, stride := 0x100, rw := 0xF }

/-- The row of CHn_WSDATA. -/
def rowWsdata : RegRow := { name := "CHn_WSDATA", base := 0x2024, n := 8, stride := 0x100, rw := 0xFFFFFFFF }

/-- The row of CHn_RXIQCAL. -/
def rowRxiqcal : RegRow :=
  { name := "CHn_RXIQCAL", base := 0x2094, n := 8, stride := 0x100, reset := 0x280000, rw := 0xFF0000, w1c := 0x200, wo := 0x100,
    ranges := [⟨16, 8, 10, 100⟩] }

theorem rowAt_ant : ∀ n : Ch, blockOf (R.CH_ANT n.val) = some (.ch n.val) ∧ rowAt (R.CH_ANT n.val) = some rowAnt := by decide

theorem rowAt_wsdata : ∀ n : Ch, blockOf (R.CH_WSDATA n.val) = some (.ch n.val) ∧ rowAt (R.CH_WSDATA n.val) = some rowWsdata := by
  decide

theorem rowAt_rxiqcal : ∀ n : Ch, blockOf (R.CH_RXIQCAL n.val) = some (.ch n.val)
    ∧ rowAt (R.CH_RXIQCAL n.val) = some rowRxiqcal := by
  decide

/-! ## Shaping words (R46, R48) -/

/-- A channel whose shaping record holds a word at an index. -/
def Chan.putShape (c : Chan) (k : Nat) (w : Word) : Chan :=
  { c with shape := some (c.shaping.take k ++ leBytes 4 w.toNat ++ c.shaping.drop (k + 4)) }

theorem State.writeShape_eq (s : State) (n : Nat) (w : Word) :
    s.writeShape n w = (s.modCh n fun c => c.putShape (s.rd (R.CH_WSIDX_IDX n)) w).nextShape n := rfl

theorem State.nextShape_idx (s : State) (n : Nat) (h : RegFile.wf s.regs = true) :
    (s.nextShape n).rd (R.CH_WSIDX_IDX n) = (s.rd (R.CH_WSIDX_IDX n) + 4) % 128 :=
  (State.rd_wr_same s (R.CH_WSIDX_IDX n) _ h (by simp [R.CH_WSIDX_IDX])).trans (Nat.mod_eq_of_lt (Nat.mod_lt _ (by decide)))

theorem State.writeShape_idx (s : State) (n : Nat) (w : Word) (h : RegFile.wf s.regs = true) :
    (s.writeShape n w).rd (R.CH_WSIDX_IDX n) = (s.rd (R.CH_WSIDX_IDX n) + 4) % 128 := by
  rw [s.writeShape_eq, State.nextShape_idx _ n (by exact h), State.rd_of_regs (State.modCh_regs s n _)]

theorem State.writeShape_shaping (s : State) {n : Nat} (w : Word) (hn : n < 8) :
    let k := s.rd (R.CH_WSIDX_IDX n)
    ((s.writeShape n w).ch n).shaping = (s.ch n).shaping.take k ++ leBytes 4 w.toNat ++ (s.ch n).shaping.drop (k + 4) :=
  congrArg Chan.shaping (s.ch_modCh_same n (fun c => c.putShape (s.rd (R.CH_WSIDX_IDX n)) w) hn)

theorem leNat_lt : ∀ l : List Byte, leNat l < 256 ^ l.length
  | [] => Nat.one_pos
  | b :: l => by
    have := leNat_lt l
    have := b.isLt
    rw [leNat, List.length_cons, Nat.pow_succ]
    omega

/-- CHn_WSDATA shows the word at WSIDX. -/
theorem State.regValue_wsdata (s : State) (p : Nat) (n : Ch) : (s.regValue p (R.CH_WSDATA n.val)).toNat
    = leNat (((s.ch n.val).shaping.drop (s.rd (R.CH_WSIDX_IDX n.val))).take 4) := by
  obtain ⟨hb, hr⟩ := rowAt_wsdata n
  have hlen : (((s.ch n.val).shaping.drop (s.rd (R.CH_WSIDX_IDX n.val))).take 4).length ≤ 4 := List.length_take_le _ _
  have hlt := (leNat_lt _).trans_le (Nat.pow_le_pow_right (by decide : 0 < 256) hlen)
  rw [s.regValue_eq p hb hr]
  refine Eq.trans ?_ (Nat.mod_eq_of_lt hlt)
  simp [State.shownWord, State.chWord, R.CH_WSDATA, R.CH_TXSTAT, R.CH_PHASE, R.CH_ANT, R.CH_VTXNEED]

/-! ## Position requests (R61) -/

theorem State.requestAnt_effect (s : State) {n pos : Nat} (en : Bool) (hn : n < 8) (hp : pos < 8) (h : RegFile.wf s.regs = true) :
    (s.requestAnt n pos en).rd (R.CH_ANT_POS n) = pos ∧ (s.requestAnt n pos en).rd (R.CH_ANT_EN n) = en.toNat
      ∧ ((s.requestAnt n pos en).ch n).antWait = true := by
  have h1 := s.wr_wf (R.CH_ANT_POS n) pos h
  have hregs : (s.requestAnt n pos en).regs = ((s.wr (R.CH_ANT_POS n) pos).wr (R.CH_ANT_EN n) en.toNat).regs :=
    State.modCh_regs _ n _
  rw [State.rd_of_regs hregs, State.rd_of_regs hregs, 
    State.rd_wr_other _ (R.CH_ANT_EN n) (R.CH_ANT_POS n) _ h1 (.inr (.inl (Nat.le_refl 3))),
    s.rd_wr_same (R.CH_ANT_POS n) pos h (by simp [R.CH_ANT_POS]), State.rd_wr_same _ (R.CH_ANT_EN n) _ h1 (by simp [R.CH_ANT_EN])]
  refine ⟨Nat.mod_eq_of_lt hp, Nat.mod_eq_of_lt (Nat.lt_succ_of_le en.toNat_le), ?_⟩
  exact congrArg Chan.antWait (State.ch_modCh_same _ n _ hn)

/-- The transfer of a frame changes no shaping record. -/
theorem FrameOnly.shaping {p : Port} {s t : State} (h : FrameOnly p s t) (n : Ch) :
    t.rd (R.CH_WSIDX_IDX n.val) = s.rd (R.CH_WSIDX_IDX n.val) ∧ t.ch n.val = s.ch n.val := by
  have hchans : t.chans = s.chans := (congrArg State.chans h.1 :)
  refine ⟨h.rd_high (Nat.le_add_right_of_le (by decide)), ?_⟩
  unfold State.ch
  rw [hchans]

/-! ## Words of a channel -/

/-- Registers of a channel are none of those with an access of their own. -/
theorem chReg_plain {a : Nat} {n : Nat} (hb : blockOf a = some (.ch n)) : a ∉ [R.GATE_CTL, R.EMU_MBCMD, R.PMB_CMD] := by
  intro h
  simp only [List.mem_cons, List.not_mem_nil, or_false] at h
  rcases h with rfl | rfl | rfl <;> cases hb

/-- The bits of a word whose field was stored. -/
theorem State.rd_wrWord {s : State} {f : Fld} {w : Word} (h : RegFile.wf s.regs = true) :
    (s.wrWord f.addr w).rd f = getBits w f.lo f.w := by
  unfold State.rd
  rw [s.rdWord_wrWord_same f.addr w h]

/-! ## The writes -/

section

variable {s : State} {p : Port} {n : Ch} (hc : s.canon = true)
include hc

/-- BEAT_US is stored, and acts at once outside RUN (R9). -/
theorem writes_beatUs {us : BitVec 12} (hm : MayWrite s p R.TIME_BEAT (s.fieldWord R.TIME_BEAT_BEAT_US us.toNat)) :
    Writes (.beatUsWrite p us) s p R.TIME_BEAT (s.fieldWord R.TIME_BEAT_BEAT_US us.toNat) fun m u =>
      u.rd R.TIME_BEAT_BEAT_US = us.toNat ∧ u.time.beatUs = if m.pwr.state = .run then m.time.beatUs else us.toNat := by
  refine writes_word hc rfl hm (b := .time) rfl rfl (by decide) rfl (by decide) fun m _ hw => ?_
  refine ⟨_, m.takeWrite_stored p (by decide) rfl rfl, ?_⟩
  rw [show ∀ t : State, ∀ old w, t.acted R.TIME_BEAT old w .time = t.beatWritten from fun _ _ _ => rfl]
  generalize hv : RegRow.stored _ _ _ _ = v
  have hus : getBits v 0 12 = us.toNat := by
    rw [← hv, getBits_stored (by decide)]
    exact getBits_fieldWord (f := R.TIME_BEAT_BEAT_US) (by decide) us.isLt
  have hrd : (m.wrWord R.TIME_BEAT v).rd R.TIME_BEAT_BEAT_US = us.toNat := (State.rd_wrWord (f := R.TIME_BEAT_BEAT_US) hw).trans hus
  refine ⟨(State.rd_of_regs (State.beatWritten_regs _) _).trans hrd, ?_⟩
  unfold State.beatWritten
  by_cases hrun : m.pwr.state = .run
  · rw [if_pos hrun, if_pos (show (m.wrWord R.TIME_BEAT v).pwr.state = .run from hrun)]
    rfl
  · rw [if_neg hrun, if_neg (show ¬ (m.wrWord R.TIME_BEAT v).pwr.state = .run from hrun)]
    exact hrd

/-- RATE is stored (R330). -/
theorem writes_timeRate {rate : Word} (hm : MayWrite s p R.TIME_RATE rate) :
    Writes (.timeRateWrite p rate) s p R.TIME_RATE rate fun m u => u.rdWord R.TIME_RATE = rate ∧ RegsOnly [R.TIME_RATE] m u := by
  refine writes_word hc rfl hm (b := .time) rfl rfl (by decide) rfl (by decide) fun m _ hw => ?_
  refine ⟨_, m.takeWrite_stored p (by decide) rfl rfl, ?_⟩
  rw [stored_of_allOnes rfl]
  exact ⟨m.rdWord_wrWord_same _ _ hw, regsOnly_wrWord m rate (List.mem_singleton_self _)⟩

/-- A position request is stored and waits for the bus (R61). -/
theorem writes_ant {pos : BitVec 3} {en : Bool} (hm : MayWrite s p (R.CH_ANT n.val) (BitVec.ofNat 32 (pos.toNat + 8 * en.toNat))) :
    Writes (.chnAntWrite p n pos en) s p (R.CH_ANT n.val) (BitVec.ofNat 32 (pos.toNat + 8 * en.toNat)) fun _ u =>
      u.rd (R.CH_ANT_POS n.val) = pos.toNat ∧ u.rd (R.CH_ANT_EN n.val) = en.toNat ∧ (u.ch n.val).antWait = true := by
  obtain ⟨hb, hr⟩ := rowAt_ant n
  have hpos := pos.isLt
  have hen := en.toNat_le
  refine writes_word hc rfl hm hb hr nofun rfl (by decide) fun m _ hw => ?_
  refine ⟨_, m.takeWrite_stored p (chReg_plain hb) ?_ rfl, ?_⟩
  · simp [windowReg, R.CH_ANT, R.CH_WSDATA]
  generalize hv : RegRow.stored _ _ _ _ = v
  have hact (t : State) (old w : Word) : t.acted (R.CH_ANT n.val) old w (.ch n.val)
      = t.requestAnt n.val (getBits w 0 3) (bitOf w.toNat 3) := by
    simp [State.acted, R.CH_ANT, R.CH_WSDATA]
  have e1 : getBits (BitVec.ofNat 32 (pos.toNat + 8 * en.toNat)) 0 3 = pos.toNat := by
    rw [getBits_ofNat (by omega)]
    omega
  have e2 : bitOf (BitVec.ofNat 32 (pos.toNat + 8 * en.toNat)).toNat 3 = en := by
    rw [BitVec.toNat_ofNat, Nat.mod_eq_of_lt (by omega), bitOf, Nat.testBit_eq_decide_div_mod_eq]
    cases en <;> simp <;> omega
  rw [hact, e1, e2]
  exact State.requestAnt_effect _ en n.isLt hpos (m.wrWord_wf (R.CH_ANT n.val) v hw)

/-- A shaping word joins the record at WSIDX, which moves on (R46, R48). -/
theorem writes_wsdata {w : Word} (hm : MayWrite s p (R.CH_WSDATA n.val) w) :
    let e := s.hostEdge p
    let k := e.rd (R.CH_WSIDX_IDX n.val)
    let l := (e.ch n.val).shaping
    Writes (.chnWsdataAccess p n (some w)) s p (R.CH_WSDATA n.val) w fun _ u =>
      (u.ch n.val).shaping = l.take k ++ leBytes 4 w.toNat ++ l.drop (k + 4) ∧ u.rd (R.CH_WSIDX_IDX n.val) = (k + 4) % 128 := by
  intro e k l
  obtain ⟨hb, hr⟩ := rowAt_wsdata n
  refine writes_word hc rfl hm hb hr nofun rfl (by decide) fun m hf hw => ⟨m.writeShape n.val w, ?_, ?_⟩
  · have hx : windowReg (R.CH_WSDATA n.val) (.ch n.val) = true := beq_self_eq_true _
    have hp := chReg_plain hb
    simp only [List.mem_cons, List.not_mem_nil, or_false, not_or] at hp
    obtain ⟨h1, h2, h3⟩ := hp
    unfold State.takeWrite
    rw [if_neg h1, if_neg h2, if_neg h3, if_pos hx]
    simp [State.acted]
  · obtain ⟨hk, hl⟩ := hf.shaping n
    rw [show k = _ from hk.symm, show l = (m.ch n.val).shaping from congrArg Chan.shaping hl.symm]
    exact ⟨m.writeShape_shaping w n.isLt, m.writeShape_idx n.val w hw⟩

/-- A read of the shaping data shows the word at WSIDX, which moves on (R46, R48). -/
theorem serves_wsdataRead (hh : Hears s p) (hm : (s.hostEdge p).mayReadReg p.val (.ch n.val) (R.CH_WSDATA n.val) = true) :
    let e := s.hostEdge p
    let k := e.rd (R.CH_WSIDX_IDX n.val)
    Serves (.chnWsdataAccess p n none) 0x10 (s.nextFrame p 0x10 (BitVec.ofNat 32 (R.CH_WSDATA n.val + 2 ^ 16)) (List.replicate 8 0))
      s fun _ x u => u.rd (R.CH_WSIDX_IDX n.val) = (k + 4) % 128
        ∧ x = allWords (leBytes 4 (leNat (((e.ch n.val).shaping.drop k).take 4))) := by
  intro e k
  obtain ⟨hb, hr⟩ := rowAt_wsdata n
  refine serves_readOne hc rfl hh fun m hf hw => ?_
  have hread := m.readReg_register p.val hb hr (by rw [hf.mayReadReg]; exact hm)
  have hafter : m.afterRead p.val (R.CH_WSDATA n.val) (.ch n.val) rowWsdata = m.nextShape n.val := by
    simp [State.afterRead, rowWsdata]
  rw [hafter] at hread
  obtain ⟨hk, hch⟩ := hf.shaping n
  refine ⟨_, _, m.regReadFrame_taken p (Nat.lt_trans (blockOf_lt hb) (by decide)) (rowAt_aligned hb hr) rfl hread,
    m.nextShape_wf _ hw, ?_⟩
  rw [m.nextShape_idx n.val hw, m.regValue_wsdata, hk, hch]
  exact ⟨rfl, rfl⟩

/-- RECAL queues a recalibration, and DISC stays (R67). -/
theorem writes_recal (hm : MayWrite s p R.SYN_CTL (s.fieldWord R.SYN_CTL_RECAL 1)) :
    Writes (.recal p) s p R.SYN_CTL (s.fieldWord R.SYN_CTL_RECAL 1) fun m u => u.rd R.SYN_CTL_RECAL = 1
      ∧ u.rd R.SYN_CTL_DISC = m.rd R.SYN_CTL_DISC
      ∧ u.maint = (if m.maint.any fun x => x.kind == .recal && (!x.running || m.syn.state == .cal) then m.maint
          else m.maint ++ [{ kind := .recal, mask := 0, since := m.time.nt }]) := by
  refine writes_word hc rfl hm (b := .syn) rfl rfl (by decide) rfl (by decide) fun m hf hw => ?_
  refine ⟨_, m.takeWrite_stored p (by decide) rfl rfl, ?_⟩
  rw [show ∀ (t : State) (old w : Word), t.acted R.SYN_CTL old w .syn = t.synCtlWritten (bitOf old.toNat 0) w from fun _ _ _ => rfl]
  generalize hv : RegRow.stored _ _ _ _ = v
  obtain ⟨hrecal, hdisc, hmaint⟩ := (m.wrWord R.SYN_CTL v).synCtlWritten_recal (bitOf (m.rdWord R.SYN_CTL).toNat 0)
    (m.wrWord_wf _ v hw) (bitOf_of_getBits (getBits_fieldWord (s := s) (f := R.SYN_CTL_RECAL) (v := 1) (by decide) (by decide)))
  refine ⟨hrecal, hdisc.trans ((State.rd_wrWord (f := R.SYN_CTL_DISC) hw).trans ?_), hmaint⟩
  have hkept : s.rdWord R.SYN_CTL = m.rdWord R.SYN_CTL :=
    (State.hostEdge_rdWord (by decide) s p).symm.trans (hf.rdWord_high (by decide)).symm
  rw [← hv, getBits_stored (by decide)]
  refine (getBits_setBits_other _ 8 1 1 0 1 (.inl (by decide))).trans ?_
  show getBits (s.rdWord R.SYN_CTL &&& 3) 0 1 = getBits (m.rdWord R.SYN_CTL) 0 1
  rw [hkept, getBits_and (by decide)]

/-- IQCAL queues an image calibration (R85). -/
theorem writes_iqcal (hm : MayWrite s p (R.CH_RXIQCAL n.val) (s.fieldWord (R.CH_RXIQCAL_IQCAL n.val) 1)) :
    Writes (.iqcal p n) s p (R.CH_RXIQCAL n.val) (s.fieldWord (R.CH_RXIQCAL_IQCAL n.val) 1) fun m u =>
      u.rd (R.CH_RXIQCAL_IQCAL n.val) = 1
      ∧ u.maint = (if m.maint.any fun x => x.kind == .imageCal && bitOf x.mask.toNat n.val then m.maint
          else m.maint ++ [{ kind := .imageCal, mask := BitVec.ofNat 8 (2 ^ n.val), since := m.time.nt }]) := by
  obtain ⟨hb, hr⟩ := rowAt_rxiqcal n
  refine writes_word hc rfl hm hb hr nofun rfl (by decide) fun m _ hw => ?_
  refine ⟨_, m.takeWrite_stored p (chReg_plain hb) ?_ rfl, ?_⟩
  · simp [windowReg, R.CH_RXIQCAL, R.CH_WSDATA]
  generalize hv : RegRow.stored _ _ _ _ = v
  have hact (t : State) (old w : Word) : t.acted (R.CH_RXIQCAL n.val) old w (.ch n.val) = t.iqCalWritten n.val w := by
    simp [State.acted, R.CH_RXIQCAL, R.CH_ANT, R.CH_WSDATA]
  rw [hact]
  exact (m.wrWord (R.CH_RXIQCAL n.val) v).iqCalWritten_effect n.val (m.wrWord_wf _ v hw)
    (bitOf_of_getBits (getBits_fieldWord (s := s) (f := R.CH_RXIQCAL_IQCAL n.val) (by simp [R.CH_RXIQCAL_IQCAL])
      (by simp [R.CH_RXIQCAL_IQCAL])))

end

end Sys2Proof.Machine
end

section
/-!
PROOFS. Writes of the protection table (R451 to R453): what one word of PROT does, and O43.
-/

namespace Sys2Proof.Machine

/-! ## Notices to every port (R31, R32) -/

/-- Registers of pending notices. -/
def noticeRegs : List Nat := (List.range 4).map R.HOST_NPEND

theorem noticeRegs_lt {a : Nat} (ha : a ∈ noticeRegs) : a < 0x400 := by
  simp only [noticeRegs, List.mem_map, List.mem_range, R.HOST_NPEND] at ha
  obtain ⟨q, hq, rfl⟩ := ha
  omega

theorem regsOnly_notifyAll (s : State) (k : Nat) : RegsOnly noticeRegs s (s.notifyAll k) := by
  have hnotify {t : State} {q : Nat} (hq : q < 4) : RegsOnly noticeRegs t (t.notify q k) :=
    regsOnly_wrWord t _ (List.mem_map_of_mem (List.mem_range.mpr hq))
  exact (((hnotify (by decide : 0 < 4)).trans (hnotify (by decide : 1 < 4))).trans (hnotify (by decide : 2 < 4))).trans
    (hnotify (by decide : 3 < 4))

theorem State.rdWord_notifyAll (s : State) (k : Nat) {a : Nat} (ha : 0x400 ≤ a) : (s.notifyAll k).rdWord a = s.rdWord a :=
  (regsOnly_notifyAll s k).2 a fun h => Nat.not_lt.mpr ha (noticeRegs_lt h)

/-- A notice is pending once it is raised. -/
theorem State.pend_notify_same (s : State) (q : Nat) {k : Nat} (hk : k < 19) (hw : RegFile.wf s.regs = true) :
    bitOf ((s.notify q k).pend q) k = true := by
  have h : (s.notify q k).pend q = (s.pend q ||| noticeBit k) % 2 ^ 19 :=
    s.rd_wr_same (R.HOST_NPEND_PEND q) _ hw (by simp [R.HOST_NPEND_PEND])
  rw [h, bitOf, Nat.testBit_mod_two_pow, Nat.testBit_or, noticeBit, Nat.one_shiftLeft, Nat.testBit_two_pow_self]
  simp [hk]

/-- A notice stays pending when another port gets it. -/
theorem State.pend_notify_mono (s : State) {p q k : Nat} (hk : k < 19) (hw : RegFile.wf s.regs = true)
    (h : bitOf (s.pend q) k = true) : bitOf ((s.notify p k).pend q) k = true := by
  by_cases hpq : p = q
  · subst hpq
    exact s.pend_notify_same p hk hw
  · have hne : (R.HOST_NPEND_PEND q).addr ≠ (R.HOST_NPEND_PEND p).addr := by
      simp only [R.HOST_NPEND_PEND, R.HOST_NPEND]
      omega
    rwa [show (s.notify p k).pend q = s.pend q from s.rd_wr_other _ _ _ hw (.inl hne)]

/-- A notice to every port is pending at each. -/
theorem State.pend_notifyAll (s : State) {k : Nat} (hk : k < 19) (hw : RegFile.wf s.regs = true) (q : Port) :
    bitOf ((s.notifyAll k).pend q.val) k = true := by
  have w0 := s.notify_wf 0 k hw
  have w1 := State.notify_wf _ 1 k w0
  have w2 := State.notify_wf _ 2 k w1
  change bitOf (((((s.notify 0 k).notify 1 k).notify 2 k).notify 3 k).pend q.val) k = true
  match q with
  | 0 =>
    have h0 := State.pend_notify_mono (p := 1) _ hk w0 (s.pend_notify_same 0 hk hw)
    exact State.pend_notify_mono _ hk w2 (State.pend_notify_mono _ hk w1 h0)
  | 1 => exact State.pend_notify_mono _ hk w2 (State.pend_notify_mono _ hk w1 (State.pend_notify_same _ 1 hk w0))
  | 2 => exact State.pend_notify_mono _ hk w2 (State.pend_notify_same _ 2 hk w1)
  | 3 => exact State.pend_notify_same _ 3 hk w2

/-! ## Who is OWNER after a word (R452) -/

theorem protPriv_word {i a q : Nat} {w : Word} : protPriv [⟨i, a, w⟩] q
    = if a = R.PROT_PCFG q then some (getBits w 0 2) else none := by
  by_cases h : a = R.PROT_PCFG q <;> simp [protPriv, h]

theorem pcfg_inj {p q : Nat} : R.PROT_PCFG p = R.PROT_PCFG q ↔ p = q := by
  simp only [R.PROT_PCFG]
  omega

/-- A word that makes no port OWNER. -/
theorem heirs_none {i a : Nat} {w : Word} (h : ∀ q : Port, a = R.PROT_PCFG q.val → getBits w 0 2 ≠ 2) :
    [0, 1, 2, 3].filter (fun q => protPriv [⟨i, a, w⟩] q == some 2) = [] := by
  refine List.filter_eq_nil_iff.mpr fun q hq => ?_
  have hlt : q < 4 := by
    simp only [List.mem_cons, List.not_mem_nil, or_false] at hq
    omega
  rw [protPriv_word]
  split
  · next e => simpa using h ⟨q, hlt⟩ e
  · decide

/-- A word that makes port `q` OWNER. -/
theorem heirs_one {i : Nat} {w : Word} (q : Port) (h : getBits w 0 2 = 2) :
    [0, 1, 2, 3].filter (fun k => protPriv [⟨i, R.PROT_PCFG q.val, w⟩] k == some 2) = [q.val] := by
  have hp : (fun k => protPriv [⟨i, R.PROT_PCFG q.val, w⟩] k == some 2) = fun k => decide (q.val = k) := by
    funext k
    by_cases e : q.val = k <;> simp [protPriv_word, pcfg_inj, h, e]
  have hone : ∀ q : Port, [0, 1, 2, 3].filter (fun k => decide (q.val = k)) = [q.val] := by decide
  rw [hp, hone q]

/-- A word that changes no OWNER keeps it. -/
theorem newOwner_kept {i a : Nat} {w : Word} (p : Port) (h : ∀ q : Port, a = R.PROT_PCFG q.val → (getBits w 0 2 = 2 ↔ q = p)) :
    newOwner p.val [⟨i, a, w⟩] = some p.val := by
  by_cases ha : a = R.PROT_PCFG p.val ∧ getBits w 0 2 = 2
  · obtain ⟨rfl, hw⟩ := ha
    rw [newOwner, heirs_one p hw]
  · have hnone : ∀ q : Port, a = R.PROT_PCFG q.val → getBits w 0 2 ≠ 2 := fun q hq hw =>
      ha ⟨(h q hq).mp hw ▸ hq, hw⟩
    have hpcfg : a ≠ R.PROT_PCFG p.val := fun e => ha ⟨e, (h p e).mpr rfl⟩
    rw [newOwner, heirs_none hnone, protPriv_word, if_neg hpcfg]
    rfl

/-- A word that hands OWNER over. -/
theorem newOwner_handed {i : Nat} {w : Word} (p : Nat) (q : Port) (h : getBits w 0 2 = 2) :
    newOwner p [⟨i, R.PROT_PCFG q.val, w⟩] = some q.val := by
  rw [newOwner, heirs_one q h]

/-- A word that would leave the device without OWNER. -/
theorem newOwner_lost {i : Nat} {w : Word} (p : Port) (h : getBits w 0 2 ≠ 2) :
    newOwner p.val [⟨i, R.PROT_PCFG p.val, w⟩] = none := by
  rw [newOwner, heirs_none fun _ _ => h, protPriv_word, if_pos rfl]
  rfl

/-! ## One word of PROT (R451, R453) -/

/-- The table after a word of PROT that leaves port `q` OWNER. -/
def State.protStored (s : State) (p q a : Nat) (r : RegRow) (w : Word) : State :=
  let s1 := s.wrWord a (r.stored s.committed (s.rdWord a) w)
  { if q = p then s1 else s1.wr (R.PROT_PCFG_PRIV p) 1 with committed := s.committed || (a == R.PROT_CTL && bitOf w.toNat 0) }

/-- Ports hear of a word of PROT that commits or changes the table. -/
def State.protTold (s : State) (p q a : Nat) (r : RegRow) (w : Word) : Bool :=
  (a == R.PROT_CTL && bitOf w.toNat 0 && !s.committed)
    || protTable.any fun b => (s.protStored p q a r w).rdWord b != s.rdWord b

theorem State.applyProt_word {s : State} {p q a : Nat} {r : RegRow} {w : Word} (hr : rowAt a = some r)
    (hq : newOwner p [⟨0, a, w⟩] = some q) : s.applyProt p [⟨0, a, w⟩]
      = some (if s.protTold p q a r w then (s.protStored p q a r w).notifyAll 18 else s.protStored p q a r w) := by
  have hput : s.putProt ⟨0, a, w⟩ = s.wrWord a (r.stored s.committed (s.rdWord a) w) := by
    unfold State.putProt
    rw [hr]
  have hcommits : commits [⟨0, a, w⟩] = (a == R.PROT_CTL && bitOf w.toNat 0) := Bool.or_false _
  have hkeep : (if q = p then s.wrWord a (r.stored s.committed (s.rdWord a) w)
      else (s.wrWord a (r.stored s.committed (s.rdWord a) w)).wr (R.PROT_PCFG_PRIV p) 1).committed = s.committed := by
    split <;> rfl
  unfold State.applyProt
  simp only [List.isEmpty_cons, Bool.false_eq_true, if_false, hq, List.foldl_cons, List.foldl_nil, hput, hcommits, hkeep]
  rfl

/-- Blocks from 0x400 to 0x600 are PROT. -/
theorem blockOf_prot {a : Nat} {b : RegBlock} (hb : blockOf a = some b) (h1 : 0x400 ≤ a) (h2 : a < 0x600) : b = .prot := by
  obtain ⟨hlo, hhi, -⟩ := blockOf_bounds hb
  cases b with
  | prot => rfl
  | _ =>
    simp only [RegBlock.lo, RegBlock.size] at hlo hhi
    omega

section

variable {s : State} {p : Port} {a : Nat} {r : RegRow} {w : Word} (hb : Machine.blockOf a = some .prot) (hr : rowAt a = some r)
  (hbits : r.rw ||| r.wo ≠ 0) (hm : s.mayWriteReg p.val .prot a = true) (hrange : s.inRange a w .prot r = true)
include hb hr hbits hm hrange

/-- A REG_WRITE of one word of PROT gathers it for the end of the frame. -/
theorem WriteRun.words_prot : ({ s := s } : WriteRun).words p 0 a [w] = { s := s, prot := [⟨0, a, w⟩] } := by
  have ha := blockOf_lt hb
  change ({ s := s } : WriteRun).word p 0 a w = _
  unfold WriteRun.word
  rw [if_neg (by omega), hb, hr]
  simp only [hm, hrange, hbits, Bool.not_true, Bool.false_eq_true, if_false, if_true]
  rfl

/-- The frame of one word of PROT. -/
theorem State.regWriteFrame_prot : s.regWriteFrame p (BitVec.ofNat 32 a) (leBytes 4 w.toNat)
    = ((({ s := s, prot := [⟨0, a, w⟩] } : WriteRun).finish p).s,
      wordsAnswer (({ s := s, prot := [⟨0, a, w⟩] } : WriteRun).finish p).ref []) := by
  have ha := blockOf_lt hb
  have hx : a < 2 ^ 32 := by omega
  have e1 : getBits (BitVec.ofNat 32 a) 0 14 = a := by
    rw [getBits_ofNat hx]
    omega
  have e2 : getBits (BitVec.ofNat 32 a) 14 18 = 0 := by
    rw [getBits_ofNat hx]
    omega
  have e3 : wordData (leBytes 4 w.toNat) = true := by
    rw [wordData, leBytes_length]
    rfl
  have e4 : leWords (leBytes 4 w.toNat) = [w] := leWords_wordBytes [w]
  unfold State.regWriteFrame State.regWrite
  simp only [e1, e2, e3, e4, rowAt_aligned hb hr, WriteRun.words_prot hb hr hbits hm hrange]
  rfl

/-- A word of PROT that leaves one OWNER takes effect. -/
theorem State.regWriteFrame_prot_taken {u : State} (hu : s.applyProt p.val [⟨0, a, w⟩] = some u) :
    s.regWriteFrame p (BitVec.ofNat 32 a) (leBytes 4 w.toNat) = (u, allWords []) := by
  rw [State.regWriteFrame_prot hb hr hbits hm hrange]
  simp only [WriteRun.finish, hu]
  rfl

/-- A word of PROT that leaves no OWNER ends RANGE. -/
theorem State.regWriteFrame_prot_refused (hu : s.applyProt p.val [⟨0, a, w⟩] = none) :
    s.regWriteFrame p (BitVec.ofNat 32 a) (leBytes 4 w.toNat) = (s, firstWord stRange []) := by
  rw [State.regWriteFrame_prot hb hr hbits hm hrange]
  simp only [WriteRun.finish, hu]
  rfl

end

/-! ## What the table's words leave (R451 to R453) -/

section

variable {s : State} {p q a : Nat} {r : RegRow} {w : Word}

/-- The state after a word of PROT that is taken. -/
def State.protDone (s : State) (p q a : Nat) (r : RegRow) (w : Word) : State :=
  if s.protTold p q a r w then (s.protStored p q a r w).notifyAll 18 else s.protStored p q a r w

theorem State.protStored_wf (h : RegFile.wf s.regs = true) : RegFile.wf (s.protStored p q a r w).regs = true := by
  have h1 := s.wrWord_wf a (r.stored s.committed (s.rdWord a) w) h
  unfold State.protStored
  dsimp only
  split
  · exact h1
  · exact State.wr_wf _ _ _ h1

theorem State.protDone_wf (h : RegFile.wf s.regs = true) : RegFile.wf (s.protDone p q a r w).regs = true := by
  unfold State.protDone
  split
  · exact State.notifyAll_wf _ _ (State.protStored_wf h)
  · exact State.protStored_wf h

theorem State.protDone_rdWord {b : Nat} (hb : 0x400 ≤ b) : (s.protDone p q a r w).rdWord b = (s.protStored p q a r w).rdWord b := by
  unfold State.protDone
  split
  · exact State.rdWord_notifyAll _ 18 hb
  · rfl

theorem State.protDone_priv (k : Nat) : (s.protDone p q a r w).priv k = (s.protStored p q a r w).priv k := by
  unfold State.priv State.rd
  rw [State.protDone_rdWord (b := (R.PROT_PCFG_PRIV k).addr) (Nat.le_add_right_of_le (by decide))]

theorem State.protDone_committed : (s.protDone p q a r w).committed = (s.committed || (a == R.PROT_CTL && bitOf w.toNat 0)) := by
  unfold State.protDone
  split
  · exact (congrArg State.committed (regsOnly_notifyAll (s.protStored p q a r w) 18).1 :)
  · rfl

/-- Ports that hear of the word find CONFIG pending. -/
theorem State.protDone_pend (h : RegFile.wf s.regs = true) (ht : s.protTold p q a r w = true) (k : Port) :
    bitOf ((s.protDone p q a r w).pend k.val) 18 = true := by
  unfold State.protDone
  rw [if_pos ht]
  exact State.pend_notifyAll _ (by decide) (State.protStored_wf h) k

/-- A word that keeps OWNER is stored. -/
theorem State.protStored_kept (h : RegFile.wf s.regs = true) :
    (s.protStored p p a r w).rdWord a = r.stored s.committed (s.rdWord a) w :=
  (State.rdWord_of_regs (congrArg State.regs (if_pos rfl)) a).trans (s.rdWord_wrWord_same a _ h)

/-- A word that neither commits nor hands OWNER over changes its register alone. -/
theorem regsOnly_protDone (ha : a ≠ R.PROT_CTL) : RegsOnly (a :: noticeRegs) s (s.protDone p p a r w) := by
  have hcommit : (s.committed || (a == R.PROT_CTL && bitOf w.toNat 0)) = s.committed := by
    rw [beq_eq_false_iff_ne.mpr ha, Bool.false_and, Bool.or_false]
  have hstored : s.protStored p p a r w = s.wrWord a (r.stored s.committed (s.rdWord a) w) := by
    simp only [State.protStored, hcommit, if_true]
    rfl
  have h1 : RegsOnly (a :: noticeRegs) s (s.protStored p p a r w) := hstored ▸ regsOnly_wrWord s _ List.mem_cons_self
  unfold State.protDone
  split
  · obtain ⟨hs, hr⟩ := regsOnly_notifyAll (s.protStored p p a r w) 18
    exact h1.trans ⟨hs, fun b hb => hr b fun h => hb (List.mem_cons_of_mem _ h)⟩
  · exact h1

end

/-- PRIV can be written (R453). -/
theorem rowAt_pcfg : ∀ q : Port, (rowAt (R.PROT_PCFG q.val)).map RegRow.rw = some 0xF03 := by decide

/-- A port that hands OWNER over keeps OPERATOR (R452). -/
theorem State.protDone_handed {s : State} {p q : Port} {r : RegRow} {w : Word} (h : RegFile.wf s.regs = true)
    (hr : rowAt (R.PROT_PCFG q.val) = some r) (hne : q ≠ p) (hw : getBits w 0 2 = 2) :
    (s.protDone p.val q.val (R.PROT_PCFG q.val) r w).priv q.val = 2
      ∧ (s.protDone p.val q.val (R.PROT_PCFG q.val) r w).priv p.val = 1 := by
  have hne' : q.val ≠ p.val := fun e => hne (Fin.ext e)
  have hrw : r.rw = 0xF03 := by simpa [hr] using rowAt_pcfg q
  have h1 := s.wrWord_wf (R.PROT_PCFG q.val) (r.stored s.committed (s.rdWord (R.PROT_PCFG q.val)) w) h
  have hregs : (s.protStored p.val q.val (R.PROT_PCFG q.val) r w).regs = ((s.wrWord (R.PROT_PCFG q.val)
      (r.stored s.committed (s.rdWord (R.PROT_PCFG q.val)) w)).wr (R.PROT_PCFG_PRIV p.val) 1).regs := by
    unfold State.protStored
    dsimp only
    rw [if_neg hne']
  rw [State.protDone_priv, State.protDone_priv, State.priv, State.priv, State.rd_of_regs hregs, State.rd_of_regs hregs]
  refine ⟨?_, State.rd_wr_same _ (R.PROT_PCFG_PRIV p.val) 1 h1 (by simp [R.PROT_PCFG_PRIV])⟩
  refine (State.rd_wr_other _ _ _ _ h1 (.inl fun e => hne' (pcfg_inj.mp e))).trans ?_
  refine (State.rd_wrWord (f := R.PROT_PCFG_PRIV q.val) h).trans ((getBits_stored ?_).trans hw)
  rw [hrw]
  exact (by decide : ∀ i, i < 2 → (0xF03 : Word).getLsbD (0 + i) = true)

/-! ## The commands -/

theorem protOfs_lt (ofs : BitVec 8) : 0x400 + ofs.toNat < 0x600 := by
  have := ofs.isLt
  omega

section

variable {s : State} {p : Port} {i : Instr} {a : Nat} {w : Word} (hc : s.canon = true) (hi : exec i s = .next (s.writeOne p a w))
  (hm : MayWrite s p a w) (h1 : 0x400 ≤ a) (h2 : a < 0x600)
include hc hi hm h1 h2

/-- A command that writes one word of PROT and leaves port `q` OWNER. -/
theorem writes_prot {q : Nat} {r : RegRow} {P : State → State → Prop} (hr : rowAt a = some r) (hbits : r.rw ||| r.wo ≠ 0)
    (hq : newOwner p.val [⟨0, a, w⟩] = some q)
    (h : ∀ m, FrameOnly p (s.hostEdge p) m → RegFile.wf m.regs = true → P m (m.protDone p.val q a r w)) : Writes i s p a w P := by
  obtain ⟨hh, b, r', hb, hr', hmay, hrange, -⟩ := hm
  obtain rfl := blockOf_prot hb h1 h2
  obtain rfl : r = r' := Option.some.inj (hr.symm.trans hr')
  refine serves_writeOne hc hi hh fun m hf hw => ⟨_, _, ?_, State.protDone_wf hw, rfl, h m hf hw⟩
  exact State.regWriteFrame_prot_taken hb hr hbits (by rw [hf.mayWriteReg]; exact hmay) (by rw [hf.inRange]; exact hrange)
    (State.applyProt_word hr hq)

/-- A command that would leave the device without OWNER ends RANGE. -/
theorem serves_prot_refused {r : RegRow} (hr : rowAt a = some r) (hbits : r.rw ||| r.wo ≠ 0)
    (hq : newOwner p.val [⟨0, a, w⟩] = none) :
    Serves i 0x11 (s.nextFrame p 0x11 (BitVec.ofNat 32 a) (leBytes 4 w.toNat)) s fun m x u => x = firstWord stRange [] ∧ u = m := by
  obtain ⟨hh, b, r', hb, hr', hmay, hrange, -⟩ := hm
  obtain rfl := blockOf_prot hb h1 h2
  obtain rfl : r = r' := Option.some.inj (hr.symm.trans hr')
  refine serves_writeOne hc hi hh fun m hf hw => ⟨m, _, ?_, hw, rfl, rfl⟩
  refine State.regWriteFrame_prot_refused hb hr hbits (by rw [hf.mayWriteReg]; exact hmay) (by rw [hf.inRange]; exact hrange) ?_
  unfold State.applyProt
  rw [hq]
  rfl

end

section

variable {s : State} {p : Port} (hc : s.canon = true)
include hc

/-- A word of the table that keeps OWNER is stored, and ports hear of a change (R451, R453). -/
theorem writes_protKept {ofs : BitVec 8} {w : Word} {r : RegRow} (hm : MayWrite s p (0x400 + ofs.toNat) w)
    (hr : rowAt (0x400 + ofs.toNat) = some r) (hrw : r.rw ≠ 0)
    (hq : ∀ q : Port, 0x400 + ofs.toNat = R.PROT_PCFG q.val → (getBits w 0 2 = 2 ↔ q = p)) :
    let a := 0x400 + ofs.toNat
    let e := s.hostEdge p
    Writes (.protWrite p ofs w) s p a w fun m u =>
      u.rdWord a = r.stored e.committed (e.rdWord a) w ∧ RegsOnly (a :: (List.range 4).map R.HOST_NPEND) m u
      ∧ (u.rdWord a ≠ e.rdWord a → a ∈ protTable → ∀ q : Port, bitOf (u.pend q.val) 18 = true) := by
  intro a e
  have hlo : 0x400 ≤ a := Nat.le_add_right _ _
  have hctl : a ≠ R.PROT_CTL := by
    intro h
    have hr' : rowAt R.PROT_CTL = some r := h ▸ hr
    cases hr'
    exact hrw rfl
  refine writes_prot hc rfl hm hlo (protOfs_lt ofs) hr (fun h => hrw (BitVec.or_eq_zero_iff.mp h).1)
    (newOwner_kept p hq) fun m hf hw => ?_
  have hold : m.rdWord a = e.rdWord a := hf.rdWord_high hlo
  refine ⟨?_, regsOnly_protDone hctl, fun hne ht => State.protDone_pend hw ?_⟩
  · rw [State.protDone_rdWord hlo, State.protStored_kept hw, hold, hf.committed]
  · rw [State.protDone_rdWord hlo, ← hold] at hne
    rw [State.protTold, Bool.or_eq_true]
    exact .inr (List.any_eq_true.mpr ⟨a, ht, bne_iff_ne.mpr hne⟩)

/-- The commit holds, and ports hear of the first one (R453). -/
theorem writes_protCommit (hm : MayWrite s p R.PROT_CTL 1) : Writes (.protCommit p) s p R.PROT_CTL 1 fun _ u =>
    u.committed = true ∧ ((s.hostEdge p).committed = false → ∀ q : Port, bitOf (u.pend q.val) 18 = true) := by
  have hkept : ∀ q : Port, R.PROT_CTL = R.PROT_PCFG q.val → (getBits (1 : Word) 0 2 = 2 ↔ q = p) := by
    intro q e
    simp only [R.PROT_CTL, R.PROT_PCFG] at e
    omega
  refine writes_prot hc rfl hm (by decide) (by decide) rfl (by decide) (newOwner_kept p hkept) fun m hf hw => ⟨?_, fun he => ?_⟩
  · rw [State.protDone_committed]
    exact Bool.or_true _
  · refine State.protDone_pend hw ?_
    rw [← hf.committed] at he
    rw [State.protTold, he]
    rfl

end

/-- Settles O43: each clause is the law of its command above. -/
theorem controlWrites : Obligations.ControlWrites := by
  unfold Obligations.ControlWrites
  intro s p n hc e
  refine ⟨fun ofs w r => ?_, writes_protCommit hc, fun us => writes_beatUs hc, fun rate => writes_timeRate hc,
    fun pos en => writes_ant hc, fun w => writes_wsdata hc, serves_wsdataRead hc, writes_recal hc, writes_iqcal hc⟩
  intro a hm hr hrw
  have hbits : r.rw ||| r.wo ≠ 0 := fun h => hrw (BitVec.or_eq_zero_iff.mp h).1
  refine ⟨writes_protKept hc hm hr hrw, fun q hne ha hw => ?_, fun ha hw => ?_⟩
  · refine writes_prot hc rfl hm (Nat.le_add_right _ _) (protOfs_lt ofs) hr hbits (ha ▸ newOwner_handed p.val q hw)
      fun m _ hm' => ?_
    rw [ha] at hr ⊢
    exact State.protDone_handed hm' hr hne hw
  · exact serves_prot_refused hc rfl hm (Nat.le_add_right _ _) (protOfs_lt ofs) hr hbits (ha ▸ newOwner_lost p hw)

end Sys2Proof.Machine
end

section
/-!
PROOFS. Two states in which the field sequence and the switch bus leave what their statements say: O27 and O29 fail.
-/

namespace Sys2Proof.Machine

/-- The field state of a channel after a command. -/
def fieldAfter (i : Instr) (s : State) (m : Nat) : Option FieldState :=
  match exec i s with
  | .next t => some (t.ch m).field
  | .fault _ | .refused _ => none

/-- A command that leads to a field state shows it. -/
theorem fieldAfter_of_leads {i : Instr} {s : State} {m : Nat} {x : FieldState} (h : Leads i s fun t => (t.ch m).field = x) :
    fieldAfter i s m = some x := by
  obtain ⟨t, ht, hx⟩ := h
  rw [fieldAfter, ht]
  exact congrArg some hx

/-! ## The field sequence -/

/-- The swarm job of channel 0. -/
def patternJob : Job := { id := 0, port := 0, queue := 0, state := .running, desc := [], mask := 1, group := some 0 }

/-- Channel 0 settles with a field-on request while its sequencer waits to select pattern 0, whose entry is not VALID. -/
def settlesForPattern : State :=
  { State.reset with syn := { state := .locked }, jobs := [patternJob] }.modCh 0 fun c =>
    { c with field := .settle, wantOn := true, seq := { run := .blocked (.pattern 0) } }

/-- The selection is made first when the field reaches OFF: it takes a fault, and the end of the job drops the request (R196, R245). -/
theorem settleEnd_settlesForPattern : fieldAfter (.settleEnd 0) settlesForPattern 0 = some .off := by decide

/-- Refutes O27: a field-on request that waits for SETTLE to end is not carried out when the sequencer waits for a pattern that is
refused: the fault ends the job, and the field stays OFF. -/
theorem not_fieldSequence : ¬ Obligations.FieldSequence := by
  unfold Obligations.FieldSequence
  intro h
  obtain ⟨-, hon⟩ := (h settlesForPattern 0 (by decide) (by decide)).1 (by decide) (by decide)
  obtain ⟨t, ht, hramp⟩ := hon (by decide) (by decide) (by decide) (by decide) (by decide)
  cases settleEnd_settlesForPattern.symm.trans (fieldAfter_of_leads ⟨t, ht, hramp 0 (by decide)⟩)

/-! ## The switch bus -/

/-- A coupling measurement that holds channel 1 and has still to drive channel 0. -/
def straysMaint : Maint := { kind := .coupling 0 0 0, mask := 2, since := 0, running := true, left := [0] }

/-- The word on the bus moves channel 0 to position 1, and channel 1, which was shifted with it, stays where it is. -/
def shiftsForMeasurement : State :=
  { State.reset with syn := { state := .locked, shift := some 1 }, maint := [straysMaint] }.modCh 1 fun c => { c with antShift := true }

/-- Channel 1 is in place, so the measurement drives its next member, channel 0, which has just begun to settle. -/
theorem antShiftComplete_shiftsForMeasurement : fieldAfter .antShiftComplete shiftsForMeasurement 0 = some .ramp := by decide

/-- Refutes O29: a coupling measurement whose next member is none of the channels that it holds drives that member out of the SETTLE
which the latch began. -/
theorem not_switchBus : ¬ Obligations.SwitchBus := by
  unfold Obligations.SwitchBus
  intro h
  obtain ⟨t, ht, -, -, hn⟩ := (h shiftsForMeasurement (by decide)).2 1 (by decide)
  obtain ⟨-, -, -, hsettle, -⟩ := hn 0
  cases antShiftComplete_shiftsForMeasurement.symm.trans (fieldAfter_of_leads ⟨t, ht, hsettle (by decide) (.inl (by decide))⟩)

end Sys2Proof.Machine
end

section
/-!
PROOFS. The synthesiser (R65, R67, R71, R72): O32.
-/

namespace Sys2Proof.Machine

/-! ## Signed register fields -/

/-- A two's complement field that was set reads its value in its width. -/
theorem State.rdS_wrS_same (s : State) (f : Fld) (v : Int) (h : RegFile.wf s.regs = true) (hf : f.lo + f.w ≤ 32) :
    (s.wrS f v).rdS f = toSigned f.w (ofSigned f.w v) := by
  unfold State.rdS State.wrS
  rw [s.rd_wr_same f _ h hf]
  simp [toSigned]

/-- A two's complement field reads as before when another field was set. -/
theorem State.rdS_of_rd {s t : State} {f : Fld} (h : t.rd f = s.rd f) : t.rdS f = s.rdS f := congrArg (toSigned f.w) h

/-- A flag that was set reads 1. -/
theorem State.rd_setFlag_same (s : State) (f : Fld) (h : RegFile.wf s.regs = true) (hf : f.lo + f.w ≤ 32) (hw : f.w ≠ 0) :
    (s.setFlag f).rd f = 1 :=
  (s.rd_wr_same f 1 h hf).trans (Nat.mod_eq_of_lt (Nat.one_lt_two_pow hw))

/-! ## A failed lock attempt -/

theorem State.lockFailed_wf {s : State} (h : RegFile.wf s.regs = true) : RegFile.wf s.lockFailed.regs = true :=
  State.bump_wf _ _ 1 (State.setFlag_wf (s.setSyn .cal) _ h)

/-- A failed attempt is flagged. -/
theorem State.lockFailed_flag {s : State} (h : RegFile.wf s.regs = true) : s.lockFailed.rd R.SYN_STAT_LOCK_FAIL = 1 := by
  have hw := State.setFlag_wf (s.setSyn .cal) R.SYN_STAT_LOCK_FAIL h
  exact (State.rd_wr_other _ R.DIAG_CNT_3_N_LOCKFAIL _ _ hw (.inl (by decide))).trans
    (State.rd_setFlag_same (s.setSyn .cal) _ h (by decide) (by decide))

/-- A failed attempt is counted. -/
theorem State.lockFailed_counts {s : State} (h : RegFile.wf s.regs = true) : Counts R.DIAG_CNT_3_N_LOCKFAIL s s.lockFailed := by
  have hw := State.setFlag_wf (s.setSyn .cal) R.SYN_STAT_LOCK_FAIL h
  have hrd : ((s.setSyn .cal).setFlag R.SYN_STAT_LOCK_FAIL).rd R.DIAG_CNT_3_N_LOCKFAIL = s.rd R.DIAG_CNT_3_N_LOCKFAIL :=
    State.rd_wr_other (s.setSyn .cal) _ _ _ h (.inl (by decide))
  have hc := counts_bump _ R.DIAG_CNT_3_N_LOCKFAIL hw (by decide)
  rwa [Counts, hrd] at hc

/-! ## LOCK -/

/-- Maintenance that satisfies the test has left the queue. -/
theorem State.maintEnd_all (s : State) (p : Maint → Bool) : ((s.maintEnd p).maint.all fun m => !p m) = true := by
  unfold State.maintEnd
  split
  · change ((s.maint.filter fun m => !p m).all fun m => !p m) = true
    exact List.all_eq_true.mpr fun m hm => (List.mem_filter.mp hm).2
  next h =>
    exact List.all_eq_true.mpr fun m hm => Bool.not_eq_true' _ ▸ Bool.eq_false_iff.mpr fun hp => h (List.any_eq_true.mpr ⟨m, hm, hp⟩)

theorem State.maintEnd_syn (s : State) (p : Maint → Bool) : (s.maintEnd p).syn = s.syn := by
  unfold State.maintEnd
  split <;> rfl

theorem State.maintEnd_boot (s : State) (p : Maint → Bool) : (s.maintEnd p).boot = s.boot := by
  unfold State.maintEnd
  split <;> rfl

/-- The end of maintenance counts in DIAG, and writes no other register. -/
theorem State.maintEnd_rdWord (s : State) (p : Maint → Bool) {a : Nat} (ha : a ≠ R.DIAG_CNT_4) :
    (s.maintEnd p).rdWord a = s.rdWord a := by
  unfold State.maintEnd
  split
  · exact State.rdWord_bump_other _ _ _ _ ha
  · rfl

theorem State.becomeLocked_syn (s : State) (us : BitVec 16) : (s.becomeLocked us).syn.state = .locked :=
  congrArg SynSt.state (State.maintEnd_syn _ _)

theorem State.becomeLocked_boot (s : State) (us : BitVec 16) : (s.becomeLocked us).boot = s.boot := State.maintEnd_boot _ _

/-- A lock gives its duration. -/
theorem State.becomeLocked_lockUs {s : State} (us : BitVec 16) (h : RegFile.wf s.regs = true) :
    (s.becomeLocked us).rd R.SYN_LOCKT_LOCK_US = us.toNat := by
  have hus : ((s.setSyn .locked).wr R.SYN_LOCKT_LOCK_US us.toNat).rd R.SYN_LOCKT_LOCK_US = us.toNat :=
    (State.rd_wr_same (s.setSyn .locked) _ _ h (by decide)).trans (Nat.mod_eq_of_lt us.isLt)
  refine Eq.trans ?_ hus
  exact congrArg (getBits · 0 16) (State.maintEnd_rdWord _ _ (by decide))

/-- A lock ends the synthesiser's maintenance. -/
theorem State.becomeLocked_maint (s : State) (us : BitVec 16) :
    ((s.becomeLocked us).maint.all fun m => !(m.running && m.kind.isSynth)) = true := State.maintEnd_all _ _

/-- WAKE_DONE leaves the registers of the synthesiser. -/
theorem State.wakeDone_rdWord (s : State) {a : Nat} (ha : 0x620 ≤ a) : s.wakeDone.rdWord a = s.rdWord a := by
  have hne : a ≠ R.PWR_WTIME_WAKE_US.addr := by
    simp only [R.PWR_WTIME_WAKE_US, R.PWR_WTIME]
    omega
  exact (State.rdWord_notifyAll _ 12 (by omega)).trans (State.rdWord_wrWord_other _ _ hne)

/-- The device once SYN_LOCK has locked it and a wake that waited for LOCK is done (R407). -/
def State.lockTold (s : State) (us : BitVec 16) : State :=
  if (s.becomeLocked us).pwr.lockDue then ((s.becomeLocked us).modPwr fun p => { p with lockDue := false }).wakeDone
  else s.becomeLocked us

theorem State.lockTold_spec {s : State} (us : BitVec 16) (h : RegFile.wf s.regs = true) : (s.lockTold us).syn.state = .locked
    ∧ (s.lockTold us).rd R.SYN_LOCKT_LOCK_US = us.toNat ∧ (s.lockTold us).boot = s.boot := by
  have hsyn := s.becomeLocked_syn us
  have hus := State.becomeLocked_lockUs us h
  have hboot := s.becomeLocked_boot us
  unfold State.lockTold
  split
  · exact ⟨hsyn, (congrArg (getBits · 0 16) (State.wakeDone_rdWord _ (by decide))).trans hus, hboot⟩
  · exact ⟨hsyn, hus, hboot⟩

/-! ## The obligation -/

section

variable {s : State} (hw : RegFile.wf s.regs = true)
include hw

theorem leads_bandFound (h : s.syn.state = .cal) : Leads .bandFound s fun t => t.syn.state = .acq ∧ t.rd R.SYN_CTL_RECAL = 0
    ∧ t.rdS R.SYN_STAT_CAL_TEMP = toSigned 16 (ofSigned 16 s.tDie) := by
  refine ⟨_, if_neg (by simp [h]), rfl, ?_, ?_⟩
  · exact State.rd_wr_same _ R.SYN_CTL_RECAL 0 (State.wr_wf (s.setSyn .acq) _ _ hw) (by decide)
  · have hother := State.rd_wr_other _ R.SYN_CTL_RECAL R.SYN_STAT_CAL_TEMP 0
      (State.wr_wf (s.setSyn .acq) R.SYN_STAT_CAL_TEMP (ofSigned 16 s.tDie) hw) (.inl (by decide))
    exact (State.rdS_of_rd hother).trans (State.rdS_wrS_same (s.setSyn .acq) R.SYN_STAT_CAL_TEMP _ hw (by decide))

theorem leads_lockAttemptTimeout (h : s.syn.state = .acq ∨ s.syn.state = .lost) : Leads .lockAttemptTimeout s fun t =>
    t.syn.state = .cal ∧ t.rd R.SYN_STAT_LOCK_FAIL = 1 ∧ Counts R.DIAG_CNT_3_N_LOCKFAIL s t :=
  ⟨_, congrArg Host.Outcome.next (if_pos (by simpa using h)), rfl, State.lockFailed_flag hw, State.lockFailed_counts hw⟩

theorem leads_synLock {us : BitVec 16} (h : s.syn.state = .acq ∨ s.syn.state = .lost) (hx : s.pwr.xtal = true)
    (ht : s.thermHold = false) : Leads (.synLock us) s fun t => t.syn.state = .locked ∧ t.rd R.SYN_LOCKT_LOCK_US = us.toNat
      ∧ (s.boot = .lock → t.boot = .imageCal) := by
  obtain ⟨hsyn, hus, hboot⟩ := State.lockTold_spec us hw
  let u := s.lockTold us
  have he : exec (.synLock us) s = .next (if u.boot = .lock then
      { u with boot := .imageCal, bootCal := 0xFF, syn := { u.syn with shift := some 0 } } else u) :=
    if_pos (by simpa [hx, ht] using h)
  by_cases hb : u.boot = .lock
  · exact ⟨_, he.trans (congrArg Host.Outcome.next (if_pos hb)), hsyn, hus, fun _ => rfl⟩
  · exact ⟨_, he.trans (congrArg Host.Outcome.next (if_neg hb)), hsyn, hus, fun h => absurd (hboot.trans h) hb⟩

theorem leads_phaseStepRelock {us : BitVec 16} (h : s.syn.state = .step) : Leads (.phaseStepRelock us) s fun t =>
    t.syn.state = .locked ∧ t.rd R.SYN_LOCKT_LOCK_US = us.toNat
      ∧ (t.maint.all fun m => !(m.running && m.kind.isSynth)) = true :=
  ⟨_, congrArg Host.Outcome.next (if_pos (by simp [h])), s.becomeLocked_syn us, State.becomeLocked_lockUs us hw,
    s.becomeLocked_maint us⟩

theorem leads_stepRelockTimeout (h : s.syn.state = .step) : Leads .stepRelockTimeout s fun t => t.syn.state = .cal
    ∧ t.rd R.SYN_STAT_LOCK_FAIL = 1 ∧ ∀ p : Port, bitOf (t.pend p.val) 9 = true := by
  refine ⟨_, congrArg Host.Outcome.next (if_pos (by simp [h])), rfl, ?_, ?_⟩
  · exact (congrArg (getBits · 9 1) (State.rdWord_notifyAll s.lockFailed 9 (by decide))).trans (State.lockFailed_flag hw)
  · exact State.pend_notifyAll _ (by decide) (State.lockFailed_wf hw)

end

/-- Settles O32: each clause is the law of its command above. -/
theorem synthesiser : Obligations.Synthesiser := by
  unfold Obligations.Synthesiser
  intro s us hc
  have hw := State.canon_regs hc
  exact ⟨leads_bandFound hw, leads_lockAttemptTimeout hw, leads_synLock hw, leads_phaseStepRelock hw, leads_stepRelockTimeout hw⟩

end Sys2Proof.Machine
end

section
/-!
PROOFS. What the end of a job and the fault of a channel leave: fields of registers, parked fields and the synthesiser.
-/

namespace Sys2Proof.Machine

/-! ## Fields of registers that do not meet -/

/-- A field that shares no bit with another. -/
abbrev Fld.apart (f g : Fld) : Prop := f.addr ≠ g.addr ∨ f.lo + f.w ≤ g.lo ∨ g.lo + g.w ≤ f.lo

/-- Counts that the end of a job writes: late exchanges and posted entries. -/
def endFlds : List Fld := (List.range 8).map R.CSQ_CNT_N_LATE ++ (List.range 32).map R.RES_CNT_N_POST

/-- What a fault of a channel writes besides its own bit and its count in DIAG: the event of a window, the fault of a sequencer, and
the end of a coupling measurement. -/
def faultFlds : List Fld :=
  endFlds ++ (List.range 8).map R.CH_RXSTAT_LAST_FEV ++ (List.range 8).map R.CSQ_FAULT_FCODE ++ (List.range 8).map R.CSQ_FAULT_FPC
    ++ (List.range 8).map R.CSQ_FAULT_FSEEN ++ (List.range 8).map R.CSQ_CNT_N_FAULT ++ [R.SWARM_CMDSTAT_DONE, R.SWARM_CMDSTAT_ERR]

theorem mem_endFlds_late {n : Nat} (hn : n < 8) : R.CSQ_CNT_N_LATE n ∈ endFlds :=
  List.mem_append_left _ (List.mem_map_of_mem (List.mem_range.mpr hn))

theorem mem_endFlds_post {r : Nat} (hr : r < 32) : R.RES_CNT_N_POST r ∈ endFlds :=
  List.mem_append_right _ (List.mem_map_of_mem (List.mem_range.mpr hr))

theorem endFlds_subset : endFlds ⊆ faultFlds := fun f hf => by simp [faultFlds, hf]

theorem mem_faultFlds : ∀ n : Ch, R.CH_RXSTAT_LAST_FEV n.val ∈ faultFlds ∧ R.CSQ_FAULT_FCODE n.val ∈ faultFlds
    ∧ R.CSQ_FAULT_FPC n.val ∈ faultFlds ∧ R.CSQ_FAULT_FSEEN n.val ∈ faultFlds ∧ R.CSQ_CNT_N_FAULT n.val ∈ faultFlds := by decide

/-! ## Channels -/

/-- A channel past the last one is none that can be changed. -/
theorem State.modCh_of_le (s : State) {n : Nat} (g : Chan → Chan) (hn : 8 ≤ n) : s.modCh n g = s := by
  unfold State.modCh
  rw [Vector.setIfInBounds_eq_of_size_le hn]

/-- A change of a channel that leaves what is asked of it leaves it on every channel. -/
theorem State.ch_modCh_keeps {α : Type} {s : State} {n : Nat} {g : Chan → Chan} (p : Chan → α) (hg : p (g (s.ch n)) = p (s.ch n))
    (m : Nat) : p ((s.modCh n g).ch m) = p (s.ch m) := by
  by_cases hm : m = n
  · subst hm
    by_cases h8 : m < 8
    · rw [s.ch_modCh_same m g h8, hg]
    · rw [s.modCh_of_le g (Nat.le_of_not_lt h8)]
  · rw [s.ch_modCh_other g hm]

/-- The lead of a mask is a channel. -/
theorem leadOf_lt (m : BitVec 8) : leadOf m < 8 := by
  unfold leadOf
  cases h : (List.range 8).find? fun i => bitOf m.toNat i with
  | none => decide
  | some i => exact List.mem_range.mp (List.mem_of_find?_eq_some h)

/-- Channels that move with one are channels. -/
theorem State.team_lt {s : State} {n m : Nat} (hn : n < 8) (hm : m ∈ s.team n) : m < 8 := by
  unfold State.team at hm
  split at hm
  · exact List.mem_singleton.mp hm ▸ hn
  split at hm
  · obtain ⟨c, -, rfl⟩ := List.mem_map.mp hm
    exact c.isLt
  · exact List.mem_singleton.mp hm ▸ hn

theorem State.leadAt_lt {s : State} {n : Nat} (hn : n < 8) : s.leadAt n < 8 := by
  unfold State.leadAt
  cases h : s.team n with
  | nil => exact hn
  | cons a l => exact State.team_lt hn (h ▸ List.mem_cons_self)

/-- What every step of a run keeps that runs over members of a list, the run keeps. -/
theorem State.each_induction_mem {α : Type} {P : State → Prop} {g : State → α → State} :
    ∀ {l : List α} {s : State}, (∀ s, ∀ a ∈ l, P s → P (g s a)) → P s → P (s.each l g)
  | [], _, _, h => h
  | a :: l, s, hg, h =>
    State.each_induction_mem (l := l) (fun t b hb => hg t b (List.mem_cons_of_mem a hb)) (hg s a List.mem_cons_self h)

/-! ## What is spared -/

/-- A field in OFF or FAULT: only its own requests take it out of that state. -/
def FieldState.parked (x : FieldState) : Prop := x = .off ∨ x = .fault

/-- From `s` to `t` no register field has been written but those of a list, fields in OFF and FAULT have stayed, and so has the
synthesiser. -/
structure Spares (w : List Fld) (s t : State) : Prop where
  wf : RegFile.wf t.regs = true
  rd : ∀ f : Fld, (∀ g ∈ w, f.apart g) → t.rd f = s.rd f
  parked : ∀ m, (s.ch m).field.parked → (t.ch m).field = (s.ch m).field
  syn : t.syn = s.syn

section

variable {w : List Fld} {s t : State}

theorem Spares.refl (h : RegFile.wf s.regs = true) : Spares w s s := ⟨h, fun _ _ => rfl, fun _ _ => rfl, rfl⟩

/-- Other parts of the device do not matter. -/
theorem Spares.same {u : State} (h : Spares w s t) (hr : u.regs = t.regs) (hc : u.chans = t.chans) (hs : u.syn = t.syn) :
    Spares w s u where
  wf := hr ▸ h.wf
  rd f hf := (State.rd_of_regs hr f).trans (h.rd f hf)
  parked m hm := by
    rw [← h.parked m hm, State.ch, State.ch, hc]
  syn := hs.trans h.syn

theorem Spares.wr {g : Fld} {v : Nat} (hg : g ∈ w) (h : Spares w s t) : Spares w s (t.wr g v) where
  wf := t.wr_wf g v h.wf
  rd f hf := (t.rd_wr_other g f v h.wf (hf g hg)).trans (h.rd f hf)
  parked := h.parked
  syn := h.syn

theorem Spares.bump {g : Fld} {k : Nat} (hg : g ∈ w) (h : Spares w s t) : Spares w s (t.bump g k) := .wr hg h

theorem Spares.setFlag {g : Fld} (hg : g ∈ w) (h : Spares w s t) : Spares w s (t.setFlag g) := .wr hg h

/-- A change of a channel that leaves a parked field. -/
theorem Spares.modCh {n : Nat} {g : Chan → Chan} (hg : (t.ch n).field.parked → (g (t.ch n)).field = (t.ch n).field)
    (h : Spares w s t) : Spares w s (t.modCh n g) where
  wf := h.wf
  rd := h.rd
  parked m hm := by
    have hp : (t.ch m).field.parked := (h.parked m hm).symm ▸ hm
    by_cases e : m = n
    · subst e
      exact (State.ch_modCh_keeps Chan.field (hg hp) m).trans (h.parked m hm)
    · rw [t.ch_modCh_other g e]
      exact h.parked m hm
  syn := h.syn

theorem Spares.modSeq {n : Nat} {g : Seq → Seq} (h : Spares w s t) : Spares w s (t.modSeq n g) := .modCh (fun _ => rfl) h

theorem Spares.modInv {n : Nat} {g : InvCtx → InvCtx} (h : Spares w s t) : Spares w s (t.modInv n g) := .modCh (fun _ => rfl) h

theorem Spares.modJob {id : Nat} {g : Job → Job} (h : Spares w s t) : Spares w s (t.modJob id g) := .same h rfl rfl rfl

theorem Spares.dropJob {id : Nat} (h : Spares w s t) : Spares w s (t.dropJob id) := .same h rfl rfl rfl

theorem Spares.takeFresh {α : Type} {g : Nat → α} (h : Spares w s t) : Spares w s (t.takeFresh g).2 := .same h rfl rfl rfl

theorem Spares.ite {c : Prop} [Decidable c] {u v : State} (hu : Spares w s u) (hv : Spares w s v) :
    Spares w s (if c then u else v) := by
  split
  · exact hu
  · exact hv

theorem Spares.each {α : Type} {l : List α} {g : State → α → State} (hg : ∀ t, ∀ a ∈ l, Spares w s t → Spares w s (g t a))
    (h : Spares w s t) : Spares w s (t.each l g) := State.each_induction_mem hg h

/-! ## Fields that fall -/

theorem Spares.startDown {n : Nat} (hn : ¬ (t.ch n).field.parked) (h : Spares w s t) : Spares w s (t.startDown n) :=
  .modCh (fun hp => absurd hp hn) h

theorem Spares.stopField {n : Nat} (h : Spares w s t) : Spares w s (t.stopField n) := by
  unfold State.stopField
  split
  next hon =>
    refine .startDown ?_ (.modCh (fun _ => rfl) h)
    rw [State.ch_modCh_keeps Chan.field rfl, hon]
    exact fun hp => nomatch hp
  all_goals exact .modCh (fun _ => rfl) h

theorem Spares.stopFields {m : BitVec 8} (h : Spares w s t) : Spares w s (t.stopFields m) := .each (fun _ _ _ => .stopField) h

/-- Members that leave MOD and RXW were not parked. -/
theorem Spares.leaveAir {n : Nat} (h : Spares w s t) : Spares w s (t.leaveAir n) := by
  unfold State.leaveAir
  refine .each (fun u m _ h => ?_) h
  have hset (hm : ¬ (u.ch m).field.parked) : Spares w s (u.setField m .on) := .modCh (fun hp => absurd hp hm) h
  split
  next e => exact .ite (.stopField (hset (e ▸ fun hp => nomatch hp))) (hset (e ▸ fun hp => nomatch hp))
  next e => exact .ite (.stopField (hset (e ▸ fun hp => nomatch hp))) (hset (e ▸ fun hp => nomatch hp))
  all_goals exact h

/-! ## The end of a job (R19, R22) -/

/-- Reserved beats are counted apart from the field and the sequencer. -/
theorem Chan.reserve_keeps (c : Chan) (beat a b : Nat) : (c.reserve beat a b).field = c.field ∧ (c.reserve beat a b).seq = c.seq := by
  unfold Chan.reserve
  extract_lets first last c1
  split <;> exact ⟨rfl, rfl⟩

theorem Spares.reserveBeats {n a b : Nat} (h : Spares w s t) : Spares w s (t.reserveBeats n a b) := by
  unfold State.reserveBeats
  split
  · exact h
  · exact .each (fun u m _ => .modCh fun _ => (Chan.reserve_keeps _ _ _ _).1) h

theorem Spares.enqueueLate {id : Nat} (h : Spares w s t) : Spares w s (t.enqueueLate id) := by
  unfold State.enqueueLate
  split
  · exact h
  · exact .same h rfl rfl rfl

theorem Spares.sendLate {id : Nat} {l : List Sighting} (h : Spares w s t) : Spares w s (t.sendLate id l) := .enqueueLate (.modJob h)

theorem Spares.releaseHeld {n id : Nat} (h : Spares w s t) : Spares w s (t.releaseHeld n id) := by
  unfold State.releaseHeld
  split
  · exact h
  · exact .ite (.modInv h) (.sendLate (.modInv h))

theorem Spares.releaseFound {n id : Nat} (h : Spares w s t) : Spares w s (t.releaseFound n id) := .sendLate (.modInv h)

theorem Spares.unclaim {id : Nat} (h : Spares w s t) : Spares w s (t.unclaim id) :=
  .each (fun _ _ _ h => .ite (.same h rfl rfl rfl) h) h

variable (hw : endFlds ⊆ w)
include hw

theorem Spares.endExchange {n : Nat} (hn : n < 8) (h : Spares w s t) : Spares w s (t.endExchange n) := by
  unfold State.endExchange
  split
  · exact h
  extract_lets wcx stop isLate s0 s1 s2
  have h0 : Spares w s s0 := .ite (.reserveBeats h) h
  have h1 : Spares w s s1 := .ite (.bump (hw (mem_endFlds_late hn)) h0) h0
  have h2 : Spares w s s2 := .modCh (fun _ => rfl) h1
  refine .ite h2 ?_
  split
  · exact h2
  · exact .modJob h2

theorem Spares.endRunning {j : Job} {rc : Byte} {part : Bool} {detail : BitVec 16} (h : Spares w s t) :
    Spares w s (t.endRunning j rc part detail) := by
  unfold State.endRunning
  extract_lets n s0 q items rec' st s1 s2 s3
  have h2 : Spares w s s2 := .modCh (fun _ => rfl) (.modJob (.releaseFound (.releaseHeld h)))
  have h3 : Spares w s s3 := .ite (.endExchange hw (leadOf_lt j.mask) h2) h2
  exact .stopFields (.each (fun _ _ _ => .modCh fun _ => rfl) h3)

theorem Spares.postEntry {r units : Nat} {hdr payload : List Byte} (hr : r < 32) (h : Spares w s t) :
    Spares w s (t.postEntry r units hdr payload) := .bump (hw (mem_endFlds_post hr)) (.same h rfl rfl rfl)

theorem Spares.postReceipt {j : Job} {rc : Byte} (h : Spares w s t) : Spares w s (t.postReceipt j rc) := by
  unfold State.postReceipt
  extract_lets d hdr s1
  have h1 : Spares w s s1 := .unclaim (.postEntry hw j.ringNo_lt (.takeFresh h))
  exact .ite (.modJob h1) (.dropJob h1)

theorem Spares.endJob {id : Nat} {rc : Byte} {part : Bool} {detail : BitVec 16} (h : Spares w s t) :
    Spares w s (t.endJob id rc part detail) := by
  unfold State.endJob
  split
  · exact h
  split
  · exact .postReceipt hw h
  · exact .endRunning hw h
  · exact .endRunning hw h
  · exact h

theorem Spares.endJobInForce {id : Nat} {rc : Byte} {part : Bool} (h : Spares w s t) : Spares w s (t.endJobInForce id rc part) := by
  unfold State.endJobInForce
  split
  · exact h
  · exact .endJob hw h

end

/-! ## The fault of a channel (R51, R52, R230) -/

section

variable {s t : State}

theorem Spares.seqFault (n : Ch) {code : Byte} (h : Spares faultFlds s t) : Spares faultFlds s (t.seqFault n.val code) := by
  obtain ⟨-, hcode, hpc, hseen, hcount⟩ := mem_faultFlds n
  unfold State.seqFault
  split
  · exact h
  · exact .endJob endFlds_subset (.bump hcount (.setFlag hseen (.wr hpc (.wr hcode h))))

variable {w : List Fld}

theorem Spares.modRom {j : Job} {g : RomCtx → RomCtx} (h : Spares w s t) : Spares w s (t.modRom j g) := .ite (.modJob h) h

theorem Spares.modWrite {j : Job} {g : WriteCtx → WriteCtx} (h : Spares w s t) : Spares w s (t.modWrite j g) :=
  .ite (.modSeq (.modJob h)) h

theorem Spares.noteFault {j : Job} {live inMod : Bool} (h : Spares w s t) : Spares w s (t.noteFault j live inMod) :=
  .modWrite (.modRom h)

theorem Spares.cutAir {n : Nat} (h : Spares w s t) : Spares w s (t.cutAir n) := by
  unfold State.cutAir
  split
  iterate 7 exact .modSeq h
  · exact .modSeq (.modInv h)
  · exact h

theorem Spares.stopCoupling {n : Nat} (h : Spares faultFlds s t) : Spares faultFlds s (t.stopCoupling n) :=
  .ite (.wr (by decide) (.setFlag (by decide) (.same h rfl rfl rfl))) h

theorem Spares.faultJob (n : Ch) (h : Spares faultFlds s t) : Spares faultFlds s (t.faultJob n.val) := by
  obtain ⟨hev, -⟩ := mem_faultFlds n
  unfold State.faultJob
  split
  · exact h
  extract_lets c s1 unfinished s2 s3
  have h2 : Spares faultFlds s s2 := .ite (.wr hev (.noteFault h)) (.noteFault h)
  have h3 : Spares faultFlds s s3 := .leaveAir (.endExchange endFlds_subset n.isLt (.modCh (fun _ => rfl) h2))
  refine .ite h3 ?_
  split
  · exact .endJobInForce endFlds_subset h3
  · exact .ite (.seqFault n h3) (.modSeq (.cutAir (.modJob h3)))

end

end Sys2Proof.Machine
end

section
/-!
PROOFS. Faults of a channel (R51, R52, R68, R421): O31.
-/

namespace Sys2Proof.Machine

/-- A fault bit of a channel in CHn_TXSTAT. -/
def statBit (lo n : Nat) : Fld := ⟨R.CH_TXSTAT n, lo, 1⟩

/-- The states in which a channel drives are those of R49 in which a fault takes it. -/
theorem FieldState.live_iff {f : FieldState} : f.live = true ↔ f = .ramp ∨ f = .on ∨ f = .mod ∨ f = .rxw ∨ f = .down := by
  cases f <;> decide

theorem FieldState.faultable_of_live {f : FieldState} (h : f.live = true) : f.faultable = true := by
  rw [FieldState.faultable, h, Bool.true_or]

/-- The channel is in FAULT, and its fault bit is set. -/
def Faulted (lo k : Nat) (s : State) : Prop := (s.ch k).field = .fault ∧ s.rd (statBit lo k) = 1

/-! ## One channel -/

section

variable {lo : Nat} {cnt : Fld} {s : State}

theorem State.faultChan_wf {n : Nat} {bit : Fld} (h : RegFile.wf s.regs = true) : RegFile.wf (s.faultChan n bit cnt).regs = true := by
  unfold State.faultChan
  split
  · exact State.bump_wf _ _ 1 (s.setFlag_wf _ h)
  · exact h

theorem State.faultChan_ch_other {n k : Nat} {bit : Fld} (hk : k ≠ n) : (s.faultChan n bit cnt).ch k = s.ch k := by
  unfold State.faultChan
  split
  · exact State.ch_modCh_other _ _ hk
  · rfl

theorem State.faultChan_rd {n : Nat} {bit f : Fld} (h : RegFile.wf s.regs = true) (hb : f.apart bit) (hc : f.apart cnt) :
    (s.faultChan n bit cnt).rd f = s.rd f := by
  unfold State.faultChan
  split
  · exact (State.rd_wr_other _ cnt f _ (s.setFlag_wf bit h) hc).trans (s.rd_wr_other bit f 1 h hb)
  · rfl

/-- A field in OFF is not cut, and one in FAULT stays there. -/
theorem State.faultChan_parked {n k : Nat} {bit : Fld} (hk : (s.ch k).field.parked) :
    ((s.faultChan n bit cnt).ch k).field = (s.ch k).field := by
  by_cases e : k = n
  · subst e
    unfold State.faultChan
    split
    next hf =>
      rcases hk with hoff | hfault
      · rw [hoff] at hf
        cases hf
      · exact State.ch_modCh_keeps Chan.field hfault.symm k
    · rfl
  · rw [State.faultChan_ch_other e]

/-- A fault sets its bit and takes the channel to FAULT. -/
theorem State.faultChan_faulted {k : Nat} (h : RegFile.wf s.regs = true) (hk : k < 8) (hlo : lo < 32)
    (hc : (statBit lo k).apart cnt) (hf : (s.ch k).field.faultable = true) : Faulted lo k (s.faultChan k (statBit lo k) cnt) := by
  have hbit := s.rd_setFlag_same (statBit lo k) h hlo Nat.one_ne_zero
  rw [State.faultChan, if_pos hf]
  exact ⟨congrArg Chan.field (State.ch_modCh_same _ _ _ hk),
    (State.rd_wr_other _ cnt _ _ (s.setFlag_wf _ h) hc).trans hbit⟩

/-- A fault counts in DIAG. -/
theorem State.faultChan_counts {k : Nat} {bit : Fld} (h : RegFile.wf s.regs = true) (hc : cnt.lo + cnt.w ≤ 32)
    (hb : cnt.apart bit) (hf : (s.ch k).field.faultable = true) : Counts cnt s (s.faultChan k bit cnt) := by
  have hcount := counts_bump (s.setFlag bit) cnt (s.setFlag_wf bit h) hc
  rw [Counts, show (s.setFlag bit).rd cnt = s.rd cnt from s.rd_wr_other bit cnt 1 h hb] at hcount
  rwa [State.faultChan, if_pos hf]

/-- The fault of another channel leaves the bit and FAULT. -/
theorem Faulted.faultChan {k n : Nat} (h : RegFile.wf s.regs = true) (hn : n < 8) (hlo : lo < 32)
    (hc : (statBit lo k).apart cnt) (hk : Faulted lo k s) : Faulted lo k (s.faultChan n (statBit lo n) cnt) := by
  obtain ⟨hfield, hbit⟩ := hk
  by_cases e : k = n
  · subst e
    exact State.faultChan_faulted h hn hlo hc (by rw [hfield]; rfl)
  · have hapart : (statBit lo k).apart (statBit lo n) := .inl (by simp only [statBit, R.CH_TXSTAT]; omega)
    exact ⟨(State.faultChan_parked (.inr hfield)).trans hfield, (State.faultChan_rd h hapart hc).trans hbit⟩

end

/-! ## The channels of a fault -/

/-- The fault bits of a list of channels set. -/
def State.faultBits (s : State) (l : List Nat) (lo : Nat) (cnt : Fld) : State := s.each l fun s n => s.faultChan n (statBit lo n) cnt

section

variable {lo : Nat} {cnt : Fld} (hlo : lo < 32)

theorem State.faultBits_wf {s : State} {l : List Nat} (h : RegFile.wf s.regs = true) : RegFile.wf (s.faultBits l lo cnt).regs = true :=
  State.each_induction (P := fun t => RegFile.wf t.regs = true) (fun _ _ => State.faultChan_wf) l s h

theorem State.faultBits_parked {k : Nat} {x : FieldState} (hx : x.parked) :
    ∀ {l : List Nat} {s : State}, (s.ch k).field = x → ((s.faultBits l lo cnt).ch k).field = x := by
  intro l s
  exact State.each_induction (P := fun t => (t.ch k).field = x) (fun t n ht => (State.faultChan_parked (ht.symm ▸ hx)).trans ht) l s

theorem State.faultBits_rd {f : Fld} {l : List Nat} {s : State} (h : RegFile.wf s.regs = true)
    (hb : ∀ n ∈ l, f.apart (statBit lo n)) (hc : f.apart cnt) : (s.faultBits l lo cnt).rd f = s.rd f :=
  (State.each_induction_mem (P := fun t => RegFile.wf t.regs = true ∧ t.rd f = s.rd f)
    (fun _ n hn ht => ⟨State.faultChan_wf ht.1, (State.faultChan_rd ht.1 (hb n hn) hc).trans ht.2⟩) ⟨h, rfl⟩).2

include hlo

/-- Every channel of the list that drives goes to FAULT with its bit set. -/
theorem State.faultBits_faulted {k : Nat} (hc : (statBit lo k).apart cnt) {l : List Nat} {s : State}
    (hw : RegFile.wf s.regs = true) (hl : ∀ n ∈ l, n < 8) (hk : k ∈ l) (hf : (s.ch k).field.live = true) :
    Faulted lo k (s.faultBits l lo cnt) := by
  induction l generalizing s with
  | nil => cases hk
  | cons n l ih =>
    have hw1 := State.faultChan_wf (n := n) (bit := statBit lo n) (cnt := cnt) hw
    have hl1 : ∀ m ∈ l, m < 8 := fun m hm => hl m (List.mem_cons_of_mem n hm)
    change Faulted lo k ((s.faultChan n (statBit lo n) cnt).faultBits l lo cnt)
    by_cases e : k = n
    · subst e
      have hfirst := State.faultChan_faulted (lo := lo) hw (hl k List.mem_cons_self) hlo hc (FieldState.faultable_of_live hf)
      exact (State.each_induction_mem (P := fun t => RegFile.wf t.regs = true ∧ Faulted lo k t)
        (fun t m hm ht => ⟨State.faultChan_wf ht.1, ht.2.faultChan ht.1 (hl1 m hm) hlo hc⟩) ⟨hw1, hfirst⟩).2
    · refine ih hw1 hl1 ((List.mem_cons.mp hk).resolve_left e) ?_
      rwa [State.faultChan_ch_other e]

end

/-- What follows the bits of a fault: the jobs and measurements of the channels that it hits end or wind up (R52). -/
theorem State.faultChans_spares {s : State} {l : List Nat} {lo : Nat} {cnt : Fld} (h : RegFile.wf s.regs = true)
    (hl : ∀ n ∈ l, n < 8) : Spares faultFlds (s.faultBits l lo cnt) (s.faultChans l (statBit lo) cnt) := by
  have hstop : Spares faultFlds (s.faultBits l lo cnt)
      ((s.faultBits l lo cnt).each (l.filter fun n => (s.ch n).field.live) fun s n => s.stopCoupling n) :=
    .each (fun _ _ _ => .stopCoupling) (.refl (State.faultBits_wf h))
  refine .each (fun u n hn hu => ?_) hstop
  obtain ⟨m, hm, rfl⟩ := List.mem_map.mp (List.mem_eraseDups.mp hn)
  exact Spares.faultJob ⟨s.leadAt m, State.leadAt_lt (hl m (List.mem_filter.mp hm).1)⟩ hu

/-- No fault of a channel writes CHn_TXSTAT besides its own bit. -/
theorem faultFlds_txstat : ∀ g ∈ faultFlds, ∀ k : Ch, R.CH_TXSTAT k.val ≠ g.addr := by decide

/-- Nor notices, nor counts of DIAG, nor what a loss of LOCK leaves. -/
theorem faultFlds_apart : ∀ g ∈ faultFlds, (∀ p : Port, (R.HOST_NPEND_PEND p.val).apart g) ∧ R.DIAG_CNT_1_N_OVC.apart g
    ∧ R.DIAG_CNT_1_N_OPEN.apart g ∧ R.SYN_STAT_UNLOCK_SEEN.apart g ∧ R.SYN_LOCKT_LOSSES.apart g := by decide

/-- A field below the channels or beyond them is no fault bit. -/
theorem Fld.apart_statBit {f : Fld} {lo n : Nat} (hn : n < 8) (hf : f.addr < 0x2000 ∨ 0x2800 ≤ f.addr) : f.apart (statBit lo n) := by
  refine .inl ?_
  simp only [statBit, R.CH_TXSTAT]
  omega

section

variable {s : State} {l : List Nat} {lo : Nat} {cnt : Fld} (hw : RegFile.wf s.regs = true) (hl : ∀ n ∈ l, n < 8)
include hw hl

/-- The channels of a fault that drive are in FAULT with their bit set. -/
theorem State.faultChans_faulted (hlo : lo < 32) (hcnt : 0x2800 ≤ cnt.addr) {k : Ch} (hk : k.val ∈ l)
    (hf : (s.ch k.val).field.live = true) : Faulted lo k.val (s.faultChans l (statBit lo) cnt) := by
  have hc : (statBit lo k.val).apart cnt := .inl fun e => by
    simp only [statBit, R.CH_TXSTAT] at e
    omega
  obtain ⟨hfield, hbit⟩ := State.faultBits_faulted hlo hc hw hl hk hf
  have hs := State.faultChans_spares (lo := lo) (cnt := cnt) hw hl
  exact ⟨(hs.parked k.val (.inr hfield)).trans hfield, (hs.rd _ fun g hg => .inl (faultFlds_txstat g hg k)).trans hbit⟩

/-- A field in OFF stays there. -/
theorem State.faultChans_off {k : Nat} (hk : (s.ch k).field = .off) : ((s.faultChans l (statBit lo) cnt).ch k).field = .off := by
  have hoff := State.faultBits_parked (lo := lo) (cnt := cnt) (l := l) (.inl rfl) hk
  exact ((State.faultChans_spares hw hl).parked k (.inl hoff)).trans hoff

/-- Other fields of registers read as before. -/
theorem State.faultChans_rd {f : Fld} (hf : ∀ g ∈ faultFlds, f.apart g) (hb : f.addr < 0x2000 ∨ 0x2800 ≤ f.addr)
    (hc : f.apart cnt) :
    (s.faultChans l (statBit lo) cnt).rd f = s.rd f :=
  ((State.faultChans_spares hw hl).rd f hf).trans (State.faultBits_rd hw (fun n hn => Fld.apart_statBit (hl n hn) hb) hc)

theorem State.faultChans_syn : (s.faultChans l (statBit lo) cnt).syn = s.syn := by
  refine (State.faultChans_spares hw hl).syn.trans ?_
  refine State.each_induction (P := fun t => t.syn = s.syn) (fun t n ht => ?_) l s rfl
  unfold State.faultChan
  split <;> exact ht

end

/-- The fault of one channel that drives: its bit, its count, and FAULT. -/
theorem State.faultChans_one {s : State} {n : Ch} {lo : Nat} {cnt : Fld} (hw : RegFile.wf s.regs = true)
    (hf : (s.ch n.val).field.live = true) (hlo : lo < 32) (hcnt : 0x2800 ≤ cnt.addr) (hc : cnt.lo + cnt.w ≤ 32)
    (hspare : ∀ g ∈ faultFlds, cnt.apart g) :
    Faulted lo n.val (s.faultChans [n.val] (statBit lo) cnt) ∧ Counts cnt s (s.faultChans [n.val] (statBit lo) cnt) := by
  have hl : ∀ m ∈ [n.val], m < 8 := fun m hm => List.mem_singleton.mp hm ▸ n.isLt
  have hcount := State.faultChan_counts hw hc (Fld.apart_statBit (lo := lo) n.isLt (.inr hcnt)) (FieldState.faultable_of_live hf)
  exact ⟨State.faultChans_faulted hw hl hlo hcnt List.mem_cons_self hf,
    ((State.faultChans_spares hw hl).rd cnt hspare).trans hcount⟩

/-! ## The rail controller (R421) -/

/-- A fault of the rail controller writes its own registers and notices. -/
theorem State.pmbFault_rdWord (s : State) (err : Nat) {a : Nat} (h1 : 0x400 ≤ a) (h2 : a < 0x3600) :
    (s.pmbFault err).rdWord a = s.rdWord a := by
  have hstat : a ≠ R.PMB_STAT := fun e => absurd (e ▸ h2) (by decide)
  have hcnt : a ≠ R.PMB_CNT := fun e => absurd (e ▸ h2) (by decide)
  refine (State.rdWord_notifyAll _ 10 h1).trans ((State.rdWord_bump_other _ _ 1 a hcnt).trans ?_)
  exact (State.rdWord_wr_other hstat).trans (State.rdWord_wr_other hstat)

theorem State.pmbFault_err {s : State} {err : Nat} (hw : RegFile.wf s.regs = true) (herr : err < 16) :
    (s.pmbFault err).rd R.PMB_STAT_ERR = err := by
  let p := s.modPmb fun p => { p with state := .fault, ok := 0, attempts := 0, reads := 0 }
  have hw1 : RegFile.wf (p.wr R.PMB_STAT_ERR err).regs = true := State.wr_wf p _ _ hw
  have hw2 := State.setFlag_wf (p.wr R.PMB_STAT_ERR err) R.PMB_STAT_FAULT_SEEN hw1
  have hnotify := congrArg (getBits · 4 4) (State.rdWord_notifyAll
    (((p.wr R.PMB_STAT_ERR err).setFlag R.PMB_STAT_FAULT_SEEN).bump R.PMB_CNT_N_ERR) 10 (a := R.PMB_STAT) (by decide))
  calc (s.pmbFault err).rd R.PMB_STAT_ERR
    _ = (((p.wr R.PMB_STAT_ERR err).setFlag R.PMB_STAT_FAULT_SEEN).bump R.PMB_CNT_N_ERR).rd R.PMB_STAT_ERR := hnotify
    _ = ((p.wr R.PMB_STAT_ERR err).setFlag R.PMB_STAT_FAULT_SEEN).rd R.PMB_STAT_ERR :=
      State.rd_wr_other _ _ _ _ hw2 (.inl (by decide))
    _ = (p.wr R.PMB_STAT_ERR err).rd R.PMB_STAT_ERR := State.rd_wr_other _ _ _ _ hw1 (.inr (.inl (by decide)))
    _ = err := (State.rd_wr_same p _ _ hw (by decide)).trans (Nat.mod_eq_of_lt herr)

/-! ## The obligation -/

section

variable {s : State} (hw : RegFile.wf s.regs = true)
include hw

theorem leads_overcurrent {n : Ch} (hf : (s.ch n.val).field.live = true) : Leads (.overcurrent n) s fun t =>
    (t.ch n.val).field = .fault ∧ t.rd (R.CH_TXSTAT_OVC n.val) = 1 ∧ Counts R.DIAG_CNT_1_N_OVC s t := by
  obtain ⟨⟨hfield, hbit⟩, hcount⟩ := State.faultChans_one (lo := 8) (cnt := R.DIAG_CNT_1_N_OVC) hw hf (by decide)
    (by decide) (by decide)
    fun g hg => (faultFlds_apart g hg).2.1
  exact ⟨_, rfl, hfield, hbit, hcount⟩

theorem leads_openAntennaCheck {n : Ch} {iMa : Nat}
    (hf : (s.ch n.val).field = .on ∨ (s.ch n.val).field = .mod ∨ (s.ch n.val).field = .rxw)
    (hlow : iMa ^ 2 * s.rd (R.CH_TXLOAD_RL n.val) < s.rd (R.CH_TXLOOP_OPEN_PCT n.val) ^ 2 * s.targetMw n.val) :
    Leads (.openAntennaCheck n iMa) s fun t =>
      (t.ch n.val).field = .fault ∧ t.rd (R.CH_TXSTAT_OPEN n.val) = 1 ∧ Counts R.DIAG_CNT_1_N_OPEN s t := by
  have hlive : (s.ch n.val).field.live = true := by
    rcases hf with e | e | e <;> rw [e] <;> rfl
  obtain ⟨⟨hfield, hbit⟩, hcount⟩ := State.faultChans_one (lo := 9) (cnt := R.DIAG_CNT_1_N_OPEN) hw hlive (by decide) (by decide)
    (by decide) fun g hg => (faultFlds_apart g hg).2.2.1
  refine ⟨_, congrArg Host.Outcome.next (if_pos ?_), hfield, hbit, hcount⟩
  rcases hf with e | e | e <;> simp [hlow, e]

theorem leads_lockLost (hlock : s.syn.state = .locked) : Leads .lockLost s fun t => t.syn.state = .lost
    ∧ t.rd R.SYN_STAT_UNLOCK_SEEN = 1 ∧ Counts R.SYN_LOCKT_LOSSES s t ∧ (∀ p : Port, bitOf (t.pend p.val) 9 = true)
    ∧ ∀ k : Ch, (s.ch k.val).field.live = true → (t.ch k.val).field = .fault ∧ t.rd (R.CH_TXSTAT_SYN_CUT k.val) = 1 := by
  let s1 := (s.setSyn .lost).setFlag R.SYN_STAT_UNLOCK_SEEN
  let s2 := s1.bump R.SYN_LOCKT_LOSSES
  have hw1 : RegFile.wf s1.regs = true := State.setFlag_wf (s.setSyn .lost) _ hw
  have hw2 : RegFile.wf s2.regs = true := State.bump_wf s1 _ 1 hw1
  have hw3 := s2.notifyAll_wf 9 hw2
  have hl : ∀ n ∈ List.range 8, n < 8 := fun n => List.mem_range.mp
  have hrd {f : Fld} (hf : ∀ g ∈ faultFlds, f.apart g) (hb : f.addr < 0x2000 ∨ 0x2800 ≤ f.addr)
      (hc : f.apart R.DIAG_CNT_2_N_SYNCUT) :
      ((s2.notifyAll 9).faultChans (List.range 8) (statBit 12) R.DIAG_CNT_2_N_SYNCUT).rd f = (s2.notifyAll 9).rd f :=
    State.faultChans_rd hw3 hl hf hb hc
  have hhigh {f : Fld} (hf : 0x400 ≤ f.addr) : (s2.notifyAll 9).rd f = s2.rd f :=
    congrArg (getBits · f.lo f.w) (State.rdWord_notifyAll s2 9 hf)
  refine ⟨_, if_neg (by simp [State.locked, hlock]), congrArg SynSt.state (State.faultChans_syn hw3 hl), ?_, ?_, fun p => ?_,
    fun k hk => ?_⟩
  · refine (hrd (fun g hg => (faultFlds_apart g hg).2.2.2.1) (by decide) (by decide)).trans ((hhigh (by decide)).trans ?_)
    exact (State.rd_wr_other s1 _ _ _ hw1 (by decide)).trans
      (State.rd_setFlag_same (s.setSyn .lost) _ hw (by decide) (by decide))
  · refine (hrd (fun g hg => (faultFlds_apart g hg).2.2.2.2) (by decide) (by decide)).trans ((hhigh (by decide)).trans ?_)
    have hcount := counts_bump s1 R.SYN_LOCKT_LOSSES hw1 (by decide)
    rwa [Counts, show s1.rd R.SYN_LOCKT_LOSSES = s.rd R.SYN_LOCKT_LOSSES from
      State.rd_wr_other (s.setSyn .lost) _ _ _ hw (by decide)] at hcount
  · have hpend : _ = (s2.notifyAll 9).pend p.val := hrd (fun g hg => (faultFlds_apart g hg).1 p)
      (.inl (by simp only [R.HOST_NPEND_PEND, R.HOST_NPEND]; omega)) (.inl (by
        simp only [R.HOST_NPEND_PEND, R.HOST_NPEND, R.DIAG_CNT_2_N_SYNCUT, R.DIAG_CNT_2]; omega))
    exact (congrArg (bitOf · 9) hpend).trans (s2.pend_notifyAll (by decide) hw2 p)
  · exact State.faultChans_faulted hw3 hl (by decide) (by decide) (List.mem_range.mpr k.isLt) hk

theorem leads_vtxlow {pair : Fin 4} (hex : ∃ k : Ch, k.val / 2 = pair.val ∧ (s.ch k.val).field.live = true) :
    Leads (.vtxlow pair) s fun t =>
      (∀ k : Ch, k.val / 2 = pair.val → (s.ch k.val).field.live = true →
        (t.ch k.val).field = .fault ∧ t.rd (R.CH_TXSTAT_VTXLOW k.val) = 1)
      ∧ (∀ k : Ch, k.val / 2 = pair.val → (s.ch k.val).field = .off → (t.ch k.val).field = .off)
      ∧ (s.pmb.state ≠ .off → s.pmb.state ≠ .fault → t.pmb.state = .fault ∧ t.pmb.ok = 0 ∧ t.rd R.PMB_STAT_ERR = 7) := by
  let l := [2 * pair.val, 2 * pair.val + 1]
  let u := s.faultChans l (statBit 10) R.DIAG_CNT_2_N_VTXLOW
  have hpair {k : Ch} (hk : k.val / 2 = pair.val) : k.val ∈ l := by
    simp only [l, List.mem_cons, List.not_mem_nil, or_false]
    omega
  have hl : ∀ n ∈ l, n < 8 := by
    simp only [l, List.mem_cons, List.not_mem_nil, or_false]
    omega
  have hwu : RegFile.wf u.regs = true := (State.faultChans_spares hw hl).wf
  have hfault (k : Ch) (hk : k.val / 2 = pair.val) (hf : (s.ch k.val).field.live = true) : Faulted 10 k.val u :=
    State.faultChans_faulted hw hl (by decide) (by decide) (hpair hk) hf
  have hoff (k : Ch) (_ : k.val / 2 = pair.val) (h : (s.ch k.val).field = .off) : (u.ch k.val).field = .off :=
    State.faultChans_off hw hl h
  obtain ⟨k, hk, hf⟩ := hex
  have he : exec (.vtxlow pair) s = .next (if s.pmb.state == .off || s.pmb.state == .fault then u else u.pmbFault 7) :=
    if_pos (List.any_eq_true.mpr ⟨k.val, hpair hk, FieldState.faultable_of_live hf⟩)
  by_cases hp : (s.pmb.state == .off || s.pmb.state == .fault) = true
  · refine ⟨u, he.trans (congrArg Host.Outcome.next (if_pos hp)), hfault, hoff, fun h1 h2 => ?_⟩
    simp [h1, h2] at hp
  · refine ⟨u.pmbFault 7, he.trans (congrArg Host.Outcome.next (if_neg hp)), fun k hk hf => ?_, hoff, fun _ _ => ?_⟩
    · obtain ⟨hfield, hbit⟩ := hfault k hk hf
      have hk8 := k.isLt
      refine ⟨hfield, (congrArg (getBits · 10 1) (u.pmbFault_rdWord 7 ?_ ?_)).trans hbit⟩
      · simp only [R.CH_TXSTAT_VTXLOW, R.CH_TXSTAT]
        omega
      · simp only [R.CH_TXSTAT_VTXLOW, R.CH_TXSTAT]
        omega
    · exact ⟨rfl, rfl, State.pmbFault_err hwu (by decide)⟩

end

/-- Settles O31: each clause is the law of its fault above; a channel drives where R51 acts on it. -/
theorem channelFaults : Obligations.ChannelFaults := by
  unfold Obligations.ChannelFaults
  intro s n iMa pair hc m f drives
  have hw := State.canon_regs hc
  simp only [drives, ← FieldState.live_iff]
  exact ⟨leads_overcurrent hw, leads_openAntennaCheck hw, leads_vtxlow hw, leads_lockLost hw⟩

end Sys2Proof.Machine
end

section
/-!
PROOFS. The fault of a sequencer (R245): the job ends, and what that leaves of its sequencer and of its record.
-/

namespace Sys2Proof.Machine

/-! ## Sequencers -/

section

variable {s : State} {n : Nat} {q : Seq}

theorem State.seq_each {α : Type} {l : List α} {g : State → α → State} (hg : ∀ t a, (t.ch n).seq = q → ((g t a).ch n).seq = q)
    (h : (s.ch n).seq = q) : ((s.each l g).ch n).seq = q := State.each_induction (P := fun t => (t.ch n).seq = q) hg l s h

/-- A field that falls leaves the sequencers. -/
theorem State.stopField_seq (s : State) (m n : Nat) : ((s.stopField m).ch n).seq = (s.ch n).seq := by
  unfold State.stopField
  split
  · exact (State.ch_modCh_keeps Chan.seq rfl n).trans (State.ch_modCh_keeps Chan.seq rfl n)
  all_goals exact State.ch_modCh_keeps Chan.seq rfl n

theorem State.stopFields_seq (s : State) (m : BitVec 8) : ((s.stopFields m).ch n).seq = (s.ch n).seq :=
  State.seq_each (fun t m ht => (t.stopField_seq m n).trans ht) rfl

theorem State.reserveBeats_seq (s : State) (m a b : Nat) : ((s.reserveBeats m a b).ch n).seq = (s.ch n).seq := by
  unfold State.reserveBeats
  split
  · rfl
  · exact State.seq_each (fun t m ht => (State.ch_modCh_keeps Chan.seq (Chan.reserve_keeps _ _ _ _).2 n).trans ht) rfl

theorem State.endExchange_seq (s : State) (m : Nat) : ((s.endExchange m).ch n).seq = (s.ch n).seq := by
  unfold State.endExchange
  split
  · rfl
  extract_lets wcx stop isLate s0 s1 s2
  have h0 : (s0.ch n).seq = (s.ch n).seq := by
    unfold s0
    split
    · exact s.reserveBeats_seq m _ _
    · rfl
  have h1 : (s1.ch n).seq = (s0.ch n).seq := by
    unfold s1
    split <;> rfl
  have h2 : (s2.ch n).seq = (s1.ch n).seq := State.ch_modCh_keeps Chan.seq rfl n
  have h := h2.trans (h1.trans h0)
  split
  · exact h
  split <;> exact h

end

/-! ## The jobs of the device -/

/-- The job with a serial number is in the list, and it is as `p` says. -/
def State.HasJob (s : State) (id : Nat) (p : Job → Prop) : Prop := ∃ k, s.job? id = some k ∧ p k

section

variable {s : State} {id : Nat} {p : Job → Prop}

theorem State.HasJob.same {t : State} (h : s.HasJob id p) (hj : t.jobs = s.jobs) : t.HasJob id p := by
  rwa [State.HasJob, State.job?, hj]

/-- A change of the job itself. -/
theorem State.HasJob.modJob_same {q : Job → Prop} {g : Job → Job} (h : s.HasJob id p)
    (hg : ∀ k, (g k).id = k.id ∧ (p k → q (g k))) :
    (s.modJob id g).HasJob id q := by
  obtain ⟨k, hk, hp⟩ := h
  exact ⟨g k, (State.job?_modJob fun k => (hg k).1).trans (congrArg (Option.map g) hk), (hg k).2 hp⟩

/-- A change of jobs that leaves serial numbers and what is asked of the job. -/
theorem State.HasJob.modJob {i : Nat} {g : Job → Job} (hg : ∀ k, (g k).id = k.id ∧ (p k → p (g k))) (h : s.HasJob id p) :
    (s.modJob i g).HasJob id p := by
  by_cases e : i = id
  · exact e ▸ (e ▸ h : s.HasJob i p).modJob_same hg
  obtain ⟨k, hk, hp⟩ := h
  have hf : ((fun k : Job => k.id == id) ∘ fun k => if k.id = i then g k else k) = fun k => k.id == id := by
    funext k
    simp only [Function.comp_apply]
    split
    · rw [(hg k).1]
    · rfl
  refine ⟨k, ?_, hp⟩
  change (s.jobs.map _).find? _ = _
  rw [List.find?_map, hf]
  have hid : ¬ k.id = i := by
    have := List.find?_some hk
    simp only [beq_iff_eq] at this
    exact fun h => e (h.symm.trans this)
  exact (congrArg (Option.map _) hk).trans (congrArg some (if_neg hid))

theorem State.HasJob.each {α : Type} {l : List α} {g : State → α → State} (hg : ∀ t a, t.HasJob id p → (g t a).HasJob id p)
    (h : s.HasJob id p) : (s.each l g).HasJob id p := State.each_induction hg l s h

theorem State.stopField_jobs (s : State) (m : Nat) : (s.stopField m).jobs = s.jobs := by
  unfold State.stopField
  split <;> rfl

theorem State.HasJob.stopFields {m : BitVec 8} (h : s.HasJob id p) : (s.stopFields m).HasJob id p :=
  .each (fun t n ht => ht.same (t.stopField_jobs n.val)) h

theorem State.reserveBeats_jobs (s : State) (m a b : Nat) : (s.reserveBeats m a b).jobs = s.jobs := by
  unfold State.reserveBeats
  split
  · rfl
  · exact State.each_induction (P := fun t => t.jobs = s.jobs) (g := fun t (m : Ch) => t.modCh m.val fun c => c.reserve t.beatNs a b)
      (fun _ _ h => h) _ s rfl

/-- The exchanges that a job counts are no part of what is asked. -/
theorem State.HasJob.endExchange {m : Nat} (hp : ∀ (k : Job) (a b : Nat), p k → p { k with exchBeat := a, exchAll := b })
    (h : s.HasJob id p) : (s.endExchange m).HasJob id p := by
  unfold State.endExchange
  split
  · exact h
  extract_lets wcx stop isLate s0 s1 s2
  have h0 : s0.HasJob id p := by
    unfold s0
    split
    · exact h.same (s.reserveBeats_jobs m _ _)
    · exact h
  have h2 : s2.HasJob id p := by
    refine h0.same (?_ : s1.jobs = s0.jobs)
    unfold s1
    split <;> rfl
  split
  · exact h2
  split
  · exact h2
  · exact .modJob (fun k => ⟨rfl, hp k _ _⟩) h2

end

section

variable {s : State} {id : Nat}

theorem State.HasJob.sendLate {i : Nat} {l : List Sighting} (h : s.HasJob id fun _ => True) :
    (s.sendLate i l).HasJob id fun _ => True := by
  have h1 : (s.modJob i fun j => { j with late := j.late ++ l }).HasJob id fun _ => True := .modJob (fun _ => ⟨rfl, fun h => h⟩) h
  unfold State.sendLate State.enqueueLate
  split
  · exact h1
  · exact .modJob (fun _ => ⟨rfl, fun h => h⟩) (h1.same rfl)

theorem State.HasJob.releaseHeld {n i : Nat} (h : s.HasJob id fun _ => True) : (s.releaseHeld n i).HasJob id fun _ => True := by
  unfold State.releaseHeld
  split
  · exact h
  split
  · exact h.same rfl
  · exact .sendLate (h.same rfl)

theorem State.HasJob.releaseFound {n i : Nat} (h : s.HasJob id fun _ => True) : (s.releaseFound n i).HasJob id fun _ => True :=
  .sendLate (h.same rfl)

end

/-! ## The end of a job -/

/-- How a job ended, in the terms of R22. -/
def Job.EndsWith (rc : Byte) (part : Bool) (detail : BitVec 16) (k : Job) : Prop :=
  ∃ e, k.ended = some e ∧ e.rc = rc ∧ e.part = part ∧ e.receipt = false ∧ e.detail = detail

/-- The end of a job stops its sequencer and leaves its record. -/
theorem State.endRunning_spec {s : State} {j : Job} {rc : Byte} {part : Bool} {detail : BitVec 16} (hj : s.HasJob j.id fun _ => True) :
    ((s.endRunning j rc part detail).ch j.lead).seq.run = .idle
      ∧ (s.endRunning j rc part detail).HasJob j.id (Job.EndsWith rc part detail) := by
  unfold State.endRunning
  extract_lets n s0 q items record st s1 s2 s3
  have h0 : s0.HasJob j.id fun _ => True := .releaseFound (.releaseHeld hj)
  have h2 : s2.HasJob j.id (Job.EndsWith rc part detail) := by
    refine .same (s := s1) ?_ rfl
    exact h0.modJob_same fun _ => ⟨rfl, fun _ => ⟨record, rfl, rfl, rfl, rfl, rfl⟩⟩
  have hidle : (s2.ch n).seq.run = .idle := congrArg (fun c : Chan => c.seq.run) (State.ch_modCh_same s1 n _ (leadOf_lt j.mask))
  obtain ⟨h3, hseq⟩ : s3.HasJob j.id (Job.EndsWith rc part detail) ∧ (s3.ch n).seq = (s2.ch n).seq := by
    unfold s3
    split
    · exact ⟨.endExchange (fun _ _ _ h => h) h2, s2.endExchange_seq n⟩
    · exact ⟨h2, rfl⟩
  refine ⟨?_, .stopFields (.each (fun _ _ h => h.same rfl) h3)⟩
  have hclear := State.seq_each (l := maskList j.mask) (g := fun s (m : Ch) => s.clearFifos m.val)
    (fun t m ht => (State.ch_modCh_keeps Chan.seq rfl n).trans ht) hseq
  exact (congrArg Seq.run ((State.stopFields_seq _ j.mask).trans hclear)).trans hidle

/-! ## The fault of a sequencer (R245) -/

/-- The end of a job writes nothing of a fault that was recorded. -/
theorem endFlds_apart : ∀ g ∈ endFlds, ∀ n : Ch, (R.CSQ_FAULT_FCODE n.val).apart g ∧ (R.CSQ_FAULT_FPC n.val).apart g
    ∧ (R.CSQ_FAULT_FSEEN n.val).apart g ∧ (R.CSQ_CNT_N_FAULT n.val).apart g := by decide

/-- A fault is recorded and counted before its job ends. -/
def State.noteSeqFault (s : State) (n : Nat) (code : Byte) : State :=
  (((s.wr (R.CSQ_FAULT_FCODE n) code.toNat).wr (R.CSQ_FAULT_FPC n) (s.ch n).seq.pc.toNat).setFlag (R.CSQ_FAULT_FSEEN n)).bump
    (R.CSQ_CNT_N_FAULT n)

theorem State.noteSeqFault_wf {s : State} {n : Nat} {code : Byte} (h : RegFile.wf s.regs = true) :
    RegFile.wf (s.noteSeqFault n code).regs = true :=
  State.bump_wf _ _ 1 (State.setFlag_wf _ _ (State.wr_wf _ _ _ (s.wr_wf _ _ h)))

theorem State.noteSeqFault_rd {s : State} {n : Nat} {code : Byte} (h : RegFile.wf s.regs = true) :
    let t := s.noteSeqFault n code
    t.rd (R.CSQ_FAULT_FCODE n) = code.toNat ∧ t.rd (R.CSQ_FAULT_FPC n) = (s.ch n).seq.pc.toNat ∧ t.rd (R.CSQ_FAULT_FSEEN n) = 1
      ∧ Counts (R.CSQ_CNT_N_FAULT n) s t := by
  let s1 := s.wr (R.CSQ_FAULT_FCODE n) code.toNat
  let s2 := s1.wr (R.CSQ_FAULT_FPC n) (s.ch n).seq.pc.toNat
  let s3 := s2.setFlag (R.CSQ_FAULT_FSEEN n)
  have h1 : RegFile.wf s1.regs = true := s.wr_wf _ _ h
  have h2 : RegFile.wf s2.regs = true := s1.wr_wf _ _ h1
  have h3 : RegFile.wf s3.regs = true := s2.setFlag_wf _ h2
  have hne : R.CSQ_FAULT n ≠ R.CSQ_CNT n := by
    simp only [R.CSQ_FAULT, R.CSQ_CNT]
    omega
  have hb {f : Fld} (hf : f.addr = R.CSQ_FAULT n) : (s.noteSeqFault n code).rd f = s3.rd f :=
    s3.rd_wr_other _ f _ h3 (.inl fun e => hne (hf.symm.trans e))
  refine ⟨?_, ?_, ?_, ?_⟩
  · refine (hb rfl).trans ((s2.rd_wr_other _ _ 1 h2 (.inr (.inl (Nat.le_of_ble_eq_true rfl)))).trans ?_)
    refine (s1.rd_wr_other _ _ _ h1 (.inr (.inl (Nat.le_of_ble_eq_true rfl)))).trans ?_
    exact (s.rd_wr_same _ _ h (Nat.le_of_ble_eq_true rfl)).trans (Nat.mod_eq_of_lt code.isLt)
  · refine (hb rfl).trans ((s2.rd_wr_other _ _ 1 h2 (.inr (.inl (Nat.le_of_ble_eq_true rfl)))).trans ?_)
    exact (s1.rd_wr_same _ _ h1 (Nat.le_of_ble_eq_true rfl)).trans (Nat.mod_eq_of_lt (s.ch n).seq.pc.isLt)
  · exact (hb rfl).trans (s2.rd_setFlag_same _ h2 (Nat.le_of_ble_eq_true rfl) Nat.one_ne_zero)
  · have hcount := counts_bump s3 (R.CSQ_CNT_N_FAULT n) h3 (Nat.le_of_ble_eq_true rfl)
    have hother {t : State} {f : Fld} {v : Nat} (ht : RegFile.wf t.regs = true) (hf : f.addr = R.CSQ_FAULT n) :
        (t.wr f v).rd (R.CSQ_CNT_N_FAULT n) = t.rd (R.CSQ_CNT_N_FAULT n) :=
      t.rd_wr_other f _ v ht (.inl fun e => hne (e.trans hf).symm)
    rwa [Counts, show s3.rd (R.CSQ_CNT_N_FAULT n) = s.rd (R.CSQ_CNT_N_FAULT n) from
      (hother h2 rfl).trans ((hother h1 rfl).trans (hother h rfl))] at hcount

/-- A fault of the sequencer of a running job, in a state that has its registers, its PC and its jobs from `s`. -/
theorem faultTo_seqFault {s u : State} {n : Ch} {j : Job} (code : Byte) (hw : RegFile.wf u.regs = true)
    (hpc : (u.ch n.val).seq.pc = (s.ch n.val).seq.pc) (hcnt : u.rd (R.CSQ_CNT_N_FAULT n.val) = s.rd (R.CSQ_CNT_N_FAULT n.val))
    (hlead : u.jobLead n.val = some j) (hj : u.job? j.id = some j) (hrun : j.state = .running) (hend : j.ended = none) :
    FaultTo n s j code.toNat (u.seqFault n.val code) := by
  obtain ⟨-, hn⟩ := State.jobLead_spec hlead
  let v := u.noteSeqFault n.val code
  have hv : RegFile.wf v.regs = true := State.noteSeqFault_wf hw
  have heq : u.seqFault n.val code = v.endRunning j rcFault true (code.setWidth 16) := by
    have hj' : v.job? j.id = some j := hj
    rw [State.seqFault, hlead]
    change v.endJob j.id rcFault true (code.setWidth 16) = _
    simp only [State.endJob, hj', hrun, hend]
  obtain ⟨hcode, hfpc, hseen, hcount⟩ := State.noteSeqFault_rd (n := n.val) (code := code) hw
  have hkept : Spares endFlds v (u.seqFault n.val code) := heq ▸ .endRunning (fun _ h => h) (.refl hv)
  obtain ⟨hidle, k, hk, e, he, hrc, hpart, hreceipt, hdetail⟩ := State.endRunning_spec (s := v) (rc := rcFault) (part := true)
    (detail := code.setWidth 16) ⟨j, hj, trivial⟩
  rw [← heq] at hidle hk
  have hsame := fun g hg => endFlds_apart g hg n
  rw [hn] at hidle
  refine ⟨(hkept.rd _ fun g hg => (hsame g hg).1).trans hcode,
    (hkept.rd _ fun g hg => (hsame g hg).2.1).trans (hfpc.trans (congrArg _ hpc)),
    (hkept.rd _ fun g hg => (hsame g hg).2.2.1).trans hseen, ?_, hidle, k, e, hk, he, hrc, hpart, hreceipt, ?_⟩
  · rw [Counts, hcnt] at hcount
    exact (hkept.rd _ fun g hg => (hsame g hg).2.2.2).trans hcount
  · rw [hdetail]
    exact BitVec.eq_of_toNat_eq (by simp)

end Sys2Proof.Machine
end

section
/-!
PROOFS. The state in which an air instruction acts: the instruction is counted, and of the rest of the device nothing that such an
instruction reads has changed.
-/

namespace Sys2Proof.Machine

/-! ## The job that a sequencer runs -/

/-- A sequencer that executes leads its job, which runs and has not ended. -/
theorem State.runsOn_spec {s : State} {n : Nat} {j : Job} (h : s.runsOn n = some j) :
    s.jobLead n = some j ∧ j.state = .running ∧ j.ended = none := by
  unfold State.runsOn at h
  split at h
  · cases h
  next k hk =>
    split at h
    next hc =>
      cases h
      simp only [Bool.and_eq_true, beq_iff_eq, Option.isNone_iff_eq_none] at hc
      obtain ⟨⟨hrun, hend⟩, -⟩ := hc
      exact ⟨hk, hrun, hend⟩
    · cases h

/-- The lead of a job is a channel of its mask. -/
theorem State.mem_mask_of_jobLead {s : State} {n : Ch} {j : Job} (h : s.jobLead n.val = some j) : n ∈ maskList j.mask := by
  have hp := List.find?_some h
  simp only [Bool.and_eq_true, beq_iff_eq] at hp
  obtain ⟨⟨-, hbit⟩, -⟩ := hp
  exact List.mem_filter.mpr ⟨List.mem_finRange n, hbit⟩

/-! ## The counted state -/

/-- The state in which the body of an instruction that yields runs: it is fetched and counted. -/
def State.counted (s : State) (n : Ch) (j : Job) : State := (s.touchLine j (s.ch n.val).seq.pc).countInstr n.val true

section

variable (s : State) (n : Ch) (j : Job)

theorem State.counted_ch_same : (s.counted n j).ch n.val = { s.ch n.val with seq := (s.ch n.val).seq.counted true } := by
  rw [State.counted, State.countInstr_ch_same, State.touchLine_ch]

/-- Of the channels only the counts of the sequencer change. -/
theorem State.counted_chan {α : Type} (p : Chan → α) (hp : ∀ c q, p { c with seq := q } = p c) (m : Nat) :
    p ((s.counted n j).ch m) = p (s.ch m) := by
  by_cases hm : m = n.val
  · rw [hm, s.counted_ch_same, hp]
  · rw [State.counted, State.countInstr_ch_other _ _ hm, State.touchLine_ch]

theorem State.counted_outside : (s.counted n j).outside = s.outside := by
  rw [State.counted, State.countInstr_outside, State.touchLine_outside]

@[simp] theorem State.counted_jobs : (s.counted n j).jobs = s.jobs := (congrArg State.jobs (s.counted_outside n j) :)
@[simp] theorem State.counted_syn : (s.counted n j).syn = s.syn := (congrArg State.syn (s.counted_outside n j) :)
@[simp] theorem State.counted_sram : (s.counted n j).sram = s.sram := (congrArg State.sram (s.counted_outside n j) :)

theorem State.counted_locked : (s.counted n j).locked = s.locked := by rw [State.locked, State.locked, s.counted_syn]

@[simp] theorem State.counted_jobLead (m : Nat) : (s.counted n j).jobLead m = s.jobLead m := by
  rw [State.jobLead, State.jobLead, s.counted_jobs]

@[simp] theorem State.counted_team (m : Nat) : (s.counted n j).team m = s.team m := by
  rw [State.team, State.team, State.jobOn, State.jobOn, s.counted_jobs]

theorem State.counted_teamAll (p : Nat → Chan → Bool) (hp : ∀ m c q, p m { c with seq := q } = p m c) (m : Nat) :
    (s.counted n j).teamAll m p = s.teamAll m p := by
  simp only [State.teamAll, s.counted_team, fun k => s.counted_chan n j (p k) (hp k) k]

theorem State.counted_teamFault (m : Nat) : (s.counted n j).teamFault m = s.teamFault m := by
  simp only [State.teamFault, s.counted_team, fun k => s.counted_chan n j Chan.field (fun _ _ => rfl) k]

theorem State.counted_rdWord {a : Nat} (h : a ≠ R.CSQ_YMAX n.val) : (s.counted n j).rdWord a = s.rdWord a := by
  rw [State.counted, State.countInstr_rdWord _ _ _ _ h]
  exact State.rdWord_of_regs (s.touchLine_regs _ _) a

theorem State.counted_wf (h : RegFile.wf s.regs = true) : RegFile.wf (s.counted n j).regs = true :=
  State.keepMax_wf _ _ _ ((s.touchLine_regs j _).symm ▸ h)

end

/-! ## Air instructions that execute -/

section

variable {s : State} {n : Ch} {w : Nat} {j : Job}

/-- Outside wind-up, an air instruction that executes runs its body on the counted state. -/
theorem State.instr_air (h : Executes s n w j) (hw : (s.ch n.val).seq.windup = false) (wind : Seq → Seq)
    (body : State → Job → State) :
    s.instr n.val w true (State.airBody n.val wind body) = body (s.counted n j) j := by
  rw [State.instr_eq h]
  refine if_neg ?_
  rw [← State.counted, s.counted_ch_same]
  exact Bool.not_eq_true _ ▸ hw

/-- A sequencer that goes on with its next instruction. -/
theorem seqTo_resume (h : Executes s n w j) :
    SeqTo n s { (s.ch n.val).seq with pc := (s.ch n.val).seq.pc + 1 } ((s.counted n j).modSeq n.val Seq.resume) :=
  seqTo_modSeq s n j true Seq.resume _ (by simp [Seq.core, Seq.resume, Seq.counted, h.run]) rfl

/-- A fault that an instruction takes after changes of other registers and channels. -/
theorem faultTo_of_executes {u : State} (h : Executes s n w j) (hj : s.job? j.id = some j) (code : Byte)
    (hjobs : u.jobs = s.jobs) (hwf : RegFile.wf u.regs = true)
    (hcnt : u.rd (R.CSQ_CNT_N_FAULT n.val) = (s.counted n j).rd (R.CSQ_CNT_N_FAULT n.val))
    (hpc : (u.ch n.val).seq = ((s.counted n j).ch n.val).seq) : FaultTo n s j code.toNat (u.seqFault n.val code) := by
  obtain ⟨hlead, hrun, hend⟩ := State.runsOn_spec h.runs
  refine faultTo_seqFault code hwf ?_ (hcnt.trans ?_) ?_ ?_ hrun hend
  · rw [hpc, s.counted_ch_same]
    rfl
  · rw [State.rd, State.rd, s.counted_rdWord n j]
    simp only [R.CSQ_CNT_N_FAULT, R.CSQ_CNT, R.CSQ_YMAX]
    omega
  · rwa [State.jobLead, hjobs]
  · rwa [State.job?, hjobs]

/-- A fault that an instruction takes at once. -/
theorem faultTo_counted (h : Executes s n w j) (hc : s.canon = true) (hj : s.job? j.id = some j) (code : Byte) :
    FaultTo n s j code.toNat ((s.counted n j).seqFault n.val code) :=
  faultTo_of_executes h hj code (s.counted_jobs n j) (s.counted_wf n j (State.canon_regs hc)) rfl rfl

end

/-! ## Operations on each of some channels -/

/-- What each step of a run makes true for its own member and keeps for the others, the run makes true for every member. -/
theorem State.each_spec {α : Type} {I : State → Prop} {P : α → State → Prop} {g : State → α → State} :
    ∀ {l : List α} {s : State}, (∀ t, ∀ a ∈ l, I t → I (g t a) ∧ P a (g t a)) →
      (∀ t, ∀ a ∈ l, ∀ b, I t → P b t → P b (g t a)) → I s →
      I (s.each l g) ∧ ∀ a ∈ l, P a (s.each l g)
  | [], _, _, _, h => ⟨h, fun _ ha => absurd ha List.not_mem_nil⟩
  | a :: l, s, hg, hk, h => by
    obtain ⟨hi, ha⟩ := hg s a List.mem_cons_self h
    obtain ⟨hI, hl⟩ := State.each_spec (l := l) (s := g s a) (fun t b hb => hg t b (List.mem_cons_of_mem a hb))
      (fun t b hb => hk t b (List.mem_cons_of_mem a hb)) hi
    refine ⟨hI, fun b hb => ?_⟩
    rcases List.mem_cons.mp hb with rfl | hb
    · exact (State.each_induction_mem (P := fun t => I t ∧ P b t) (fun t c hc ht =>
        ⟨(hg t c (List.mem_cons_of_mem b hc) ht.1).1, hk t c (List.mem_cons_of_mem b hc) b ht.1 ht.2⟩) ⟨hi, ha⟩).2
    · exact hl b hb

end Sys2Proof.Machine
end

section
/-!
PROOFS. FON and FOFF: the transitions of the field that they ask for, and their refusals (R49, R191, R225, R226).
-/

namespace Sys2Proof.Machine

/-! ## Members -/

/-- The first channel of a mask is its lead. -/
theorem maskList_headD (m : BitVec 8) : ((maskList m).map fun c => c.val).headD (leadOf m) = leadOf m := by
  let o := ((List.finRange 8).find? fun i => bitOf m.toNat i.val).map Fin.val
  have hrange : List.range 8 = (List.finRange 8).map Fin.val := by decide
  have hlead : leadOf m = o.getD 0 := by
    rw [leadOf, hrange, List.find?_map]
    rfl
  have hhead : ((maskList m).map fun c => c.val).headD (leadOf m) = o.getD (leadOf m) := by
    rw [List.headD_eq_head?_getD, List.head?_map, maskList, List.head?_filter]
  rw [hhead, hlead]
  cases o <;> rfl

section

variable {s : State} {n : Nat} {j : Job}

theorem State.team_of_jobOn (h : s.jobOn n = some j) (hg : j.group = none) : s.team n = [n] := by
  rw [State.team, h]
  simp [hg]

theorem State.team_of_swarm (h : s.jobOn n = some j) (hg : j.group ≠ none) : s.team n = (maskList j.mask).map fun c => c.val := by
  rw [State.team, h]
  exact if_pos (Option.isSome_iff_ne_none.mpr hg)

/-- The channels that move with one are given by the jobs. -/
theorem State.team_of_jobs {t : State} (h : t.jobs = s.jobs) (m : Nat) : t.team m = s.team m := by
  rw [State.team, State.team, State.jobOn, State.jobOn, h]

/-- The lead of a swarm job leads its members. -/
theorem State.leadAt_of_jobLead (h : s.jobOn n = some j) (hl : s.jobLead n = some j) : s.leadAt n = n := by
  rw [State.leadAt]
  by_cases hg : j.group = none
  · rw [State.team_of_jobOn h hg]
    rfl
  · obtain ⟨-, hn⟩ := State.jobLead_spec hl
    rw [State.team_of_swarm h hg]
    exact hn ▸ maskList_headD j.mask

/-- The lead of a job is one of the channels that move with it. -/
theorem State.mem_team {n : Ch} (h : s.jobOn n.val = some j) (hl : s.jobLead n.val = some j) : n.val ∈ s.team n.val := by
  by_cases hg : j.group = none
  · rw [State.team_of_jobOn h hg]
    exact List.mem_singleton_self _
  · rw [State.team_of_swarm h hg]
    exact List.mem_map_of_mem (State.mem_mask_of_jobLead hl)

/-- A test that the lead fails is not passed by every member. -/
theorem State.teamAll_false {n m : Nat} {p : Nat → Chan → Bool} (hm : m ∈ s.team n) (hp : p m (s.ch m) = false) :
    s.teamAll n p = false := by
  rw [Bool.eq_false_iff]
  intro h
  rw [List.all_eq_true.mp h m hm] at hp
  cases hp

theorem State.teamAll_iff {n : Nat} {p : Nat → Chan → Bool} : s.teamAll n p = true ↔ ∀ m ∈ s.team n, p m (s.ch m) = true :=
  List.all_eq_true

theorem State.teamAll_single {n : Nat} {p : Nat → Chan → Bool} (h : s.team n = [n]) : s.teamAll n p = p n (s.ch n) := by
  rw [State.teamAll, h]
  exact Bool.and_true _

theorem State.teamFault_false {x : FieldState} (hx : x ≠ .fault) (h : ∀ m ∈ s.team n, (s.ch m).field = x) :
    s.teamFault n = false := by
  rw [State.teamFault, List.any_eq_false]
  intro m hm
  rw [h m hm]
  simpa using hx

end

/-! ## The start of a ramp -/

section

variable {s : State} {n : Nat}

theorem State.startRamp_ch (hn : n < 8) : ((s.startRamp n).ch n).field = .ramp ∧ ((s.startRamp n).ch n).seq = (s.ch n).seq := by
  rw [State.startRamp, State.ch_modCh_same _ n _ hn]
  exact ⟨rfl, rfl⟩

/-- A request on a channel that moves alone, off and with nothing pending, starts its ramp once the synthesiser is locked. -/
theorem State.tryRamp_single (ht : s.team n = [n]) (hoff : (s.ch n).field = .off) (hwant : (s.ch n).wantOn = true)
    (hpend : (s.ch n).antPend = false) (hlock : s.locked = true) : s.tryRamp n = s.startRamp n := by
  have hlead : s.leadAt n = n := by
    rw [State.leadAt, ht]
    rfl
  rw [State.tryRamp, hlead]
  simp only [State.teamAll_single ht, hoff, hwant, hpend, hlock, ht]
  rfl

/-- A request waits while a position is pending. -/
theorem State.tryRamp_pending (hl : s.leadAt n = n) (hm : n ∈ s.team n) (hpend : (s.ch n).antPend = true) : s.tryRamp n = s := by
  have hno : s.teamAll n (fun _ c => c.field == .off && c.wantOn && !c.antPend) = false := State.teamAll_false hm (by simp [hpend])
  unfold State.tryRamp
  simp only [hl, hno]
  rfl

end

/-! ## The request of a field-on -/

/-- Field-on is asked of each channel of a list. -/
def State.wantFields (s : State) (l : List Nat) : State := s.each l fun s m => s.modCh m fun c => { c with wantOn := true }

/-- The positions of a group are asked of each channel of a list (R191). -/
def State.askGroup (s : State) (g : Nat) (l : List Nat) : State := s.each l fun s m => s.requestAnt m (s.groupPos g m) true

section

variable {s : State} {n : Nat} {j : Job}

/-- Channels of which field-on is asked want it; registers and jobs stay. -/
theorem State.wantFields_spec {l : List Nat} (hl : ∀ m ∈ l, m < 8) : ((s.wantFields l).regs = s.regs ∧ (s.wantFields l).jobs = s.jobs)
    ∧ ∀ m ∈ l, ((s.wantFields l).ch m).wantOn = true := by
  refine State.each_spec (I := fun t => t.regs = s.regs ∧ t.jobs = s.jobs) (P := fun m t => (t.ch m).wantOn = true)
    (fun t m hm ht => ⟨ht, congrArg Chan.wantOn (t.ch_modCh_same m _ (hl m hm))⟩) (fun t m hm k _ hk => ?_) ⟨rfl, rfl⟩
  by_cases e : k = m
  · exact e ▸ congrArg Chan.wantOn (t.ch_modCh_same m _ (hl m hm))
  · exact (congrArg Chan.wantOn (t.ch_modCh_other _ e)).trans hk

/-- A position request leaves the registers of other channels, and what a group asks. -/
theorem State.requestAnt_rdWord_other (s : State) (m pos : Nat) (en : Bool) {a : Nat} (ha : a ≠ R.CH_ANT m) :
    (s.requestAnt m pos en).rdWord a = s.rdWord a := by
  let s1 := s.wr (R.CH_ANT_POS m) pos
  rw [State.requestAnt, State.rdWord_of_regs (State.modCh_regs (s1.wr (R.CH_ANT_EN m) en.toNat) m _)]
  exact (State.rdWord_wr_other ha).trans (State.rdWord_wr_other ha)

/-- A position request leaves of a channel all but the wait for the bus. -/
theorem State.requestAnt_ch_keeps {α : Type} (s : State) (m pos : Nat) (en : Bool) (p : Chan → α)
    (hp : ∀ c : Chan, p { c with antWait := true } = p c) (k : Nat) : p ((s.requestAnt m pos en).ch k) = p (s.ch k) :=
  State.ch_modCh_keeps p (hp _) k

theorem State.askGroup_spec {l : List Nat} (g : Fin 4) (hw : RegFile.wf s.regs = true) (hl : ∀ m ∈ l, m < 8) :
    (RegFile.wf (s.askGroup g.val l).regs = true ∧ (s.askGroup g.val l).rdWord (R.SWARM_GPOS g.val) = s.rdWord (R.SWARM_GPOS g.val)
        ∧ (s.askGroup g.val l).jobs = s.jobs ∧ ∀ k, ((s.askGroup g.val l).ch k).wantOn = (s.ch k).wantOn)
      ∧ ∀ m ∈ l, ((s.askGroup g.val l).ch m).antWait = true
        ∧ (s.askGroup g.val l).rd (R.CH_ANT_POS m) = s.groupPos g.val m := by
  refine State.each_spec
    (I := fun t => RegFile.wf t.regs = true ∧ t.rdWord (R.SWARM_GPOS g.val) = s.rdWord (R.SWARM_GPOS g.val) ∧ t.jobs = s.jobs
      ∧ ∀ k, (t.ch k).wantOn = (s.ch k).wantOn)
    (P := fun m t => (t.ch m).antWait = true ∧ t.rd (R.CH_ANT_POS m) = s.groupPos g.val m) ?_ ?_ ⟨hw, rfl, rfl, fun _ => rfl⟩
  all_goals
    rintro t m hm
  · rintro ⟨ht, hpos, hjobs, hwant⟩
    have hgpos : t.groupPos g.val m = s.groupPos g.val m := by rw [State.groupPos, State.groupPos, hpos]
    obtain ⟨hp, -, ha⟩ := t.requestAnt_effect true (hl m hm) (getBits_lt (t.rdWord (R.SWARM_GPOS g.val)) (4 * m) 3) ht
    refine ⟨⟨t.requestAnt_wf _ _ _ ht, (t.requestAnt_rdWord_other m _ true ?_).trans hpos, hjobs, fun k =>
      (t.requestAnt_ch_keeps m _ true Chan.wantOn (fun _ => rfl) k).trans (hwant k)⟩, ha, hp.trans hgpos⟩
    simp only [R.SWARM_GPOS, R.CH_ANT]
    have := hl m hm
    omega
  · rintro k ⟨ht, hpos, -, -⟩ ⟨hka, hkp⟩
    by_cases e : k = m
    · subst e
      obtain ⟨hp, -, ha⟩ := t.requestAnt_effect true (hl k hm) (getBits_lt (t.rdWord (R.SWARM_GPOS g.val)) (4 * k) 3) ht
      exact ⟨ha, hp.trans (by rw [State.groupPos, hpos])⟩
    · refine ⟨(congrArg Chan.antWait (State.ch_modCh_other _ _ e)).trans hka,
        (congrArg (getBits · 0 3) (t.requestAnt_rdWord_other m _ true ?_)).trans hkp⟩
      simp only [R.CH_ANT_POS, R.CH_ANT]
      omega

theorem State.requestOn_alone (hg : j.group = none) :
    s.requestOn n j = ((s.wantFields (s.team n)).block n .fon).tryRamp n := by
  unfold State.requestOn
  rw [hg]
  rfl

theorem State.requestOn_swarm {g : Fin 4} (hg : j.group = some g) (hl : ∀ m ∈ s.team n, m < 8) :
    s.requestOn n j = (((s.wantFields (s.team n)).askGroup g.val (s.team n)).block n .fon).tryRamp n := by
  obtain ⟨⟨-, hjobs⟩, -⟩ := s.wantFields_spec hl
  have hteam : (s.wantFields (s.team n)).team n = s.team n := State.team_of_jobs hjobs n
  unfold State.requestOn
  rw [hg]
  change (((s.wantFields (s.team n)).askGroup g.val ((s.wantFields (s.team n)).team n)).block n .fon).tryRamp n = _
  rw [hteam]

/-- A field-on request of a channel that moves alone, off and with nothing pending, starts its ramp with LOCK. -/
theorem State.requestOn_ramps (hn : n < 8) (ht : s.team n = [n]) (hg : j.group = none) (hoff : (s.ch n).field = .off)
    (hpend : (s.ch n).antPend = false) (hlock : s.locked = true) :
    ((s.requestOn n j).ch n).field = .ramp ∧ ((s.requestOn n j).ch n).seq.run = .blocked .fon := by
  let v := (s.modCh n fun c => { c with wantOn := true }).block n .fon
  have heq : s.requestOn n j = v.tryRamp n := by
    rw [State.requestOn_alone hg, ht]
    rfl
  have hv : v.ch n = { s.ch n with wantOn := true, seq := { (s.ch n).seq with run := .blocked .fon } } := by
    refine (State.ch_modCh_same _ n _ hn).trans ?_
    rw [State.ch_modCh_same _ n _ hn]
  have hramp : v.tryRamp n = v.startRamp n :=
    State.tryRamp_single ((State.team_of_jobs rfl n).trans ht) (by rw [hv, hoff]) (by rw [hv]) (by rw [hv]; exact hpend) hlock
  obtain ⟨hfield, hseq⟩ := v.startRamp_ch hn
  rw [heq, hramp, hfield, hseq, hv]
  exact ⟨rfl, rfl⟩

/-- A field-on request of a swarm job first asks for the positions of its group (R191). -/
theorem State.requestOn_positions {n : Ch} {g : Fin 4} (hw : RegFile.wf s.regs = true) (hj : s.jobOn n.val = some j)
    (hlead : s.jobLead n.val = some j) (hg : j.group = some g) :
    let t := s.requestOn n.val j
    ∀ m ∈ s.team n.val, (t.ch m).antWait = true ∧ (t.ch m).wantOn = true ∧ t.rd (R.CH_ANT_POS m) = s.groupPos g.val m := by
  intro t
  have hl : ∀ m ∈ s.team n.val, m < 8 := fun m => State.team_lt n.isLt
  let s1 := s.wantFields (s.team n.val)
  let s2 := s1.askGroup g.val (s.team n.val)
  obtain ⟨⟨hregs, hjobs1⟩, hwant⟩ := s.wantFields_spec hl
  obtain ⟨⟨-, -, hjobs2, hwant2⟩, hask⟩ := s1.askGroup_spec g (hregs ▸ hw) hl
  have hjobs : (s2.block n.val .fon).jobs = s.jobs := hjobs2.trans hjobs1
  have hkeeps {α : Type} (p : Chan → α) (hp : ∀ c q, p { c with seq := q } = p c) (m : Nat) :
      p ((s2.block n.val .fon).ch m) = p (s2.ch m) := State.ch_modCh_keeps p (hp _ _) m
  have hteam : n.val ∈ (s2.block n.val .fon).team n.val := State.team_of_jobs hjobs n.val ▸ State.mem_team hj hlead
  have hpend : ((s2.block n.val .fon).ch n.val).antPend = true := by
    obtain ⟨ha, -⟩ := hask n.val (State.mem_team hj hlead)
    rw [Chan.antPend, hkeeps Chan.antWait (fun _ _ => rfl), ha]
    rfl
  have hleadAt : (s2.block n.val .fon).leadAt n.val = n.val := by
    rw [State.leadAt, State.team_of_jobs hjobs]
    exact State.leadAt_of_jobLead hj hlead
  have ht : t = s2.block n.val .fon := (State.requestOn_swarm hg hl).trans (State.tryRamp_pending hleadAt hteam hpend)
  intro m hm
  obtain ⟨ha, hp⟩ := hask m hm
  rw [ht, hkeeps Chan.antWait (fun _ _ => rfl), hkeeps Chan.wantOn (fun _ _ => rfl)]
  refine ⟨ha, (hwant2 m).trans (hwant m hm), hp.trans ?_⟩
  rw [State.groupPos, State.groupPos, State.rdWord_of_regs hregs]

end

/-! ## What FON does, case by case -/

section

variable {s : State} {n : Nat} {j : Job}

theorem State.doFon_faulted (h : s.teamFault n = true) : s.doFon n j = s.seqFault n 6 := if_pos h

theorem State.doFon_on (hf : s.teamFault n = false) (h : (s.teamAll n fun _ c => c.field == .on && !c.wantOff) = true) :
    s.doFon n j = s.modSeq n Seq.resume := by
  unfold State.doFon
  rw [hf, h]
  rfl

/-- Members off and with nothing pending, one at least: their ramp is asked for, or refused without LOCK. -/
theorem State.doFon_off (hne : n ∈ s.team n) (h : (s.teamAll n fun _ c => c.field == .off && !c.antPend) = true) :
    s.doFon n j = if s.locked then s.requestOn n j else s.refuseOn n := by
  have hoff : ∀ m ∈ s.team n, (s.ch m).field = .off := by
    intro m hm
    have := State.teamAll_iff.mp h m hm
    simp only [Bool.and_eq_true, beq_iff_eq] at this
    exact this.1
  have hfault : s.teamFault n = false := State.teamFault_false (x := .off) (by decide) hoff
  have hon : (s.teamAll n fun _ c => c.field == .on && !c.wantOff) = false := State.teamAll_false hne (by simp [hoff n hne])
  have hall : (s.teamAll n fun _ c => c.field == .off || c.field == .settle) = true :=
    State.teamAll_iff.mpr fun m hm => by simp [hoff m hm]
  unfold State.doFon
  rw [hfault, hon, h, hall]
  cases s.locked <;> rfl

end

end Sys2Proof.Machine
end

section
/-!
PROOFS. FON and FOFF, settled: the refusal without LOCK, the fields that fall, and the cases put together.
-/

namespace Sys2Proof.Machine

/-! ## A refusal -/

section

variable {s : State} {n : Ch} {w : Nat} {j : Job}

/-- Without LOCK a field-on request of a channel that moves alone sets SYN_CUT and takes a fault (R49, R74). -/
theorem faultTo_refuseOn (h : Executes s n w j) (hc : s.canon = true) (hj : s.job? j.id = some j) (hon : s.jobOn n.val = some j)
    (hg : j.group = none) :
    FaultTo n s j 6 ((s.counted n j).refuseOn n.val) ∧ ((s.counted n j).refuseOn n.val).rd (R.CH_TXSTAT_SYN_CUT n.val) = 1 := by
  let u := s.counted n j
  let v := (u.setFlag (R.CH_TXSTAT_SYN_CUT n.val)).modCh n.val fun c => { c with wantOn := false }
  have hu : RegFile.wf u.regs = true := s.counted_wf n j (State.canon_regs hc)
  have hv : RegFile.wf v.regs = true := u.setFlag_wf _ hu
  have heq : u.refuseOn n.val = v.seqFault n.val 6 := by
    rw [State.refuseOn, State.counted_team, State.team_of_jobOn hon hg]
    rfl
  have hcnt : v.rd (R.CSQ_CNT_N_FAULT n.val) = u.rd (R.CSQ_CNT_N_FAULT n.val) := by
    refine u.rd_wr_other (R.CH_TXSTAT_SYN_CUT n.val) (R.CSQ_CNT_N_FAULT n.val) 1 hu (.inl ?_)
    simp only [R.CSQ_CNT_N_FAULT, R.CSQ_CNT, R.CH_TXSTAT_SYN_CUT, R.CH_TXSTAT]
    omega
  have hseq : (v.ch n.val).seq = (u.ch n.val).seq := State.ch_modCh_keeps Chan.seq rfl n.val
  refine ⟨heq ▸ faultTo_of_executes h hj 6 (s.counted_jobs n j) hv hcnt hseq, ?_⟩
  have hkept : Spares faultFlds v (v.seqFault n.val 6) := .seqFault n (.refl hv)
  rw [heq, hkept.rd _ fun g hg => .inl (faultFlds_txstat g hg n)]
  exact u.rd_setFlag_same (R.CH_TXSTAT_SYN_CUT n.val) hu (Nat.le_of_ble_eq_true rfl) Nat.one_ne_zero

end

/-! ## Fields that fall -/

section

variable {s : State} {m : Nat}

theorem State.stopField_ch_other {k : Nat} (hk : k ≠ m) : (s.stopField m).ch k = s.ch k := by
  unfold State.stopField
  split
  · exact (State.ch_modCh_other _ _ hk).trans (State.ch_modCh_other _ _ hk)
  all_goals exact State.ch_modCh_other _ _ hk

/-- A field that is on falls, and one that falls goes on doing so. -/
theorem State.stopField_falls (hm : m < 8) (h : (s.ch m).field = .on ∨ (s.ch m).field = .down) :
    ((s.stopField m).ch m).field = .down := by
  unfold State.stopField
  rcases h with h | h <;> rw [h]
  · exact congrArg Chan.field (State.ch_modCh_same _ m _ hm)
  · exact (congrArg Chan.field (State.ch_modCh_same s m _ hm)).trans h

theorem State.stopEach_falls {l : List Nat} (hl : ∀ m ∈ l, m < 8) {m : Nat} (hm : m ∈ l) (hon : (s.ch m).field = .on) :
    ((s.each l fun s m => s.stopField m).ch m).field = .down := by
  refine (State.each_spec (l := l) (s := s) (I := fun t => ∀ k, (s.ch k).field = .on → (t.ch k).field = .on ∨ (t.ch k).field = .down)
    (P := fun k t => (s.ch k).field = .on → (t.ch k).field = .down) (fun t a ha ht => ⟨fun k hk => ?_, fun hk => ?_⟩)
    (fun t a ha k ht hk hs => ?_) fun _ h => .inl h).2 m hm hon
  · by_cases e : k = a
    · subst e
      exact .inr (State.stopField_falls (hl k ha) (ht k hk))
    · rw [State.stopField_ch_other e]
      exact ht k hk
  · exact State.stopField_falls (hl a ha) (ht a hk)
  · by_cases e : k = a
    · subst e
      exact State.stopField_falls (hl k ha) (ht k hs)
    · rw [State.stopField_ch_other e]
      exact hk hs

end

/-! ## FON -/

section

variable {s : State} {n : Ch} {j : Job} (h : Executes s n 0xB000 j) (hw : (s.ch n.val).seq.windup = false)
include h hw

/-- FON does its work on the counted state. -/
theorem leads_fon {P : State → Prop} (hp : P ((s.counted n j).doFon n.val j)) : Leads (.fon n) s P :=
  ⟨_, rfl, (State.instr_air h hw windNone fun s j => s.doFon n.val j).symm ▸ hp⟩

theorem leads_fon_on (hall : (s.teamAll n.val fun _ c => c.field == .on && !c.wantOff) = true) :
    Leads (.fon n) s (SeqTo n s { (s.ch n.val).seq with pc := (s.ch n.val).seq.pc + 1 }) := by
  refine leads_fon h hw ?_
  rw [State.doFon_on]
  · exact seqTo_resume h
  · rw [State.counted_teamFault]
    refine State.teamFault_false (x := .on) (by decide) fun m hm => ?_
    have := State.teamAll_iff.mp hall m hm
    simp only [Bool.and_eq_true, beq_iff_eq] at this
    exact this.1
  · exact (s.counted_teamAll n j (fun _ c => c.field == .on && !c.wantOff) (fun _ _ _ => rfl) n.val).trans hall

theorem leads_fon_fault (hc : s.canon = true) (hj : s.job? j.id = some j) (hf : s.teamFault n.val = true) :
    Leads (.fon n) s (FaultTo n s j 6) := by
  refine leads_fon h hw ?_
  rw [State.doFon_faulted ((s.counted_teamFault n j n.val).trans hf)]
  exact faultTo_counted h hc hj 6

/-- FON of members that are off with nothing pending. -/
theorem leads_fon_off {P : State → Prop} (hon : s.jobOn n.val = some j)
    (hall : (s.teamAll n.val fun _ c => c.field == .off && !c.antPend) = true)
    (hp : P (if s.locked then (s.counted n j).requestOn n.val j else (s.counted n j).refuseOn n.val)) : Leads (.fon n) s P := by
  obtain ⟨hlead, -, -⟩ := State.runsOn_spec h.runs
  refine leads_fon h hw ?_
  rw [State.doFon_off]
  · rwa [State.counted_locked]
  · exact s.counted_team n j n.val ▸ State.mem_team hon hlead
  · exact (s.counted_teamAll n j (fun _ c => c.field == .off && !c.antPend) (fun _ _ _ => rfl) n.val).trans hall

end

/-! ## FOFF -/

section

variable {s : State} {n : Ch} {j : Job} (h : Executes s n 0xB001 j) (hw : (s.ch n.val).seq.windup = false)
include h hw

theorem leads_foff {P : State → Prop}
    (hp : P (if s.teamAll n.val fun _ c => c.field == .off then (s.counted n j).modSeq n.val Seq.resume
      else ((s.counted n j).each (s.team n.val) fun s m => s.stopField m).block n.val .foff)) : Leads (.foff n) s P := by
  refine ⟨_, rfl, ?_⟩
  rw [show regsWord 0xB 0 0 1 = 0xB001 from rfl, State.instr_air h hw,
    s.counted_teamAll n j (fun _ c => c.field == .off) (fun _ _ _ => rfl), s.counted_team]
  exact hp

theorem leads_foff_stops (hall : (s.teamAll n.val fun _ c => c.field == .off) = false) : Leads (.foff n) s fun t =>
    (t.ch n.val).seq.run = .blocked .foff
      ∧ ∀ m : Ch, m.val ∈ s.team n.val → (s.ch m.val).field = .on → (t.ch m.val).field = .down := by
  refine leads_foff h hw ?_
  rw [hall, if_neg Bool.false_ne_true]
  let v := (s.counted n j).each (s.team n.val) fun s m => s.stopField m
  refine ⟨congrArg (fun c : Chan => c.seq.run) (v.ch_modCh_same n.val _ n.isLt), fun m hm hon => ?_⟩
  refine Eq.trans (State.ch_modCh_keeps (s := v) Chan.field rfl m.val) ?_
  refine State.stopEach_falls (fun k hk => State.team_lt n.isLt hk) hm ?_
  exact (s.counted_chan n j Chan.field (fun _ _ => rfl) m.val).trans hon

end

/-! ## The obligation -/

/-- Settles O18: each clause is a case of FON or FOFF on the counted state. -/
theorem seqFieldOnOff : Obligations.SeqFieldOnOff := by
  unfold Obligations.SeqFieldOnOff
  intro s n j hc hj hon c next hw
  have hone (hg : j.group = none) (hoff : c.field = .off) (hpend : c.antPend = false) :
      (s.teamAll n.val fun _ c => c.field == .off && !c.antPend) = true := by
    rw [State.teamAll_single (State.team_of_jobOn hon hg)]
    change (c.field == .off && !c.antPend) = true
    rw [hoff, hpend]
    rfl
  refine ⟨fun h => ⟨leads_fon_on h hw, fun hg hoff hpend hlock => ?_, fun hg hoff hpend hlock => ?_, leads_fon_fault h hw hc hj,
    fun g hg hlock hall => ?_⟩, fun h => ⟨fun hall => ?_, leads_foff_stops h hw⟩⟩
  · refine leads_fon_off h hw hon (hone hg hoff hpend) ?_
    have hl : s.locked = true := by simp [State.locked, hlock]
    rw [if_pos hl]
    refine State.requestOn_ramps n.isLt ((s.counted_team n j n.val).trans (State.team_of_jobOn hon hg)) hg ?_ ?_
      ((s.counted_locked n j).trans hl)
    · exact (s.counted_chan n j Chan.field (fun _ _ => rfl) n.val).trans hoff
    · exact (s.counted_chan n j Chan.antPend (fun _ _ => rfl) n.val).trans hpend
  · refine leads_fon_off h hw hon (hone hg hoff hpend) ?_
    rw [if_neg (by simpa [State.locked] using hlock)]
    exact faultTo_refuseOn h hc hj hon hg
  · refine leads_fon_off h hw hon hall ?_
    obtain ⟨hlead, -, -⟩ := State.runsOn_spec h.runs
    have hpos := State.requestOn_positions (s := s.counted n j) (s.counted_wf n j (State.canon_regs hc))
      (by rwa [State.jobOn, s.counted_jobs]) ((s.counted_jobLead n j n.val).trans hlead) hg
    rw [if_pos (by simp [State.locked, hlock])]
    intro m hm
    obtain ⟨ha, hwant, hp⟩ := hpos m.val (s.counted_team n j n.val ▸ hm)
    refine ⟨ha, hwant, hp.trans ?_⟩
    rw [State.groupPos, s.counted_rdWord n j]
    simp only [R.SWARM_GPOS, R.CSQ_YMAX]
    omega
  · refine leads_foff h hw ?_
    rw [hall, if_pos rfl]
    exact seqTo_resume h

end Sys2Proof.Machine
end

section
/-!
PROOFS. ANT, PWR, TXST, PAT and PATI: the position, the target, the state of the field and the pattern that they select.
-/

namespace Sys2Proof.Machine

/-! ## ANT, PWR and TXST -/

section

variable {s : State} {n : Ch} {j : Job} {r : GReg}

theorem State.modRom_regs (s : State) (j : Job) (g : RomCtx → RomCtx) : (s.modRom j g).regs = s.regs := by
  unfold State.modRom
  split <;> rfl

theorem State.modRom_ch (s : State) (j : Job) (g : RomCtx → RomCtx) (m : Nat) : (s.modRom j g).ch m = s.ch m := by
  unfold State.modRom
  split <;> rfl

/-- What ANT does on the counted state. -/
def State.doAnt (s : State) (n : Ch) (j : Job) (v : Word) : State :=
  ((s.requestAnt n.val (v.toNat % 8) (bitOf v.toNat 3)).modRom j fun r => { r with visits := r.visits + 1 }).block n.val .ant

theorem State.doAnt_spec (v : Word) (hw : RegFile.wf s.regs = true) :
    let t := s.doAnt n j v
    t.rd (R.CH_ANT_POS n.val) = v.toNat % 8 ∧ t.rd (R.CH_ANT_EN n.val) = (v.getLsbD 3).toNat
      ∧ (t.ch n.val).antWait = true ∧ (t.ch n.val).seq.run = .blocked .ant ∧ (t.ch n.val).seq.pc = (s.ch n.val).seq.pc := by
  intro t
  let u := s.requestAnt n.val (v.toNat % 8) (bitOf v.toNat 3)
  let v' := u.modRom j fun r => { r with visits := r.visits + 1 }
  obtain ⟨hpos, hen, hwait⟩ := s.requestAnt_effect (bitOf v.toNat 3) n.isLt (Nat.mod_lt v.toNat (by decide)) hw
  have hregs : t.regs = u.regs := u.modRom_regs j _
  have hch : t.ch n.val = { u.ch n.val with seq := { (u.ch n.val).seq with run := .blocked .ant } } := by
    refine (v'.ch_modCh_same n.val _ n.isLt).trans ?_
    rw [u.modRom_ch]
  rw [State.rd_of_regs hregs, State.rd_of_regs hregs, hch]
  have hseq : (u.ch n.val).seq = (s.ch n.val).seq := s.requestAnt_ch_keeps n.val _ _ Chan.seq (fun _ => rfl) n.val
  exact ⟨hpos, hen, hwait, rfl, (congrArg Seq.pc hseq :)⟩

theorem leads_ant (h : Executes s n (0xB002 + r.val * 64) j) (hw : (s.ch n.val).seq.windup = false) {P : State → Prop}
    (hp : P (if j.group.isSome then (s.counted n j).seqFault n.val 8
      else if (s.ch n.val).field != .off then (s.counted n j).seqFault n.val 6
      else (s.counted n j).doAnt n j ((s.ch n.val).seq.getG r))) : Leads (.ant n r) s P := by
  refine ⟨_, rfl, ?_⟩
  rw [show regsWord 0xB 0 r.val 2 = 0xB002 + r.val * 64 by simp only [regsWord]; omega, State.instr_air h hw]
  simpa only [s.counted_ch_same, Seq.counted_getG, State.doAnt] using hp

theorem leads_pwr (h : Executes s n (0xB003 + r.val * 64) j) (hw : (s.ch n.val).seq.windup = false) {P : State → Prop}
    (hp : P (if j.group.isSome then (s.counted n j).seqFault n.val 8
      else (((s.counted n j).modJob j.id fun k => { k with
        target := some (((s.ch n.val).seq.getG r).toNat % 2 ^ 12) }).railRaise).modSeq n.val Seq.resume)) : Leads (.pwr n r) s P := by
  refine ⟨_, rfl, ?_⟩
  rw [show regsWord 0xB 0 r.val 3 = 0xB003 + r.val * 64 by simp only [regsWord]; omega, State.instr_air h hw]
  simpa only [s.counted_ch_same, Seq.counted_getG] using hp

theorem leads_txst (h : Executes s n (0xB00A + r.val * 512) j) (hw : (s.ch n.val).seq.windup = false) :
    Leads (.txst n r) s (SeqTo n s ({ (s.ch n.val).seq with pc := (s.ch n.val).seq.pc + 1 }.setG r
      (setBits (s.rdWord (R.CH_TXSTAT n.val)) 0 3 (s.ch n.val).field.code))) := by
  refine ⟨_, rfl, ?_⟩
  have hstat : (s.counted n j).txStat n.val = setBits (s.rdWord (R.CH_TXSTAT n.val)) 0 3 (s.ch n.val).field.code := by
    rw [State.txStat, s.counted_rdWord n j, s.counted_ch_same]
    simp only [R.CH_TXSTAT, R.CSQ_YMAX]
    omega
  rw [show regsWord 0xB r.val 0 10 = 0xB00A + r.val * 512 by simp only [regsWord]; omega, State.instr_air h hw, hstat]
  exact seqTo_modSeq s n j true _ _ (by simp [Seq.core, Seq.resume, Seq.setG, Seq.counted, h.run]) rfl

end

/-! ## The rail demand -/

theorem State.railRaise_ch (s : State) (m : Nat) : s.railRaise.ch m = s.ch m := by
  unfold State.railRaise State.railCommand
  split <;> rfl

theorem State.railRaise_jobs (s : State) : s.railRaise.jobs = s.jobs := by
  unfold State.railRaise State.railCommand
  split <;> rfl

/-! ## Patterns -/

section

variable {s t : State}

theorem State.snat_of_sram (h : t.sram = s.sram) (a n : Nat) : t.snat a n = s.snat a n := by
  rw [State.snat, State.snat, State.sbytes, State.sbytes, h]

/-- A pattern is read from SRAM and the loads of the channels. -/
theorem State.pattern_of_sram (h : t.sram = s.sram) (p m : Nat) : t.ampw p m = s.ampw p m ∧ t.phw p m = s.phw p m
    ∧ t.patWordOk p m = s.patWordOk p m := by
  simp only [State.ampw, State.phw, State.patWordOk, State.snat_of_sram h, and_self]

theorem State.patSum_of_sram (h : t.sram = s.sram) (hl : ∀ m, t.rd (R.CH_TXLOAD_RL m) = s.rd (R.CH_TXLOAD_RL m)) (p : Nat)
    (l : List Nat) :
    t.patSum p l = s.patSum p l := by
  simp only [State.patSum, State.pattern_of_sram h, hl]

theorem State.patOk_of_sram (h : t.sram = s.sram) (hl : ∀ m, t.rd (R.CH_TXLOAD_RL m) = s.rd (R.CH_TXLOAD_RL m)) (p : Nat) (m : BitVec 8) :
    t.patOk p m = s.patOk p m := by
  simp only [State.patOk, State.pattern_of_sram h, State.patSum_of_sram h hl, State.snat_of_sram h]

/-- The share of a member in the power of a pattern (R195). -/
def State.patShare (s : State) (p : Nat) (l : List Nat) (m : Nat) : Nat :=
  divRound (bitsOf (s.snat (patBase p) 4) 16 15 * s.ampw p m ^ 2 * s.rd (R.CH_TXLOAD_RL m)) (s.patSum p l)

theorem State.patShare_of_sram (h : t.sram = s.sram) (hl : ∀ m, t.rd (R.CH_TXLOAD_RL m) = s.rd (R.CH_TXLOAD_RL m)) (p : Nat)
    (l : List Nat) (m : Nat) : t.patShare p l m = s.patShare p l m := by
  simp only [State.patShare, State.pattern_of_sram h, State.patSum_of_sram h hl, State.snat_of_sram h, hl]

/-- The share of a pattern that a member takes: its target and its phase weight. -/
def Chan.taken (s : State) (p : Nat) (l : List Nat) (m : Nat) (c : Chan) : Chan :=
  { c with swTarget := some (s.patShare p l m), muted := s.ampw p m == 0, w := BitVec.ofNat 10 (s.phw p m) }

/-- A member takes its share; one above its cap is flagged. -/
def State.takeShare (s : State) (p : Nat) (l : List Nat) (t : State) (m : Nat) : State :=
  let t1 := t.modCh m (Chan.taken s p l m)
  if s.rd (R.CH_TXPWR_CAP m) < s.patShare p l m then t1.setFlag R.SWARM_STAT_PCLAMP else t1

theorem State.takePattern_eq (s : State) (p : Nat) (members : BitVec 8) :
    s.takePattern p members = s.each ((maskList members).map fun c => c.val) (s.takeShare p ((maskList members).map fun c => c.val)) := rfl

theorem State.takeShare_ch (s t : State) (p : Nat) (l : List Nat) (m k : Nat) :
    (s.takeShare p l t m).ch k = (t.modCh m (Chan.taken s p l m)).ch k := by
  unfold State.takeShare
  split <;> rfl

/-- The members take their targets and phase weights, and neither their fields nor their sequencers change (R195). -/
theorem State.takePattern_spec (s : State) (p : Nat) (members : BitVec 8) :
    let l := (maskList members).map fun c => c.val
    let t := s.takePattern p members
    (∀ k, (t.ch k).field = (s.ch k).field ∧ (t.ch k).seq = (s.ch k).seq)
      ∧ ∀ m ∈ l, (t.ch m).swTarget = some (s.patShare p l m) ∧ (t.ch m).w = BitVec.ofNat 10 (s.phw p m) := by
  intro l t
  have hl : ∀ m ∈ l, m < 8 := by
    intro m hm
    obtain ⟨c, -, rfl⟩ := List.mem_map.mp hm
    exact c.isLt
  have htaken : t = s.each l (s.takeShare p l) := s.takePattern_eq p members
  rw [htaken]
  refine State.each_spec
    (I := fun u => ∀ k, (u.ch k).field = (s.ch k).field ∧ (u.ch k).seq = (s.ch k).seq)
    (P := fun m u => (u.ch m).swTarget = some (s.patShare p l m) ∧ (u.ch m).w = BitVec.ofNat 10 (s.phw p m))
    (fun u m hm hu => ⟨fun k => ?_, ?_⟩) (fun u m hm k hu hk => ?_) fun _ => ⟨rfl, rfl⟩
  all_goals rw [s.takeShare_ch]
  · obtain ⟨hf, hs⟩ := hu k
    exact ⟨(State.ch_modCh_keeps Chan.field rfl k).trans hf, (State.ch_modCh_keeps Chan.seq rfl k).trans hs⟩
  · rw [u.ch_modCh_same m _ (hl m hm)]
    exact ⟨rfl, rfl⟩
  · by_cases e : k = m
    · subst e
      rw [u.ch_modCh_same k _ (hl k hm)]
      exact ⟨rfl, rfl⟩
    · rwa [u.ch_modCh_other _ e]

end

section

variable {s : State} {n p : Nat} {j : Job}

theorem State.selectPattern_refused (hlead : s.jobLead n = some j) (hok : s.patOk p j.mask = false) :
    s.selectPattern n p = s.seqFault n 8 := by
  rw [State.selectPattern, hlead]
  simp [hok]

/-- A pattern selected with the field off starts no calibration. -/
theorem State.selectPattern_off (hlead : s.jobLead n = some j) (hg : j.group ≠ none) (hok : s.patOk p j.mask = true)
    (hoff : (s.ch n).field = .off) : s.selectPattern n p = (s.takePattern p j.mask).railRaise.modSeq n Seq.resume := by
  obtain ⟨hch, -⟩ := s.takePattern_spec p j.mask
  obtain ⟨hf, -⟩ := hch n
  obtain ⟨g, hg⟩ := Option.ne_none_iff_exists'.mp hg
  rw [State.selectPattern, hlead]
  simp [hok, hg, State.railRaise_ch, hf, hoff]

theorem State.doPat_swarm {p : BitVec 6} (hg : j.group ≠ none) (hoff : (s.teamAll n fun _ c => c.field == .off) = true) :
    s.doPat n j p = s.selectPattern n p.toNat := by
  obtain ⟨g, hg⟩ := Option.ne_none_iff_exists'.mp hg
  unfold State.doPat
  simp [hoff, hg]

end

section

variable {s : State} {n : Ch} {j : Job}

theorem State.counted_load (m : Nat) : (s.counted n j).rd (R.CH_TXLOAD_RL m) = s.rd (R.CH_TXLOAD_RL m) := by
  rw [State.rd, State.rd, s.counted_rdWord n j]
  simp only [R.CH_TXLOAD_RL, R.CH_TXLOAD, R.CSQ_YMAX]
  omega

theorem State.counted_patOk (p : Nat) (m : BitVec 8) : (s.counted n j).patOk p m = s.patOk p m :=
  State.patOk_of_sram (s.counted_sram n j) State.counted_load p m

/-- PAT and PATI select on the counted state. -/
theorem leads_select {i : Instr} {r : GReg} {p : BitVec 6} (hw : (s.ch n.val).seq.windup = false)
    (hi : (i = .pat n r ∧ p = ((s.ch n.val).seq.getG r).setWidth 6 ∧ Executes s n (0xB009 + r.val * 64) j)
      ∨ ∃ b : Byte, i = .pati n b ∧ p = b.setWidth 6 ∧ Executes s n (0xE700 + b.toNat) j) :
    (∃ w, Executes s n w j) ∧ ∀ {P : State → Prop}, P ((s.counted n j).doPat n.val j p) → Leads i s P := by
  rcases hi with ⟨rfl, rfl, h⟩ | ⟨b, rfl, rfl, h⟩
  · refine ⟨⟨_, h⟩, fun hp => ⟨_, rfl, ?_⟩⟩
    rw [show regsWord 0xB 0 r.val 9 = 0xB009 + r.val * 64 by simp only [regsWord]; omega, State.instr_air h hw]
    simpa only [s.counted_ch_same, Seq.counted_getG] using hp
  · refine ⟨⟨_, h⟩, fun hp => ⟨_, rfl, ?_⟩⟩
    rw [show byteWord 0xE 7 b.toNat = 0xE700 + b.toNat by simp only [byteWord]; omega, State.instr_air h hw]
    exact hp

/-- The effect of a pattern that a swarm job selects with its fields off. -/
theorem State.doPat_takes {w : Nat} {p : BitVec 6} (h : Executes s n w j) (hon : s.jobOn n.val = some j) (hg : j.group ≠ none)
    (hoff : (s.teamAll n.val fun _ c => c.field == .off) = true) (hok : s.patOk p.toNat j.mask = true) :
    let t := (s.counted n j).doPat n.val j p
    (t.ch n.val).seq.core = ({ (s.ch n.val).seq with pc := (s.ch n.val).seq.pc + 1 } : Seq).core ∧ ∀ m ∈ maskList j.mask,
      (t.ch m.val).swTarget = some (s.patShare p.toNat ((maskList j.mask).map fun c => c.val) m.val)
        ∧ (t.ch m.val).w = BitVec.ofNat 10 (s.phw p.toNat m.val) := by
  intro t
  let u := s.counted n j
  let v := (u.takePattern p.toNat j.mask).railRaise
  obtain ⟨hlead, -, -⟩ := State.runsOn_spec h.runs
  have hall : (u.teamAll n.val fun _ c => c.field == .off) = true :=
    (s.counted_teamAll n j (fun _ c => c.field == .off) (fun _ _ _ => rfl) n.val).trans hoff
  have hfield : (u.ch n.val).field = .off := by
    have := State.teamAll_iff.mp hall n.val (s.counted_team n j n.val ▸ State.mem_team hon hlead)
    simpa only [beq_iff_eq] using this
  have heq : t = v.modSeq n.val Seq.resume := (State.doPat_swarm hg hall).trans
    (State.selectPattern_off ((s.counted_jobLead n j n.val).trans hlead) hg (State.counted_patOk _ _ |>.trans hok) hfield)
  obtain ⟨hch, htaken⟩ := u.takePattern_spec p.toNat j.mask
  have hseq : (v.ch n.val).seq = (s.ch n.val).seq.counted true := by
    rw [State.railRaise_ch, (hch n.val).2, s.counted_ch_same]
  rw [heq]
  refine ⟨?_, fun m hm => ?_⟩
  · rw [State.modSeq, v.ch_modCh_same n.val _ n.isLt]
    change (v.ch n.val).seq.resume.core = _
    rw [hseq]
    simp [Seq.core, Seq.resume, Seq.counted, h.run]
  · obtain ⟨htarget, hphase⟩ := htaken m.val (List.mem_map_of_mem hm)
    have hkeeps {α : Type} (q : Chan → α) (hq : ∀ c x, q { c with seq := x } = q c) :
        q ((v.modSeq n.val Seq.resume).ch m.val) = q ((u.takePattern p.toNat j.mask).ch m.val) :=
      (State.ch_modCh_keeps q (hq _ _) m.val).trans (congrArg q (State.railRaise_ch _ _))
    rw [hkeeps Chan.swTarget (fun _ _ => rfl), hkeeps Chan.w (fun _ _ => rfl), htarget, hphase,
      State.patShare_of_sram (s.counted_sram n j) State.counted_load]
    obtain ⟨-, hphw, -⟩ := State.pattern_of_sram (s.counted_sram n j) p.toNat m.val
    exact ⟨rfl, congrArg _ hphw⟩

/-- The effect of PWR. -/
theorem State.pwr_spec {w : Nat} (h : Executes s n w j) (hj : s.job? j.id = some j) (x : Nat) :
    let t := (((s.counted n j).modJob j.id fun k => { k with target := some x }).railRaise).modSeq n.val Seq.resume
    (t.ch n.val).seq.core = ({ (s.ch n.val).seq with pc := (s.ch n.val).seq.pc + 1 } : Seq).core
      ∧ (t.job? j.id).bind Job.target = some x := by
  intro t
  let u := s.counted n j
  let v := u.modJob j.id fun k => { k with target := some x }
  have hjob : v.job? j.id = some { j with target := some x } := by
    refine (State.job?_modJob (s := u) (g := fun k => { k with target := some x }) fun _ => rfl).trans ?_
    rw [State.job?, s.counted_jobs, ← State.job?, hj]
    rfl
  constructor
  · have hch : (v.railRaise.ch n.val).seq = (s.ch n.val).seq.counted true := by
      rw [State.railRaise_ch]
      exact congrArg Chan.seq (s.counted_ch_same n j)
    have ht : (t.ch n.val).seq = (v.railRaise.ch n.val).seq.resume := congrArg Chan.seq (v.railRaise.ch_modCh_same n.val _ n.isLt)
    rw [ht, hch]
    simp [Seq.core, Seq.resume, Seq.counted, h.run]
  · have ht : t.job? j.id = v.job? j.id := by
      rw [State.job?, State.job?]
      exact congrArg _ v.railRaise_jobs
    rw [ht, hjob]
    rfl

end

/-! ## The obligation -/

/-- Settles O19: each clause is a case of one of the five instructions on the counted state. -/
theorem seqAirSelect : Obligations.SeqAirSelect := by
  unfold Obligations.SeqAirSelect
  intro s n j r hc hj hon c q v next hw
  have hsome (hg : j.group ≠ none) : j.group.isSome = true := Option.isSome_iff_ne_none.mpr hg
  refine ⟨fun h => ⟨fun hg hoff => ?_, fun hg hoff => ?_, fun hg => ?_⟩, fun h => ⟨fun hg => ?_, fun hg => ?_⟩,
    fun h => leads_txst h hw, fun i p hi => ?_⟩
  · refine leads_ant h hw ?_
    have hoff' : ((s.ch n.val).field != .off) = false := by simpa using hoff
    rw [hg, hoff']
    have ht := State.doAnt_spec (s := s.counted n j) (n := n) (j := j) v (s.counted_wf n j (State.canon_regs hc))
    rwa [s.counted_ch_same] at ht
  · refine leads_ant h hw ?_
    rw [hg, show ((s.ch n.val).field != .off) = true by simpa using hoff]
    exact faultTo_counted h hc hj 6
  · refine leads_ant h hw ?_
    rw [hsome hg]
    exact faultTo_counted h hc hj 8
  · refine leads_pwr h hw ?_
    rw [hg]
    exact State.pwr_spec h hj _
  · refine leads_pwr h hw ?_
    rw [hsome hg]
    exact faultTo_counted h hc hj 8
  · obtain ⟨⟨w, h⟩, hl⟩ := leads_select hw hi
    obtain ⟨hlead, -, -⟩ := State.runsOn_spec h.runs
    have hall (hoff : (s.teamAll n.val fun _ c => c.field == .off) = true) :
        ((s.counted n j).teamAll n.val fun _ c => c.field == .off) = true :=
      (s.counted_teamAll n j (fun _ c => c.field == .off) (fun _ _ _ => rfl) n.val).trans hoff
    refine ⟨fun hg => hl ?_, fun hg hoff hok => hl ?_, fun hg hoff hok => hl (State.doPat_takes h hon hg hoff hok)⟩
    · rw [State.doPat, if_pos (by rw [hg]; rfl)]
      exact faultTo_counted h hc hj 8
    · rw [State.doPat_swarm hg (hall hoff), State.selectPattern_refused ((s.counted_jobLead n j n.val).trans hlead)
        ((State.counted_patOk _ _).trans hok)]
      exact faultTo_counted h hc hj 8

end Sys2Proof.Machine
end

section
/-!
PROOFS. The state in which an instruction that does not yield acts, and what the instructions of the FIFOs make of a channel.
-/

namespace Sys2Proof.Machine

/-! ## Instructions that do not yield -/

/-- The state in which the body of an instruction that does not yield runs: it is fetched and counted. -/
def State.stepped (s : State) (n : Ch) (j : Job) : State := (s.touchLine j (s.ch n.val).seq.pc).countInstr n.val false

section

variable (s : State) (n : Ch) (j : Job)

theorem State.stepped_ch : (s.stepped n j).ch n.val = { s.ch n.val with seq := (s.ch n.val).seq.counted false } := by
  rw [State.stepped, State.countInstr_ch_same, State.touchLine_ch]

theorem State.stepped_regs : (s.stepped n j).regs = s.regs := s.touchLine_regs j _

theorem State.stepped_jobs : (s.stepped n j).jobs = s.jobs :=
  (congrArg State.jobs ((State.countInstr_outside _ n.val false).trans (s.touchLine_outside j (s.ch n.val).seq.pc)) :)

end

/-- A running sequencer that is counted and goes on. -/
theorem Seq.resume_core {q : Seq} {y : Bool} (h : q.run = .run) :
    (q.counted y).resume.core = ({ q with pc := q.pc + 1 } : Seq).core := by
  simp [Seq.core, Seq.resume, Seq.counted, h]

/-- A running sequencer that is counted, takes a value in a register and goes on. -/
theorem Seq.setG_resume_core {q : Seq} {y : Bool} (h : q.run = .run) (r : GReg) (v : Word) :
    ((q.counted y).setG r v).resume.core = (({ q with pc := q.pc + 1 } : Seq).setG r v).core := by
  simp [Seq.core, Seq.resume, Seq.setG, Seq.counted, h]

section

variable {s : State} {n : Ch} {w : Nat} {j : Job}

theorem State.instr_stepped (h : Executes s n w j) (body : State → Job → State) :
    s.instr n.val w false body = body (s.stepped n j) j := State.instr_eq h false body

/-- An instruction that does not yield has the effect that its body has on the counted state. -/
theorem leads_stepped {i : Instr} {v : Nat} {body : State → Job → State} {P : State → Prop} (h : Executes s n w j)
    (hi : exec i s = .next (s.instr n.val v false body)) (hv : v = w) (hp : P (body (s.stepped n j) j)) : Leads i s P :=
  ⟨_, hi, by rwa [hv, State.instr_stepped h]⟩

/-- A fault that an instruction takes that does not yield. -/
theorem faultTo_stepped (h : Executes s n w j) (hc : s.canon = true) (hj : s.job? j.id = some j) (code : Byte) :
    FaultTo n s j code.toNat ((s.stepped n j).seqFault n.val code) := by
  obtain ⟨hlead, hrun, hend⟩ := State.runsOn_spec h.runs
  have hregs := s.stepped_regs n j
  have hjobs := s.stepped_jobs n j
  refine faultTo_seqFault code (hregs ▸ State.canon_regs hc) ?_ (State.rd_of_regs hregs _) ?_ ?_ hrun hend
  · rw [s.stepped_ch]
    rfl
  · rwa [State.jobLead, hjobs]
  · rwa [State.job?, hjobs]

/-- An instruction that changes the FIFOs of its channel and its sequencer, and nothing else of the device. -/
def FifoTo (n : Ch) (s : State) (tx rx : Fifo) (q : Seq) (t : State) : Prop :=
  OnlyChannel n s t ∧ t.ch n.val = { s.ch n.val with txf := tx, rxf := rx, seq := (t.ch n.val).seq }
    ∧ (t.ch n.val).seq.core = q.core

/-- A change of the FIFOs and the sequencer of the counted channel. -/
theorem fifoTo_stepped (s : State) (n : Ch) (j : Job) {g : Chan → Chan} {c : Chan} {tx rx : Fifo} {x q : Seq}
    (hc : { s.ch n.val with seq := (s.ch n.val).seq.counted false } = c)
    (hg : g c = { s.ch n.val with txf := tx, rxf := rx, seq := x }) (hx : x.core = q.core) :
    FifoTo n s tx rx q ((s.stepped n j).modCh n.val g) := by
  obtain ⟨honly, hch⟩ := onlyChannel_of s n j false g
  rw [hc, hg] at hch
  refine ⟨honly, ?_, ?_⟩
  · exact hch.trans (congrArg (fun y => ({ s.ch n.val with txf := tx, rxf := rx, seq := y } : Chan)) (congrArg Chan.seq hch).symm)
  · exact (congrArg (fun c : Chan => c.seq.core) hch).trans hx

end

/-! ## Pushes and pops (R103, R222) -/

section

variable {s : State} {n : Ch} {w : Nat} {j : Job} (h : Executes s n w j)
include h

/-- A push that fits appends its bytes. -/
theorem fifoTo_push {bs : List Byte} (hfit : bs.length ≤ (s.ch n.val).txf.space txSize) :
    FifoTo n s ((s.ch n.val).txf.append bs) (s.ch n.val).rxf { (s.ch n.val).seq with pc := (s.ch n.val).seq.pc + 1 }
      ((s.stepped n j).push n.val bs) := by
  have hpush : (s.stepped n j).push n.val bs
      = (s.stepped n j).modCh n.val fun c => { c with txf := c.txf.append bs, seq := c.seq.resume } := by
    rw [State.push, s.stepped_ch]
    exact if_neg (Nat.not_lt.mpr hfit)
  rw [hpush]
  exact fifoTo_stepped s n j rfl rfl (Seq.resume_core h.run)

/-- A push beyond the free space faults. -/
theorem faultTo_push (hc : s.canon = true) (hj : s.job? j.id = some j) {bs : List Byte}
    (hfull : (s.ch n.val).txf.space txSize < bs.length) : FaultTo n s j 5 ((s.stepped n j).push n.val bs) := by
  have hpush : (s.stepped n j).push n.val bs = (s.stepped n j).seqFault n.val 5 := by
    rw [State.push, s.stepped_ch]
    exact if_pos hfull
  exact hpush ▸ faultTo_stepped h hc hj 5

/-- A pop of readable bytes moves the read pointer past them. -/
theorem fifoTo_pop {r : GReg} {k : Nat} (hk : k ≤ (s.ch n.val).rxf.readable rxSize) :
    FifoTo n s (s.ch n.val).txf ((s.ch n.val).rxf.skip rxSize k)
      (({ (s.ch n.val).seq with pc := (s.ch n.val).seq.pc + 1 } : Seq).setG r
        (BitVec.ofNat 32 (leNat ((s.ch n.val).rxf.peek rxSize 0 k))))
      ((s.stepped n j).pop n.val r k) := by
  have hpop : (s.stepped n j).pop n.val r k = (s.stepped n j).modCh n.val fun c => { c with
      rxf := c.rxf.skip rxSize k
      seq := (c.seq.setG r (BitVec.ofNat 32 (leNat ((s.ch n.val).rxf.peek rxSize 0 k)))).resume } := by
    rw [State.pop, s.stepped_ch]
    exact if_neg (Nat.not_lt.mpr hk)
  rw [hpop]
  exact fifoTo_stepped s n j rfl rfl (Seq.setG_resume_core h.run r _)

/-- A pop past the readable bytes faults. -/
theorem faultTo_pop (hc : s.canon = true) (hj : s.job? j.id = some j) {r : GReg} {k : Nat}
    (hk : (s.ch n.val).rxf.readable rxSize < k) : FaultTo n s j 5 ((s.stepped n j).pop n.val r k) := by
  have hpop : (s.stepped n j).pop n.val r k = (s.stepped n j).seqFault n.val 5 := by
    rw [State.pop, s.stepped_ch]
    exact if_pos hk
  exact hpop ▸ faultTo_stepped h hc hj 5

end

/-! ## The bytes pushed -/

theorem leBytes_one (v : Word) : leBytes 1 v.toNat = [v.extractLsb' 0 8] := rfl

/-- The bytes of a word, least significant first. -/
theorem leBytes_four (v : Word) :
    leBytes 4 v.toNat = [v.extractLsb' 0 8, v.extractLsb' 8 8, v.extractLsb' 16 8, v.extractLsb' 24 8] := by
  simp [leBytes, BitVec.extractLsb', Nat.shiftRight_eq_div_pow, Nat.div_div_eq_div_mul]

/-- Settles O10: each push appends the bytes that its word names, or faults where they are more than the free bytes. -/
theorem seqPush : Obligations.SeqPush := by
  unfold Obligations.SeqPush
  intro s n j r imm hc hj c v pushes hlen
  have hpush {i : Instr} {w x : Nat} {bs : List Byte} {body : State → Job → State} (h : Executes s n w j)
      (hi : exec i s = .next (s.instr n.val x false body)) (hx : x = w)
      (hbody : body (s.stepped n j) j = (s.stepped n j).push n.val bs) : pushes i bs := by
    refine ⟨fun hfit => leads_stepped h hi hx ?_, fun hfull => leads_stepped h hi hx ?_⟩ <;> rw [hbody]
    · exact fifoTo_push h (Nat.le_sub_of_add_le' hfit)
    · exact faultTo_push h hc hj (Nat.sub_lt_left_of_lt_add hlen hfull)
  have hreg : ((s.stepped n j).ch n.val).seq.getG r = v := by
    rw [s.stepped_ch]
    rfl
  refine ⟨fun h => hpush h rfl ?_ ?_, fun h => hpush h rfl ?_ ?_, fun h => hpush h rfl ?_ rfl⟩
  · simp only [regsWord]
    omega
  · simp only [hreg, leBytes_one]
  · simp only [regsWord]
    omega
  · simp only [hreg, leBytes_four]
  · simp only [byteWord]
    omega

/-! ## The bytes read -/

/-- The readable bytes of the RX FIFO, in order (R103). -/
def Fifo.unread (f : Fifo) : List Byte := f.data.drop ((f.rd + 4096 - f.rel) % 4096)

theorem Fifo.readable_rx (f : Fifo) : f.readable rxSize = f.unread.length := List.length_drop.symm

/-- The byte at an offset from the read pointer. -/
theorem Fifo.peek_one {f : Fifo} {k : Nat} {b : Byte} (h : f.unread[k]? = some b) : f.peek rxSize k 1 = [b] := by
  have hdrop : f.peek rxSize k 1 = (f.unread.drop k).take 1 := congrArg (List.take 1) List.drop_drop.symm
  rw [hdrop, List.take_one, List.head?_drop, h]
  rfl

section

variable {s : State} {n : Ch} {j : Job} {r : GReg} {imm : BitVec 6} (h : Executes s n (0xA100 + r.val * 512 + imm.toNat) j)
include h

theorem leads_peek {b : Byte} (hb : (s.ch n.val).rxf.unread[imm.toNat]? = some b) : Leads (.peek n r imm) s
    (SeqTo n s (({ (s.ch n.val).seq with pc := (s.ch n.val).seq.pc + 1 } : Seq).setG r (b.setWidth 32))) := by
  have hlen : ¬ (s.ch n.val).rxf.readable rxSize ≤ imm.toNat := by
    rw [Fifo.readable_rx]
    exact Nat.not_le.mpr (List.getElem?_eq_some_iff.mp hb).1
  have hvalue : BitVec.ofNat 32 (leNat ((s.ch n.val).rxf.peek rxSize imm.toNat 1)) = b.setWidth 32 := by
    rw [Fifo.peek_one hb]
    exact BitVec.eq_of_toNat_eq (by simp [leNat])
  refine leads_stepped h rfl (by simp only [regsWord]; omega) ?_
  rw [s.stepped_ch]
  simp only [if_neg hlen, hvalue]
  exact seqTo_modSeq s n j false (fun q => (q.setG r (b.setWidth 32)).resume) _ (Seq.setG_resume_core h.run r _) rfl

theorem leads_peek_fault (hc : s.canon = true) (hj : s.job? j.id = some j) (hlen : (s.ch n.val).rxf.unread.length ≤ imm.toNat) :
    Leads (.peek n r imm) s (FaultTo n s j 5) := by
  refine leads_stepped h rfl (by simp only [regsWord]; omega) ?_
  rw [s.stepped_ch]
  simp only [Fifo.readable_rx, if_pos hlen]
  exact faultTo_stepped h hc hj 5

end

/-- Settles O11: each pop takes as many of the readable bytes as its width, or faults where they are fewer. -/
theorem seqPop : Obligations.SeqPop := by
  unfold Obligations.SeqPop
  intro s n j r imm hc hj c f unread pops
  have hpop {i : Instr} {w x k : Nat} (h : Executes s n w j)
      (hi : exec i s = .next (s.instr n.val x false fun s _ => s.pop n.val r k)) (hx : x = w) : pops i k := by
    have hread : (s.ch n.val).rxf.readable rxSize = unread.length := Fifo.readable_rx _
    refine ⟨fun hk => leads_stepped h hi hx ?_, fun hk => leads_stepped h hi hx ?_⟩
    · exact fifoTo_pop h (hread ▸ hk)
    · exact faultTo_pop h hc hj (hread ▸ hk)
  refine ⟨fun h => hpop h rfl ?_, fun h => hpop h rfl ?_, fun h => hpop h rfl ?_, fun h =>
    ⟨fun b hb => leads_peek h hb, fun hlen => leads_peek_fault h hc hj hlen⟩⟩ <;>
  · simp only [regsWord]
    omega

/-! ## The pointers (R103) -/

section

variable {s : State} {n : Ch} {w : Nat} {j : Job} {rx : Bool}

/-- Of one FIFO `f` becomes `f'`, and the sequencer goes on. -/
def PointersTo (n : Ch) (s : State) (rx : Bool) (f' : Fifo) (t : State) : Prop :=
  FifoTo n s (if rx then (s.ch n.val).txf else f') (if rx then f' else (s.ch n.val).rxf)
    { (s.ch n.val).seq with pc := (s.ch n.val).seq.pc + 1 } t

/-- An operation on the pointers of one FIFO leaves the other. -/
theorem pointersTo_onFifo (h : Executes s n w j) (g : Fifo → Nat → Fifo) :
    PointersTo n s rx (g ((s.ch n.val).fifo rx) (if rx then rxSize else txSize)) ((s.stepped n j).onFifo n.val rx g) := by
  cases rx <;> exact fifoTo_stepped s n j rfl rfl (Seq.resume_core h.run)

theorem leads_avail {r : GReg} (h : Executes s n (0xA180 + r.val * 512 + rx.toNat) j) : Leads (.avail n r rx) s
    (SeqTo n s (({ (s.ch n.val).seq with pc := (s.ch n.val).seq.pc + 1 } : Seq).setG r
      (BitVec.ofNat 32 (((s.ch n.val).fifo rx).readable (if rx then rxSize else txSize))))) := by
  refine leads_stepped h rfl (by simp only [regsWord]; omega) ?_
  rw [s.stepped_ch]
  exact seqTo_modSeq s n j false
    (fun q => (q.setG r (BitVec.ofNat 32 (((s.ch n.val).fifo rx).readable (if rx then rxSize else txSize)))).resume) _
    (Seq.setG_resume_core h.run r _) rfl

theorem fctlWord_eq (rx : Bool) (op : Nat) : fctlWord rx op = 0xA140 + 32 * rx.toNat + op := by
  simp only [fctlWord, regsWord]
  omega

/-- REWIND goes to the mark, where that is valid. -/
theorem leads_fctlRewind {P : State → Prop} (h : Executes s n (0xA140 + 32 * rx.toNat + 1) j)
    (hp : P (if ((s.ch n.val).fifo rx).mvalid then (s.stepped n j).onFifo n.val rx fun f _ => { f with rd := f.mark }
      else (s.stepped n j).seqFault n.val 5)) : Leads (.fctlRewind n rx) s P := by
  refine leads_stepped h rfl (fctlWord_eq rx 1) ?_
  rw [s.stepped_ch]
  exact hp

end

/-- Settles O12: each pointer operation is its own on the FIFO named, and the other FIFO stays. -/
theorem seqFctl : Obligations.SeqFctl := by
  unfold Obligations.SeqFctl
  intro s n j r rx hc hj c f size freed sets word
  have hf : c.fifo rx = f := rfl
  have hword : ∀ op, fctlWord rx op = word op := fctlWord_eq rx
  have hpushb : regsWord 0xA r.val 0 0 = 0xA000 + r.val * 512 := by
    simp only [regsWord]
    omega
  refine ⟨rfl, fun h => ⟨fun hfit => leads_stepped h rfl hpushb ?_, fun hfull => leads_stepped h rfl hpushb ?_⟩,
    fun h => leads_stepped h rfl (hword 0) (pointersTo_onFifo h _), fun h => ⟨fun hm => leads_fctlRewind h ?_, fun hm => leads_fctlRewind h ?_⟩,
    fun h => leads_stepped h rfl (hword 2) (pointersTo_onFifo h _), fun h => leads_stepped h rfl (hword 3) (pointersTo_onFifo h _),
    fun h => ?_⟩
  · obtain ⟨-, hch, -⟩ := fifoTo_push h (bs := leBytes 1 (((s.stepped n j).ch n.val).seq.getG r).toNat) hfit
    exact (congrArg (fun c : Chan => c.txf.data.length) hch).trans List.length_append
  · exact faultTo_push h hc hj hfull
  · rw [hf, if_pos hm]
    exact pointersTo_onFifo h _
  · rw [hf, if_neg (Bool.not_eq_true _ ▸ hm)]
    exact faultTo_stepped h hc hj 5
  · have ht := leads_avail h
    rwa [hf] at ht

end Sys2Proof.Machine
end

section
/-!
PROOFS. RX: the event that is held, the one to come, and the fault where none is (R101, R225, R229, R230).
-/

namespace Sys2Proof.Machine

section

variable {s : State} {n : Ch} {w : Nat} {j : Job}

/-- Outside wind-up an air instruction has the effect that its body has on the counted state. -/
theorem leads_air {i : Instr} {v : Nat} {wind : Seq → Seq} {body : State → Job → State} {P : State → Prop} (h : Executes s n w j)
    (hw : (s.ch n.val).seq.windup = false) (hi : exec i s = .next (s.instr n.val v true (State.airBody n.val wind body)))
    (hv : v = w) (hp : P (body (s.counted n j) j)) : Leads i s P :=
  ⟨_, hi, by rwa [hv, State.instr_air h hw]⟩

/-- In wind-up an air instruction returns at once (R230). -/
theorem leads_windup {i : Instr} {v : Nat} {wind : Seq → Seq} {body : State → Job → State} {P : State → Prop} (h : Executes s n w j)
    (hw : (s.ch n.val).seq.windup = true) (hi : exec i s = .next (s.instr n.val v true (State.airBody n.val wind body)))
    (hv : v = w) (hp : P ((s.counted n j).modSeq n.val wind)) : Leads i s P := by
  refine ⟨_, hi, ?_⟩
  have hcounted : ((s.counted n j).ch n.val).seq.windup = true := by
    rw [s.counted_ch_same]
    exact hw
  have hbody : State.airBody n.val wind body (s.counted n j) j = (s.counted n j).modSeq n.val wind := if_pos hcounted
  rw [hv, State.instr_eq h, ← State.counted, hbody]
  exact hp

/-- A counted sequencer that takes a frame event goes on with the event in its register, and Z by the delivery. -/
theorem Seq.takeEvent_core {q : Seq} {y : Bool} (h : q.run = .run) (rd : GReg) (code : BitVec 4) (good : Bool) :
    ((q.counted y).takeEvent rd code good).core
      = ({ ({ q with pc := q.pc + 1 } : Seq).setG rd (BitVec.ofNat 32 code.toNat) with fz := good } : Seq).core := by
  simp [Seq.core, Seq.takeEvent, Seq.resume, Seq.setG, Seq.counted, h]

end

section

variable {s : State} {n : Ch} {j : Job} {rd : GReg}

theorem rxWord_eq (rd : GReg) : regsWord 0xB rd.val 0 5 = 0xB005 + rd.val * 512 := by
  simp only [regsWord]
  omega

/-- An event that is held is taken, and the window that is open has given one. -/
theorem State.collectEvent_held {n : Nat} {code : BitVec 4} (h : (s.ch n).ev = some code) :
    s.collectEvent n rd = s.modCh n fun c => { c with
      ev := none, win := c.win.map fun w : Window => { w with taken := true }, seq := c.seq.takeEvent rd code c.evGood } := by
  rw [State.collectEvent, h]

/-- Without an event the sequencer waits for one. -/
theorem State.collectEvent_waits {n : Nat} (h : (s.ch n).ev = none) : s.collectEvent n rd = s.block n (.rx rd) := by
  rw [State.collectEvent, h]
  rfl

variable (h : Executes s n (0xB005 + rd.val * 512) j)
include h

theorem leads_rx_windup (hw : (s.ch n.val).seq.windup = true) : Leads (.rx n rd) s (SeqTo n s
    { ({ (s.ch n.val).seq with pc := (s.ch n.val).seq.pc + 1 } : Seq).setG rd (BitVec.ofNat 32 8) with fz := false }) :=
  leads_windup h hw rfl (rxWord_eq rd) (seqTo_modSeq s n j true _ _ (Seq.takeEvent_core h.run rd 8 false) rfl)

variable (hw : (s.ch n.val).seq.windup = false)
include hw

theorem leads_rx_held {code : BitVec 4} (hev : (s.ch n.val).ev = some code) : Leads (.rx n rd) s fun t =>
    (t.ch n.val).seq.core = ({ ({ (s.ch n.val).seq with pc := (s.ch n.val).seq.pc + 1 } : Seq).setG rd
        (BitVec.ofNat 32 code.toNat) with fz := (s.ch n.val).evGood } : Seq).core
      ∧ (t.ch n.val).ev = none := by
  have hcounted : ((s.counted n j).ch n.val).ev = some code := (s.counted_chan n j Chan.ev (fun _ _ => rfl) n.val).trans hev
  refine leads_air h hw rfl (rxWord_eq rd) ?_
  simp only [hcounted]
  rw [State.collectEvent_held hcounted, State.ch_modCh_same _ _ _ n.isLt, s.counted_ch_same]
  exact ⟨Seq.takeEvent_core h.run rd code _, rfl⟩

/-- Without an event RX goes by the window: it waits, or faults where that window gives it none. -/
theorem leads_rx_open {v : Window} {P : State → Prop} (hev : (s.ch n.val).ev = none) (hwin : (s.ch n.val).win = some v)
    (hp : P (if v.done || v.engine || v.taken then (s.counted n j).seqFault n.val 7 else (s.counted n j).block n.val (.rx rd))) :
    Leads (.rx n rd) s P := by
  have hcev : ((s.counted n j).ch n.val).ev = none := (s.counted_chan n j Chan.ev (fun _ _ => rfl) n.val).trans hev
  have hcwin : ((s.counted n j).ch n.val).win = some v := (s.counted_chan n j Chan.win (fun _ _ => rfl) n.val).trans hwin
  refine leads_air h hw rfl (rxWord_eq rd) ?_
  simp only [hcev, hcwin]
  rwa [State.collectEvent_waits hcev]

theorem leads_rx_none (hc : s.canon = true) (hj : s.job? j.id = some j) (hev : (s.ch n.val).ev = none)
    (hwin : (s.ch n.val).win = none) : Leads (.rx n rd) s (FaultTo n s j 7) := by
  have hcev : ((s.counted n j).ch n.val).ev = none := (s.counted_chan n j Chan.ev (fun _ _ => rfl) n.val).trans hev
  have hcwin : ((s.counted n j).ch n.val).win = none := (s.counted_chan n j Chan.win (fun _ _ => rfl) n.val).trans hwin
  refine leads_air h hw rfl (rxWord_eq rd) ?_
  simp only [hcev, hcwin]
  exact faultTo_counted h hc hj 7

end

/-- Settles O21: RX by the event that is held and by the window. -/
theorem seqReceive : Obligations.SeqReceive := by
  unfold Obligations.SeqReceive
  intro s n j rd hc hj h c q took
  refine ⟨leads_rx_windup h, fun hw => ⟨fun code => leads_rx_held h hw, fun v hev hwin hused => ?_,
    fun v hev hwin hdone hengine htaken => ?_, leads_rx_none h hw hc hj⟩⟩
  · refine leads_rx_open h hw hev hwin ?_
    have hgiven : (v.done || v.engine || v.taken) = true := by simpa [or_assoc] using hused
    rw [if_pos hgiven]
    exact faultTo_counted h hc hj 7
  · refine leads_rx_open h hw hev hwin ?_
    rw [hdone, hengine, htaken]
    exact seqTo_modSeq s n j true (fun q => { q with run := .blocked (.rx rd) }) _ rfl rfl

end Sys2Proof.Machine
end

section
/-!
PROOFS. What the rest of the device leaves of the receive path: the registers of the channels and their response windows.
-/

namespace Sys2Proof.Machine

/-! ## What is kept -/

/-- From `s` to `t` no register of a channel has been written (CHn_, 0x2000 to 0x27FF), and every response window is as it was. -/
structure KeepsRx (s t : State) : Prop where
  regs : ∀ a, 0x2000 ≤ a → a < 0x2800 → t.rdWord a = s.rdWord a
  win : ∀ m, (t.ch m).win = (s.ch m).win

section

variable {s t : State}

theorem KeepsRx.refl : KeepsRx s s := ⟨fun _ _ _ => rfl, fun _ => rfl⟩

theorem KeepsRx.rd (h : KeepsRx s t) {f : Fld} (hlo : 0x2000 ≤ f.addr) (hhi : f.addr < 0x2800) : t.rd f = s.rd f :=
  congrArg (getBits · f.lo f.w) (h.regs f.addr hlo hhi)

/-- Other parts of the device do not matter. -/
theorem KeepsRx.same {u : State} (h : KeepsRx s t) (hr : u.regs = t.regs) (hc : u.chans = t.chans) : KeepsRx s u where
  regs a hlo hhi := (State.rdWord_of_regs hr a).trans (h.regs a hlo hhi)
  win m := by
    rw [← h.win m, State.ch, State.ch, hc]

/-- A field of a register that is none of a channel's. -/
abbrev Fld.offChannels (f : Fld) : Prop := f.addr < 0x2000 ∨ 0x2800 ≤ f.addr

theorem KeepsRx.wr {f : Fld} {v : Nat} (hf : f.offChannels) (h : KeepsRx s t) : KeepsRx s (t.wr f v) where
  regs a hlo hhi := (State.rdWord_wr_other (by omega)).trans (h.regs a hlo hhi)
  win := h.win

theorem KeepsRx.bump {f : Fld} {k : Nat} (hf : f.offChannels) (h : KeepsRx s t) : KeepsRx s (t.bump f k) := .wr hf h

theorem KeepsRx.setFlag {f : Fld} (hf : f.offChannels) (h : KeepsRx s t) : KeepsRx s (t.setFlag f) := .wr hf h

/-- A change of a channel that leaves its window. -/
theorem KeepsRx.modCh {n : Nat} {g : Chan → Chan} (hg : ∀ c, (g c).win = c.win) (h : KeepsRx s t) : KeepsRx s (t.modCh n g) where
  regs := h.regs
  win m := (State.ch_modCh_keeps Chan.win (hg _) m).trans (h.win m)

theorem KeepsRx.modSeq {n : Nat} {g : Seq → Seq} (h : KeepsRx s t) : KeepsRx s (t.modSeq n g) := .modCh (fun _ => rfl) h

theorem KeepsRx.modInv {n : Nat} {g : InvCtx → InvCtx} (h : KeepsRx s t) : KeepsRx s (t.modInv n g) := .modCh (fun _ => rfl) h

theorem KeepsRx.modJob {id : Nat} {g : Job → Job} (h : KeepsRx s t) : KeepsRx s (t.modJob id g) := .same h rfl rfl

theorem KeepsRx.dropJob {id : Nat} (h : KeepsRx s t) : KeepsRx s (t.dropJob id) := .same h rfl rfl

theorem KeepsRx.takeFresh {α : Type} {g : Nat → α} (h : KeepsRx s t) : KeepsRx s (t.takeFresh g).2 := .same h rfl rfl

theorem KeepsRx.ite {c : Prop} [Decidable c] {u v : State} (hu : KeepsRx s u) (hv : KeepsRx s v) : KeepsRx s (if c then u else v) := by
  split
  · exact hu
  · exact hv

theorem KeepsRx.each {α : Type} {l : List α} {g : State → α → State} (hg : ∀ t a, KeepsRx s t → KeepsRx s (g t a)) (h : KeepsRx s t) :
    KeepsRx s (t.each l g) := State.each_induction hg l t h

/-! ## Fields (R49) -/

theorem KeepsRx.setField {n : Nat} {f : FieldState} (h : KeepsRx s t) : KeepsRx s (t.setField n f) := .modCh (fun _ => rfl) h

theorem KeepsRx.teamField {n : Nat} {f : FieldState} (h : KeepsRx s t) : KeepsRx s (t.teamField n f) := .each (fun _ _ => .setField) h

theorem KeepsRx.stopField {n : Nat} (h : KeepsRx s t) : KeepsRx s (t.stopField n) := by
  unfold State.stopField
  split
  · exact .modCh (fun _ => rfl) (.modCh (fun _ => rfl) h)
  all_goals exact .modCh (fun _ => rfl) h

theorem KeepsRx.stopFields {m : BitVec 8} (h : KeepsRx s t) : KeepsRx s (t.stopFields m) := .each (fun _ _ => .stopField) h

/-! ## The end of a job (R19, R22) -/

/-- Reserved beats are counted apart from the window. -/
theorem Chan.reserve_win (c : Chan) (beat a b : Nat) : (c.reserve beat a b).win = c.win := by
  unfold Chan.reserve
  extract_lets first last c1
  split <;> rfl

theorem KeepsRx.reserveBeats {n a b : Nat} (h : KeepsRx s t) : KeepsRx s (t.reserveBeats n a b) := by
  unfold State.reserveBeats
  split
  · exact h
  · exact .each (fun _ _ => .modCh fun c => c.reserve_win _ _ _) h

theorem KeepsRx.endExchange {n : Nat} (h : KeepsRx s t) : KeepsRx s (t.endExchange n) := by
  unfold State.endExchange
  split
  · exact h
  extract_lets wcx stop isLate s0 s1 s2
  have h0 : KeepsRx s s0 := .ite (.reserveBeats h) h
  have h1 : KeepsRx s s1 := .ite (.bump (.inr (Nat.le_add_right_of_le (by decide))) h0) h0
  have h2 : KeepsRx s s2 := .modCh (fun _ => rfl) h1
  refine .ite h2 ?_
  split
  · exact h2
  · exact .modJob h2

theorem KeepsRx.sendLate {id : Nat} {l : List Sighting} (h : KeepsRx s t) : KeepsRx s (t.sendLate id l) := by
  unfold State.sendLate State.enqueueLate
  split
  · exact .modJob h
  · exact .same h rfl rfl

theorem KeepsRx.releaseHeld {n id : Nat} (h : KeepsRx s t) : KeepsRx s (t.releaseHeld n id) := by
  unfold State.releaseHeld
  split
  · exact h
  · exact .ite (.modInv h) (.sendLate (.modInv h))

theorem KeepsRx.releaseFound {n id : Nat} (h : KeepsRx s t) : KeepsRx s (t.releaseFound n id) := .sendLate (.modInv h)

theorem KeepsRx.endRunning {j : Job} {rc : Byte} {part : Bool} {detail : BitVec 16} (h : KeepsRx s t) :
    KeepsRx s (t.endRunning j rc part detail) := by
  unfold State.endRunning
  extract_lets n s0 q items record st s1 s2 s3
  have h2 : KeepsRx s s2 := .modCh (fun _ => rfl) (.modJob (.releaseFound (.releaseHeld h)))
  have h3 : KeepsRx s s3 := .ite (.endExchange h2) h2
  exact .stopFields (.each (fun _ _ => .modCh (fun _ => rfl)) h3)

theorem KeepsRx.postEntry {r units : Nat} {hdr payload : List Byte} (hr : r < 32) (h : KeepsRx s t) :
    KeepsRx s (t.postEntry r units hdr payload) := by
  refine .bump (.inl ?_) (.same h rfl rfl)
  simp only [R.RES_CNT_N_POST, R.RES_CNT]
  omega

theorem KeepsRx.unclaim {id : Nat} (h : KeepsRx s t) : KeepsRx s (t.unclaim id) :=
  .each (fun _ _ h => .ite (.same h rfl rfl) h) h

theorem KeepsRx.postReceipt {j : Job} {rc : Byte} (h : KeepsRx s t) : KeepsRx s (t.postReceipt j rc) := by
  unfold State.postReceipt
  extract_lets d hdr s1
  have h1 : KeepsRx s s1 := .unclaim (.postEntry j.ringNo_lt (.takeFresh h))
  exact .ite (.modJob h1) (.dropJob h1)

theorem KeepsRx.endJob {id : Nat} {rc : Byte} {part : Bool} {detail : BitVec 16} (h : KeepsRx s t) :
    KeepsRx s (t.endJob id rc part detail) := by
  unfold State.endJob
  split
  · exact h
  split
  · exact .postReceipt h
  · exact .endRunning h
  · exact .endRunning h
  · exact h

theorem KeepsRx.endJobInForce {id : Nat} {rc : Byte} {part : Bool} (h : KeepsRx s t) : KeepsRx s (t.endJobInForce id rc part) := by
  unfold State.endJobInForce
  split
  · exact h
  · exact .endJob h

theorem KeepsRx.seqFault {n : Nat} {code : Byte} (h : KeepsRx s t) : KeepsRx s (t.seqFault n code) := by
  have hcsq : ∀ f : Fld, f.addr = R.CSQ_FAULT n ∨ f.addr = R.CSQ_CNT n → f.offChannels := by
    rintro f (e | e)
    · exact .inr (e ▸ Nat.le_add_right_of_le (by decide))
    · exact .inr (e ▸ Nat.le_add_right_of_le (by decide))
  unfold State.seqFault
  split
  · exact h
  · exact .endJob (.bump (hcsq _ (.inr rfl)) (.setFlag (hcsq _ (.inl rfl)) (.wr (hcsq _ (.inl rfl)) (.wr (hcsq _ (.inl rfl)) h))))

/-! ## What a ROM routine follows (R101, R172) -/

theorem KeepsRx.modRom {j : Job} {g : RomCtx → RomCtx} (h : KeepsRx s t) : KeepsRx s (t.modRom j g) := .ite (.modJob h) h

theorem KeepsRx.modWrite {j : Job} {g : WriteCtx → WriteCtx} (h : KeepsRx s t) : KeepsRx s (t.modWrite j g) := .ite (.modSeq (.modJob h)) h

theorem KeepsRx.noteCommand {j : Job} {own : Bool} {mode : Nat} {f : List Byte} (h : KeepsRx s t) :
    KeepsRx s (t.noteCommand j own mode f) := by
  unfold State.noteCommand
  exact .modRom h

theorem KeepsRx.noteTx {j : Job} {own cont : Bool} {mode nbytes bits : Nat} {f : List Byte} (h : KeepsRx s t) :
    KeepsRx s (t.noteTx j own mode f nbytes bits cont) := by
  unfold State.noteTx
  exact .modWrite h

/-! ## Patterns and transmits (R195, R196, R227) -/

theorem KeepsRx.takePattern {p : Nat} {members : BitVec 8} (h : KeepsRx s t) : KeepsRx s (t.takePattern p members) :=
  .each (fun _ _ h => .ite (.setFlag (.inr (by decide)) (.modCh (fun _ => rfl) h)) (.modCh (fun _ => rfl) h)) h

theorem KeepsRx.railRaise (h : KeepsRx s t) : KeepsRx s t.railRaise := .ite (.same h rfl rfl) (.same h rfl rfl)

theorem KeepsRx.selectPattern {n p : Nat} (h : KeepsRx s t) : KeepsRx s (t.selectPattern n p) := by
  unfold State.selectPattern
  split
  · exact h
  · refine .ite (.seqFault h) (.modSeq (.ite (.each (fun _ _ => .modCh (fun _ => rfl)) (.each (fun _ _ => .modCh (fun _ => rfl)) ?_)) ?_))
    all_goals exact .railRaise (.takePattern h)

theorem KeepsRx.waitForGate {n : Nat} {j : Job} (h : KeepsRx s t) : KeepsRx s (t.waitForGate n j) :=
  .stopFields (.modCh (fun _ => rfl) (.modJob h))

theorem KeepsRx.startMod {n : Nat} {j : Job} {r : TxReq} (h : KeepsRx s t) : KeepsRx s (t.startMod n j r) := by
  unfold State.startMod
  extract_lets u last coil s1 s2 body s3 s4 w
  have h1 : KeepsRx s s1 := .modCh (fun _ => rfl) (.ite h (.endExchange h))
  have h3 : KeepsRx s s3 := .noteTx (.noteCommand (.modJob h1))
  have h4 : KeepsRx s s4 := .ite h3 (.reserveBeats h3)
  exact .teamField (.each (fun _ _ => .modCh (fun _ => rfl)) h4)

theorem KeepsRx.tryTx {n : Nat} (h : KeepsRx s t) : KeepsRx s (t.tryTx n) := by
  unfold State.tryTx
  split
  · refine .ite ?_ h
    split
    · exact .endJobInForce (.endExchange h)
    · exact .ite (.startMod h) (.waitForGate h)
  · exact h

theorem KeepsRx.kick {n : Nat} (h : KeepsRx s t) : KeepsRx s (t.kick n) := by
  unfold State.kick
  split
  · exact .ite (.selectPattern h) h
  · exact .ite (.modSeq h) h
  · exact .tryTx h

theorem KeepsRx.afterExchange {n : Nat} (h : KeepsRx s t) : KeepsRx s (t.afterExchange n) := by
  unfold State.afterExchange
  refine .ite (.kick h) ?_
  split
  · exact .endJobInForce h
  · exact .ite (.each (fun _ _ => .stopField) h) (.kick h)

/-! ## Faults of a channel (R51, R52) -/

theorem KeepsRx.stopCoupling {n : Nat} (h : KeepsRx s t) : KeepsRx s (t.stopCoupling n) :=
  .ite (.wr (.inr (by decide)) (.setFlag (.inr (by decide)) (.same h rfl rfl))) h

theorem KeepsRx.cutAir {n : Nat} (h : KeepsRx s t) : KeepsRx s (t.cutAir n) := by
  unfold State.cutAir
  split
  iterate 7 exact .modSeq h
  · exact .modSeq (.modInv h)
  · exact h

theorem KeepsRx.leaveAir {n : Nat} (h : KeepsRx s t) : KeepsRx s (t.leaveAir n) := by
  unfold State.leaveAir
  refine .each (fun _ _ h => ?_) h
  split
  · exact .ite (.stopField (.setField h)) (.setField h)
  · exact .ite (.stopField (.setField h)) (.setField h)
  all_goals exact h

/-! ## Locates (R207, R209) -/

theorem KeepsRx.startLocate : ∀ {l : List LocReq} {t : State}, KeepsRx s t → KeepsRx s (t.startLocate l)
  | [], _, h => .same h rfl rfl
  | q :: rest, t, h => by
    unfold State.startLocate
    extract_lets b0 b1 c
    refine .ite (.same h rfl rfl) (.ite ?_ (.same h rfl rfl))
    exact .startLocate (.bump (.inr (by decide)) (.setFlag (.inr (by decide)) h))

theorem KeepsRx.askLocate {j : Job} {sof : SwarmSof} (h : KeepsRx s t) : KeepsRx s (t.askLocate j sof).1 := by
  unfold State.askLocate
  split
  · exact h
  split
  · exact .bump (.inr (by decide)) h
  split
  · exact .bump (.inr (by decide)) h
  · exact .startLocate (.same h rfl rfl)

end

end Sys2Proof.Machine
end

section
/-!
PROOFS. Reception: the timeout, the SOF, the end of a frame and its event, and the fault of the channel (R51, R81, R91 to R94, R101, R105, R230).
-/

namespace Sys2Proof.Machine

/-! ## The close of a window (R93, R94) -/

/-- The close of a window writes no register of a channel, and leaves no window. -/
theorem State.closeWindow_spec (s : State) (n : Ch) :
    (∀ a, 0x2000 ≤ a → a < 0x2800 → (s.closeWindow n.val).rdWord a = s.rdWord a) ∧ ((s.closeWindow n.val).ch n.val).win = none := by
  unfold State.closeWindow
  extract_lets s0 s1 s2
  have h0 : KeepsRx s s0 := by
    unfold s0
    split
    · exact .refl
    · refine .ite .refl ?_
      unfold State.noteClose
      exact .modWrite .refl
  have hwin : (s1.ch n.val).win = none := congrArg Chan.win (State.ch_modCh_same _ n.val _ n.isLt)
  have h2 : KeepsRx s1 s2 := .ite (.modCh (fun _ => rfl) .refl) (.endExchange .refl)
  obtain ⟨hregs, hkept⟩ : KeepsRx s1 (s2.afterExchange n.val) := .afterExchange h2
  exact ⟨fun a hlo hhi => (hregs a hlo hhi).trans ((KeepsRx.teamField (f := .on) h0).regs a hlo hhi), (hkept n.val).trans hwin⟩

/-! ## The event of a window -/

theorem State.modWrite_regs (s : State) (j : Job) (g : WriteCtx → WriteCtx) : (s.modWrite j g).regs = s.regs := by
  unfold State.modWrite
  split <;> rfl

theorem State.noteEvent_regs (s : State) (j : Job) (code : Nat) (good : Bool) (nbits : Nat) (d : List Byte) :
    (s.noteEvent j code good nbits d).regs = s.regs := by
  unfold State.noteEvent State.noteAnswer
  rw [State.modWrite_regs, State.modRom_regs]

theorem State.handEvent_regs (s : State) (n code : Nat) (good : Bool) : (s.handEvent n code good).regs = s.regs := by
  unfold State.handEvent
  split
  · rfl
  · split <;> rfl

/-- The counters of a window without a response. -/
theorem State.countEvent_noResponse (s : State) (n crc : Nat) :
    s.countEvent n 1 crc 0 = (s.wr (R.CH_RXSTAT_LAST_FEV n) 1).bump (R.CH_RXCNT_1_N_NORESP n) := by
  simp [State.countEvent, deliveredCode]

/-- What the event of a window without a response leaves in the registers of the channel. -/
theorem State.noResponse_rd {s : State} (n : Nat) (hw : RegFile.wf s.regs = true) :
    let u := (s.wr (R.CH_RXSTAT_LAST_FEV n) 1).bump (R.CH_RXCNT_1_N_NORESP n)
    u.rd (R.CH_RXSTAT_LAST_FEV n) = 1 ∧ Counts (R.CH_RXCNT_1_N_NORESP n) s u := by
  intro u
  let v := s.wr (R.CH_RXSTAT_LAST_FEV n) 1
  have hv : RegFile.wf v.regs = true := s.wr_wf _ _ hw
  have hapart : R.CH_RXSTAT n ≠ R.CH_RXCNT_1 n := by
    simp only [R.CH_RXSTAT, R.CH_RXCNT_1]
    omega
  have hev : v.rd (R.CH_RXSTAT_LAST_FEV n) = 1 := s.rd_wr_same (R.CH_RXSTAT_LAST_FEV n) 1 hw (Nat.le_of_ble_eq_true rfl)
  have hcount : Counts (R.CH_RXCNT_1_N_NORESP n) v u := counts_bump v _ hv (Nat.le_of_ble_eq_true rfl)
  have hsame : v.rd (R.CH_RXCNT_1_N_NORESP n) = s.rd (R.CH_RXCNT_1_N_NORESP n) :=
    s.rd_wr_other (R.CH_RXSTAT_LAST_FEV n) (R.CH_RXCNT_1_N_NORESP n) 1 hw (.inl hapart.symm)
  refine ⟨?_, ?_⟩
  · exact (v.rd_wr_other (R.CH_RXCNT_1_N_NORESP n) (R.CH_RXSTAT_LAST_FEV n) _ hv (.inl hapart)).trans hev
  · rwa [Counts, hsame] at hcount

/-! ## The timeout (R93) -/

theorem State.jobLead_of_jobs {s t : State} (h : t.jobs = s.jobs) (n : Nat) : t.jobLead n = s.jobLead n := by
  rw [State.jobLead, h, State.jobLead]

section

variable {s : State} {n : Ch} {w : Window} {j : Job} (hlead : s.leadAt n.val = n.val) (hwin : (s.ch n.val).win = some w)
  (hdone : w.done = false)
include hlead hwin hdone

theorem exec_responseTimeout (hengine : w.engine = false) (hj : s.jobLead n.val = some j) (hsof : w.sof = false) :
    exec (.responseTimeout n) s = .next (((((((s.wr (R.CH_RXSTAT_LAST_FEV n.val) 1).bump (R.CH_RXCNT_1_N_NORESP n.val)).modCh n.val
      fun c => { c with win := some { w with done := true } }).noteEvent j 1 false 0 []).handEvent n.val 1 false).closeWindow n.val)) := by
  have hjob : ∀ g, (((s.wr (R.CH_RXSTAT_LAST_FEV n.val) 1).bump (R.CH_RXCNT_1_N_NORESP n.val)).modCh n.val g).jobLead n.val = some j :=
    fun _ => (State.jobLead_of_jobs rfl n.val).trans hj
  change execResponseTimeout n s = _
  simp only [execResponseTimeout, hlead, hwin, hsof, hdone, hengine, Bool.or_self, Bool.false_eq_true, if_false,
    State.countEvent_noResponse, hjob]

theorem leads_responseTimeout (hw : RegFile.wf s.regs = true) (hengine : w.engine = false) (hj : s.jobLead n.val = some j)
    (hsof : w.sof = false) : Leads (.responseTimeout n) s fun t => (t.ch n.val).win = none
      ∧ t.rd (R.CH_RXSTAT_LAST_FEV n.val) = 1 ∧ Counts (R.CH_RXCNT_1_N_NORESP n.val) s t := by
  have hrun := exec_responseTimeout hlead hwin hdone hengine hj hsof
  obtain ⟨hev, hcount⟩ := State.noResponse_rd n.val hw
  generalize (s.wr (R.CH_RXSTAT_LAST_FEV n.val) 1).bump (R.CH_RXCNT_1_N_NORESP n.val) = u at hrun hev hcount
  have hv : (((u.modCh n.val fun c => { c with win := some { w with done := true } }).noteEvent j 1 false 0 []).handEvent n.val 1
      false).regs = u.regs := (State.handEvent_regs _ _ _ _).trans (State.noteEvent_regs _ _ _ _ _ _)
  generalize ((u.modCh n.val fun c => { c with win := some { w with done := true } }).noteEvent j 1 false 0 []).handEvent n.val 1
    false = v at hrun hv
  obtain ⟨hregs, hnone⟩ := v.closeWindow_spec n
  have hrd (f : Fld) (hlo : 0x2000 ≤ f.addr) (hhi : f.addr < 0x2800) : (v.closeWindow n.val).rd f = u.rd f :=
    congrArg (getBits · f.lo f.w) ((hregs f.addr hlo hhi).trans (State.rdWord_of_regs hv f.addr))
  refine ⟨_, hrun, hnone, ?_, ?_⟩
  · rw [hrd, hev] <;> simp only [R.CH_RXSTAT_LAST_FEV, R.CH_RXSTAT] <;> omega
  · rw [Counts, hrd, hcount] <;> simp only [R.CH_RXCNT_1_N_NORESP, R.CH_RXCNT_1] <;> omega

/-! ## Subcarrier too early (R92) -/

theorem exec_earlySubcarrier (hsof : w.sof = false) :
    exec (.earlySubcarrier n) s = .next (s.bump (R.CH_RXCNT_2_N_EARLY n.val)) := by
  change execEarlySubcarrier n s = _
  simp only [execEarlySubcarrier, hlead, hwin, hsof, hdone, Bool.or_self, Bool.false_eq_true, if_false]

end

/-! ## A SOF (R81, R91, R92, R105) -/

theorem min_mod_word (v : Nat) : min v 65535 % 2 ^ 16 = min v 65535 := Nat.mod_eq_of_lt (by omega)

/-- The registers that the chain of a member writes at a SOF (R105). -/
theorem State.measured_rd {s : State} (n rssi noise : Nat) (i q : Int) (hw : RegFile.wf s.regs = true) :
    let t := (((s.wr (R.CH_RXRSSI_RSSI n) (min rssi 65535)).wr (R.CH_RXRSSI_NOISE n) (min noise 65535)).wrS (R.CH_RXVEC_VEC_I n) i).wrS
      (R.CH_RXVEC_VEC_Q n) q
    RegFile.wf t.regs = true ∧ t.rd (R.CH_RXRSSI_RSSI n) = min rssi 65535 ∧ t.rd (R.CH_RXRSSI_NOISE n) = min noise 65535 := by
  have h1 := s.wr_wf (R.CH_RXRSSI_RSSI n) (min rssi 65535) hw
  have hrssi := (s.rd_wr_same (R.CH_RXRSSI_RSSI n) (min rssi 65535) hw (Nat.le_of_ble_eq_true rfl)).trans (min_mod_word rssi)
  generalize s.wr (R.CH_RXRSSI_RSSI n) (min rssi 65535) = s1 at h1 hrssi
  have h2 := s1.wr_wf (R.CH_RXRSSI_NOISE n) (min noise 65535) h1
  have hnoise := (s1.rd_wr_same (R.CH_RXRSSI_NOISE n) (min noise 65535) h1 (Nat.le_of_ble_eq_true rfl)).trans (min_mod_word noise)
  have hrssi2 := (s1.rd_wr_other (R.CH_RXRSSI_NOISE n) (R.CH_RXRSSI_RSSI n) (min noise 65535) h1
    (.inr (.inl (Nat.le_of_ble_eq_true rfl)))).trans hrssi
  generalize s1.wr (R.CH_RXRSSI_NOISE n) (min noise 65535) = s2 at h2 hnoise hrssi2
  have hvec {u : State} {f g : Fld} (v : Nat) (hf : f.addr = R.CH_RXRSSI n) (hg : g.addr = R.CH_RXVEC n)
      (h : RegFile.wf u.regs = true) : (u.wr g v).rd f = u.rd f := by
    refine u.rd_wr_other g f v h (.inl ?_)
    rw [hf, hg]
    simp only [R.CH_RXRSSI, R.CH_RXVEC]
    omega
  have h3 : RegFile.wf (s2.wrS (R.CH_RXVEC_VEC_I n) i).regs = true := s2.wr_wf _ _ h2
  exact ⟨State.wr_wf _ _ _ h3, (hvec _ rfl rfl h3).trans ((hvec _ rfl rfl h2).trans hrssi2),
    (hvec _ rfl rfl h3).trans ((hvec _ rfl rfl h2).trans hnoise)⟩

/-- What the chain of a member measures. -/
theorem State.measureSof_spec {s : State} (m : SofMeas) (hw : RegFile.wf s.regs = true) :
    RegFile.wf (s.measureSof m).regs = true ∧ (s.measureSof m).rd (R.CH_RXRSSI_RSSI m.ch.val) = min m.rssi 65535
      ∧ (s.measureSof m).rd (R.CH_RXRSSI_NOISE m.ch.val) = min m.noise 65535
      ∧ ((s.measureSof m).ch m.ch.val).rxf = (s.ch m.ch.val).rxf := by
  unfold State.measureSof
  extract_lets n d s1 s2
  obtain ⟨hw2, hrssi, hnoise⟩ : RegFile.wf s2.regs = true ∧ s2.rd (R.CH_RXRSSI_RSSI n) = min m.rssi 65535
      ∧ s2.rd (R.CH_RXRSSI_NOISE n) = min m.noise 65535 := State.measured_rd n m.rssi m.noise _ _ hw
  have hchans : s2.chans = s.chans := by simp only [s2, s1, State.wrS, State.wr_chans]
  have hch : s2.ch m.ch.val = s.ch m.ch.val := by rw [State.ch, hchans, State.ch]
  split
  · rw [State.modCh_regs, State.rd_of_regs (State.modCh_regs _ _ _), State.rd_of_regs (State.modCh_regs _ _ _)]
    exact ⟨hw2, hrssi, hnoise, (State.ch_modCh_keeps Chan.rxf rfl _).trans (congrArg Chan.rxf hch)⟩
  · exact ⟨hw2, hrssi, hnoise, congrArg Chan.rxf hch⟩

theorem KeepsRx.noteSof {s t : State} {j : Job} (h : KeepsRx s t) : KeepsRx s (t.noteSof j) := by
  unfold State.noteSof
  exact .modWrite h

/-- The window once its SOF has been detected: the frame has room when its record has. -/
def Window.started (w : Window) (c : Chan) (rssi fdt : Nat) : Window :=
  { w with sof := true, fdt := fdt, rssi := rssi, swarm := {}, room := decide (8 ≤ c.rxf.space rxSize) }

section

variable {s : State} {n : Ch} {w : Window} {j : Job} {m : SofMeas} {fdt : Nat} (hwin : (s.ch n.val).win = some w)
  (hdone : w.done = false) (hj : s.jobLead n.val = some j) (hsof : w.sof = false) (hm : m.ch = n) (hteam : s.team n.val = [n.val])
  (hlevel : 4 * (s.rd (R.CH_RXTHR_MIN_DBUV n.val) : Int) ≤ levelOf (powOf m.rssi))
include hwin hdone hj hsof hm hteam hlevel

/-- A SOF at or above MIN_DBUV of a channel that moves alone. -/
theorem exec_sofDetect (hg : j.group = none) :
    exec (.sofDetect n [m] fdt) s = .next (if s.tooEarly n.val w fdt then s.bump (R.CH_RXCNT_2_N_EARLY n.val)
      else ((((({ s.measureSof m with fresh := (s.measureSof m).fresh + 1 } : State).wr (R.CH_RXFDT_FDT n.val) (min fdt 32767)).modCh n.val
        fun c => { c with win := some (w.started c m.rssi fdt) }).modInv n.val fun c => { c with sofSeen := true }).noteSof j)) := by
  have hlead : s.leadAt n.val = n.val := by
    rw [State.leadAt, hteam]
    rfl
  have hmeas : ([m].filter fun k => (s.team n.val).contains k.ch.val) = [m] := by
    simp [hteam, hm]
  have htaken : (w.sof || w.done || [m].isEmpty
      || decide (levelOf (([m].map fun k => powOf k.rssi).sum) < 4 * (s.rd (R.CH_RXTHR_MIN_DBUV n.val) : Int))) = false := by
    rw [hsof, hdone]
    exact decide_eq_false (Int.not_lt.mpr hlevel)
  have hmax : [m].foldl (fun a k => max a k.rssi) 0 = m.rssi := Nat.zero_max _
  change execSofDetect n [m] fdt s = _
  simp only [execSofDetect, hlead, hmeas, hwin, hj, htaken, hmax, hg, Bool.false_eq_true, if_false, Option.isSome_none]
  split <;> rfl

theorem exec_sofDetect_early (hg : j.group = none)
    (hearly : 100 * (16 * (fdt + 1)) + 1356 * s.rd (R.CH_RXTIME_EARLY_US n.val) ≤ 100 * w.earliest) :
    exec (.sofDetect n [m] fdt) s = .next (s.bump (R.CH_RXCNT_2_N_EARLY n.val)) := by
  rw [exec_sofDetect hwin hdone hj hsof hm hteam hlevel hg, State.tooEarly, decide_eq_true hearly]
  rfl

theorem leads_sofDetect (hw : RegFile.wf s.regs = true) (hg : j.group = none)
    (htime : 100 * w.earliest < 100 * (16 * (fdt + 1)) + 1356 * s.rd (R.CH_RXTIME_EARLY_US n.val)) :
    Leads (.sofDetect n [m] fdt) s fun t => t.rd (R.CH_RXFDT_FDT n.val) = min fdt 32767
      ∧ t.rd (R.CH_RXRSSI_RSSI n.val) = min m.rssi 65535 ∧ t.rd (R.CH_RXRSSI_NOISE n.val) = min m.noise 65535
      ∧ ∃ v, (t.ch n.val).win = some v ∧ v.sof = true ∧ v.fdt = fdt ∧ v.rssi = m.rssi
        ∧ v.room = decide ((s.ch n.val).rxf.data.length + 8 ≤ 2048) := by
  subst hm
  obtain ⟨hw1, hrssi, hnoise, hrxf⟩ := s.measureSof_spec m hw
  let u : State := { s.measureSof m with fresh := (s.measureSof m).fresh + 1 }
  let v := (u.wr (R.CH_RXFDT_FDT m.ch.val) (min fdt 32767)).modCh m.ch.val fun c => { c with win := some (w.started c m.rssi fdt) }
  have hkept : KeepsRx v ((v.modInv m.ch.val fun c => { c with sofSeen := true }).noteSof j) := .noteSof (.modInv .refl)
  have hch : v.ch m.ch.val = { u.ch m.ch.val with win := some (w.started (u.ch m.ch.val) m.rssi fdt) } :=
    State.ch_modCh_same (u.wr _ _) m.ch.val _ m.ch.isLt
  have hother {f : Fld} (hf : f.addr = R.CH_RXRSSI m.ch.val) : v.rd f = (s.measureSof m).rd f := by
    refine u.rd_wr_other _ f _ hw1 (.inl ?_)
    rw [hf]
    simp only [R.CH_RXRSSI, R.CH_RXFDT_FDT, R.CH_RXFDT]
    omega
  refine ⟨_, exec_sofDetect hwin hdone hj hsof rfl hteam hlevel hg, ?_⟩
  rw [State.tooEarly, decide_eq_false (Nat.not_le.mpr htime), if_neg Bool.false_ne_true]
  refine ⟨(hkept.rd ?_ ?_).trans ?_, (hkept.rd ?_ ?_).trans ((hother rfl).trans hrssi), (hkept.rd ?_ ?_).trans ((hother rfl).trans hnoise),
    w.started (u.ch m.ch.val) m.rssi fdt, (hkept.win m.ch.val).trans (congrArg Chan.win hch), rfl, rfl, rfl, ?_⟩
  case refine_3 =>
    exact (u.rd_wr_same _ _ hw1 (Nat.le_of_ble_eq_true rfl)).trans (Nat.mod_eq_of_lt (Nat.lt_succ_of_le (Nat.min_le_right _ _)))
  case refine_8 =>
    have hlen : (u.ch m.ch.val).rxf = (s.ch m.ch.val).rxf := hrxf
    refine decide_eq_decide.mpr ?_
    rw [hlen, Fifo.space, rxSize]
    omega
  all_goals
    simp only [R.CH_RXFDT_FDT, R.CH_RXFDT, R.CH_RXRSSI_RSSI, R.CH_RXRSSI_NOISE, R.CH_RXRSSI]
    omega

end

/-! ## A fault of the channel (R230) -/

section

variable {s : State} {n : Ch} {w : Window} {j : Job}

theorem State.noteFault_regs (s : State) (j : Job) (live inMod : Bool) : (s.noteFault j live inMod).regs = s.regs := by
  unfold State.noteFault
  rw [State.modWrite_regs, State.modRom_regs]

/-- The fault of a channel ends a window that has given no event with F_FCUT. -/
theorem State.faultJob_window (hw : RegFile.wf s.regs = true) (hj : s.jobLead n.val = some j) (hwin : (s.ch n.val).win = some w)
    (hdone : w.done = false) :
    (s.faultJob n.val).rd (R.CH_RXSTAT_LAST_FEV n.val) = 8 ∧ ((s.faultJob n.val).ch n.val).win = none := by
  let s1 := s.noteFault j (s.ch n.val).exch.isSome (decide ((s.ch n.val).exch.isSome ∧ (s.ch n.val).win.isNone))
  let s2 := s1.wr (R.CH_RXSTAT_LAST_FEV n.val) 8
  let v := s2.modCh n.val fun c => { c with win := none, txReq := none, txNow := none, ev := none }
  have hev : s2.rd (R.CH_RXSTAT_LAST_FEV n.val) = 8 :=
    s1.rd_wr_same _ _ ((s.noteFault_regs j _ _).symm ▸ hw) (Nat.le_of_ble_eq_true rfl)
  have hnone : (v.ch n.val).win = none := congrArg Chan.win (State.ch_modCh_same s2 n.val _ n.isLt)
  have hkept : KeepsRx v (s.faultJob n.val) := by
    unfold State.faultJob
    rw [hj]
    simp only
    have hopen : ((s.ch n.val).win.map fun w : Window => !w.done) == some true := by
      rw [hwin]
      simp [hdone]
    rw [if_pos hopen]
    have h3 : KeepsRx v ((v.endExchange n.val).leaveAir n.val) := .leaveAir (.endExchange .refl)
    refine .ite h3 ?_
    split
    · exact .endJobInForce h3
    · exact .ite (.seqFault h3) (.modSeq (.cutAir (.modJob h3)))
  refine ⟨(hkept.rd ?_ ?_).trans hev, (hkept.win n.val).trans hnone⟩
  all_goals
    simp only [R.CH_RXSTAT_LAST_FEV, R.CH_RXSTAT]
    omega

/-- An overcurrent in a window that has given no event ends it with F_FCUT. -/
theorem leads_overcurrent_window (hw : RegFile.wf s.regs = true) (hlead : s.leadAt n.val = n.val) (hj : s.jobLead n.val = some j)
    (hwin : (s.ch n.val).win = some w) (hdone : w.done = false) (hf : (s.ch n.val).field = .rxw) :
    Leads (.overcurrent n) s fun t => t.rd (R.CH_RXSTAT_LAST_FEV n.val) = 8 ∧ (t.ch n.val).win = none := by
  let v := s.faultChan n.val (R.CH_TXSTAT_OVC n.val) R.DIAG_CNT_1_N_OVC
  let u := v.stopCoupling n.val
  have hhit : ([n.val].filter fun m => (s.ch m).field.live) = [n.val] := by
    rw [List.filter_singleton, hf]
    rfl
  have heq : s.faultChans [n.val] R.CH_TXSTAT_OVC R.DIAG_CNT_1_N_OVC = u.faultJob n.val := by
    unfold State.faultChans
    simp only [hhit, List.map_cons, List.map_nil, hlead]
    rfl
  have hv : v.jobs = s.jobs ∧ (v.ch n.val).win = (s.ch n.val).win := by
    unfold v State.faultChan
    split
    · exact ⟨rfl, State.ch_modCh_keeps Chan.win rfl _⟩
    · exact ⟨rfl, rfl⟩
  have hjobs : u.jobs = s.jobs := by
    unfold u State.stopCoupling
    extract_lets
    split
    · exact hv.1
    · exact hv.1
  have hwu : RegFile.wf u.regs = true := (Spares.stopCoupling (.refl (State.faultChan_wf hw)) : Spares faultFlds v u).wf
  have hwinu : (u.ch n.val).win = some w := ((KeepsRx.stopCoupling .refl : KeepsRx v u).win n.val).trans (hv.2.trans hwin)
  obtain ⟨hev, hnone⟩ := State.faultJob_window hwu ((State.jobLead_of_jobs hjobs n.val).trans hj) hwinu hdone
  exact ⟨_, congrArg Host.Outcome.next heq, hev, hnone⟩

end

/-! ## The counters of an event (R101, R108) -/

/-- The fields that an event may count in besides N_OK, and the flag of one whose record did not fit. -/
def otherFlds (n : Nat) : List Fld :=
  [R.CH_RXCNT_0_N_CRC n, R.CH_RXCNT_1_N_NORESP n, R.CH_RXCNT_2_N_OVF n, R.CH_RXSTAT_OVF n, R.CH_RXCNT_1_N_COLL n]

/-- They are apart from LAST_FEV and N_OK. -/
theorem apart_otherFlds (n : Nat) : (∀ g ∈ otherFlds n, (R.CH_RXSTAT_LAST_FEV n).apart g) ∧ ∀ g ∈ otherFlds n, (R.CH_RXCNT_0_N_OK n).apart g := by
  simp only [otherFlds, List.forall_mem_cons, Fld.apart, R.CH_RXCNT_0_N_CRC, R.CH_RXCNT_1_N_NORESP, R.CH_RXCNT_2_N_OVF, R.CH_RXSTAT_OVF,
    R.CH_RXCNT_1_N_COLL, R.CH_RXSTAT_LAST_FEV, R.CH_RXCNT_0_N_OK, R.CH_RXSTAT, R.CH_RXCNT_0, R.CH_RXCNT_1, R.CH_RXCNT_2]
  exact ⟨⟨by omega, by omega, by omega, by omega, by omega, List.forall_mem_nil _⟩,
    by omega, by omega, by omega, by omega, by omega, List.forall_mem_nil _⟩

theorem State.countEvent_parts (s : State) (n code crc ncoll : Nat) :
    (s.countEvent n code crc ncoll).chans = s.chans ∧ (s.countEvent n code crc ncoll).jobs = s.jobs := by
  simp only [State.countEvent, apply_ite State.chans, apply_ite State.jobs, State.bump_chans, State.bump_jobs, State.setFlag_chans,
    State.setFlag_jobs, State.wr_chans, State.wr_jobs, ite_self, and_self]

/-- An event leaves its code in LAST_FEV, and a frame that is delivered is counted. -/
theorem State.countEvent_spec {s : State} (n : Nat) {code : Nat} (crc ncoll : Nat) (hw : RegFile.wf s.regs = true) (hcode : code < 16) :
    let t := s.countEvent n code crc ncoll
    RegFile.wf t.regs = true ∧ t.rd (R.CH_RXSTAT_LAST_FEV n) = code
      ∧ (deliveredCode code crc = true → Counts (R.CH_RXCNT_0_N_OK n) s t) := by
  unfold State.countEvent
  extract_lets s1 s2 s3 s4 s5 t
  have h1 : RegFile.wf s1.regs = true := s.wr_wf _ _ hw
  have hev1 : s1.rd (R.CH_RXSTAT_LAST_FEV n) = code :=
    (s.rd_wr_same (R.CH_RXSTAT_LAST_FEV n) code hw (Nat.le_of_ble_eq_true rfl)).trans (Nat.mod_eq_of_lt hcode)
  have hok1 : s1.rd (R.CH_RXCNT_0_N_OK n) = s.rd (R.CH_RXCNT_0_N_OK n) := by
    refine s.rd_wr_other (R.CH_RXSTAT_LAST_FEV n) (R.CH_RXCNT_0_N_OK n) code hw (.inl ?_)
    simp only [R.CH_RXCNT_0_N_OK, R.CH_RXCNT_0, R.CH_RXSTAT_LAST_FEV, R.CH_RXSTAT]
    omega
  clear_value s1
  obtain ⟨h2, hev2, hok2⟩ : RegFile.wf s2.regs = true ∧ s2.rd (R.CH_RXSTAT_LAST_FEV n) = code
      ∧ (deliveredCode code crc = true → s2.rd (R.CH_RXCNT_0_N_OK n) = min (s1.rd (R.CH_RXCNT_0_N_OK n) + 1) (2 ^ 16 - 1)) := by
    unfold s2
    split
    · have hb := s1.rd_wr_other (R.CH_RXCNT_0_N_OK n) (R.CH_RXSTAT_LAST_FEV n) (min (s1.rd (R.CH_RXCNT_0_N_OK n) + 1) (2 ^ 16 - 1)) h1 (.inl (by
        simp only [R.CH_RXCNT_0_N_OK, R.CH_RXCNT_0, R.CH_RXSTAT_LAST_FEV, R.CH_RXSTAT]
        omega))
      exact ⟨s1.wr_wf _ _ h1, hb.trans hev1, fun _ => counts_bump s1 (R.CH_RXCNT_0_N_OK n) h1 (Nat.le_of_ble_eq_true rfl)⟩
    · exact ⟨h1, hev1, fun h => absurd h ‹_›⟩
  clear_value s2
  have h3 : Spares (otherFlds n) s2 s3 := .ite (.bump (by simp [otherFlds]) (.refl h2)) (.refl h2)
  have h4 : Spares (otherFlds n) s2 s4 := .ite (.bump (by simp [otherFlds]) h3) h3
  have h5 : Spares (otherFlds n) s2 s5 := .ite (.setFlag (by simp [otherFlds]) (.bump (by simp [otherFlds]) h4)) h4
  have ht : Spares (otherFlds n) s2 t := .ite (.bump (by simp [otherFlds]) h5) h5
  obtain ⟨hevs, hoks⟩ := apart_otherFlds n
  refine ⟨ht.wf, (ht.rd _ hevs).trans hev2, fun hgot => ?_⟩
  rw [Counts, ht.rd _ hoks, hok2 hgot, hok1]
  rfl

/-! ## What a frame's event leaves (R101, R105) -/

/-- The collision registers are apart from N_OK. -/
theorem State.noteColl_spec {s : State} (n : Nat) (d : Decoded) (hw : RegFile.wf s.regs = true) :
    let t := s.noteColl n d
    RegFile.wf t.regs = true ∧ t.rd (R.CH_RXCNT_0_N_OK n) = s.rd (R.CH_RXCNT_0_N_OK n) ∧ t.chans = s.chans ∧ t.jobs = s.jobs := by
  unfold State.noteColl
  extract_lets s1 t
  refine ⟨State.wr_wf _ _ _ (s1.wr_wf _ _ (s.wrWord_wf _ _ hw)), congrArg (getBits · 0 16) ?_, ?_, ?_⟩
  · have hne : R.CH_RXCNT_0 n ≠ R.CH_RXCMAP_1 n ∧ R.CH_RXCNT_0 n ≠ R.CH_RXCMAP_0 n ∧ R.CH_RXCNT_0 n ≠ R.CH_RXCOLL n := by
      simp only [R.CH_RXCNT_0, R.CH_RXCMAP_1, R.CH_RXCMAP_0, R.CH_RXCOLL]
      omega
    obtain ⟨hhi, hlo, hcoll⟩ := hne
    calc t.rdWord (R.CH_RXCNT_0 n) = (s1.wr (R.CH_RXCMAP_0_CMAP_LO n) d.cmap).rdWord (R.CH_RXCNT_0 n) := State.rdWord_wr_other hhi
      _ = s1.rdWord (R.CH_RXCNT_0 n) := State.rdWord_wr_other hlo
      _ = s.rdWord (R.CH_RXCNT_0 n) := s.rdWord_wrWord_other _ hcoll
  · simp only [t, s1, State.wr_chans, State.wrWord_chans]
  · simp only [t, s1, State.wr_jobs, State.wrWord_jobs]

/-- The flags of a chain that clipped leave LAST_FEV and N_OK. -/
theorem State.clipFlags_spec {s : State} (l : List Nat) (n : Nat) (hw : RegFile.wf s.regs = true) :
    let t := s.each l fun s m => s.setFlag (R.CH_RXSTAT_CLIP m)
    t.rd (R.CH_RXSTAT_LAST_FEV n) = s.rd (R.CH_RXSTAT_LAST_FEV n) ∧ t.rd (R.CH_RXCNT_0_N_OK n) = s.rd (R.CH_RXCNT_0_N_OK n)
      ∧ t.chans = s.chans ∧ t.jobs = s.jobs := by
  intro t
  have ht : Spares (l.map R.CH_RXSTAT_CLIP) s t := .each (fun _ _ ha h => .setFlag (List.mem_map_of_mem ha) h) (.refl hw)
  have hparts : t.chans = s.chans ∧ t.jobs = s.jobs :=
    State.each_induction (P := fun t => t.chans = s.chans ∧ t.jobs = s.jobs) (g := fun s m => s.setFlag (R.CH_RXSTAT_CLIP m))
      (fun _ _ h => h) l s ⟨rfl, rfl⟩
  refine ⟨ht.rd _ ?_, ht.rd _ ?_, hparts⟩
  all_goals
    rintro g hg
    obtain ⟨m, -, rfl⟩ := List.mem_map.mp hg
    simp only [Fld.apart, R.CH_RXCNT_0_N_OK, R.CH_RXCNT_0, R.CH_RXSTAT_LAST_FEV, R.CH_RXSTAT_CLIP, R.CH_RXSTAT]
    omega

theorem State.startLocate_chans : ∀ (l : List LocReq) (s : State), (s.startLocate l).chans = s.chans
  | [], _ => rfl
  | q :: rest, s => by
    unfold State.startLocate
    extract_lets b0 b1 c
    split
    · rfl
    split
    · exact State.startLocate_chans rest _
    · rfl

theorem State.askLocate_chans (s : State) (j : Job) (sof : SwarmSof) : (s.askLocate j sof).1.chans = s.chans := by
  unfold State.askLocate
  split
  · rfl
  split
  · rfl
  split
  · rfl
  · exact State.startLocate_chans _ _

/-- A channel whose job has noted the DETAIL and the bytes of its entry. -/
def Chan.noting (c : Chan) (x : BitVec 16) (o : List OutItem) : Chan := { c with seq := { c.seq with detail := x, out := o } }

theorem State.modWrite_ch (s : State) (j : Job) (g : WriteCtx → WriteCtx) (m : Nat) :
    ∃ x o, (s.modWrite j g).ch m = (s.ch m).noting x o := by
  unfold State.modWrite
  split
  · by_cases hm : m = j.lead
    · subst hm
      exact ⟨(g j.write).detail, (g j.write).payload.map .byte, State.ch_modCh_same _ _ _ (leadOf_lt _)⟩
    · exact ⟨(s.ch m).seq.detail, (s.ch m).seq.out, State.ch_modCh_other _ _ hm⟩
  · exact ⟨(s.ch m).seq.detail, (s.ch m).seq.out, rfl⟩

theorem State.noteEvent_ch (s : State) (j : Job) (code : Nat) (good : Bool) (nbits : Nat) (d : List Byte) (m : Nat) :
    ∃ x o, (s.noteEvent j code good nbits d).ch m = (s.ch m).noting x o := by
  have hans : (s.noteAnswer j code good d).ch m = s.ch m := by
    unfold State.noteAnswer
    exact State.modRom_ch _ _ _ m
  unfold State.noteEvent
  extract_lets kind
  generalize s.noteAnswer j code good d = t at hans
  rw [← hans]
  exact t.modWrite_ch j _ m

/-- An RX that waits takes the event, in its register and Z. -/
theorem State.handEvent_waiting {s : State} {n : Nat} {rd : GReg} (h : (s.ch n).seq.run = .blocked (.rx rd)) (code : Nat) (good : Bool) :
    s.handEvent n code good = s.modSeq n fun q => q.takeEvent rd (BitVec.ofNat 4 code) good := by
  simp only [State.handEvent, State.blockOf, h]

/-- Without an RX that waits the event is held, unless the window has given one. -/
theorem State.handEvent_held {s : State} {n : Nat} (h : ∀ rd, (s.ch n).seq.run ≠ .blocked (.rx rd))
    (hw : ((s.ch n).win.map fun w : Window => w.taken) ≠ some true) (code : Nat) (good : Bool) :
    s.handEvent n code good = s.modCh n fun c => { c with ev := some (BitVec.ofNat 4 code), evGood := good } := by
  unfold State.handEvent State.blockOf
  split
  · rename_i rd hb
    split at hb
    · rename_i b hrun
      cases hb
      exact absurd hrun (h rd)
    · cases hb
  · rw [if_neg hw]

/-- The event leaves the window and the RX FIFO. -/
theorem State.handEvent_keeps (s : State) (n code : Nat) (good : Bool) (m : Nat) :
    ((s.handEvent n code good).ch m).win = (s.ch m).win ∧ ((s.handEvent n code good).ch m).rxf = (s.ch m).rxf := by
  unfold State.handEvent
  split
  · exact ⟨State.ch_modCh_keeps Chan.win rfl m, State.ch_modCh_keeps Chan.rxf rfl m⟩
  split
  · exact ⟨rfl, rfl⟩
  · exact ⟨State.ch_modCh_keeps Chan.win rfl m, State.ch_modCh_keeps Chan.rxf rfl m⟩

/-- A register that a frame event has been put into. -/
theorem Seq.takeEvent_getG (q : Seq) (rd : GReg) {code : Nat} (good : Bool) (h : code < 16) :
    (q.takeEvent rd (BitVec.ofNat 4 code) good).getG rd = BitVec.ofNat 32 code := by
  have hcode : (BitVec.ofNat 4 code).setWidth 32 = BitVec.ofNat 32 code := by
    apply BitVec.eq_of_toNat_eq
    simp only [BitVec.toNat_setWidth, BitVec.toNat_ofNat]
    omega
  unfold Seq.takeEvent
  rw [hcode]
  exact vector_getD_set_same q.g 0 _ rd.val rd.isLt

/-! ## The end of a frame (R101, R105) -/

section

variable {s : State} {n : Ch} {w : Window} {j : Job}

/-- A channel whose window has given the event of its frame. -/
def Chan.heard (c : Chan) (w : Window) (f : Fifo) : Chan := { c with win := some { w with done := true }, rxf := f }

/-- A frame has been measured and counted, its window has given its event, and the chains that clipped are marked. -/
def State.frameCounted (s : State) (n : Nat) (w : Window) (d : Decoded) (l : List Nat) : State :=
  ((((({ s with fresh := s.fresh + 1 } : State).noteColl n d).countEvent n d.code w.crc d.ncoll).modCh n
    fun c => { c with win := some { w with done := true } })).each l fun s m => s.setFlag (R.CH_RXSTAT_CLIP m)

theorem State.frameCounted_spec {d : Decoded} (l : List Nat) (hw : RegFile.wf s.regs = true) (hcode : d.code < 16) :
    let t := s.frameCounted n.val w d l
    t.rd (R.CH_RXSTAT_LAST_FEV n.val) = d.code ∧ (deliveredCode d.code w.crc = true → Counts (R.CH_RXCNT_0_N_OK n.val) s t)
      ∧ t.ch n.val = (s.ch n.val).heard w (s.ch n.val).rxf ∧ t.jobs = s.jobs := by
  intro t
  let s1 : State := { s with fresh := s.fresh + 1 }
  obtain ⟨hw1, hok1, hchans1, hjobs1⟩ : RegFile.wf (s1.noteColl n.val d).regs = true
      ∧ (s1.noteColl n.val d).rd (R.CH_RXCNT_0_N_OK n.val) = s.rd (R.CH_RXCNT_0_N_OK n.val)
      ∧ (s1.noteColl n.val d).chans = s.chans ∧ (s1.noteColl n.val d).jobs = s.jobs := s1.noteColl_spec n.val d hw
  have ht : t = (((s1.noteColl n.val d).countEvent n.val d.code w.crc d.ncoll).modCh n.val
    fun c => { c with win := some { w with done := true } }).each l fun s m => s.setFlag (R.CH_RXSTAT_CLIP m) := rfl
  generalize s1.noteColl n.val d = u at hw1 hok1 hchans1 hjobs1 ht
  obtain ⟨hw2, hev2, hok2⟩ := u.countEvent_spec n.val w.crc d.ncoll hw1 hcode
  obtain ⟨hchans2, hjobs2⟩ := u.countEvent_parts n.val d.code w.crc d.ncoll
  generalize u.countEvent n.val d.code w.crc d.ncoll = v at hw2 hev2 hok2 hchans2 hjobs2 ht
  let v' := v.modCh n.val fun c => { c with win := some { w with done := true } }
  have hv : v'.regs = v.regs := State.modCh_regs _ _ _
  obtain ⟨hev3, hok3, hchans3, hjobs3⟩ := State.clipFlags_spec (s := v') l n.val (hv ▸ hw2)
  rw [← ht] at hev3 hok3 hchans3 hjobs3
  refine ⟨hev3.trans ((State.rd_of_regs hv _).trans hev2), fun hgot => ?_, ?_, hjobs3.trans (hjobs2.trans hjobs1)⟩
  · have hcount := hok2 hgot
    rw [Counts, hok1] at hcount
    rw [Counts, hok3, State.rd_of_regs hv, hcount]
  · have hch : v.ch n.val = s.ch n.val := by rw [State.ch, hchans2, hchans1, State.ch]
    rw [State.ch, hchans3, ← State.ch, State.ch_modCh_same v n.val _ n.isLt, hch, Chan.heard]

/-- A locate that a frame may ask for leaves the channels. -/
theorem State.frameAsked_spec (s : State) (j : Job) (b : Prop) [Decidable b] (sof : SwarmSof) :
    let t := (if b then s.askLocate j sof else (s, none)).1
    KeepsRx s t ∧ t.chans = s.chans := by
  split
  · exact ⟨.askLocate .refl, s.askLocate_chans j sof⟩
  · exact ⟨.refl, rfl⟩

/-- The record that a frame delivers, behind its header. -/
def frameRecord (w : Window) (d : Decoded) (clip : Bool) : List Byte :=
  let raw := d.bits.map fun b => b.v
  let vals := if w.crc = 0 then raw else raw.take (raw.length - 16)
  recordBytes vals.length d w.rssi w.fdt clip ++ bitsBytes (vals.length / 8 + 1) vals

/-- The RX FIFO of a channel takes a record. -/
def Chan.takes (c : Chan) (bs : List Byte) : Chan := { c with rxf := c.rxf.append bs }

/-- The event of a frame: its code stands in LAST_FEV and is counted, its record is in the RX FIFO, and the event is handed over. -/
theorem State.endFrame_spec (hw : RegFile.wf s.regs = true) (hengine : w.engine = false) (hj : s.jobLead n.val = some j) (r : RxFrame)
    {d : Decoded} (hd : s.decodeFrame n.val w (s.ch n.val).airBits (if w.room then (s.ch n.val).rxf.space rxSize else 0) r = d)
    (hcode : d.code < 16) :
    let t := s.endFrame n.val w r
    let got := deliveredCode d.code w.crc
    let clipped := (s.team n.val).filter fun m => bitOf r.clip.toNat m
    t.rd (R.CH_RXSTAT_LAST_FEV n.val) = d.code ∧ (got = true → Counts (R.CH_RXCNT_0_N_OK n.val) s t)
      ∧ ∃ (u : State) (c : Chan) (x : BitVec 16) (o : List OutItem), t = u.handEvent n.val d.code got ∧ u.ch n.val = c.noting x o
        ∧ c = (s.ch n.val).heard w (if got then (s.ch n.val).rxf.append (frameRecord w d (!clipped.isEmpty)) else (s.ch n.val).rxf) := by
  intro t got clipped
  obtain ⟨hev, hok, hch, hjobs⟩ := State.frameCounted_spec (n := n) (w := w) clipped hw hcode
  let s3 := s.frameCounted n.val w d clipped
  obtain ⟨hkept, hchans⟩ := s3.frameAsked_spec j (d.code = 0) w.swarm
  let v := (if d.code = 0 then s3.askLocate j w.swarm else (s3, none)).1
  let s4 := if got then v.modCh n.val fun c => c.takes (frameRecord w d (!clipped.isEmpty)) else v
  have ht : ∃ k b, t = (s4.noteEvent j d.code got k b).handEvent n.val d.code got := by
    unfold t State.endFrame
    extract_lets c d' raw vals data got' s1 s2 s3'
    have hd' : d' = d := hd
    clear_value d'
    subst hd'
    rw [show s3'.jobLead n.val = some j from (State.jobLead_of_jobs hjobs n.val).trans hj]
    simp only [hengine, Bool.false_eq_true, if_false]
    exact ⟨_, _, rfl⟩
  obtain ⟨k, b, ht⟩ := ht
  obtain ⟨x, o, hnoted⟩ := s4.noteEvent_ch j d.code got k b n.val
  have hregs : t.regs = s4.regs := by rw [ht, State.handEvent_regs, State.noteEvent_regs]
  obtain ⟨hregs4, hch4⟩ : s4.regs = v.regs
      ∧ s4.ch n.val = (s.ch n.val).heard w (if got then (s.ch n.val).rxf.append (frameRecord w d (!clipped.isEmpty)) else (s.ch n.val).rxf) := by
    have hch3 : v.ch n.val = s3.ch n.val := congrArg (fun c : Vector Chan 8 => c.toList.getD n.val {}) hchans
    unfold s4
    split
    · refine ⟨State.modCh_regs _ _ _, (State.ch_modCh_same _ _ _ n.isLt).trans ?_⟩
      rw [hch3, hch]
      rfl
    · exact ⟨rfl, hch3.trans hch⟩
  have hrd (f : Fld) (hlo : 0x2000 ≤ f.addr) (hhi : f.addr < 0x2800) : t.rd f = s3.rd f :=
    (State.rd_of_regs (hregs.trans hregs4) f).trans (hkept.rd hlo hhi)
  refine ⟨?_, fun hgot => ?_, s4.noteEvent j d.code got k b, s4.ch n.val, x, o, ht, hnoted, ?_⟩
  · rw [hrd, hev] <;> simp only [R.CH_RXSTAT_LAST_FEV, R.CH_RXSTAT] <;> omega
  · rw [Counts, hrd, hok hgot] <;> simp only [R.CH_RXCNT_0_N_OK, R.CH_RXCNT_0] <;> omega
  · exact hch4

theorem exec_frameEnd (hlead : s.leadAt n.val = n.val) (hwin : (s.ch n.val).win = some w) (hsof : w.sof = true) (hdone : w.done = false)
    (r : RxFrame) : exec (.frameEnd n r) s = .next (s.endFrame n.val w r) := by
  change execFrameEnd n r s = _
  simp only [execFrameEnd, hlead, hwin, hsof, hdone, Bool.not_false, Bool.and_self, if_true]

end

theorem deliveredCode_iff (code crc : Nat) : deliveredCode code crc = true ↔ code = 0 ∨ code = 2 ∨ (code = 5 ∧ crc = 0) := by
  simp only [deliveredCode, Bool.or_eq_true, Bool.and_eq_true, beq_iff_eq, or_assoc]

/-- Some chain clipped. -/
theorem clipped_isEmpty (l : List Nat) (clip : BitVec 8) :
    (!(l.filter fun m => bitOf clip.toNat m).isEmpty) = l.any fun m => clip.getLsbD m := by
  rw [Bool.eq_iff_iff, Bool.not_eq_true', ← Bool.not_eq_true, List.isEmpty_iff, List.filter_eq_nil_iff, List.any_eq_true]
  simp only [not_forall, not_not, exists_prop]
  rfl

theorem State.decodeFrame_code_lt (s : State) (n : Nat) (w : Window) (airBits space : Nat) (r : RxFrame) :
    (s.decodeFrame n w airBits space r).code < 16 := by
  simp only [State.decodeFrame]
  split_ifs <;> decide

/-- Settles O28: each of the events of a window by the rule of its command; the codes of a frame are those of R101 in their order. -/
theorem reception : Obligations.Reception := by
  intro s n w j hc hlead hwin hdone hengine hj c
  have hw := State.canon_regs hc
  refine ⟨leads_responseTimeout hlead hwin hdone hw hengine hj,
    fun m fdt hsof hm hteam hg hlevel => ⟨exec_sofDetect_early hwin hdone hj hsof hm hteam hlevel hg,
      leads_sofDetect hwin hdone hj hsof hm hteam hlevel hw hg⟩,
    fun r hsof => ?_, exec_earlySubcarrier hlead hwin hdone, leads_overcurrent_window hw hlead hj hwin hdone⟩
  intro d all g split k event got raw vals bytes
  have hcode : d.code = event := by
    refine if_congr ?_ rfl (if_congr ?_ rfl (if_congr ?_ rfl (if_congr Iff.rfl rfl (if_congr Iff.rfl rfl (if_congr ?_ rfl
      (if_congr Iff.rfl rfl rfl))))))
    · show (if w.room then c.rxf.space rxSize else 0) < 8 + ceilDiv k 8 ↔ _
      rw [ceilDiv, Fifo.space, rxSize]
      cases w.room
      · simp
      · simp
    · show (r.cut || (decide (8 ≤ w.mode) && twoEmpty all)) = true ↔ _
      simp only [Bool.or_eq_true, Bool.and_eq_true, decide_eq_true_eq]
    · show (!r.framing || (all.any fun b => b.viol) || (w.crc != 0 && k % 8 != 0)) = true ↔ _
      simp only [Bool.or_eq_true, Bool.and_eq_true, Bool.not_eq_true', bne_iff_ne, or_assoc]
    · show (!(w.crc == 0 || crcGood w.crc (bitsBytes (k / 8 + 1) (split.1.map fun b => b.v)))) = true ↔ _
      simp only [Bool.not_eq_true', Bool.or_eq_false_iff, beq_eq_false_iff_ne]
  have hgot : deliveredCode d.code w.crc = true ↔ got := deliveredCode_iff d.code w.crc
  have hlt : d.code < 16 := s.decodeFrame_code_lt n.val w c.airBits _ r
  obtain ⟨hev, hok, u, c', x, o, ht, hu, hc'⟩ := State.endFrame_spec hw hengine hj r (d := d) rfl hlt
  rw [clipped_isEmpty] at hc'
  have hgood : deliveredCode d.code w.crc = decide got := Bool.eq_iff_iff.mpr (hgot.trans decide_eq_true_iff.symm)
  obtain ⟨hkwin, hkrxf⟩ := u.handEvent_keeps n.val d.code (deliveredCode d.code w.crc) n.val
  have hrun : (u.ch n.val).seq.run = c.seq.run := by
    rw [hu, hc']
    rfl
  have hwinu : (u.ch n.val).win = some { w with done := true } := by
    rw [hu, hc']
    rfl
  have hrxf : (u.ch n.val).rxf = if deliveredCode d.code w.crc then c.rxf.append bytes else c.rxf := by
    rw [hu, hc']
    rfl
  rw [hgood] at ht hkwin hkrxf hrxf
  refine ⟨_, exec_frameEnd hlead hwin hsof hdone r, hev.trans hcode, hcode, ?_, fun h => ⟨hok (hgot.mpr h), ?_⟩, fun h => ?_,
    fun rd hrd => ?_, fun hrx htaken => ?_⟩
  · rw [ht, hkwin, hwinu]
  · rw [ht, hkrxf, hrxf, if_pos (decide_eq_true h)]
    rfl
  · rw [ht, hkrxf, hrxf, if_neg (by simpa using h)]
  · rw [ht, State.handEvent_waiting (hrun.trans hrd), State.modSeq, State.ch_modCh_same u n.val _ n.isLt]
    exact ⟨Seq.takeEvent_getG _ rd _ hlt, rfl, rfl⟩
  · have hnot : ((u.ch n.val).win.map fun w : Window => w.taken) ≠ some true := by
      rw [hwinu]
      simp [htaken]
    rw [ht, State.handEvent_held (fun rd => hrun ▸ hrx rd) hnot, State.ch_modCh_same u n.val _ n.isLt]
    exact ⟨rfl, rfl⟩

end Sys2Proof.Machine
end

section
/-!
PROOFS. TX and XCH: the checks, the frame and its exchange, the wait for the gate window, and the end of a job that is to stop (R16, R87,
R224 to R228, R284, R316).
-/

namespace Sys2Proof.Machine

/-! ## What the counts of an instruction leave (R227) -/

section

variable {s t : State}

/-- The remaining windows are given by the time, the gate list and the registers of the gate (R353). -/
theorem State.remaining_congr (htime : t.time = s.time) (hgate : t.gate = s.gate) (hregs : ∀ a, a < 0x2000 → t.rdWord a = s.rdWord a)
    (cls n nt : Nat) : t.remaining cls n nt = s.remaining cls n nt := by
  have hrd (f : Fld) (hf : f.addr < 0x2000) : t.rd f = s.rd f := congrArg (getBits · f.lo f.w) (hregs f.addr hf)
  have hheld : t.gateHeld = s.gateHeld := by
    rw [State.gateHeld, State.gateHeld, State.isOn, State.isOn, hrd R.GATE_CTL_HOLD_POOR_TIME (by decide), htime]
  have hguard : t.guardNs = s.guardNs := by
    rw [State.guardNs, State.guardNs, hrd R.GATE_GUARD_GUARD_US (by decide), htime]
  have hentries : t.adminEntries = s.adminEntries := by
    rw [State.adminEntries, State.adminEntries, hrd R.GATE_ALEN_ALEN (by decide)]
    refine List.map_congr_left fun k hk => ?_
    have hk : k < 2 ^ 7 := (List.mem_range.mp hk).trans (getBits_lt _ _ _)
    rw [hregs (R.GATE_ENTRY k), hregs (R.GATE_EMASK k)]
    · simp only [R.GATE_EMASK]
      omega
    · simp only [R.GATE_ENTRY]
      omega
  have hnext : t.nextList = s.nextList := by
    rw [State.nextList, State.nextList, hgate, hrd R.GATE_ACYCLE_ACYCLE (by decide), hentries]
  have hop : t.opList = s.opList := by rw [State.opList, State.opList, hgate]
  have hahead (sel : Word → Word → Bool) : t.windowAhead sel nt = s.windowAhead sel nt := by
    rw [State.windowAhead, State.windowAhead, hop, hnext]
  have hbehind (sel : Word → Word → Bool) : t.windowBehind sel nt = s.windowBehind sel nt := by
    rw [State.windowBehind, State.windowBehind, hop, hgate]
  rw [State.remaining, State.remaining, hheld, State.remainingOf, State.remainingOf, State.gateOn, State.gateOn, hgate, hahead, hbehind,
    hguard]

theorem State.exchangeFits_congr (htime : t.time = s.time) (hgate : t.gate = s.gate) (hdrain : t.drain = s.drain)
    (hregs : ∀ a, a < 0x2000 → t.rdWord a = s.rdWord a) (j : Job) (extra : Nat) : t.exchangeFits j extra = s.exchangeFits j extra := by
  simp only [State.exchangeFits, State.nt, htime, hdrain, State.remaining_congr htime hgate hregs]

end

section

variable (s : State) (n : Ch) (j : Job)

theorem State.counted_exchangeFits (k : Job) (extra : Nat) : (s.counted n j).exchangeFits k extra = s.exchangeFits k extra := by
  have hout := s.counted_outside n j
  have htime : (s.counted n j).time = s.time := (congrArg State.time hout :)
  have hgate : (s.counted n j).gate = s.gate := (congrArg State.gate hout :)
  have hdrain : (s.counted n j).drain = s.drain := (congrArg State.drain hout :)
  refine State.exchangeFits_congr htime hgate hdrain (fun a ha => s.counted_rdWord n j ?_) k extra
  simp only [R.CSQ_YMAX]
  omega

theorem State.counted_txFault (k : Job) (bits : Nat) : (s.counted n j).txFault n.val k bits = s.txFault n.val k bits := by
  unfold State.txFault
  rw [s.counted_ch_same]
  rfl

theorem State.counted_sentBody (k : Job) (bits : Nat) : (s.counted n j).sentBody n.val k bits = s.sentBody n.val k bits := by
  have hrate : (s.counted n j).romRate k = s.romRate k := by
    simp only [State.romRate, State.payByte, State.sb, s.counted_sram]
  unfold State.sentBody
  rw [s.counted_ch_same, hrate]
  rfl

theorem State.counted_txReqOf (k : Job) (bits : Nat) : (s.counted n j).txReqOf n.val k bits = s.txReqOf n.val k bits := by
  unfold State.txReqOf
  rw [s.counted_sentBody, s.counted_ch_same]
  rfl

end

/-! ## The job that holds a channel -/

/-- A list whose first match of two tests is one element, once it is changed where the second test matches. -/
theorem find?_map_both {α : Type} {p q : α → Bool} {g : α → α} {x : α} (hq : ∀ a, q (g a) = q a) (hp : ∀ a, p a = true → p (g a) = true)
    (hkeep : ∀ a, q a = false → p (g a) = p a) :
    ∀ {l : List α}, l.find? p = some x → l.find? q = some x → (l.map g).find? p = some (g x) ∧ (l.map g).find? q = some (g x)
  | [], h, _ => by cases h
  | a :: l, h1, h2 => by
    rw [List.find?_cons] at h1 h2
    cases ha : p a <;> cases hb : q a <;> simp only [ha, hb] at h1 h2
    case false.false =>
      obtain ⟨i1, i2⟩ := find?_map_both hq hp hkeep h1 h2
      simp only [List.map_cons, List.find?_cons, hkeep a hb, hq, ha, hb]
      exact ⟨i1, i2⟩
    case false.true =>
      cases h2
      rw [List.find?_some h1] at ha
      cases ha
    case true.false =>
      cases h1
      rw [List.find?_some h2] at hb
      cases hb
    case true.true =>
      cases h1
      simp only [List.map_cons, List.find?_cons, hp _ ha, hq, hb, and_self]

/-- The job with a serial number holds a channel. -/
def State.Holds (s : State) (n id : Nat) : Prop := ∃ k, s.jobOn n = some k ∧ s.job? id = some k

section

variable {s t : State} {n id : Nat}

theorem State.Holds.same (h : s.Holds n id) (hj : t.jobs = s.jobs) : t.Holds n id := by
  rwa [State.Holds, State.jobOn, State.job?, hj]

/-- A change that leaves the serial number, the channels and a hold of every job. -/
theorem State.Holds.modJob {i : Nat} {g : Job → Job} (hg : ∀ k, (g k).id = k.id ∧ (g k).mask = k.mask)
    (hs : (∀ k, (g k).state = k.state) ∨ i = id ∧ ∀ k, (g k).state.holds = true) (h : s.Holds n id) : (s.modJob i g).Holds n id := by
  obtain ⟨k, hon, hid⟩ := h
  refine ⟨_, find?_map_both (fun a => ?_) (fun a ha => ?_) (fun a ha => ?_) hon hid⟩
  · show ((if a.id = i then g a else a).id == id) = (a.id == id)
    split
    · rw [(hg a).1]
    · rfl
  · simp only [Bool.and_eq_true] at ha ⊢
    split
    · rw [(hg a).2]
      refine ⟨?_, ha.2⟩
      rcases hs with hs | hs
      · rw [hs a]
        exact ha.1
      · exact hs.2 a
    · exact ha
  · split
    · next hi =>
      rw [(hg a).2]
      rcases hs with hs | hs
      · rw [hs a]
      · exact absurd (hi.trans hs.1) (by simpa using ha)
    · rfl

theorem State.Holds.mem_team {n : Ch} (h : s.Holds n.val id) : n.val ∈ s.team n.val := by
  obtain ⟨k, hon, -⟩ := h
  have hp := List.find?_some hon
  simp only [Bool.and_eq_true] at hp
  obtain ⟨-, hbit⟩ := hp
  by_cases hg : k.group = none
  · rw [State.team_of_jobOn hon hg]
    exact List.mem_singleton_self _
  · rw [State.team_of_swarm hon hg]
    exact List.mem_map_of_mem (List.mem_filter.mpr ⟨List.mem_finRange n, hbit⟩)

theorem State.Holds.reserveBeats {m a b : Nat} (h : s.Holds n id) : (s.reserveBeats m a b).Holds n id := h.same (s.reserveBeats_jobs m a b)

theorem State.Holds.endExchange {m : Nat} (h : s.Holds n id) : (s.endExchange m).Holds n id := by
  unfold State.endExchange
  split
  · exact h
  extract_lets wcx stop isLate s0 s1 s2
  have h0 : s0.Holds n id := by
    unfold s0
    split
    · exact h.reserveBeats
    · exact h
  have h2 : s2.Holds n id := by
    refine h0.same (?_ : s1.jobs = s0.jobs)
    unfold s1
    split <;> rfl
  split
  · exact h2
  split
  · exact h2
  · exact h2.modJob (fun _ => ⟨rfl, rfl⟩) (.inl fun _ => rfl)

theorem State.Holds.modRom {j : Job} {g : RomCtx → RomCtx} (h : s.Holds n id) : (s.modRom j g).Holds n id := by
  unfold State.modRom
  split
  · exact h.modJob (fun _ => ⟨rfl, rfl⟩) (.inl fun _ => rfl)
  · exact h

theorem State.Holds.modWrite {j : Job} {g : WriteCtx → WriteCtx} (h : s.Holds n id) : (s.modWrite j g).Holds n id := by
  unfold State.modWrite
  split
  · refine State.Holds.same (s := s.modJob j.id fun k => { k with write := g k.write }) ?_ rfl
    exact h.modJob (fun _ => ⟨rfl, rfl⟩) (.inl fun _ => rfl)
  · exact h

end

/-! ## What a transmit that starts leaves (R49, R104, R227) -/

/-- What a transmit shows on its lead: its exchange, the bytes on the air, the TX FIFO, and the state of the sequencer. -/
def Chan.sending (c : Chan) : Bool × List Byte × Fifo × Seq := (c.exch.isSome, c.airOut, c.txf, { c.seq with detail := 0, out := [] })

theorem Chan.reserve_sending (c : Chan) (beat a b : Nat) : (c.reserve beat a b).sending = c.sending := by
  unfold Chan.reserve
  extract_lets first last c1
  split <;> rfl

section

variable {s : State} {n : Nat} {α : Type} {p : Chan → α}

theorem State.ch_reserveBeats_keeps (hp : ∀ c beat a b, p (Chan.reserve c beat a b) = p c) (m a b : Nat) :
    p ((s.reserveBeats m a b).ch n) = p (s.ch n) := by
  unfold State.reserveBeats
  split
  · rfl
  · exact State.each_induction (P := fun t => p (t.ch n) = p (s.ch n))
      (fun t k h => (State.ch_modCh_keeps p (hp _ _ _ _) n).trans h) _ s rfl

theorem State.ch_endExchange_keeps (hp : ∀ c beat a b, p (Chan.reserve c beat a b) = p c)
    (he : ∀ c x y, p { c with exch := x, lastExch := y } = p c) (m : Nat) : p ((s.endExchange m).ch n) = p (s.ch n) := by
  unfold State.endExchange
  split
  · rfl
  extract_lets wcx stop isLate s0 s1 s2
  have h0 : p (s0.ch n) = p (s.ch n) := by
    unfold s0
    split
    · exact State.ch_reserveBeats_keeps hp m _ _
    · rfl
  have h1 : s1.ch n = s0.ch n := by
    unfold s1
    split <;> rfl
  have h2 : p (s2.ch n) = p (s.ch n) := (State.ch_modCh_keeps p (he _ _ _) n).trans ((congrArg p h1).trans h0)
  split
  · exact h2
  split <;> exact h2

end

section

variable {s : State} {n : Ch} {id : Nat}

theorem State.ch_noteTx_sending (j : Job) (own : Bool) (mode : Nat) (f : List Byte) (nbytes bits : Nat) (cont : Bool) (m : Nat) :
    ((s.noteTx j own mode f nbytes bits cont).ch m).sending = (s.ch m).sending := by
  unfold State.noteTx
  extract_lets kind x
  obtain ⟨y, o, h⟩ := s.modWrite_ch j _ m
  rw [h]
  rfl

theorem State.ch_noteCommand (j : Job) (own : Bool) (mode : Nat) (f : List Byte) (m : Nat) :
    (s.noteCommand j own mode f).ch m = s.ch m := by
  unfold State.noteCommand
  extract_lets send x
  exact State.modRom_ch _ _ _ m

theorem State.Holds.noteCommand {j : Job} {own : Bool} {mode : Nat} {f : List Byte} {m : Nat} (h : s.Holds m id) :
    (s.noteCommand j own mode f).Holds m id := by
  unfold State.noteCommand
  exact h.modRom

theorem State.Holds.noteTx {j : Job} {own cont : Bool} {mode nbytes bits : Nat} {f : List Byte} {m : Nat} (h : s.Holds m id) :
    (s.noteTx j own mode f nbytes bits cont).Holds m id := by
  unfold State.noteTx
  exact h.modWrite

/-- The members of a team take a field state. -/
theorem State.teamField_spec {f : FieldState} (hn : n.val ∈ s.team n.val) :
    ((s.teamField n.val f).ch n.val).field = f ∧ ((s.teamField n.val f).ch n.val).sending = (s.ch n.val).sending := by
  have h := State.each_spec (l := s.team n.val) (s := s) (g := fun t m => t.setField m f) (I := fun t => (t.ch n.val).sending = (s.ch n.val).sending)
    (P := fun m t => m = n.val → (t.ch n.val).field = f) (fun t m _ ht => ⟨(State.ch_modCh_keeps Chan.sending rfl _).trans ht, ?_⟩)
    (fun t m _ k _ hk hkn => ?_) rfl
  · exact ⟨h.2 n.val hn rfl, h.1⟩
  · rintro rfl
    exact congrArg Chan.field (State.ch_modCh_same t _ _ n.isLt)
  · by_cases hm : n.val = m
    · subst hm
      exact congrArg Chan.field (State.ch_modCh_same t _ _ n.isLt)
    · exact (congrArg Chan.field (State.ch_modCh_other t _ hm)).trans (hk hkn)

/-- A transmit that starts opens or goes on with an exchange, and its bytes are taken from the TX FIFO and put on the air. -/
theorem State.startMod_spec {j : Job} (r : TxReq) (h : s.Holds n.val j.id) :
    let t := s.startMod n.val j r
    (t.ch n.val).field = .mod ∧ (t.ch n.val).sending
      = (true, r.bytes, (s.ch n.val).txf.skip txSize r.fifo, { (s.ch n.val).seq with detail := 0, out := [] }) := by
  unfold State.startMod
  extract_lets u last coil s1 s2 body s3 s4 w
  have hu : u.Holds n.val j.id ∧ (u.ch n.val).txf = (s.ch n.val).txf ∧ (u.ch n.val).seq = (s.ch n.val).seq := by
    unfold u
    split
    · exact ⟨h, rfl, rfl⟩
    · refine ⟨h.endExchange, State.ch_endExchange_keeps (p := Chan.txf) (fun c beat a b => ?_) (fun _ _ _ => rfl) _, s.endExchange_seq _⟩
      exact congrArg (fun x : Bool × List Byte × Fifo × Seq => x.2.2.1) (c.reserve_sending beat a b)
  obtain ⟨hheld, htxf, hseq⟩ := hu
  have h1 : (s1.ch n.val).sending = (true, r.bytes, (s.ch n.val).txf.skip txSize r.fifo, { (s.ch n.val).seq with detail := 0, out := [] }) := by
    refine (congrArg Chan.sending (State.ch_modCh_same u n.val _ n.isLt)).trans ?_
    rw [← htxf, ← hseq]
    rfl
  have hheld2 : s2.Holds n.val j.id :=
    (State.Holds.same (t := s1) hheld rfl).modJob (fun _ => ⟨rfl, rfl⟩) (.inr ⟨rfl, fun _ => rfl⟩)
  have h2 : (s2.ch n.val).sending = (s1.ch n.val).sending := rfl
  have h3 : (s3.ch n.val).sending = (s2.ch n.val).sending :=
    (State.ch_noteTx_sending _ _ _ _ _ _ _ _).trans (congrArg Chan.sending (State.ch_noteCommand _ _ _ _ _))
  have hheld3 : s3.Holds n.val j.id := .noteTx (.noteCommand hheld2)
  have h4 : s4.Holds n.val j.id ∧ (s4.ch n.val).sending = (s3.ch n.val).sending := by
    unfold s4
    split
    · exact ⟨hheld3, rfl⟩
    · exact ⟨hheld3.reserveBeats, State.ch_reserveBeats_keeps Chan.reserve_sending _ _ _⟩
  obtain ⟨hheld4, h4⟩ := h4
  let s5 := s4.each (s4.team n.val) fun s m => s.modCh m fun c => { c with wave := some w, airShape := s.waveLevels m w }
  obtain ⟨h5, hjobs5⟩ : (s5.ch n.val).sending = (s4.ch n.val).sending ∧ s5.jobs = s4.jobs :=
    State.each_induction (P := fun t => (t.ch n.val).sending = (s4.ch n.val).sending ∧ t.jobs = s4.jobs)
      (g := fun s m => s.modCh m fun c => { c with wave := some w, airShape := s.waveLevels m w })
      (fun t m ht => ⟨(State.ch_modCh_keeps Chan.sending rfl _).trans ht.1, ht.2⟩) _ s4 ⟨rfl, rfl⟩
  obtain ⟨hfield, h6⟩ := State.teamField_spec (s := s5) (f := .mod) (hheld4.same hjobs5).mem_team
  exact ⟨hfield, h6.trans (h5.trans (h4.trans (h3.trans (h2.trans h1))))⟩

end

/-! ## A transmit that waits (R16, R284, R316, R355) -/

section

variable {s : State} {n : Ch} {j : Job} {r : TxReq}

/-- A job that is made to wait for its gate window ramps its field down. -/
theorem State.waitForGate_spec (hj : s.job? j.id = some j) (hn : n ∈ maskList j.mask) (hon : (s.ch n.val).field = .on) :
    let t := s.waitForGate n.val j
    (t.ch n.val).field = .down ∧ (t.ch n.val).seq = (s.ch n.val).seq
      ∧ t.HasJob j.id fun k => k.state = .waiting ∧ k.waited = true := by
  intro t
  let s1 := s.modJob j.id fun k => { k with state := .waiting, waited := true }
  let s2 := s1.modCh n.val fun c => { c with txReq := c.txReq.map fun r => { r with gate := true } }
  have hheld : s1.HasJob j.id fun k => k.state = .waiting ∧ k.waited = true :=
    State.HasJob.modJob_same (p := fun _ => True) ⟨j, hj, trivial⟩ fun _ => ⟨rfl, fun _ => ⟨rfl, rfl⟩⟩
  have hfield : (s2.ch n.val).field = (s.ch n.val).field := State.ch_modCh_keeps Chan.field rfl _
  have hseq : (s2.ch n.val).seq = (s.ch n.val).seq := State.ch_modCh_keeps Chan.seq rfl _
  have ht : t = s2.each ((maskList j.mask).map fun c => c.val) fun s m => s.stopField m := by
    show (maskList j.mask).foldl _ s2 = _
    exact (List.foldl_map ..).symm
  refine ⟨?_, ?_, .stopFields (hheld.same rfl)⟩
  · rw [ht]
    refine State.stopEach_falls (fun m hm => ?_) (List.mem_map_of_mem hn) (hfield.trans hon)
    obtain ⟨c, -, rfl⟩ := List.mem_map.mp hm
    exact c.isLt
  · exact (State.stopFields_seq s2 j.mask).trans hseq

/-- The end of a running job, with the DETAIL in force. -/
theorem State.endJobInForce_spec {id : Nat} {rc : Byte} {part : Bool}
    (h : s.HasJob id fun k => k.state = .running ∧ k.ended = none ∧ k.lead = n.val) :
    ((s.endJobInForce id rc part).ch n.val).seq.run = .idle
      ∧ (s.endJobInForce id rc part).HasJob id fun k => ∃ e, k.ended = some e ∧ e.rc = rc ∧ e.part = part := by
  obtain ⟨k, hk, hrun, hend, hlead⟩ := h
  have hid : k.id = id := by simpa using List.find?_some hk
  have heq : s.endJobInForce id rc part = s.endRunning k rc part (s.ch k.lead).seq.detail := by
    simp only [State.endJobInForce, State.endJob, hk, hrun, hend]
  obtain ⟨hidle, k', hk', e, hended, hrc, hpart, -⟩ :=
    State.endRunning_spec (rc := rc) (part := part) (detail := (s.ch k.lead).seq.detail) ⟨k, hid ▸ hk, trivial⟩
  rw [heq, ← hlead]
  exact ⟨hidle, k', hid ▸ hk', e, hended, hrc, hpart⟩

section

variable (hr : (s.ch n.val).txReq = some r) (hj : s.jobLead n.val = some j)
  (hready : ((s.teamAll n.val fun _ c => c.field == .on && !c.calib && c.settleTicks == 0 && !c.wantOff) && (s.ch n.val).win.isNone
    && j.ended.isNone) = true)
include hr hj hready

theorem State.tryTx_starts (h : r.cont = true ∨ j.marked = none ∧ s.exchangeFits j 0 = true) : s.tryTx n.val = s.startMod n.val j r := by
  unfold State.tryTx
  simp only [hr, hj, if_pos hready]
  rcases h with h | ⟨hm, hfits⟩
  · simp only [h, Bool.true_or, if_true]
    cases j.marked <;> rfl
  · simp only [hm, hfits, Bool.or_true, if_true]

theorem State.tryTx_stops {stop : Byte} (hc : r.cont = false) (hm : j.marked = some stop) :
    s.tryTx n.val = (s.endExchange n.val).endJobInForce j.id stop true := by
  unfold State.tryTx
  simp only [hr, hj, if_pos hready, hm, hc]

theorem State.tryTx_waits (hc : r.cont = false) (hm : j.marked = none) (hfits : s.exchangeFits j 0 = false) :
    s.tryTx n.val = s.waitForGate n.val j := by
  unfold State.tryTx
  simp only [hr, hj, if_pos hready, hm, hc, hfits, Bool.or_self, Bool.false_eq_true, if_false]

end

end

/-! ## The checks and the bytes of a TX (R87, R224, R227, R228) -/

section

variable (s : State) (n : Nat) (j : Job) (bits : Nat)

theorem ceilDiv_eight : ceilDiv bits 8 = (bits + 7) / 8 := rfl

/-- The bytes of the TX FIFO that have not been read. -/
def Chan.unread (c : Chan) : List Byte := c.txf.data.drop ((c.txf.rd + 2048 - c.txf.rel) % 2048)

theorem State.txFault_eq : s.txFault n j bits =
    if 12 ≤ (s.ch n).seq.txMode.toNat ∨ 14 ≤ (s.ch n).seq.rxMode.toNat then some 1
    else if (s.ch n).seq.rxMode.toNat = 13 ∧ (s.ch n).seq.rawb = 0 then some 7
    else if (s.ch n).field = .off then some 6
    else if (bits = 0 ∧ (s.ch n).seq.txMode.toNat < 8) ∨ (bits % 8 ≠ 0 ∧ (s.ch n).seq.txCrc ≠ 0) then some 7
    else if (s.ch n).unread.length < (bits + 7) / 8 then some 5
    else if (s.ch n).seq.cont = true ∧ j.started = false then some 7 else none := by
  have hraw : (s.ch n).seq.rxMode = 13 ↔ (s.ch n).seq.rxMode.toNat = 13 := BitVec.toNat_inj.symm
  have hunread : (s.ch n).txf.readable txSize = (s.ch n).unread.length := List.length_drop.symm
  simp only [State.txFault, hraw, hunread, ceilDiv_eight, ite_or, Bool.not_eq_true']

variable {n j bits}

theorem singleSub_of_lt {m : Nat} (h : m < 8) (l : List Byte) : singleSub m l = l := by
  cases l with
  | nil => rfl
  | cons b bs => rw [singleSub, if_neg (Nat.not_le.mpr h)]

theorem singleSub_of_le {m : Nat} (h : 8 ≤ m) (l : List Byte) : singleSub m l = l.modifyHead fun b => b &&& 0xFE := by
  cases l with
  | nil => rfl
  | cons b bs => rw [singleSub, if_pos h, List.modifyHead_cons]

theorem rateFlagged_of_lt {m : Nat} (h : m < 8) (rate : Nat) (l : List Byte) : rateFlagged m rate l = l := by
  cases l with
  | nil => rfl
  | cons b bs => rw [rateFlagged, if_neg (Nat.not_le.mpr h)]

/-- The bytes before the CRC are those of the FIFO, but for the flags of an ISO/IEC 15693 request. -/
theorem State.sentBody_eq : s.sentBody n j bits = if (s.ch n).seq.txMode.toNat < 8 then (s.ch n).unread.take ((bits + 7) / 8)
    else if j.isRom then s.sentBody n j bits else ((s.ch n).unread.take ((bits + 7) / 8)).modifyHead fun b => b &&& 0xFE := by
  have hpeek : (s.ch n).txf.peek txSize 0 (ceilDiv bits 8) = (s.ch n).unread.take ((bits + 7) / 8) := rfl
  split
  · next hm =>
    simp only [State.sentBody, hpeek, singleSub_of_lt hm, rateFlagged_of_lt hm, ite_self]
  · next hm =>
    split
    · rfl
    · next hrom =>
      simp only [State.sentBody, hpeek, if_neg hrom, singleSub_of_le (Nat.not_lt.mp hm)]

end

/-! ## TX and XCH (R225, R227) -/

/-- An instruction that has the effect of a TX of `bits` bits on the counted state. -/
def RunsTx (s : State) (n : Ch) (j : Job) (bits : Nat) (e : Option GReg) (i : Instr) : Prop :=
  ∀ P : State → Prop, P ((s.counted n j).doTx n.val j bits e) → Leads i s P

section

variable {s : State} {n : Ch} {j : Job} {rd rs : GReg} (hw : (s.ch n.val).seq.windup = false)
include hw

theorem runsTx_tx (h : Executes s n (0xB004 + rs.val * 64) j) :
    RunsTx s n j (((s.ch n.val).seq.getG rs).toNat % 65536) none (.tx n rs) := by
  refine fun P hp => leads_air h hw rfl ?_ ?_
  · simp only [regsWord]
    omega
  · rw [s.counted_ch_same]
    exact hp

theorem runsTx_xch (h : Executes s n (0xB006 + rd.val * 512 + rs.val * 64) j) :
    RunsTx s n j (((s.ch n.val).seq.getG rs).toNat % 65536) (some rd) (.xch n rd rs) := by
  refine fun P hp => leads_air h hw rfl ?_ ?_
  · simp only [regsWord]
    omega
  · rw [s.counted_ch_same]
    exact hp

end

/-- The transmit waits, and CONT and RXTO are back at their defaults. -/
def State.txWaits (s : State) (n : Nat) (r : TxReq) (e : Option GReg) : State :=
  s.modCh n fun c => { c with txReq := some r, seq := { c.seq with cont := false, rxto := 0, run := .blocked (.tx e) } }

section

variable {s : State} {n : Ch} {j : Job} {w bits : Nat} {e : Option GReg} {i : Instr} (hi : RunsTx s n j bits e i)
include hi

theorem leads_tx_fault (h : Executes s n w j) (hc : s.canon = true) (hj : s.job? j.id = some j) {code : Byte}
    (hf : s.txFault n.val j bits = some code) : Leads i s (FaultTo n s j code.toNat) := by
  refine hi _ ?_
  rw [State.doTx, s.counted_txFault, hf]
  exact faultTo_counted h hc hj code

theorem leads_tx {P : State → Prop} (hf : s.txFault n.val j bits = none)
    (hp : P (((s.counted n j).txWaits n.val (s.txReqOf n.val j bits) e).tryTx n.val)) : Leads i s P := by
  refine hi _ ?_
  rw [State.doTx, s.counted_txFault, hf, s.counted_txReqOf]
  exact hp

end

/-! ## The transmit once the field is ON (R227) -/

section

variable {s : State} {n : Ch} {j : Job} (r : TxReq) (e : Option GReg)

/-- The sequencer of a transmit that waits. -/
theorem State.txWaits_ch : ((s.counted n j).txWaits n.val r e).ch n.val = { s.ch n.val with
    txReq := some r, seq := { (s.ch n.val).seq.counted true with cont := false, rxto := 0, run := .blocked (.tx e) } } := by
  rw [State.txWaits, State.ch_modCh_same _ _ _ n.isLt, s.counted_ch_same]

theorem State.txWaits_jobs : ((s.counted n j).txWaits n.val r e).jobs = s.jobs := s.counted_jobs n j

theorem State.txWaits_teamAll {p : Nat → Chan → Bool} (hp : ∀ m c x q, p m { c with txReq := x, seq := q } = p m c) (m : Nat) :
    ((s.counted n j).txWaits n.val r e).teamAll m p = s.teamAll m p := by
  rw [← s.counted_teamAll n j p (fun m c q => hp m c c.txReq q) m, State.teamAll, State.teamAll, State.team_of_jobs (s := s.counted n j)
    (t := (s.counted n j).txWaits n.val r e) rfl]
  have hch (k : Nat) : p k (((s.counted n j).txWaits n.val r e).ch k) = p k ((s.counted n j).ch k) :=
    State.ch_modCh_keeps (p k) (hp _ _ _ _) k
  simp only [hch]

theorem State.txWaits_exchangeFits (k : Job) : ((s.counted n j).txWaits n.val r e).exchangeFits k 0 = s.exchangeFits k 0 :=
  (State.exchangeFits_congr (s := s.counted n j) rfl rfl rfl (fun _ _ => rfl) k 0).trans (s.counted_exchangeFits n j k 0)

end

section

variable {s : State} {n : Ch} {j : Job} {w : Nat} (h : Executes s n w j) (hwin : (s.ch n.val).win = none)
  (hteam : (s.teamAll n.val fun _ c => c.field == .on && !c.calib && c.settleTicks == 0 && !c.wantOff) = true)
include h hwin hteam

theorem State.txWaits_ready (r : TxReq) (e : Option GReg) :
    let v := (s.counted n j).txWaits n.val r e
    (v.ch n.val).txReq = some r ∧ v.jobLead n.val = some j
      ∧ ((v.teamAll n.val fun _ c => c.field == .on && !c.calib && c.settleTicks == 0 && !c.wantOff) && (v.ch n.val).win.isNone
        && j.ended.isNone) = true := by
  obtain ⟨hlead, -, hend⟩ := State.runsOn_spec h.runs
  refine ⟨congrArg Chan.txReq (State.txWaits_ch r e), (State.jobLead_of_jobs (State.txWaits_jobs r e) n.val).trans hlead, ?_⟩
  rw [State.txWaits_teamAll r e (fun _ _ _ _ => rfl), hteam, State.txWaits_ch, hend]
  simp only [hwin, Option.isNone_none, Bool.and_self]

variable {bits : Nat} {e : Option GReg} {i : Instr} (hi : RunsTx s n j bits e i) (hj : s.job? j.id = some j) (hon : s.jobOn n.val = some j)
  (hf : s.txFault n.val j bits = none)
include hi hj hf

theorem leads_tx_stops {stop : Byte} (hcont : (s.ch n.val).seq.cont = false) (hm : j.marked = some stop) :
    Leads i s fun t => ∃ k e, t.job? j.id = some k ∧ k.ended = some e ∧ e.rc = stop ∧ e.part = true ∧ (t.ch n.val).seq.run = .idle := by
  obtain ⟨hlead, hrun, hend⟩ := State.runsOn_spec h.runs
  obtain ⟨hr, hl, hready⟩ := State.txWaits_ready h hwin hteam (s.txReqOf n.val j bits) e
  refine leads_tx hi hf ?_
  rw [State.tryTx_stops hr hl hready hcont hm]
  have hheld : ((s.counted n j).txWaits n.val (s.txReqOf n.val j bits) e).HasJob j.id
      fun k => k.state = .running ∧ k.ended = none ∧ k.lead = n.val :=
    State.HasJob.same (s := s) ⟨j, hj, hrun, hend, (State.jobLead_spec hlead).2⟩ (State.txWaits_jobs _ _)
  obtain ⟨hidle, k, hk, x, hx, hrc, hpart⟩ := State.endJobInForce_spec (rc := stop) (part := true)
    (State.HasJob.endExchange (m := n.val) (fun _ _ _ h => h) hheld)
  exact ⟨k, x, hk, hx, hrc, hpart, hidle⟩

include hon

theorem leads_tx_starts (hgo : (s.ch n.val).seq.cont = true ∨ j.marked = none ∧ s.exchangeFits j 0 = true) :
    Leads i s fun t => (t.ch n.val).field = .mod ∧ (t.ch n.val).exch.isSome = true ∧ (t.ch n.val).seq.run = .blocked (.tx e)
      ∧ (t.ch n.val).seq.cont = false ∧ (t.ch n.val).seq.rxto = 0 ∧ (t.ch n.val).airOut = (s.txReqOf n.val j bits).bytes
      ∧ (t.ch n.val).txf = (s.ch n.val).txf.skip txSize ((bits + 7) / 8) := by
  obtain ⟨hr, hl, hready⟩ := State.txWaits_ready h hwin hteam (s.txReqOf n.val j bits) e
  refine leads_tx hi hf ?_
  rw [State.tryTx_starts hr hl hready (by rwa [State.txWaits_exchangeFits])]
  have hheld : ((s.counted n j).txWaits n.val (s.txReqOf n.val j bits) e).Holds n.val j.id :=
    State.Holds.same (s := s) ⟨j, hon, hj⟩ (State.txWaits_jobs _ _)
  obtain ⟨hfield, hsend⟩ := State.startMod_spec (s.txReqOf n.val j bits) hheld
  rw [State.txWaits_ch] at hsend
  simp only [Chan.sending, Prod.mk.injEq] at hsend
  obtain ⟨hexch, hair, htxf, hseq⟩ := hsend
  exact ⟨hfield, hexch, (congrArg Seq.run hseq :), (congrArg Seq.cont hseq :), (congrArg Seq.rxto hseq :), hair, htxf⟩

theorem leads_tx_waits (hcont : (s.ch n.val).seq.cont = false) (hm : j.marked = none) (hfits : s.exchangeFits j 0 = false) :
    Leads i s fun t => (t.ch n.val).field = .down ∧ (t.ch n.val).seq.run = .blocked (.tx e)
      ∧ ∃ k, t.job? j.id = some k ∧ k.state = .waiting ∧ k.waited = true := by
  obtain ⟨hlead, -, -⟩ := State.runsOn_spec h.runs
  obtain ⟨hr, hl, hready⟩ := State.txWaits_ready h hwin hteam (s.txReqOf n.val j bits) e
  refine leads_tx hi hf ?_
  rw [State.tryTx_waits hr hl hready hcont hm ((State.txWaits_exchangeFits _ _ j).trans hfits)]
  have hfield : (s.ch n.val).field = .on := by
    have hall := State.teamAll_iff.mp hteam n.val (State.mem_team hon hlead)
    simp only [Bool.and_eq_true, beq_iff_eq] at hall
    exact hall.1.1.1
  have hj' : ((s.counted n j).txWaits n.val (s.txReqOf n.val j bits) e).job? j.id = some j := by
    rw [State.job?, State.txWaits_jobs]
    exact hj
  obtain ⟨hdown, hseq, hwaits⟩ := State.waitForGate_spec hj' (State.mem_mask_of_jobLead hlead)
    ((congrArg Chan.field (State.txWaits_ch _ _)).trans hfield)
  exact ⟨hdown, (congrArg Seq.run (hseq.trans (congrArg Chan.seq (State.txWaits_ch _ _))) :), hwaits⟩

end

/-- Settles O20: the checks of a TX in their order, then what a transmit does that waits on the counted state. -/
theorem seqTransmit : Obligations.SeqTransmit := by
  intro s n j rd rs hc hj hon c q bits bytes unread body sent sends hw
  have hsends {w : Nat} {i : Instr} {e : Option GReg} (h : Executes s n w j) (hi : RunsTx s n j bits e i) : sends i e := by
    have hf := s.txFault_eq n.val j bits
    have fault {code : Byte} := leads_tx_fault hi h hc hj (code := code)
    refine ⟨fun h1 => fault (hf.trans (if_pos h1)), fun htx hrx => ?_⟩
    rw [if_neg (not_or.mpr ⟨Nat.not_le.mpr htx, Nat.not_le.mpr hrx⟩)] at hf
    refine ⟨fun h2 => fault (hf.trans (if_pos h2)), fun h2 => ?_⟩
    rw [if_neg h2] at hf
    refine ⟨fun h3 => fault (hf.trans (if_pos h3)), fun h3 => ?_⟩
    rw [if_neg h3] at hf
    refine ⟨fun h4 => fault (hf.trans (if_pos h4)), fun h4 => ?_⟩
    rw [if_neg h4] at hf
    refine ⟨fun h5 => fault (hf.trans (if_pos h5)), fun h5 hcont hstart => ?_, fun h5 hcont hwin hteam => ?_⟩
    · have h5 : ¬ c.unread.length < bytes := Nat.not_lt.mpr h5
      rw [if_neg h5] at hf
      exact fault (hf.trans (if_pos ⟨hcont, hstart⟩))
    have h5 : ¬ c.unread.length < bytes := Nat.not_lt.mpr h5
    rw [if_neg h5, if_neg (fun h6 => absurd (hcont h6.1) (by simp [h6.2]))] at hf
    refine ⟨fun stop => leads_tx_stops h hwin hteam hi hj hf, fun hgo => ?_, leads_tx_waits h hwin hteam hi hj hon hf⟩
    have hbytes : (s.txReqOf n.val j bits).bytes = sent ++ (if bits = 0 then [] else frameCrc q.txCrc.toNat sent) := by
      have hsent : s.sentBody n.val j bits = sent := s.sentBody_eq
      rw [← hsent]
      rfl
    obtain ⟨t, ht, hfield, hexch, hrun, hcont', hrxto, hair, htxf⟩ := leads_tx_starts h hwin hteam hi hj hon hf hgo
    exact ⟨t, ht, hfield, hexch, hrun, hcont', hrxto, hair.trans hbytes, htxf⟩
  exact ⟨fun h => hsends h (runsTx_tx hw h), fun h => hsends h (runsTx_xch hw h)⟩

end Sys2Proof.Machine
end

section
/-!
PROOFS. Two states in which the merge unit and the AES unit do not leave what their statements say: O44 and O45 fail.
-/

namespace Sys2Proof.Machine

/-- A part of the state after a command. -/
def partAfter {α : Type} (part : State → α) (i : Instr) (s : State) : Option α :=
  match exec i s with
  | .next t => some (part t)
  | .fault _ | .refused _ => none

/-- A command that leads to a state shows its part. -/
theorem partAfter_of_leads {α : Type} {part : State → α} {i : Instr} {s : State} {P : State → Prop} (h : Leads i s P) :
    ∃ t, P t ∧ partAfter part i s = some (part t) := by
  obtain ⟨t, ht, hP⟩ := h
  exact ⟨t, hP, by rw [partAfter, ht]⟩

/-! ## The merge unit (R134, R136) -/

/-- A sighting with an identifier of 15 bytes, the one that `overlongEntry` shows. -/
def overlongSighting : Sighting :=
  { proto := 0, id := List.replicate 10 0 ++ [15, 1, 0, 0, 0], info := 1, infoPart := false, volatile := false
    ch := 0, coil := 0, rssi := 0, job := 0 }

/-- Entry 0 is VALID with IDLEN 15, where R134 has room for 10 bytes: read at that length, its identifier ends with IDLEN, the flags
and INFO. A sighting of that identity waits to be merged. -/
def overlongEntry : State := { State.reset with sram := [(10, 15), (11, 1)], mergeQ := [overlongSighting] }

/-- The merge replaces INFO, which the entry shows as a byte of its identifier. -/
theorem merge_overlongEntry :
    partAfter (fun t => (t.tab 0).id) .merge overlongEntry = some (List.replicate 10 0 ++ [15, 1, 1, 0, 0]) := by decide +kernel

/-- Refutes O44: a merge keeps the identifier of an entry only where IDLEN is at most 10, and neither the statement nor the canonical
form of the state asks for that. With IDLEN 15 the identifier reaches into INFO, which the merge replaces. -/
theorem not_tableCommands : ¬ Obligations.TableCommands := by
  unfold Obligations.TableCommands
  intro h
  obtain ⟨-, -, -, -, hmerge, -, -⟩ := h overlongEntry 0 0 (by decide)
  obtain ⟨hfound, -⟩ := hmerge ⟨rfl, by decide⟩ overlongSighting [] rfl rfl (by decide) (by decide)
  obtain ⟨t, ⟨-, -, -, -, hfields⟩, hpart⟩ := partAfter_of_leads (part := fun t => (t.tab 0).id) (hfound (by decide))
  obtain ⟨-, -, hid, -⟩ := hfields nofun
  exact absurd (merge_overlongEntry.symm.trans (hpart.trans (congrArg some hid))) (by decide)

/-! ## The AES unit (R151, R168) -/

/-- A pseudonym that CRY searches for. -/
def pseudonym : Sighting :=
  { proto := 0, id := [8, 1, 2, 3], info := 0, infoPart := false, volatile := true, ch := 0, coil := 0, rssi := 0, job := 0 }

/-- The search for the pseudonym. -/
def pseudonymSearch : CryReq :=
  { sig := false, job := 0, cls := .gold, entry := heldHandle, held := some pseudonym, data := [] }

/-- A frame of port 0 that asks for a WARM reset. -/
def warmResetFrame : Frame :=
  { port := 0, tag := 1, len := 0, arg := 0, payload := [], crc := 0, rise := none, mode3 := false }

/-- A search runs, without keys, and port 0 holds the frame until the search ends. -/
def searchHoldsReset : State :=
  { State.reset with cry := { aes := some pseudonymSearch } }.modPt 0 fun t => { t with heldWrite := some (0x70, warmResetFrame) }

/-- The frame executes once the sighting is in the merge queue, which the WARM reset empties. -/
theorem privacySearchDone_searchHoldsReset :
    partAfter State.mergeQ (.privacySearchDone 0) searchHoldsReset = some [] := by decide +kernel

/-- Refutes O45: the end of a search first carries out what a port holds in its frame buffer until then (R151). The statement asks
that no frame waits at a port, but not that none is held there, and the canonical form does not say that what is held is a write of
AES keys. A held RESET empties the merge queue in which the search has put its sighting. -/
theorem not_keyCommands : ¬ Obligations.KeyCommands := by
  unfold Obligations.KeyCommands
  intro h
  obtain ⟨-, -, -, hsearch, -⟩ := h searchHoldsReset 0 0 (by decide)
  obtain ⟨hunresolved, -⟩ := hsearch pseudonymSearch pseudonym 0 rfl rfl (by decide) (by decide) (by decide)
  obtain ⟨t, ⟨-, hqueue⟩, hpart⟩ := partAfter_of_leads (part := State.mergeQ) (hunresolved rfl)
  exact absurd (privacySearchDone_searchHoldsReset.symm.trans (hpart.trans (congrArg some hqueue))) (by simp)

end Sys2Proof.Machine
end

section
/-!
PROOFS. SIGQ and RESQ: the bytes that they read, the request that CRY is handed or that waits for space, and their misuses (R146, R147,
R158, R231, R235).
-/

namespace Sys2Proof.Machine

/-! ## The queue (R146 to R148) -/

/-- CRY holds a request: it waits in the queue, or a unit serves it. -/
def Cry.Has (c : Cry) (r : CryReq) : Prop :=
  r ∈ c.queue ∨ (∃ e, c.ecc = some e ∧ e.job = r.job ∧ e.data = r.data) ∨ c.aes = some r

section

variable {s : State} {r : CryReq}

/-- Only the request that is taken leaves the queue. -/
theorem State.eq_or_mem_takeReq (x : CryReq) (h : r ∈ s.cry.queue) : r = x ∨ r ∈ (s.takeReq x).cry.queue :=
  (eq_or_ne r x).imp_right fun hne => (List.mem_erase_of_ne hne).mpr h

/-- The ECDSA unit takes a request only when it serves none. -/
theorem State.startEcc_has (h : s.cry.Has r) : s.startEcc.cry.Has r := by
  unfold State.startEcc
  split
  next x hidle _ =>
    obtain hq | ⟨e, he, -⟩ | ha := h
    · obtain rfl | hr := State.eq_or_mem_takeReq x hq
      · exact .inr (.inl ⟨_, rfl, rfl, rfl⟩)
      · exact .inl hr
    · simp [Cry.eccBusy, he] at hidle
    · exact .inr (.inr ha)
  · exact h

/-- The AES unit takes a request only when it serves none. -/
theorem State.startAes_has (h : s.cry.Has r) : s.startAes.cry.Has r := by
  unfold State.startAes
  split
  next x hidle _ =>
    obtain hq | he | ha := h
    · obtain rfl | hr := State.eq_or_mem_takeReq x hq
      · exact .inr (.inr rfl)
      · exact .inl hr
    · exact .inr (.inl he)
    · simp [ha] at hidle
  · exact h

theorem State.startCry_has (h : s.cry.Has r) : s.startCry.cry.Has r := State.startAes_has (State.startEcc_has h)

theorem State.startCry_ch (s : State) (m : Nat) : s.startCry.ch m = s.ch m := by
  have hecc : s.startEcc.ch m = s.ch m := by
    unfold State.startEcc
    split <;> rfl
  refine Eq.trans ?_ hecc
  unfold State.startCry State.startAes
  split <;> rfl

/-- With room in the queue CRY holds the request, and the sequencer goes on. -/
theorem State.request_joins {n : Nat} (hn : n < 8) (h : s.cry.queue.length < 32) :
    (s.request n r).cry.Has r ∧ (s.request n r).ch n = { s.ch n with seq := (s.ch n).seq.resume } := by
  unfold State.request
  rw [if_pos h]
  exact ⟨State.startCry_has (.inl List.mem_concat_self),
    (State.ch_modCh_same _ n _ hn).trans (congrArg (fun c : Chan => { c with seq := c.seq.resume }) (State.startCry_ch _ n))⟩

/-- How the sequencer that makes a request waits for space. -/
def CryReq.block (r : CryReq) : Block := if r.sig then .sigq r else .resq r

/-- At a full queue the sequencer waits (R147). -/
theorem State.request_waits {n : Nat} (h : 32 ≤ s.cry.queue.length) :
    s.request n r = (s.bump R.CRY_CNT_2_N_QWAIT).modSeq n fun q => { q with run := .blocked r.block } :=
  if_neg (Nat.not_lt.mpr h)

end

/-! ## A request of an instruction -/

/-- The instruction read `x` bytes of the RX FIFO and handed CRY the request `r`, or waits for space in the queue. -/
def Asks (n : Ch) (s : State) (x : Nat) (r : CryReq) (t : State) : Prop :=
  (s.cry.queue.length < 32 → (t.ch n.val).seq.core = ({ (s.ch n.val).seq with pc := (s.ch n.val).seq.pc + 1 } : Seq).core
    ∧ (t.ch n.val).rxf = (s.ch n.val).rxf.skip rxSize x ∧ t.cry.Has r)
  ∧ (32 ≤ s.cry.queue.length → (t.ch n.val).seq.run = .blocked r.block ∧ t.cry = s.cry ∧ Counts R.CRY_CNT_2_N_QWAIT s t)

theorem State.sigReq_congr {s t : State} (h : t.sram = s.sram) (j : Job) (i : Nat) (hd : Option Nat) (d : List Byte) :
    t.sigReq j i hd d = s.sigReq j i hd d := by
  rw [State.sigReq, State.sigReq, State.tabValid, State.tabValid, State.sb, State.sb, h]

theorem State.modRom_cry (s : State) (j : Job) (g : RomCtx → RomCtx) : (s.modRom j g).cry = s.cry := by
  unfold State.modRom
  split <;> rfl

theorem State.modRom_sram (s : State) (j : Job) (g : RomCtx → RomCtx) : (s.modRom j g).sram = s.sram := by
  unfold State.modRom
  split <;> rfl

/-- The state in which a request is made: the routine's ROM context notes the instruction by `g`, and `f` reads the channel's bytes. -/
def State.noted (s : State) (n : Ch) (j : Job) (g : RomCtx → RomCtx) (f : Chan → Chan) : State :=
  ((s.counted n j).modRom j g).modCh n.val f

/-- `x` bytes of the RX FIFO are read. -/
def Chan.skipRx (x : Nat) (c : Chan) : Chan := { c with rxf := c.rxf.skip rxSize x }

/-- The search of the held sighting is asked for. -/
def Chan.askHeld (hd : Held) (c : Chan) : Chan := { c with inv := { c.inv with held := some { hd with asked := true } } }

theorem Chan.skipRx_reads (x : Nat) (c : Chan) : (c.skipRx x).seq = c.seq ∧ (c.skipRx x).rxf = c.rxf.skip rxSize x := ⟨rfl, rfl⟩

theorem Chan.askHeld_reads (hd : Held) (x : Nat) (c : Chan) :
    ((c.skipRx x).askHeld hd).seq = c.seq ∧ ((c.skipRx x).askHeld hd).rxf = c.rxf.skip rxSize x := ⟨rfl, rfl⟩

/-- The state in which SIGQ, having read `x` bytes, makes its request. -/
def State.sigqRead (s : State) (n : Ch) (j : Job) (x : Nat) : State :=
  s.noted n j (fun r => { r with check := { r.check with sigq := true } }) (Chan.skipRx x)

/-- The state in which RESQ, having read its 16 bytes, makes its request. -/
def State.resqRead (s : State) (n : Ch) (j : Job) (hd : Held) : State :=
  s.noted n j (fun r => { r with check := { r.check with resq := true } }) fun c => (c.skipRx 16).askHeld hd

section

variable (s : State) (n : Ch) (j : Job) (g : RomCtx → RomCtx) (f : Chan → Chan)

theorem State.noted_ch : (s.noted n j g f).ch n.val = f ((s.counted n j).ch n.val) :=
  (State.ch_modCh_same _ n.val f n.isLt).trans (congrArg f (State.modRom_ch _ j g n.val))

theorem State.noted_cry : (s.noted n j g f).cry = s.cry :=
  (State.modRom_cry (s.counted n j) j g).trans (congrArg State.cry (s.counted_outside n j) :)

theorem State.noted_sram : (s.noted n j g f).sram = s.sram :=
  (State.modRom_sram (s.counted n j) j g).trans (s.counted_sram n j)

theorem State.noted_regs : (s.noted n j g f).regs = (s.counted n j).regs := State.modRom_regs (s.counted n j) j g

/-- The sequencer is counted, and `x` bytes are read. -/
theorem State.noted_reads {x : Nat} (hf : ∀ c, (f c).seq = c.seq ∧ (f c).rxf = c.rxf.skip rxSize x) :
    ((s.noted n j g f).ch n.val).seq = (s.ch n.val).seq.counted true
      ∧ ((s.noted n j g f).ch n.val).rxf = (s.ch n.val).rxf.skip rxSize x := by
  have hread := hf ((s.counted n j).ch n.val)
  rwa [← s.noted_ch n j g f, s.counted_ch_same] at hread

end

theorem State.sigqRead_cry (s : State) (n : Ch) (j : Job) (x : Nat) : (s.sigqRead n j x).cry = s.cry := s.noted_cry n j _ _

theorem State.sigqRead_sram (s : State) (n : Ch) (j : Job) (x : Nat) : (s.sigqRead n j x).sram = s.sram := s.noted_sram n j _ _

theorem State.sigqRead_reads (s : State) (n : Ch) (j : Job) (x : Nat) :
    ((s.sigqRead n j x).ch n.val).seq = (s.ch n.val).seq.counted true
      ∧ ((s.sigqRead n j x).ch n.val).rxf = (s.ch n.val).rxf.skip rxSize x := s.noted_reads n j _ _ (Chan.skipRx_reads x)

theorem State.counted_inv (s : State) (n : Ch) (j : Job) : ((s.counted n j).ch n.val).inv = (s.ch n.val).inv :=
  s.counted_chan n j Chan.inv (fun _ _ => rfl) n.val

theorem State.counted_rxf (s : State) (n : Ch) (j : Job) : ((s.counted n j).ch n.val).rxf = (s.ch n.val).rxf :=
  s.counted_chan n j Chan.rxf (fun _ _ => rfl) n.val

theorem State.counted_getG (s : State) (n : Ch) (j : Job) (r : GReg) :
    ((s.counted n j).ch n.val).seq.getG r = (s.ch n.val).seq.getG r := by
  rw [s.counted_ch_same, Seq.counted_getG]

section

variable {s : State} {n : Ch} {w : Nat} {j : Job}

/-- What an instruction does that reads `x` bytes and makes a request. -/
theorem asks_request (h : Executes s n w j) (hc : s.canon = true) {g : RomCtx → RomCtx} {f : Chan → Chan} {x : Nat}
    (hf : ∀ c, (f c).seq = c.seq ∧ (f c).rxf = c.rxf.skip rxSize x) (r : CryReq) :
    Asks n s x r ((s.noted n j g f).request n.val r) := by
  let u := s.noted n j g f
  have hcry : u.cry = s.cry := s.noted_cry n j g f
  have hregs : u.regs = (s.counted n j).regs := s.noted_regs n j g f
  obtain ⟨hseq, hrx⟩ := s.noted_reads n j g f hf
  refine ⟨fun hroom => ?_, fun hfull => ?_⟩
  · obtain ⟨hhas, hch⟩ := State.request_joins (s := u) (r := r) n.isLt (hcry ▸ hroom)
    rw [hch]
    exact ⟨(congrArg (fun q : Seq => q.resume.core) hseq).trans (Seq.resume_core h.run), hrx, hhas⟩
  · rw [State.request_waits (s := u) (hcry ▸ hfull)]
    have hcount := counts_bump u R.CRY_CNT_2_N_QWAIT (hregs ▸ s.counted_wf n j (State.canon_regs hc)) (by decide)
    have hrd : u.rd R.CRY_CNT_2_N_QWAIT = s.rd R.CRY_CNT_2_N_QWAIT := by
      rw [State.rd_of_regs hregs, State.rd, State.rd, s.counted_rdWord n j]
      simp only [R.CRY_CNT_2_N_QWAIT, R.CRY_CNT_2, R.CSQ_YMAX]
      omega
    refine ⟨congrArg Seq.run (State.seq_modSeq_same _ n.val _ n.isLt), hcry, ?_⟩
    rwa [Counts, hrd] at hcount

end

/-! ## The entry that SIGQ names (R235) -/

section

variable {c : InvCtx} {v : Nat} {hd : Held}

theorem InvCtx.sigEntry_index (h : v < 0x4000) : c.sigEntry v = some (some v) := if_pos h

theorem InvCtx.heldNamed_index (h : v < 0x4000) : c.heldNamed v = none := if_neg (Nat.ne_of_lt h)

theorem InvCtx.sigEntry_misuse (h : 0x4000 < v ∨ (v = 0x4000 ∧ c.held = none)) : c.sigEntry v = none := by
  unfold InvCtx.sigEntry heldHandle
  rcases h with h | ⟨rfl, h⟩
  · rw [if_neg (Nat.lt_asymm h), if_pos (Nat.ne_of_gt h)]
  · rw [h]
    rfl

theorem InvCtx.heldNamed_held (h : c.held = some hd) : c.heldNamed 0x4000 = some hd.handle := congrArg (Option.map _) h

/-- The entry of a held sighting: its handle while no search has ended, then the one that its resolution gave it, if any. -/
def Held.entry (hd : Held) : Option Nat :=
  match hd.result with
  | none => some hd.handle
  | some (resolved, i) => if resolved then i else none

theorem InvCtx.sigEntry_held (h : c.held = some hd) : c.sigEntry 0x4000 = some hd.entry := by
  obtain ⟨sight, handle, asked, result⟩ := hd
  unfold InvCtx.sigEntry
  rw [h]
  rcases result with _ | ⟨_ | _, i⟩ <;> rfl

end

/-- The bytes that a request reads are the first that are readable. -/
theorem Fifo.peek_unread (f : Fifo) (k : Nat) : f.peek rxSize 0 k = f.unread.take k := rfl

/-! ## SIGQ -/

theorem sigqWord_eq (a b : GReg) : regsWord 0xC a.val b.val 3 = 0xC003 + a.val * 512 + b.val * 64 := by
  simp only [regsWord]
  omega

section

variable {s : State} {n : Ch} {j : Job} {a b : GReg} {v k : Nat} (hv : ((s.ch n.val).seq.getG a).toNat = v)
  (hk : ((s.ch n.val).seq.getG b).toNat = k) (h : Executes s n (0xC003 + a.val * 512 + b.val * 64) j)
  (hw : (s.ch n.val).seq.windup = false) (hc : s.canon = true) (hj : s.job? j.id = some j)
include hv hk h hw

/-- What SIGQ of an entry, or of a sighting without one, does on the counted state. -/
theorem leads_sigq {e : Option Nat} {P : State → Prop} (he : (s.ch n.val).inv.sigEntry v = some e)
    (hp : P (if 64 < k then (s.counted n j).seqFault n.val 16
      else if (s.ch n.val).rxf.unread.length < k then (s.counted n j).seqFault n.val 5
      else e.elim ((s.sigqRead n j k).modSeq n.val Seq.resume) fun i => (s.sigqRead n j k).request n.val
        ((s.sigqRead n j k).sigReq j i ((s.ch n.val).inv.heldNamed v) ((s.ch n.val).rxf.unread.take k)))) :
    Leads (.sigq n a b) s P := by
  refine leads_air h hw rfl (sigqWord_eq a b) ?_
  simp only [s.counted_inv, s.counted_rxf, s.counted_getG, hv, hk, he, Fifo.readable_rx]
  cases e <;> exact hp

/-- SIGQ of a sighting that has no entry reads its bytes and asks for nothing (R158). -/
theorem leads_sigq_unresolved (he : (s.ch n.val).inv.sigEntry v = some none) (hle : k ≤ 64)
    (hlen : k ≤ (s.ch n.val).rxf.unread.length) : Leads (.sigq n a b) s fun t =>
      (t.ch n.val).seq.core = ({ (s.ch n.val).seq with pc := (s.ch n.val).seq.pc + 1 } : Seq).core
        ∧ (t.ch n.val).rxf = (s.ch n.val).rxf.skip rxSize k ∧ t.cry = s.cry := by
  refine leads_sigq hv hk h hw he ?_
  rw [if_neg (Nat.not_lt.mpr hle), if_neg (Nat.not_lt.mpr hlen), Option.elim_none]
  obtain ⟨hseq, hrx⟩ := s.sigqRead_reads n j k
  have hkeep : (((s.sigqRead n j k).modSeq n.val Seq.resume).ch n.val).rxf = ((s.sigqRead n j k).ch n.val).rxf :=
    State.ch_modCh_keeps Chan.rxf rfl n.val
  refine ⟨?_, hkeep.trans hrx, s.sigqRead_cry n j k⟩
  rw [State.seq_modSeq_same _ _ _ n.isLt, hseq]
  exact Seq.resume_core h.run

include hc

/-- SIGQ asks for the entry that is named, over the bytes that are read. -/
theorem leads_sigq_request {i : Nat} {o : Option Nat} (he : (s.ch n.val).inv.sigEntry v = some (some i))
    (ho : (s.ch n.val).inv.heldNamed v = o) (hle : k ≤ 64) (hlen : k ≤ (s.ch n.val).rxf.unread.length) :
    Leads (.sigq n a b) s (Asks n s k (s.sigReq j i o ((s.ch n.val).rxf.unread.take k))) := by
  refine leads_sigq hv hk h hw he ?_
  rw [if_neg (Nat.not_lt.mpr hle), if_neg (Nat.not_lt.mpr hlen), Option.elim_some, ho,
    State.sigReq_congr (s.sigqRead_sram n j k)]
  exact asks_request h hc (Chan.skipRx_reads k) _

include hj

/-- SIGQ of more than 64 bytes faults. -/
theorem leads_sigq_long {e : Option Nat} (he : (s.ch n.val).inv.sigEntry v = some e) (hlong : 64 < k) :
    Leads (.sigq n a b) s (FaultTo n s j 16) := by
  refine leads_sigq hv hk h hw he ?_
  rw [if_pos hlong]
  exact faultTo_counted h hc hj 16

/-- SIGQ of more bytes than are readable faults. -/
theorem leads_sigq_short {e : Option Nat} (he : (s.ch n.val).inv.sigEntry v = some e) (hle : k ≤ 64)
    (hlen : (s.ch n.val).rxf.unread.length < k) : Leads (.sigq n a b) s (FaultTo n s j 5) := by
  refine leads_sigq hv hk h hw he ?_
  rw [if_neg (Nat.not_lt.mpr hle), if_pos hlen]
  exact faultTo_counted h hc hj 5

omit hk in
/-- SIGQ of what names no entry faults. -/
theorem leads_sigq_misuse (he : (s.ch n.val).inv.sigEntry v = none) : Leads (.sigq n a b) s (FaultTo n s j 16) := by
  refine leads_air h hw rfl (sigqWord_eq a b) ?_
  simp only [s.counted_inv, s.counted_getG, hv, he]
  exact faultTo_counted h hc hj 16

end

/-! ## RESQ -/

theorem resqWord_eq (a : GReg) : regsWord 0xC a.val 0 4 = 0xC004 + a.val * 512 := by
  simp only [regsWord]
  omega

section

variable {s : State} {n : Ch} {j : Job} {a : GReg} (h : Executes s n (0xC004 + a.val * 512) j)
  (hw : (s.ch n.val).seq.windup = false) (hc : s.canon = true) (hj : s.job? j.id = some j)
include h hw

/-- What RESQ does on the counted state while a sighting is held. -/
theorem leads_resq {hd : Held} {P : State → Prop} (hh : (s.ch n.val).inv.held = some hd)
    (hp : P (if ((s.ch n.val).seq.getG a).toNat ≠ 0x4000 then (s.counted n j).seqFault n.val 16
      else if (s.ch n.val).rxf.unread.length < 16 then (s.counted n j).seqFault n.val 5
      else (s.resqRead n j hd).request n.val (resReq j hd ((s.ch n.val).rxf.unread.take 16)))) : Leads (.resq n a) s P := by
  refine leads_air h hw rfl (resqWord_eq a) ?_
  simp only [s.counted_inv, s.counted_rxf, s.counted_getG, hh, Fifo.readable_rx]
  exact hp

include hc

/-- RESQ asks for the search of the held sighting, over the 16 bytes that are read. -/
theorem leads_resq_request {hd : Held} (hh : (s.ch n.val).inv.held = some hd) (hv : ((s.ch n.val).seq.getG a).toNat = 0x4000)
    (hlen : 16 ≤ (s.ch n.val).rxf.unread.length) :
    Leads (.resq n a) s (Asks n s 16 (resReq j hd ((s.ch n.val).rxf.unread.take 16))) := by
  refine leads_resq h hw hh ?_
  rw [if_neg (not_not_intro hv), if_neg (Nat.not_lt.mpr hlen)]
  exact asks_request h hc (Chan.askHeld_reads hd 16) _

include hj

/-- RESQ of what is not the held sighting faults. -/
theorem leads_resq_misuse (hm : ((s.ch n.val).seq.getG a).toNat ≠ 0x4000 ∨ (s.ch n.val).inv.held = none) :
    Leads (.resq n a) s (FaultTo n s j 16) := by
  cases hh : (s.ch n.val).inv.held with
  | none =>
    refine leads_air h hw rfl (resqWord_eq a) ?_
    simp only [s.counted_inv, hh]
    exact faultTo_counted h hc hj 16
  | some hd =>
    refine leads_resq h hw hh ?_
    rw [if_pos (hm.resolve_right (hh ▸ Option.some_ne_none hd))]
    exact faultTo_counted h hc hj 16

/-- RESQ faults where fewer than 16 bytes are readable. -/
theorem leads_resq_short {hd : Held} (hh : (s.ch n.val).inv.held = some hd) (hv : ((s.ch n.val).seq.getG a).toNat = 0x4000)
    (hlen : (s.ch n.val).rxf.unread.length < 16) : Leads (.resq n a) s (FaultTo n s j 5) := by
  refine leads_resq h hw hh ?_
  rw [if_neg (not_not_intro hv), if_pos hlen]
  exact faultTo_counted h hc hj 5

end

/-! ## The obligation -/

/-- Settles O23: SIGQ and RESQ by what their register names, by the bytes that are readable, and by the room in the queue. -/
theorem seqRequests : Obligations.SeqRequests := by
  unfold Obligations.SeqRequests
  intro s n j a b hc hj c q v k unread reads known next asks hw
  have hasks {i : Instr} {x : Nat} {r : CryReq} (ht : Leads i s (Asks n s x r)) : asks i x r r.block := by
    obtain ⟨t, hi, hroom, hfull⟩ := ht
    exact ⟨fun hlen => ⟨t, hi, hroom hlen⟩, fun hlen => ⟨t, hi, hfull hlen⟩⟩
  refine ⟨fun h => ⟨fun hm => ?_, fun hv => leads_sigq_short rfl rfl h hw hc hj (InvCtx.sigEntry_index hv), fun hv hle hlen => ?_,
    fun hd hh hv => ?_⟩, fun h => ⟨leads_resq_misuse h hw hc hj, fun hd => leads_resq_short h hw hc hj, fun hd hh hv hlen =>
    hasks (leads_resq_request h hw hc hh hv hlen)⟩⟩
  · obtain hv | hv | ⟨hlong, hv⟩ := hm
    · exact leads_sigq_misuse rfl h hw hc hj (InvCtx.sigEntry_misuse (.inl hv))
    · exact leads_sigq_misuse rfl h hw hc hj (InvCtx.sigEntry_misuse (.inr hv))
    · exact leads_sigq_long rfl rfl h hw hc hj (InvCtx.sigEntry_index hv) hlong
  · exact hasks (leads_sigq_request rfl rfl h hw hc (InvCtx.sigEntry_index hv) (InvCtx.heldNamed_index hv) hle hlen)
  · have he : c.inv.sigEntry 0x4000 = some hd.entry := InvCtx.sigEntry_held hh
    exact ⟨leads_sigq_long hv rfl h hw hc hj he, leads_sigq_short hv rfl h hw hc hj he,
      fun hle hlen hnone => leads_sigq_unresolved hv rfl h hw (he.trans (congrArg some hnone)) hle hlen,
      fun i hi hle hlen => hasks (leads_sigq_request hv rfl h hw hc (he.trans (congrArg some hi)) (InvCtx.heldNamed_held hh) hle hlen)⟩

end Sys2Proof.Machine
end

section
/-!
PROOFS. What the arithmetic of a sequencer makes of its registers and flags (R220, R221): O2 to O6.
-/

namespace Sys2Proof.Machine

/-! ## Flags and results (R220) -/

/-- N and Z in terms of the result (R220). -/
theorem Seq.setNZ_eq (q : Seq) (v : Word) : q.setNZ v = { q with fn := v.getLsbD 31, fz := decide (v.toNat = 0) } := by
  have hn : v.msb = v.getLsbD 31 := BitVec.msb_eq_getLsbD_last v
  have hz : (v == 0) = decide (v.toNat = 0) := by
    rw [Bool.eq_iff_iff, beq_iff_eq, decide_eq_true_iff, ← BitVec.toNat_inj]
    rfl
  rw [Seq.setNZ, hn, hz]

/-- V of an addition: the sum is not that of the signed operands. -/
theorem addOverflow_eq (x y : Word) :
    (x.msb == y.msb && (x + y).msb != x.msb) = decide ((x + y).toInt ≠ x.toInt + y.toInt) := by
  rw [Bool.eq_iff_iff]
  simp only [Bool.and_eq_true, beq_iff_eq, bne_iff_ne, ne_eq, decide_eq_true_iff, BitVec.msb_eq_decide, decide_eq_decide,
    BitVec.toInt_eq_toNat_cond, BitVec.toNat_add]
  omega

/-- V of a subtraction: the difference is not that of the signed operands. -/
theorem subOverflow_eq (x y : Word) :
    (x.msb != y.msb && (x - y).msb != x.msb) = decide ((x - y).toInt ≠ x.toInt - y.toInt) := by
  rw [Bool.eq_iff_iff]
  simp only [Bool.and_eq_true, bne_iff_ne, ne_eq, decide_eq_true_iff, BitVec.msb_eq_decide, decide_eq_decide,
    BitVec.toInt_eq_toNat_cond, BitVec.toNat_sub]
  omega

theorem Seq.addFlags_eq (q : Seq) (x y : Word) : q.addFlags x y = { q with
    fn := (x + y).getLsbD 31, fz := decide ((x + y).toNat = 0), fc := decide (2 ^ 32 ≤ x.toNat + y.toNat)
    fv := decide ((x + y).toInt ≠ x.toInt + y.toInt) } := by
  rw [Seq.addFlags, Seq.setNZ_eq, addOverflow_eq]

theorem Seq.subFlags_eq (q : Seq) (x y : Word) : q.subFlags x y = { q with
    fn := (x - y).getLsbD 31, fz := decide ((x - y).toNat = 0), fc := decide (x.toNat < y.toNat)
    fv := decide ((x - y).toInt ≠ x.toInt - y.toInt) } := by
  rw [Seq.subFlags, Seq.setNZ_eq, subOverflow_eq]

/-- C after a shift, N and Z of its result, and the result in its register. -/
theorem Seq.putShift_eq (q : Seq) (k i : Nat) (rd : GReg) (v : Word) :
    (q.shiftC k (bitOf (q.getG rd).toNat i)).putNZ rd v
      = ({ q with fn := v.getLsbD 31, fz := decide (v.toNat = 0), fc := if k = 0 then q.fc else (q.getG rd).getLsbD i } : Seq).setG
        rd v := by
  rw [Seq.putNZ, Seq.setNZ_eq, Seq.shiftC]
  split <;> rfl

theorem sshiftRight_eq_ofInt (a : Word) (k : Nat) : a.sshiftRight k = BitVec.ofInt 32 (a.toInt / 2 ^ k) := by
  rw [BitVec.sshiftRight, Int.shiftRight_eq_div_pow]
  rfl

theorem twoPow_eq_ofNat (k : Nat) : BitVec.ofNat 32 (2 ^ k) = BitVec.twoPow 32 k := by
  exact BitVec.eq_of_toNat_eq (by rw [BitVec.toNat_ofNat, BitVec.toNat_twoPow])

theorem movx_eq (a : Word) (imm : BitVec 9) : a <<< 9 ||| imm.setWidth 32 = BitVec.ofNat 32 (a.toNat * 512 + imm.toNat) := by
  apply BitVec.eq_of_toNat_eq
  have h : a.toNat <<< 9 % 2 ^ 32 ||| imm.toNat = a.toNat <<< 9 % 2 ^ 32 + imm.toNat := by
    rw [Nat.shiftLeft_eq, show a.toNat * 2 ^ 9 % 2 ^ 32 = 2 ^ 9 * (a.toNat % 2 ^ 23) by omega]
    exact (Nat.two_pow_add_eq_or_of_lt imm.isLt _).symm
  have := imm.isLt
  simp only [BitVec.toNat_or, BitVec.toNat_shiftLeft, BitVec.toNat_setWidth, BitVec.toNat_ofNat]
  rw [Nat.mod_eq_of_lt (a := imm.toNat) (by omega), h, Nat.shiftLeft_eq]
  omega

/-! ## Running sequencers that are counted, set flags and go on -/

section

variable {q : Seq} {y : Bool} (h : q.run = .run)
include h

theorem Seq.flags_resume_core (fn fz fc fv : Bool) :
    ({ q.counted y with fn := fn, fz := fz, fc := fc, fv := fv } : Seq).resume.core
      = ({ q with pc := q.pc + 1, fn := fn, fz := fz, fc := fc, fv := fv } : Seq).core := by
  simp [Seq.core, Seq.resume, Seq.counted, h]

theorem Seq.flags_setG_resume_core (fn fz fc fv : Bool) (r : GReg) (v : Word) :
    (({ q.counted y with fn := fn, fz := fz, fc := fc, fv := fv } : Seq).setG r v).resume.core
      = (({ q with pc := q.pc + 1, fn := fn, fz := fz, fc := fc, fv := fv } : Seq).setG r v).core := by
  simp [Seq.core, Seq.resume, Seq.counted, Seq.setG, h]

theorem Seq.branch_resume_core (c : Bool) (o : BitVec 16) :
    ((q.counted y).branch c o).resume.core = ({ q with pc := if c then q.pc + 1 + o else q.pc + 1 } : Seq).core := by
  have hpc : q.pc + o + 1 = q.pc + 1 + o := by ac_rfl
  cases c with
  | false => simp [Seq.core, Seq.resume, Seq.counted, Seq.branch, h]
  | true => simpa [Seq.core, Seq.resume, Seq.counted, Seq.branch, h] using hpc

end

/-! ## Instructions that change only their sequencer -/

section

variable {s : State} {n : Ch} {w : Nat} {j : Job} {i : Instr} {g : Seq → Seq}

/-- An instruction of the kind `State.pure` that executes: the counted sequencer, changed and gone on, is `x`. -/
theorem leads_pure {y : Bool} {x : Seq} (h : Executes s n w j) (hi : exec i s = .next (s.pure n.val w y g))
    (hx : (g ((s.ch n.val).seq.counted y)).resume.core = x.core)
    (hc : (g ((s.ch n.val).seq.counted y)).icnt = (s.ch n.val).seq.icnt + 1) : Leads i s (SeqTo n s x) :=
  ⟨_, hi, seqTo_pure h y g x fun _ hq _ => hq ▸ ⟨hx, hc⟩⟩

end

/-- Settles O2: each sum or difference sets the flags of its operands, and all but CMP and CMPI write it. -/
theorem seqAddSub : Obligations.SeqAddSub := by
  unfold Obligations.SeqAddSub
  intro s n j rd rs imm q a flags sum cmp
  have hsum {y : Bool} (b : Word) (hr : q.run = .run) : ((q.counted y).doAdd rd b).resume.core = (sum b).core := by
    rw [Seq.doAdd, Seq.addFlags_eq]
    exact Seq.flags_setG_resume_core hr ..
  have hcmp {y : Bool} (b : Word) (hr : q.run = .run) : ((q.counted y).subFlags a b).resume.core = (cmp b).core := by
    rw [Seq.subFlags_eq]
    exact Seq.flags_resume_core hr ..
  have hdiff {y : Bool} (b : Word) (hr : q.run = .run) :
      ((q.counted y).doSub rd b).resume.core = ((cmp b).setG rd (a - b)).core := by
    rw [Seq.doSub, Seq.subFlags_eq]
    exact Seq.flags_setG_resume_core hr ..
  rw [BitVec.ofNat_toNat]
  exact ⟨fun h => leads_pure h rfl (hsum _ h.run) rfl, fun h => leads_pure h rfl (hdiff _ h.run) rfl,
    fun h => leads_pure h rfl (hcmp _ h.run) rfl, fun h => leads_pure h rfl (hsum _ h.run) rfl,
    fun h => leads_pure h rfl (hdiff _ h.run) rfl, fun h => leads_pure h rfl (hcmp _ h.run) rfl⟩

/-- Settles O3: each result is that of the operation on bits or numbers, and C and V stay. -/
theorem seqLogic : Obligations.SeqLogic := by
  unfold Obligations.SeqLogic
  intro s n j rd rs q a b flags put word
  have hput {y : Bool} (v : Word) (hr : q.run = .run) : ((q.counted y).putNZ rd v).resume.core = (put v).core := by
    rw [Seq.putNZ, Seq.setNZ_eq]
    exact Seq.flags_setG_resume_core hr ..
  have hflags {y : Bool} (v : Word) (hr : q.run = .run) : ((q.counted y).setNZ v).resume.core = (flags v).core := by
    rw [Seq.setNZ_eq]
    exact Seq.flags_resume_core hr ..
  have hmul : BitVec.ofNat 32 (a.toNat * b.toNat) = a * b := rfl
  have hnot : BitVec.ofNat 32 (2 ^ 32 - 1 - b.toNat) = ~~~b := BitVec.eq_of_toNat_eq (by
    rw [BitVec.toNat_ofNat, BitVec.toNat_not]
    omega)
  rw [hmul, hnot]
  exact ⟨fun h => leads_pure h rfl (hput _ h.run) rfl, fun h => leads_pure h rfl (hput _ h.run) rfl,
    fun h => leads_pure h rfl (hput _ h.run) rfl, fun h => leads_pure h rfl (hput _ h.run) rfl,
    fun h => leads_pure h rfl (hput _ h.run) rfl, fun h => leads_pure h rfl (hflags _ h.run) rfl,
    fun h => leads_pure h rfl (hput _ h.run) rfl⟩

/-- Settles O4: each shift multiplies or divides by a power of two, and C is the bit that the power reaches last. -/
theorem seqShift : Obligations.SeqShift := by
  unfold Obligations.SeqShift
  intro s n j rd rs imm q a k m put shl shr
  have hput {y : Bool} (k i : Nat) (v : Word) (hr : q.run = .run) :
      (((q.counted y).shiftC k (bitOf a.toNat i)).putNZ rd v).resume.core = (put v k i).core := by
    rw [show a = (q.counted y).getG rd from rfl, Seq.putShift_eq]
    exact Seq.flags_setG_resume_core hr ..
  have hcount {y : Bool} (k i : Nat) (v : Word) :
      (((q.counted y).shiftC k (bitOf a.toNat i)).putNZ rd v).icnt = q.icnt + 1 := by
    rw [show a = (q.counted y).getG rd from rfl, Seq.putShift_eq]
    rfl
  have hshl (k : Nat) : BitVec.ofNat 32 (a.toNat * 2 ^ k) = a <<< k := by
    rw [← Nat.shiftLeft_eq]
    rfl
  have hshr (k : Nat) : BitVec.ofNat 32 (a.toNat / 2 ^ k) = a >>> k := BitVec.eq_of_toNat_eq (by
    rw [BitVec.toNat_ofNat, BitVec.toNat_ushiftRight, Nat.shiftRight_eq_div_pow]
    exact Nat.mod_eq_of_lt (Nat.lt_of_le_of_lt (Nat.div_le_self ..) a.isLt))
  simp only [shl, shr, hshl, hshr, ← sshiftRight_eq_ofInt]
  exact ⟨fun h => leads_pure h rfl (hput _ _ _ h.run) (hcount ..), fun h => leads_pure h rfl (hput _ _ _ h.run) (hcount ..),
    fun h => leads_pure h rfl (hput _ _ _ h.run) (hcount ..), fun h => leads_pure h rfl (hput _ _ _ h.run) (hcount ..),
    fun h => leads_pure h rfl (hput _ _ _ h.run) (hcount ..)⟩

/-- Settles O5: each constant, bit or time is the value that its register takes. -/
theorem seqBitsTime : Obligations.SeqBitsTime := by
  unfold Obligations.SeqBitsTime
  intro s n j rd imm bit q a put
  have hput {y : Bool} (v : Word) (hr : q.run = .run) : ((q.counted y).setG rd v).resume.core = (put v).core :=
    Seq.setG_resume_core hr rd v
  have hmovi : BitVec.ofInt 32 imm.toInt = imm.signExtend 32 := rfl
  rw [hmovi, ← movx_eq, ← twoPow_eq_ofNat]
  exact ⟨fun h => leads_pure h rfl (hput _ h.run) rfl, fun h => leads_pure h rfl (hput _ h.run) rfl,
    fun h => leads_pure h rfl (Seq.flags_resume_core h.run ..) rfl, fun h => leads_pure h rfl (hput _ h.run) rfl,
    fun h => leads_pure h rfl (hput _ h.run) rfl, fun h => leads_pure h rfl (hput _ h.run) rfl⟩

/-- Settles O6: each condition is that of its instruction, and the offset counts from the instruction that follows. -/
theorem seqBranch : Obligations.SeqBranch := by
  unfold Obligations.SeqBranch
  intro s n j o far q go word
  have hgo {y : Bool} (c : Bool) (hr : q.run = .run) : ((q.counted y).branch c (o.signExtend 16)).resume.core = (go c).core :=
    Seq.branch_resume_core hr c _
  have hcount {y : Bool} (c : Bool) (k : BitVec 16) : ((q.counted y).branch c k).icnt = q.icnt + 1 := by
    cases c <;> rfl
  exact ⟨fun h => leads_pure h rfl (hgo _ h.run) (hcount ..), fun h => leads_pure h rfl (hgo _ h.run) (hcount ..),
    fun h => leads_pure h rfl (hgo _ h.run) (hcount ..), fun h => leads_pure h rfl (hgo _ h.run) (hcount ..),
    fun h => leads_pure h rfl (hgo _ h.run) (hcount ..), fun h => leads_pure h rfl (hgo _ h.run) (hcount ..),
    fun h => leads_pure h rfl (hgo _ h.run) (hcount ..), fun h => leads_pure h rfl (hgo _ h.run) (hcount ..),
    fun h => leads_pure h rfl (Seq.branch_resume_core h.run true _) (hcount ..)⟩

end Sys2Proof.Machine
end

section
/-!
PROOFS. Calls and returns, loads and stores (R218, R219, R221): O7 to O9.
-/

namespace Sys2Proof.Machine

/-! ## The stack of return addresses (R221) -/

section

variable {s : State} {n : Ch} {w : Nat} {j : Job}

/-- A change of the sequencer by an instruction that does not yield. -/
theorem seqTo_stepped (s : State) (n : Ch) (j : Job) {g : Seq → Seq} {x : Seq}
    (hx : (g ((s.ch n.val).seq.counted false)).core = x.core)
    (hc : (g ((s.ch n.val).seq.counted false)).icnt = (s.ch n.val).seq.icnt + 1) :
    SeqTo n s x ((s.stepped n j).modSeq n.val g) := seqTo_modSeq s n j false g x hx hc

theorem State.stepped_seq (s : State) (n : Ch) (j : Job) : ((s.stepped n j).ch n.val).seq = (s.ch n.val).seq.counted false :=
  congrArg Chan.seq (s.stepped_ch n j)

end

theorem State.stepped_sram (s : State) (n : Ch) (j : Job) : (s.stepped n j).sram = s.sram :=
  (congrArg State.sram ((State.countInstr_outside _ n.val false).trans (s.touchLine_outside j (s.ch n.val).seq.pc)) :)

/-- A running sequencer that is counted, pushes its return address and jumps. -/
theorem Seq.call_resume_core {q : Seq} {y : Bool} (h : q.run = .run) (o : BitVec 16) :
    (({ q.counted y with stack := (q.pc + 1) :: q.stack } : Seq).branch true o).resume.core
      = ({ q with pc := q.pc + 1 + o, stack := (q.pc + 1) :: q.stack } : Seq).core := by
  have hpc : q.pc + o + 1 = q.pc + 1 + o := by ac_rfl
  simpa [Seq.core, Seq.resume, Seq.branch, Seq.counted, h] using hpc

/-- Settles O7: a full and an empty stack fault, and else the return address is the one pushed. -/
theorem seqCallRet : Obligations.SeqCallRet := by
  unfold Obligations.SeqCallRet
  intro s n j far ra hc hj q
  have hstack : ((s.stepped n j).ch n.val).seq.stack = q.stack := (congrArg Seq.stack (s.stepped_seq n j) :)
  refine ⟨fun h => ⟨fun hroom => leads_stepped h rfl rfl ?_, fun hfull => leads_stepped h rfl rfl ?_⟩,
    fun h => ⟨fun a rest hst => leads_stepped h rfl rfl ?_, fun hst => leads_stepped h rfl rfl ?_⟩,
    fun h => leads_stepped h rfl rfl (seqTo_stepped s n j rfl rfl)⟩
  · rw [hstack, if_neg (Nat.not_le.mpr hroom)]
    exact seqTo_stepped s n j (Seq.call_resume_core h.run _) rfl
  · rw [hstack, if_pos hfull]
    exact faultTo_stepped h hc hj 2
  · rw [hstack, hst]
    exact seqTo_stepped s n j rfl rfl
  · rw [hstack, hst]
    exact faultTo_stepped h hc hj 3

/-! ## Loads and stores (R218) -/

/-- The address of LD and ST, as the sum that the machine forms. -/
theorem Seq.dataAddr_eq (q : Seq) (rs : GReg) (size : Fin 3) (off : BitVec 4) :
    q.dataAddr rs size off = (q.getG rs + BitVec.ofNat 32 (off.toNat * 2 ^ size.val)).toNat := by
  rw [Seq.dataAddr, BitVec.toNat_add, BitVec.toNat_ofNat, Nat.add_mod_mod]

/-- An aligned access ends within the address space. -/
theorem aligned_end_le {a : Word} {size : Fin 3} (h : a.toNat % 2 ^ size.val = 0) : a.toNat + 2 ^ size.val ≤ 2 ^ 32 := by
  have := a.isLt
  match size with
  | 0 | 1 | 2 => 
    simp at h ⊢
    omega

theorem inRange_iff {a n lo hi : Nat} : inRange a n lo hi = true ↔ lo ≤ a ∧ a + n ≤ hi := by simp [inRange]

/-- The data that a routine may read (R218): shared memory, the payload of its job, the host scratch, and the local scratch. -/
theorem Job.mayRead_iff {j : Job} {a k : Nat} : j.mayRead a k = true ↔
    (a + k ≤ 0x80000 ∨ (j.pptr ≤ a ∧ a + k ≤ j.pptr + j.plen) ∨ (0x174000 ≤ a ∧ a + k ≤ 0x180000)
      ∨ (0x180000 ≤ a ∧ a + k ≤ 0x200000)) ∨ 0xFFFFFF00 ≤ a ∧ a + k ≤ 2 ^ 32 := by
  simp only [Job.mayRead, Bool.or_eq_true, inRange_iff, localBase]
  omega

theorem Job.mayRead_iff_shared {j : Job} {a : Word} {size : Fin 3} (h : a.toNat % 2 ^ size.val = 0) :
    j.mayRead a.toNat (2 ^ size.val) = true ↔
      (a.toNat + 2 ^ size.val ≤ 0x80000 ∨ ((j.word 6).toNat ≤ a.toNat ∧ a.toNat + 2 ^ size.val ≤ (j.word 6).toNat + j.plen)
        ∨ (0x174000 ≤ a.toNat ∧ a.toNat + 2 ^ size.val ≤ 0x200000)) ∨ 0xFFFFFF00 ≤ a.toNat ∧ a.toNat + 2 ^ size.val ≤ 2 ^ 32 := by
  have hsplit : (0x174000 ≤ a.toNat ∧ a.toNat + 2 ^ size.val ≤ 0x200000) ↔
      (0x174000 ≤ a.toNat ∧ a.toNat + 2 ^ size.val ≤ 0x180000) ∨ (0x180000 ≤ a.toNat ∧ a.toNat + 2 ^ size.val ≤ 0x200000) := by
    fin_cases size <;> simp only [] at h ⊢ <;> omega
  rw [Job.mayRead_iff, hsplit]
  rfl

theorem State.load_stepped (s : State) (n : Ch) (j : Job) (q : Seq) (a k : Nat) : (s.stepped n j).load q a k = s.load q a k := by
  rw [State.load, State.load, State.snat, State.snat, State.sbytes, State.sbytes, s.stepped_sram]

theorem State.load_counted (s : State) (q : Seq) (y : Bool) (a k : Nat) : s.load (q.counted y) a k = s.load q a k := rfl

section

variable {s : State} {n : Ch} {j : Job} {rd rs : GReg} {size : Fin 3} {off : BitVec 4}

/-- A load that may read takes the bytes of the local scratch or of the memory. -/
theorem leads_ld {v : Nat} (h : Executes s n (0x8000 + rd.val * 512 + rs.val * 64 + size.val * 16 + off.toNat) j)
    (hal : (s.ch n.val).seq.dataAddr rs size off % 2 ^ size.val = 0)
    (hmay : j.mayRead ((s.ch n.val).seq.dataAddr rs size off) (2 ^ size.val) = true)
    (hv : s.load (s.ch n.val).seq ((s.ch n.val).seq.dataAddr rs size off) (2 ^ size.val) = v) :
    Leads (.ld n rd rs size off) s
      (SeqTo n s (({ (s.ch n.val).seq with pc := (s.ch n.val).seq.pc + 1 } : Seq).setG rd (BitVec.ofNat 32 v))) := by
  refine leads_stepped h rfl (by simp only [regsWord]; omega) ?_
  have haddr : ((s.stepped n j).ch n.val).seq.dataAddr rs size off = (s.ch n.val).seq.dataAddr rs size off :=
    (congrArg (Seq.dataAddr · rs size off) (s.stepped_seq n j) :)
  have hok : ¬ ((s.ch n.val).seq.dataAddr rs size off % 2 ^ size.val ≠ 0
      ∨ (!j.mayRead ((s.ch n.val).seq.dataAddr rs size off) (2 ^ size.val)) = true) := by simp [hal, hmay]
  simp only [haddr]
  rw [if_neg hok]
  refine seqTo_stepped s n j ?_ rfl
  rw [State.load_stepped, State.load_counted, hv]
  exact Seq.setG_resume_core h.run rd _

/-- Any other load faults. -/
theorem leads_ld_fault (h : Executes s n (0x8000 + rd.val * 512 + rs.val * 64 + size.val * 16 + off.toNat) j)
    (hc : s.canon = true) (hj : s.job? j.id = some j)
    (hbad : (s.ch n.val).seq.dataAddr rs size off % 2 ^ size.val ≠ 0
      ∨ (!j.mayRead ((s.ch n.val).seq.dataAddr rs size off) (2 ^ size.val)) = true) :
    Leads (.ld n rd rs size off) s (FaultTo n s j 4) := by
  refine leads_stepped h rfl (by simp only [regsWord]; omega) ?_
  have haddr : ((s.stepped n j).ch n.val).seq.dataAddr rs size off = (s.ch n.val).seq.dataAddr rs size off :=
    (congrArg (Seq.dataAddr · rs size off) (s.stepped_seq n j) :)
  simp only [haddr]
  rw [if_pos hbad]
  exact faultTo_stepped h hc hj 4

end

/-- Settles O8: an aligned address lies in the local scratch, in the rest of the data space, or faults. -/
theorem seqLoad : Obligations.SeqLoad := by
  unfold Obligations.SeqLoad
  intro s n j rd rs size off hc hj h q k a shared own
  have haddr : q.dataAddr rs size off = a := q.dataAddr_eq rs size off
  have hmay : a % k = 0 → (j.mayRead a k = true ↔ shared ∨ own) := Job.mayRead_iff_shared
  refine ⟨fun ⟨hal, hsh, hown⟩ => ?_, fun ⟨hal, hown⟩ => ?_, fun hbad => ?_⟩
  · have hlow : ¬ localBase ≤ a := fun hlo => hown ⟨hlo, aligned_end_le hal⟩
    exact leads_ld h (haddr ▸ hal) (haddr ▸ (hmay hal).mpr (.inl hsh)) (by rw [haddr]; exact if_neg hlow)
  · exact leads_ld h (haddr ▸ hal) (haddr ▸ (hmay hal).mpr (.inr hown)) (by rw [haddr]; exact if_pos hown.1)
  · refine leads_ld_fault h hc hj ?_
    rw [haddr]
    by_cases hal : a % k = 0
    · refine .inr (Bool.not_eq_true' _ ▸ Bool.eq_false_iff.mpr fun hm => ?_)
      rcases hbad with hne | ⟨hsh, hown⟩
      · exact hne hal
      · exact ((hmay hal).mp hm).elim hsh hown
    · exact .inl hal

/-- Two changes of one sequencer are one. -/
theorem State.modSeq_modSeq (s : State) (n : Ch) (f g : Seq → Seq) :
    (s.modSeq n.val f).modSeq n.val g = s.modSeq n.val fun q => g (f q) := by
  have hch : (s.modCh n.val fun c => { c with seq := f c.seq }).ch n.val = { s.ch n.val with seq := f (s.ch n.val).seq } :=
    State.ch_modCh_same s n.val _ n.isLt
  rw [State.modSeq, State.modSeq, State.modCh, hch]
  simp only [State.modCh, State.modSeq, Vector.setIfInBounds_setIfInBounds]

theorem leBytes_getElem : ∀ (k v i : Nat) (h : i < (leBytes k v).length), (leBytes k v)[i] = BitVec.ofNat 8 (v / 256 ^ i)
  | _ + 1, v, 0, _ => by rw [Nat.pow_zero, Nat.div_one]; rfl
  | k + 1, v, i + 1, h => by
    have := leBytes_getElem k (v / 256) i (by simpa [leBytes] using h)
    simp only [leBytes, List.getElem_cons_succ, this, Nat.div_div_eq_div_mul, Nat.pow_succ']

/-- The bytes of a value that is written, and the bytes beside it. -/
theorem Memory.setBytes_leBytes {m : Memory} (hm : Memory.wf m = true) (a k v : Nat) :
    (∀ i, i < k → Memory.byte (Memory.setBytes m a (leBytes k v)) (a + i) = BitVec.ofNat 8 (v / 256 ^ i))
      ∧ ∀ b, b < a ∨ a + k ≤ b → Memory.byte (Memory.setBytes m a (leBytes k v)) b = Memory.byte m b := by
  have hlen := leBytes_length k v
  refine ⟨fun i hi => ?_, fun b hb => ?_⟩
  · rw [Memory.byte_setBytes_same _ _ _ _ hm (hlen.symm ▸ hi), leBytes_getElem]
  · rw [Memory.byte_setBytes_other _ _ _ _ (hlen.symm ▸ hb)]

theorem mayWrite_iff {a k : Nat} :
    mayWrite a k = true ↔ (0x180000 ≤ a ∧ a + k ≤ 0x200000) ∨ 0xFFFFFF00 ≤ a ∧ a + k ≤ 2 ^ 32 := by
  simp only [mayWrite, Bool.or_eq_true, inRange_iff, localBase]

theorem State.canon_sram {s : State} (h : s.canon = true) : Memory.wf s.sram = true := by
  simp only [State.canon, Bool.and_eq_true] at h
  obtain ⟨⟨⟨⟨⟨⟨⟨-, hm⟩, -⟩, -⟩, -⟩, -⟩, -⟩, -⟩ := h
  exact hm

theorem State.canon_scratch {s : State} (h : s.canon = true) (n : Ch) : Memory.wf (s.ch n.val).seq.scratch = true := by
  simp only [State.canon, Bool.and_eq_true] at h
  obtain ⟨⟨⟨-, hs⟩, -⟩, -⟩ := h
  exact List.all_eq_true.mp hs n.val (List.mem_range.mpr n.isLt)

theorem State.stepped_withSram (s : State) (n : Ch) (j : Job) (m : Memory) :
    ({ s with sram := m } : State).stepped n j = { s.stepped n j with sram := m } := by
  unfold State.stepped State.touchLine
  split <;> rfl

section

variable {s : State} {n : Ch} {j : Job} {r rs : GReg} {size : Fin 3} {off : BitVec 4}

/-- ST stores where it may write. -/
theorem leads_st {a : Nat} {P : State → Prop} (h : Executes s n (0x9000 + r.val * 512 + rs.val * 64 + size.val * 16 + off.toNat) j)
    (ha : (s.ch n.val).seq.dataAddr rs size off = a)
    (hp : P (if a % 2 ^ size.val ≠ 0 ∨ (!mayWrite a (2 ^ size.val)) = true then (s.stepped n j).seqFault n.val 4
        else ((s.stepped n j).store n.val a (2 ^ size.val) ((s.ch n.val).seq.getG r).toNat).modSeq n.val Seq.resume)) :
    Leads (.st n r rs size off) s P := by
  subst ha
  refine leads_stepped h rfl (by simp only [regsWord]; omega) ?_
  have haddr : ((s.stepped n j).ch n.val).seq.dataAddr rs size off = (s.ch n.val).seq.dataAddr rs size off :=
    (congrArg (Seq.dataAddr · rs size off) (s.stepped_seq n j) :)
  have hreg : ((s.stepped n j).ch n.val).seq.getG r = (s.ch n.val).seq.getG r := (congrArg (Seq.getG · r) (s.stepped_seq n j) :)
  simp only [haddr, hreg]
  exact hp

/-- A store to the host scratch changes the memory alone. -/
theorem store_host (h : Executes s n (0x9000 + r.val * 512 + rs.val * 64 + size.val * 16 + off.toNat) j) (hc : s.canon = true)
    {a k v : Nat} (hlow : ¬ localBase ≤ a) :
    let t := ((s.stepped n j).store n.val a k v).modSeq n.val Seq.resume
    SeqTo n { s with sram := t.sram } { (s.ch n.val).seq with pc := (s.ch n.val).seq.pc + 1 } t
      ∧ (∀ i, i < k → t.sb (a + i) = BitVec.ofNat 8 (v / 256 ^ i)) ∧ ∀ b, b < a ∨ a + k ≤ b → t.sb b = s.sb b := by
  intro t
  let m := Memory.setBytes s.sram a (leBytes k v)
  have ht : t = (({ s with sram := m } : State).stepped n j).modSeq n.val Seq.resume := by
    rw [State.stepped_withSram]
    simp only [t, State.store, if_neg hlow, State.swriteNat, State.swrite, s.stepped_sram, m]
  have hm : t.sram = m := by
    rw [ht]
    exact State.stepped_sram _ n j
  refine ⟨?_, ?_⟩
  · rw [hm, ht]
    exact seqTo_stepped { s with sram := m } n j (Seq.resume_core h.run) rfl
  · simp only [State.sb, hm]
    exact Memory.setBytes_leBytes (State.canon_sram hc) a k v

/-- A store to the local scratch changes that alone. -/
theorem store_own (h : Executes s n (0x9000 + r.val * 512 + rs.val * 64 + size.val * 16 + off.toNat) j) (hc : s.canon = true)
    {a k v : Nat} (hown : localBase ≤ a) :
    let t := ((s.stepped n j).store n.val a k v).modSeq n.val Seq.resume
    SeqTo n s { (s.ch n.val).seq with pc := (s.ch n.val).seq.pc + 1, scratch := (t.ch n.val).seq.scratch } t
      ∧ (∀ i, i < k → Memory.byte (t.ch n.val).seq.scratch (a - localBase + i) = BitVec.ofNat 8 (v / 256 ^ i))
      ∧ ∀ b, b < a - localBase ∨ a - localBase + k ≤ b →
        Memory.byte (t.ch n.val).seq.scratch b = Memory.byte (s.ch n.val).seq.scratch b := by
  intro t
  let m := Memory.setBytes (s.ch n.val).seq.scratch (a - localBase) (leBytes k v)
  have ht : t = (s.stepped n j).modSeq n.val fun q =>
      { q with scratch := Memory.setBytes q.scratch (a - localBase) (leBytes k v) }.resume := by
    rw [← State.modSeq_modSeq]
    simp only [t, State.store, if_pos hown]
  have hm : (t.ch n.val).seq.scratch = m := by
    rw [ht]
    rw [State.modSeq, State.ch_modCh_same _ _ _ n.isLt, s.stepped_ch]
    rfl
  refine ⟨?_, ?_⟩
  · rw [hm, ht]
    refine seqTo_stepped s n j ?_ rfl
    simp only [Seq.core, Seq.resume, Seq.counted, h.run, m]
  · rw [hm]
    exact Memory.setBytes_leBytes (State.canon_scratch hc n) (a - localBase) k v

end

/-- Settles O9: an aligned address lies in the host scratch, in the local scratch, or faults. -/
theorem seqStore : Obligations.SeqStore := by
  unfold Obligations.SeqStore
  intro s n j r rs size off hc hj h q k a byte host own
  have haddr : (s.ch n.val).seq.dataAddr rs size off = a := Seq.dataAddr_eq _ rs size off
  have hstores (hal : a % k = 0) (hmay : host ∨ own) : ¬ (a % k ≠ 0 ∨ (!mayWrite a k) = true) := by
    have hm : mayWrite a k = true := mayWrite_iff.mpr hmay
    simp [hal, hm]
  refine ⟨fun ⟨hal, hh⟩ => leads_st h haddr ?_, fun ⟨hal, hown⟩ => leads_st h haddr ?_, fun hbad => leads_st h haddr ?_⟩
  · have hlow : ¬ localBase ≤ a := by
      have hle : a ≤ 0x200000 := Nat.le_of_add_right_le hh.2
      simp only [localBase]
      omega
    rw [if_neg (hstores hal (.inl hh))]
    exact store_host h hc hlow
  · rw [if_neg (hstores hal (.inr hown))]
    exact store_own h hc hown.1
  · have hfault : a % k ≠ 0 ∨ (!mayWrite a k) = true := by
      refine hbad.imp_right fun ⟨hh, hown⟩ => ?_
      rw [Bool.not_eq_true', Bool.eq_false_iff]
      exact fun hm => (mayWrite_iff.mp hm).elim hh hown
    rw [if_pos hfault]
    exact faultTo_stepped h hc hj 4

end Sys2Proof.Machine
end

section
/-!
PROOFS. Waits and the air configuration (R221, R223 to R228, R242): O13 and O14.
-/

namespace Sys2Proof.Machine

/-! ## Instructions that yield and wait (R221, R223, R242) -/

section

variable {s : State} {n : Ch} {w : Nat} {j : Job}

/-- An instruction that yields has the effect that its body has on the counted state. -/
theorem leads_counted {i : Instr} {body : State → Job → State} {P : State → Prop} (h : Executes s n w j)
    (hi : exec i s = .next (s.instr n.val w true body)) (hp : P (body (s.counted n j) j)) : Leads i s P :=
  ⟨_, hi, by rwa [State.instr_eq h]⟩

/-- A change of the sequencer by an instruction that yields. -/
theorem seqTo_counted (s : State) (n : Ch) (j : Job) {g : Seq → Seq} {x : Seq}
    (hx : (g ((s.ch n.val).seq.counted true)).core = x.core)
    (hc : (g ((s.ch n.val).seq.counted true)).icnt = (s.ch n.val).seq.icnt + 1) :
    SeqTo n s x ((s.counted n j).modSeq n.val g) := seqTo_modSeq s n j true g x hx hc

theorem State.counted_modSeq_seq (s : State) (n : Ch) (j : Job) (g : Seq → Seq) :
    (((s.counted n j).modSeq n.val g).ch n.val).seq = g ((s.ch n.val).seq.counted true) := by
  rw [State.modSeq, State.ch_modCh_same _ _ _ n.isLt, s.counted_ch_same]

/-- An instruction that yields and changes its sequencer leaves YPEND clear (R242). -/
theorem leads_yielding {i : Instr} {body : State → Job → State} {g : Seq → Seq} {x : Seq} (h : Executes s n w j)
    (hi : exec i s = .next (s.instr n.val w true body)) (hb : body (s.counted n j) j = (s.counted n j).modSeq n.val g)
    (hx : (g ((s.ch n.val).seq.counted true)).core = x.core)
    (hc : (g ((s.ch n.val).seq.counted true)).icnt = (s.ch n.val).seq.icnt + 1)
    (hy : (g ((s.ch n.val).seq.counted true)).ypend = ((s.ch n.val).seq.counted true).ypend) :
    Leads i s fun t => SeqTo n s x t ∧ (t.ch n.val).seq.ypend = false := by
  refine leads_counted h hi ?_
  rw [hb]
  refine ⟨seqTo_counted s n j hx hc, ?_⟩
  rw [s.counted_modSeq_seq, hy]
  exact Bool.and_false _

end

/-- Settles O13: the instructions go on or block, and what blocked for a time goes on once the time expires. -/
theorem seqWait : Obligations.SeqWait := by
  unfold Obligations.SeqWait
  intro s n j ra imm q blocked
  refine ⟨fun h => leads_pure h rfl (Seq.resume_core h.run) rfl,
    fun h => leads_yielding h rfl rfl (Seq.resume_core h.run) rfl rfl,
    fun h => leads_yielding h rfl rfl rfl rfl rfl, fun h => leads_yielding h rfl rfl rfl rfl rfl, fun hrun => ?_⟩
  have hblock : s.blockOf n.val = some .wait := by rw [State.blockOf, hrun]
  show Host.Outcome.next (s.resumeIf n.val .wait) = _
  rw [State.resumeIf, if_pos hblock]
  rfl

/-! ## The air configuration (R223, R224, R228) -/

/-- An exchange does not wait for a continuation, or is kept for one: clearing CONT or not ends none. -/
theorem State.contGone_eq {s : State} {n : Nat} (h : s.waitsCont n = false ∨ s.keepsExch n = true) : s.contGone n = s := by
  rcases h with h | h <;> simp [State.contGone, h]

/-- A lead whose job has not ended, and in which CONT is set, keeps its exchange (R228). -/
theorem State.keepsExch_of_cont {s : State} {n : Nat} {j : Job} (hj : s.jobLead n = some j) (he : j.ended = none)
    (hc : (s.ch n).seq.cont = true) : s.keepsExch n = true := by
  simp [State.keepsExch, hj, he, hc]

/-- The end of an exchange leaves none (R228). -/
theorem State.endExchange_exch (s : State) (n : Ch) : ((s.endExchange n.val).ch n.val).exch = none := by
  unfold State.endExchange
  split
  next h => exact h
  next e _ =>
    extract_lets wcx stop isLate s0 s1 s2
    have h2 : (s2.ch n.val).exch = none := congrArg Chan.exch (State.ch_modCh_same s1 n.val _ n.isLt)
    split
    · exact h2
    split <;> exact h2

/-- A change of jobs that leaves what makes a job lead a channel. -/
theorem State.jobLead_modJob (s : State) (i n : Nat) {g : Job → Job} (hg : ∀ k, (g k).state = k.state ∧ (g k).mask = k.mask) :
    (s.modJob i g).jobLead n = (s.jobLead n).map fun k => if k.id = i then g k else k := by
  unfold State.jobLead State.modJob
  rw [List.find?_map]
  congr 2
  funext k
  simp only [Function.comp_apply]
  split <;> simp only [hg]

/-- The end of an exchange changes of the jobs no more than the exchanges that they count. -/
theorem State.endExchange_jobLead (s : State) (n m : Nat) :
    (s.endExchange n).jobLead m = s.jobLead m
      ∨ ∃ i, (s.endExchange n).jobLead m
        = (s.jobLead m).map fun k => if k.id = i then { k with exchBeat := k.exchBeat + 1, exchAll := k.exchAll + 1 } else k := by
  unfold State.endExchange
  split
  · exact .inl rfl
  extract_lets wcx stop isLate s0 s1 s2
  have h0 : s0.jobs = s.jobs := by
    unfold s0
    split
    · exact s.reserveBeats_jobs n _ _
    · rfl
  have h2 : s2.jobs = s.jobs := by
    rw [← h0]
    show s1.jobs = s0.jobs
    unfold s1
    split <;> rfl
  have hlead : s2.jobLead m = s.jobLead m := State.jobLead_of_jobs h2 m
  split
  · exact .inl hlead
  split
  · exact .inl hlead
  · next k hk => exact .inr ⟨k.id, hlead ▸ State.jobLead_modJob s2 k.id m fun _ => ⟨rfl, rfl⟩⟩

/-- Fields that are to go off leave the exchange of a channel. -/
theorem State.stopField_exch (s : State) (m n : Nat) : ((s.stopField m).ch n).exch = (s.ch n).exch := by
  unfold State.stopField
  split
  · exact (State.ch_modCh_keeps Chan.exch rfl n).trans (State.ch_modCh_keeps Chan.exch rfl n)
  all_goals exact State.ch_modCh_keeps Chan.exch rfl n

/-- Once the exchange of a lead has ended, with nothing to send and its job not to stop, its sequencer goes on as it was (R228). -/
theorem State.afterExchange_ended {s : State} {n : Ch} (hx : (s.ch n.val).exch = none) (htx : (s.ch n.val).txReq = none)
    (hrun : (s.ch n.val).seq.run = .run) (hm : ∀ k, s.jobLead n.val = some k → k.marked = none) :
    ((s.afterExchange n.val).ch n.val).seq = (s.ch n.val).seq ∧ ((s.afterExchange n.val).ch n.val).exch = none := by
  have hstop : ((s.jobLead n.val).bind fun j => j.marked.map fun rc => (j.id, rc)) = none := by
    cases hj : s.jobLead n.val with
    | none => rfl
    | some k => rw [Option.bind_some, hm k hj, Option.map_none]
  have hkick : s.kick n.val = s := by
    have hblock : s.blockOf n.val = none := by rw [State.blockOf, hrun]
    rw [State.kick, hblock]
    simp only [State.tryTx, htx]
  unfold State.afterExchange
  rw [hx, hstop, hkick]
  simp only [Option.isSome_none, Bool.false_eq_true, if_false]
  split
  · exact State.each_induction (P := fun t => (t.ch n.val).seq = (s.ch n.val).seq ∧ (t.ch n.val).exch = none)
      (g := fun s m => s.stopField m)
      (fun t m ht => ⟨(t.stopField_seq m n.val).trans ht.1, (t.stopField_exch m n.val).trans ht.2⟩) _ s ⟨rfl, hx⟩
  · exact ⟨rfl, hx⟩

/-- The sequencer as AIRT leaves it. -/
def Seq.airt (imm : Byte) (q : Seq) : Seq :=
  { q.resume with txMode := imm.extractLsb' 0 4, txCrc := imm.extractLsb' 4 2, cont := bitOf imm.toNat 6 }

section

variable {s : State} {n : Ch} {w : Nat} {j : Job} {imm : Byte}

/-- An exchange that waited for a frame with CONT ends once AIRT clears it (R228). -/
theorem contGone_airt (h : Executes s n w j) (hwait : s.waitsCont n.val = true) (hcont : imm.getLsbD 6 = false)
    (hwr : j.isWriter = false) (heof : j.write.eofDue = false) (hm : j.marked = none) (htx : (s.ch n.val).txReq = none) :
    let t := ((s.stepped n j).modSeq n.val (Seq.airt imm)).contGone n.val
    (t.ch n.val).seq = Seq.airt imm ((s.ch n.val).seq.counted false) ∧ (t.ch n.val).exch = none := by
  intro t
  obtain ⟨hlead, -, hend⟩ := State.runsOn_spec h.runs
  let u := (s.stepped n j).modSeq n.val (Seq.airt imm)
  have hu : u.ch n.val = { s.ch n.val with seq := Seq.airt imm ((s.ch n.val).seq.counted false) } :=
    (State.ch_modCh_same (s.stepped n j) n.val _ n.isLt).trans (by rw [s.stepped_ch])
  have hleadu : u.jobLead n.val = some j := (State.jobLead_of_jobs (s.stepped_jobs n j) n.val).trans hlead
  have hkeeps : u.keepsExch n.val = false := by
    have hc : (u.ch n.val).seq.cont = false := (congrArg (fun c : Chan => c.seq.cont) hu).trans hcont
    simp only [State.keepsExch, hleadu, hc, heof, State.w3Open, hwr, Bool.false_and, Bool.or_self, Bool.and_false]
  have hwaitu : u.waitsCont n.val = true := (congrArg (fun c : Chan => (c.exch.bind Exch.closeNt).isSome) hu).trans hwait
  have ht : t = (u.endExchange n.val).afterExchange n.val := by
    show u.contGone n.val = _
    rw [State.contGone, hwaitu, hkeeps]
    rfl
  have hseq : ((u.endExchange n.val).ch n.val).seq = Seq.airt imm ((s.ch n.val).seq.counted false) :=
    (u.endExchange_seq n.val).trans (congrArg Chan.seq hu)
  have htxu : ((u.endExchange n.val).ch n.val).txReq = none := by
    refine (State.ch_endExchange_keeps (p := Chan.txReq) (fun c beat a b => ?_) (fun _ _ _ => rfl) n.val).trans
      ((congrArg Chan.txReq hu).trans htx)
    unfold Chan.reserve
    extract_lets first last c1
    split <;> rfl
  have hmarked : ∀ k, (u.endExchange n.val).jobLead n.val = some k → k.marked = none := by
    intro k hk
    rcases u.endExchange_jobLead n.val n.val with e | ⟨i, e⟩ <;> rw [e, hleadu] at hk
    · cases hk
      exact hm
    · simp only [Option.map_some, Option.some.injEq] at hk
      subst hk
      split <;> exact hm
  obtain ⟨h1, h2⟩ := State.afterExchange_ended (u.endExchange_exch n) htxu (hseq ▸ rfl) hmarked
  rw [ht]
  exact ⟨h1.trans hseq, h2⟩

end

/-- Settles O14: a reserved bit or value faults; AIRT also ends an exchange that waited for CONT. -/
theorem seqAirSetup : Obligations.SeqAirSetup := by
  unfold Obligations.SeqAirSetup
  intro s n j rs imm hc hj q v
  have hcore {y : Bool} (hr : q.run = .run) : (Seq.airt imm (q.counted y)).core = ({ q with
      pc := q.pc + 1, txMode := imm.extractLsb' 0 4, txCrc := imm.extractLsb' 4 2, cont := imm.getLsbD 6 } : Seq).core := by
    simp only [Seq.core, Seq.airt, Seq.resume, Seq.counted, hr]
    rfl
  have hcoreR (hr : q.run = .run) : ({ (q.counted false).resume with
      rxMode := imm.extractLsb' 0 4, rxCrc := imm.extractLsb' 4 2 } : Seq).core
        = ({ q with pc := q.pc + 1, rxMode := imm.extractLsb' 0 4, rxCrc := imm.extractLsb' 4 2 } : Seq).core := by
    simp only [Seq.core, Seq.resume, Seq.counted, hr]
  have hrawb (hr : q.run = .run) (k : BitVec 7) : ({ (q.counted true).resume with rawb := k } : Seq).core
      = ({ q with pc := q.pc + 1, rawb := k } : Seq).core := by
    simp only [Seq.core, Seq.resume, Seq.counted, hr]
  have hrxto (hr : q.run = .run) (k : BitVec 24) : ({ (q.counted true).resume with rxto := k } : Seq).core
      = ({ q with pc := q.pc + 1, rxto := k } : Seq).core := by
    simp only [Seq.core, Seq.resume, Seq.counted, hr]
  have hrawbWord : regsWord 0xB 0 rs.val 8 = 0xB008 + rs.val * 64 := by
    simp only [regsWord]
    omega
  have hreg : ((s.counted n j).ch n.val).seq.getG rs = q.getG rs :=
    (congrArg (Seq.getG · rs) (congrArg Chan.seq (s.counted_ch_same n j)) :)
  refine ⟨fun h => ⟨fun hlow hstays => leads_stepped h rfl rfl ?_, fun hlow hwait hcont hwr heof hm htx => leads_stepped h rfl rfl ?_,
    fun hhigh => leads_stepped h rfl rfl ?_⟩, fun h => ⟨fun hlow => leads_stepped h rfl rfl ?_, fun hhigh => leads_stepped h rfl rfl ?_⟩,
    fun hw h => leads_air h hw rfl (by simp only [regsWord]; omega) (seqTo_counted s n j (hrxto h.run _) rfl),
    fun hw h => ⟨fun hok => leads_air h hw rfl hrawbWord ?_, fun hbad => leads_air h hw rfl hrawbWord ?_⟩⟩
  · rw [if_neg (Nat.not_le.mpr hlow)]
    have hkept : ((s.stepped n j).modSeq n.val (Seq.airt imm)).contGone n.val = (s.stepped n j).modSeq n.val (Seq.airt imm) := by
      obtain ⟨hlead, -, hend⟩ := State.runsOn_spec h.runs
      have hch : ((s.stepped n j).modSeq n.val (Seq.airt imm)).ch n.val
          = { s.ch n.val with seq := Seq.airt imm (q.counted false) } :=
        (State.ch_modCh_same (s.stepped n j) n.val _ n.isLt).trans (by rw [s.stepped_ch])
      refine State.contGone_eq (hstays.imp (fun hno => ?_) fun hset => ?_)
      · exact (congrArg (fun c : Chan => (c.exch.bind Exch.closeNt).isSome) hch).trans hno
      · exact State.keepsExch_of_cont ((State.jobLead_of_jobs (s.stepped_jobs n j) n.val).trans hlead) hend
          ((congrArg (fun c : Chan => c.seq.cont) hch).trans hset)
    exact hkept.symm ▸ seqTo_stepped s n j (hcore h.run) rfl
  · rw [if_neg (Nat.not_le.mpr hlow)]
    obtain ⟨hseq, hexch⟩ := contGone_airt h hwait hcont hwr heof hm htx
    exact ⟨(congrArg Seq.core hseq).trans (hcore h.run), hexch⟩
  · rw [if_pos hhigh]
    exact faultTo_stepped h hc hj 1
  · rw [if_neg (Nat.not_le.mpr hlow)]
    exact seqTo_stepped s n j (hcoreR h.run) rfl
  · rw [if_pos hhigh]
    exact faultTo_stepped h hc hj 1
  · have hin : ¬ (v % 128 = 0 ∨ 64 < v % 128) := by omega
    have hv : BitVec.ofNat 7 (v % 128) = BitVec.ofNat 7 v := BitVec.eq_of_toNat_eq (by simp)
    simp only [hreg]
    rw [if_neg hin, hv]
    exact seqTo_counted s n j (hrawb h.run _) rfl
  · simp only [hreg]
    rw [if_pos hbad]
    exact faultTo_counted h hc hj 7

end Sys2Proof.Machine
end

section
/-!
PROOFS. The result buffer and DETAIL (R223, R237, R238, R240): O15.
-/

namespace Sys2Proof.Machine

/-! ## The result buffer (R237, R238, R240) -/

/-- An item is kept while the buffer is not full, and what lies beyond the buffer is cut. -/
theorem Seq.emit_eq (q : Seq) (it : OutItem) (h : 0 < it.len) : q.emit it = { q with
    out := if outLen q.out < 1008 then q.out ++ [it] else q.out, cut := q.cut || decide (1008 < outLen q.out + it.len) } := by
  unfold Seq.emit
  extract_lets n
  by_cases hn : outSize ≤ n
  · have hfull : ¬ outLen q.out < 1008 := Nat.not_lt.mpr hn
    have hcut : 1008 < outLen q.out + it.len := Nat.lt_of_le_of_lt hn (Nat.lt_add_of_pos_right h)
    rw [if_pos hn, if_neg hfull, decide_eq_true hcut, Bool.or_true]
  · have hroom : outLen q.out < 1008 := Nat.not_le.mp hn
    rw [if_neg hn, if_pos hroom]
    rfl

theorem outLen_append_byte (l : List OutItem) (b : Byte) : outLen (l ++ [.byte b]) = outLen l + 1 := by
  simp [outLen, OutItem.len]

/-- Bytes are kept as far as they fit. -/
theorem Seq.emitBytes_eq : ∀ (bs : List Byte) (q : Seq), bs ≠ [] → q.emitBytes bs = { q with
    out := q.out ++ (bs.take (1008 - outLen q.out)).map OutItem.byte
    cut := q.cut || decide (1008 < outLen q.out + bs.length) }
  | [], _, h => absurd rfl h
  | [b], q, _ => by
    refine (q.emit_eq (.byte b) Nat.one_pos).trans ?_
    by_cases hroom : outLen q.out < 1008
    · obtain ⟨k, hk⟩ : ∃ k, 1008 - outLen q.out = k + 1 := ⟨1007 - outLen q.out, by omega⟩
      simp [hroom, hk, OutItem.len]
    · simp [hroom, Nat.sub_eq_zero_of_le (Nat.not_lt.mp hroom), OutItem.len]
  | b :: b' :: bs, q, _ => by
    have hstep : q.emitBytes (b :: b' :: bs) = (q.emit (.byte b)).emitBytes (b' :: bs) := rfl
    rw [hstep, Seq.emitBytes_eq (b' :: bs) _ (List.cons_ne_nil _ _), Seq.emit_eq q (.byte b) Nat.one_pos]
    by_cases hroom : outLen q.out < 1008
    · obtain ⟨k, hk⟩ : ∃ k, 1008 - outLen q.out = k + 1 := ⟨1007 - outLen q.out, by omega⟩
      have hleft : 1008 - (outLen q.out + 1) = k := by omega
      have hfits : ¬ 1008 < outLen q.out + 1 := by omega
      have hlen : outLen q.out + 1 + (bs.length + 1) = outLen q.out + (bs.length + 1 + 1) := by omega
      simp [hroom, hk, outLen_append_byte, hleft, hfits, hlen, OutItem.len]
    · have hcut : 1008 < outLen q.out + 1 := by omega
      have hcut' : 1008 < outLen q.out + (bs.length + 1 + 1) := by omega
      simp [hroom, Nat.sub_eq_zero_of_le (Nat.not_lt.mp hroom), OutItem.len, hcut, hcut']

/-- A running sequencer that is counted, changes its buffer and goes on. -/
theorem Seq.out_resume_core {q : Seq} {y : Bool} (h : q.run = .run) (l : List OutItem) (c : Bool) :
    ({ q.counted y with out := l, cut := c } : Seq).resume.core = ({ q with pc := q.pc + 1, out := l, cut := c } : Seq).core := by
  simp only [Seq.core, Seq.resume, Seq.counted, h]

/-- A running sequencer that is counted, changes DETAIL and goes on. -/
theorem Seq.detail_resume_core {q : Seq} {y : Bool} (h : q.run = .run) (d : BitVec 16) :
    ({ q.counted y with detail := d } : Seq).resume.core = ({ q with pc := q.pc + 1, detail := d } : Seq).core := by
  simp only [Seq.core, Seq.resume, Seq.counted, h]

theorem leBytes_two (v : Word) : leBytes 2 v.toNat = [v.extractLsb' 0 8, v.extractLsb' 8 8] := by
  simp [leBytes, BitVec.extractLsb', Nat.shiftRight_eq_div_pow]

/-- Settles O15: each OUT instruction appends its bytes as far as they fit. -/
theorem seqOut : Obligations.SeqOut := by
  unfold Obligations.SeqOut
  intro s n j r imm q v have' bytes
  have hbytes {y : Bool} (bs : List Byte) (hne : bs ≠ []) (hr : q.run = .run) :
      ((q.counted y).emitBytes bs).resume.core = (bytes bs).core := by
    rw [Seq.emitBytes_eq bs _ hne]
    exact Seq.out_resume_core hr _ _
  have hcount {y : Bool} (bs : List Byte) (hne : bs ≠ []) : ((q.counted y).emitBytes bs).icnt = q.icnt + 1 := by
    rw [Seq.emitBytes_eq bs _ hne]
    rfl
  have hleads {i : Instr} {w x : Nat} {bs bs' : List Byte} {g : Seq → Seq} (h : Executes s n w j)
      (hi : exec i s = .next (s.pure n.val x false g)) (hx : w = x) (hg : g (q.counted false) = (q.counted false).emitBytes bs')
      (hbs : bs' = bs) (hne : bs ≠ []) : Leads i s (SeqTo n s (bytes bs)) := by
    subst hbs hx
    exact leads_pure h hi ((congrArg (fun x : Seq => x.resume.core) hg).trans (hbytes bs' hne h.run))
      ((congrArg Seq.icnt hg).trans (hcount bs' hne))
  have hword (k : Nat) : 0xD000 + k + r.val * 512 = regsWord 0xD r.val 0 k := by
    simp only [regsWord]
    omega
  have hset (hr : q.run = .run) (x : Word) :
      ((q.counted false).setG r x).resume.core = (({ q with pc := q.pc + 1 } : Seq).setG r x).core := Seq.setG_resume_core hr r x
  have hdetail (hr : q.run = .run) {d d' : BitVec 16} (hd : d = d') :
      ({ q.counted false with detail := d } : Seq).resume.core = ({ q with pc := q.pc + 1, detail := d' } : Seq).core :=
    hd ▸ Seq.detail_resume_core hr d
  have hsum {y : Bool} (hr : q.run = .run) : ((q.counted y).emit .summary).resume.core = ({ q with
      pc := q.pc + 1, out := if have' < 1008 then q.out ++ [.summary] else q.out
      cut := q.cut || decide (1008 < have' + 16) } : Seq).core := by
    rw [Seq.emit_eq _ _ (by decide)]
    exact Seq.out_resume_core hr _ _
  have hdet : v.setWidth 16 = v.extractLsb' 0 16 := BitVec.eq_of_toNat_eq (by simp)
  have hdeti : imm.setWidth 16 = BitVec.ofNat 16 imm.toNat := BitVec.eq_of_toNat_eq (by simp)
  refine ⟨fun h => hleads h rfl (hword 0) rfl (leBytes_one v) (List.cons_ne_nil _ _),
    fun h => hleads h rfl (hword 1) rfl (leBytes_two v) (List.cons_ne_nil _ _),
    fun h => hleads h rfl (hword 2) rfl (leBytes_four v) (List.cons_ne_nil _ _),
    fun h => hleads h rfl rfl rfl rfl (List.cons_ne_nil _ _),
    fun h => leads_pure h rfl (hsum h.run) ?_, fun h => leads_pure (hword 8 ▸ h) rfl (hset h.run _) rfl,
    fun h => leads_pure (hword 6 ▸ h) rfl (hdetail h.run hdet) rfl, fun h => leads_pure h rfl (hdetail h.run hdeti) rfl⟩
  rw [Seq.emit_eq _ _ (by decide)]
  rfl

end Sys2Proof.Machine
end

section
/-!
PROOFS. An interim entry of a ROM inventory (R143, R239, R257): O16.
-/

namespace Sys2Proof.Machine

/-! ## An interim entry of a ROM inventory (R143, R239) -/

/-- A job of the ROM inventory 0x010 on channel 0, with MAXREC 0. -/
def recordsJob : Job := { id := 0, port := 0, queue := 0, state := .running, desc := [0x00001010], mask := 1 }

/-- Its buffer holds the summary and one record, DETAIL is 0, and ring 0 has space. -/
def postsRecord : State :=
  (({ State.reset with jobs := [recordsJob], nextJob := 1 }.wr (R.RES_CFG_EN 0) 1).wr (R.RES_CFG_SIZE 0) 8).modCh 0 fun c =>
    { c with seq := { c.seq with run := .run, out := [.summary, .image (List.replicate 32 0)] } }

theorem postsRecord_executes : Executes postsRecord 0 0xD005 recordsJob := by
  refine ⟨by decide +kernel, by decide +kernel, by decide +kernel, by decide +kernel, by decide +kernel, by decide +kernel⟩

/-- LEN and DETAIL of the entries of ring 0. -/
def ringLengths (t : State) : List Nat := (t.ring 0).entries.map fun e => leNat ((e.drop 12).take 4)

/-- DETAIL of the entry is the number of its records. -/
theorem post_postsRecord : partAfter ringLengths (.post 0 0) postsRecord = some [48 + 2 ^ 16] := by decide +kernel

/-- Refutes O16: POST of a ROM inventory writes the number of records into DETAIL of the interim entry (R143), where the statement has
the DETAIL in force for every job. -/
theorem not_seqRecords : ¬ Obligations.SeqRecords := by
  unfold Obligations.SeqRecords
  intro h
  obtain ⟨-, hpost, -⟩ := h postsRecord 0 recordsJob 0 0 (by decide +kernel) (by decide +kernel)
  obtain ⟨-, -, hentry⟩ := hpost postsRecord_executes (by decide +kernel)
  obtain ⟨t, ⟨-, e, hring, -, -, -, hlen, -⟩, hpart⟩ :=
    partAfter_of_leads (part := ringLengths) (hentry (by decide +kernel) (by decide +kernel))
  have hlengths : ringLengths t = [48] := by
    have hring' : (t.ring 0).entries = [e] := hring
    rw [ringLengths, hring', List.map_singleton]
    exact congrArg (fun x => [x]) (hlen.trans (by decide +kernel))
  rw [post_postsRecord, hlengths] at hpart
  exact absurd hpart (by decide)

end Sys2Proof.Machine
end

section
/-!
PROOFS. The end of a job (R235, R238, R241, R284): O17.
-/

namespace Sys2Proof.Machine

/-! ## Images (R142, R238) -/

theorem State.tab_of_sram {s t : State} (h : t.sram = s.sram) (i : Nat) : t.tab i = s.tab i := by
  unfold State.tab State.snat State.sbytes State.sb
  rw [h]

/-- The images that can be taken depend on CRY, on the locates and on the table. -/
theorem State.fillItems_congr {s t : State} (hcry : t.cry = s.cry) (hloc : t.locQ = s.locQ) (hsram : t.sram = s.sram) (id : Nat)
    (c : InvCtx) (l : List OutItem) : t.fillItems id c l = s.fillItems id c l := by
  unfold State.fillItems State.cryPendingFor State.cryWork State.recordOf
  simp only [hcry, hloc, State.tab_of_sram hsram]

/-- With every image filled there is none to take. -/
theorem State.fillItems_filled (s : State) (id : Nat) (c : InvCtx) {l : List OutItem} (h : imagesFilled l = true) :
    s.fillItems id c l = l := by
  refine (List.map_congr_left fun it hit => ?_).trans (List.map_id l)
  have hfull := List.all_eq_true.mp h it hit
  cases it with
  | record _ => exact absurd hfull Bool.false_ne_true
  | byte _ | image _ | summary => rfl

theorem Job.isRom_of_inventory {j : Job} (h : j.isInventory = true) : j.isRom = true := by
  have hsub : ∀ r ∈ [0x010, 0x014, 0x020, 0x021, 0x028, 0x02C], r ∈ romIds := by decide
  exact List.contains_iff_mem.mpr (hsub _ (List.contains_iff_mem.mp h))

/-- What an inventory keeps of filled items is filled, and has at most MAXREC records (R133, R143). -/
theorem State.romItems_inventory (s : State) {j : Job} (hinv : j.isInventory = true) {l : List OutItem} (h : imagesFilled l = true) :
    imagesFilled (s.romItems j l) = true ∧ countRecords (s.romItems j l) = min j.maxRec (countRecords l) := by
  have hrom : s.romItems j l = l.filter (fun x => x == .summary) ++ (l.filter OutItem.isRecord).take j.maxRec := by
    simp only [State.romItems, Job.isRom_of_inventory hinv, hinv, Bool.not_true, Bool.false_eq_true, if_false, if_true]
  have hsum : (l.filter fun x => x == OutItem.summary).filter OutItem.isRecord = [] := by
    rw [List.filter_filter, List.filter_eq_nil_iff]
    intro x _ hx
    simp only [Bool.and_eq_true, beq_iff_eq] at hx
    obtain ⟨hrec, rfl⟩ := hx
    cases hrec
  rw [hrom]
  refine ⟨List.all_eq_true.mpr fun x hx => ?_, ?_⟩
  · refine List.all_eq_true.mp h x ?_
    rcases List.mem_append.mp hx with hx | hx
    · exact (List.mem_filter.mp hx).1
    · exact (List.mem_filter.mp (List.mem_of_mem_take hx)).1
  · have hall : ((l.filter OutItem.isRecord).take j.maxRec).filter OutItem.isRecord = (l.filter OutItem.isRecord).take j.maxRec :=
      List.filter_eq_self.mpr fun x hx => (List.mem_filter.mp (List.mem_of_mem_take hx)).2
    rw [countRecords, List.filter_append, hsum, List.nil_append, hall, List.length_take]
    rfl

/-! ## The end of a job (R19, R235, R241) -/

/-- Nothing is held, so none is let go. -/
theorem State.releaseHeld_of_none {s : State} {n id : Nat} (h : (s.ch n).inv.held = none) : s.releaseHeld n id = s := by
  rw [State.releaseHeld, h]

theorem State.sendLate_ch (s : State) (id n : Nat) (l : List Sighting) : (s.sendLate id l).ch n = s.ch n := by
  unfold State.sendLate State.enqueueLate
  split <;> rfl

/-- Letting the held sighting of a channel go leaves none there, and the held sightings of other channels. -/
theorem State.releaseHeld_held (s : State) (n : Ch) (m id : Nat) :
    ((s.releaseHeld n.val id).ch n.val).inv.held = none
      ∧ ((s.ch n.val).inv.held = none → ((s.releaseHeld m id).ch n.val).inv.held = none) := by
  have hnone (g : InvCtx → InvCtx) (hg : ∀ c, (g c).held = none) : ((s.modInv n.val g).ch n.val).inv.held = none :=
    (congrArg (fun c : Chan => c.inv.held) (State.ch_modCh_same s n.val _ n.isLt)).trans (hg _)
  refine ⟨?_, fun h => ?_⟩ <;> unfold State.releaseHeld <;> split
  · assumption
  · split
    · exact hnone _ fun _ => rfl
    · rw [State.sendLate_ch]
      exact hnone _ fun _ => rfl
  · exact h
  · have hm : ((s.modInv m fun c => { c with held := none }).ch n.val).inv.held = none := by
      by_cases e : n.val = m
      · subst e
        exact hnone _ fun _ => rfl
      · exact (congrArg (fun c : Chan => c.inv.held) (State.ch_modCh_other s _ e)).trans h
    split
    · exact hm
    · rw [State.sendLate_ch]
      exact hm

theorem State.releaseFound_held (s : State) (n m id : Nat) : ((s.releaseFound m id).ch n).inv.held = (s.ch n).inv.held := by
  rw [State.releaseFound, State.sendLate_ch]
  exact State.ch_modCh_keeps (fun c : Chan => c.inv.held) rfl n

theorem State.stopField_inv (s : State) (m n : Nat) : ((s.stopField m).ch n).inv = (s.ch n).inv := by
  unfold State.stopField
  split
  · exact (State.ch_modCh_keeps Chan.inv rfl n).trans (State.ch_modCh_keeps Chan.inv rfl n)
  all_goals exact State.ch_modCh_keeps Chan.inv rfl n

theorem Chan.reserve_inv (c : Chan) (beat a b : Nat) : (c.reserve beat a b).inv = c.inv := by
  unfold Chan.reserve
  extract_lets first last c1
  split <;> rfl

theorem State.endExchange_inv (s : State) (m n : Nat) : ((s.endExchange m).ch n).inv = (s.ch n).inv :=
  State.ch_endExchange_keeps (p := Chan.inv) Chan.reserve_inv (fun _ _ _ => rfl) m

/-- What the end of a job does to its channels once its record is taken: the FIFOs are emptied and the fields go off. -/
def State.quiet (s : State) (mask : BitVec 8) : State := (s.each (maskList mask) fun s n => s.clearFifos n.val).stopFields mask

theorem State.quiet_inv (s : State) (mask : BitVec 8) (n : Nat) : ((s.quiet mask).ch n).inv = (s.ch n).inv := by
  have hclear : (((s.each (maskList mask) fun s n => s.clearFifos n.val)).ch n).inv = (s.ch n).inv :=
    State.each_induction (P := fun t => (t.ch n).inv = (s.ch n).inv) (g := fun s (n : Ch) => s.clearFifos n.val)
      (fun t m ht => (State.ch_modCh_keeps Chan.inv rfl n).trans ht) _ s rfl
  exact State.each_induction (P := fun t => (t.ch n).inv = (s.ch n).inv) (g := fun s (n : Ch) => s.stopField n.val)
      (fun t m ht => (t.stopField_inv m.val n).trans ht) _ _ hclear

/-- The end of a job holds no sighting that was not held. -/
theorem State.endRunning_held {s : State} {n : Ch} (h : (s.ch n.val).inv.held = none) (j : Job) (rc : Byte) (part : Bool)
    (detail : BitVec 16) : ((s.endRunning j rc part detail).ch n.val).inv.held = none := by
  unfold State.endRunning
  extract_lets k s0 q items record st s1 s2 s3
  have h0 : (s0.ch n.val).inv.held = none := (State.releaseFound_held _ _ _ _).trans ((s.releaseHeld_held n _ _).2 h)
  have h2 : (s2.ch n.val).inv.held = none := (State.ch_modCh_keeps (fun c : Chan => c.inv.held) rfl n.val).trans h0
  have h3 : (s3.ch n.val).inv.held = none := by
    unfold s3
    split
    · exact (congrArg InvCtx.held (s2.endExchange_inv k n.val)).trans h2
    · exact h2
  exact (congrArg InvCtx.held (s3.quiet_inv j.mask n.val)).trans h3

/-- The work that CRY has for a job is no part of the fields, exchanges and jobs. -/
theorem State.quiet_cryOutstanding (s : State) (mask : BitVec 8) (id : Nat) :
    (s.quiet mask).cryOutstanding id = s.cryOutstanding id := by
  have hstop (t : State) (m : Nat) : (t.stopField m).cryOutstanding id = t.cryOutstanding id := by
    unfold State.stopField
    split <;> rfl
  have hclear : ((s.each (maskList mask) fun s n => s.clearFifos n.val)).cryOutstanding id = s.cryOutstanding id :=
    State.each_induction (P := fun t => t.cryOutstanding id = s.cryOutstanding id) (g := fun s (n : Ch) => s.clearFifos n.val)
      (fun _ _ ht => ht) _ s rfl
  exact State.each_induction (P := fun t => t.cryOutstanding id = s.cryOutstanding id) (g := fun s (n : Ch) => s.stopField n.val)
      (fun t m ht => (hstop t m.val).trans ht) _ _ hclear

theorem State.endExchange_cryOutstanding (s : State) (n id : Nat) : (s.endExchange n).cryOutstanding id = s.cryOutstanding id := by
  unfold State.endExchange
  split
  · rfl
  extract_lets wcx stop isLate s0 s1 s2
  have h0 : s0.cryOutstanding id = s.cryOutstanding id := by
    unfold s0 State.reserveBeats
    split
    · split
      · rfl
      · exact State.each_induction (P := fun t => t.cryOutstanding id = s.cryOutstanding id)
          (g := fun t (m : Ch) => t.modCh m.val fun c => c.reserve t.beatNs _ _) (fun _ _ ht => ht) _ s rfl
    · rfl
  have h2 : s2.cryOutstanding id = s.cryOutstanding id := by
    rw [← h0]
    show s1.cryOutstanding id = s0.cryOutstanding id
    unfold s1
    split <;> rfl
  split
  · exact h2
  split <;> exact h2

/-- The record of a job that ends with no sighting held and every image filled, and its state (R19, R22, R240). -/
theorem State.endRunning_record {s : State} {j : Job} {rc : Byte} {part : Bool} {detail : BitVec 16} (hj : s.job? j.id = some j)
    (hheld : (s.ch j.lead).inv.held = none) (hfull : imagesFilled (s.ch j.lead).seq.out = true) :
    let t := s.endRunning j rc part detail
    t.HasJob j.id fun k => k.ended = some
        { rc := rc, part := part, receipt := false, detail := detail, payload := (s.ch j.lead).seq.out
          cut := (s.ch j.lead).seq.cut || decide (j.maxPayload < outLen (s.ch j.lead).seq.out) }
      ∧ k.state = if t.cryOutstanding j.id then .finishing else j.state := by
  intro t
  have ht : t = s.endRunning j rc part detail := rfl
  unfold State.endRunning at ht
  extract_lets k s0 q items record st s1 s2 s3 at ht
  have hs0 : s0 = s.releaseFound j.lead j.id := congrArg (State.releaseFound · k j.id) (State.releaseHeld_of_none hheld)
  have hseq : q = (s.ch j.lead).seq := by
    show (s0.ch j.lead).seq = _
    rw [hs0, State.releaseFound, State.sendLate_ch]
    exact State.ch_modCh_keeps Chan.seq rfl _
  have hitems : items = (s.ch j.lead).seq.out := by
    show s0.fillItems j.id (s0.ch k).inv q.out = _
    rw [hseq]
    exact s0.fillItems_filled _ _ hfull
  have h0 : s0.HasJob j.id fun _ => True := hs0 ▸ .releaseFound ⟨j, hj, trivial⟩
  have h2 : s2.HasJob j.id fun k => k.ended = some record ∧ k.state = st :=
    .same (s := s1) (h0.modJob_same fun _ => ⟨rfl, fun _ => ⟨rfl, rfl⟩⟩) rfl
  have h3 : s3.HasJob j.id (fun k => k.ended = some record ∧ k.state = st) ∧ s3.cryOutstanding j.id = s0.cryOutstanding j.id := by
    unfold s3
    split
    · exact ⟨.endExchange (fun _ _ _ h => h) h2, (s2.endExchange_cryOutstanding k j.id).trans rfl⟩
    · exact ⟨h2, rfl⟩
  have hcry : t.cryOutstanding j.id = s0.cryOutstanding j.id := by
    rw [ht]
    exact (s3.quiet_cryOutstanding j.mask j.id).trans h3.2
  rw [hcry, ht]
  have hrecord : record = { rc := rc, part := part, receipt := false, detail := detail, payload := (s.ch j.lead).seq.out
                            cut := (s.ch j.lead).seq.cut || decide (j.maxPayload < outLen (s.ch j.lead).seq.out) } := by
    simp only [record, hitems, hseq]
  rw [← hrecord]
  exact .stopFields (.each (fun _ _ h => h.same rfl) h3.1)

/-! ## END (R235, R238, R241, R284) -/

theorem endAllowed_iff {rc : Byte} : endAllowed rc = true ↔ rc.toNat ≤ 9 ∨ rc.toNat = 15 ∨ rc.toNat = 19 := by
  simp only [endAllowed, Bool.or_eq_true, decide_eq_true_eq, beq_iff_eq, ← BitVec.toNat_inj, or_assoc]
  rfl

theorem State.endJob_running {s : State} {j : Job} (hj : s.job? j.id = some j) (hrun : j.state = .running) (hend : j.ended = none)
    (rc : Byte) (part : Bool) (detail : BitVec 16) : s.endJob j.id rc part detail = s.endRunning j rc part detail := by
  simp only [State.endJob, hj, hrun, hend]

theorem State.endJobInForce_running {s : State} {j : Job} (hj : s.job? j.id = some j) (hrun : j.state = .running)
    (hend : j.ended = none) (rc : Byte) (part : Bool) :
    s.endJobInForce j.id rc part = s.endRunning j rc part (s.ch j.lead).seq.detail := by
  rw [State.endJobInForce, hj]
  exact State.endJob_running hj hrun hend ..

/-- The sequencer of a lead that has its images taken and waits to end. -/
def State.ending (s : State) (n : Nat) (rc : Byte) (items : List OutItem) : State :=
  s.modSeq n fun q => { q with out := items, run := .blocked (.ending rc) }

section

variable {s : State} {n : Ch} {j : Job} {rc : Byte}

/-- END with an allowed code, with no sighting held: the job ends once every image is filled (R238). -/
theorem State.endWith_eq (hlead : s.jobLead n.val = some j) (hok : endAllowed rc = true) (hheld : (s.ch n.val).inv.held = none) :
    let items := s.fillItems j.id (s.ch n.val).inv (s.ch n.val).seq.out
    let u := s.ending n.val rc items
    s.endWith n.val rc = if imagesFilled items = true then u.doEnd n.val j rc else u := by
  intro items u
  have hrefill : (s.refill n.val).block n.val (.ending rc) = u := by
    simp only [State.refill, hlead, State.block, State.modSeq_modSeq]
    have hch : s.modSeq n.val (fun q => { q with out := s.fillItems j.id (s.ch n.val).inv q.out, run := .blocked (.ending rc) }) = u := by
      simp only [u, State.ending, State.modSeq, State.modCh, items]
    exact hch
  have hu : u.ch n.val = { s.ch n.val with seq := { (s.ch n.val).seq with out := items, run := .blocked (.ending rc) } } :=
    State.ch_modCh_same s n.val _ n.isLt
  have hleadu : u.jobLead n.val = some j := hlead
  have hblock : u.blockOf n.val = some (.ending rc) := by rw [State.blockOf, hu]
  rw [State.endWith, if_pos hok, hlead]
  simp only [State.releaseHeld_of_none hheld, hrefill, State.unblock, hleadu, hblock, hu]

theorem State.postEntry_ch (s : State) (r units : Nat) (hdr payload : List Byte) (m : Nat) :
    (s.postEntry r units hdr payload).ch m = s.ch m := rfl

theorem State.unclaim_ch (s : State) (id m : Nat) : (s.unclaim id).ch m = s.ch m := by
  refine State.each_induction (P := fun t => t.ch m = s.ch m) (fun t k ht => ?_) _ s rfl
  split <;> exact ht

theorem State.postReceipt_ch (s : State) (j : Job) (rc : Byte) (m : Nat) : (s.postReceipt j rc).ch m = s.ch m := by
  unfold State.postReceipt
  extract_lets d hdr s1
  have h1 : s1.ch m = d.2.ch m := (State.unclaim_ch _ j.id m).trans (State.postEntry_ch d.2 j.ringNo j.units hdr [] m)
  have hd : d.2.ch m = s.ch m := rfl
  clear_value s1 d
  split <;> exact h1.trans hd

/-- Ending a job, or what became of it, holds no sighting that was not held. -/
theorem State.endJob_held {id : Nat} {part : Bool} {detail : BitVec 16} (h : (s.ch n.val).inv.held = none) :
    ((s.endJob id rc part detail).ch n.val).inv.held = none := by
  unfold State.endJob
  split
  · exact h
  split
  · exact (congrArg (fun c : Chan => c.inv.held) (State.postReceipt_ch ..)).trans h
  · exact State.endRunning_held h ..
  · exact State.endRunning_held h ..
  · exact h

theorem State.endJobInForce_held {id : Nat} {part : Bool} (h : (s.ch n.val).inv.held = none) :
    ((s.endJobInForce id rc part).ch n.val).inv.held = none := by
  unfold State.endJobInForce
  split
  · exact h
  · exact State.endJob_held h

/-- END with an allowed code lets the held sighting go (R235). -/
theorem State.endWith_held (hok : endAllowed rc = true) (hlead : s.jobLead n.val = some j) :
    ((s.endWith n.val rc).ch n.val).inv.held = none := by
  have hseq {t : State} (g : Seq → Seq) (h : (t.ch n.val).inv.held = none) : ((t.modSeq n.val g).ch n.val).inv.held = none :=
    (State.ch_modCh_keeps (fun c : Chan => c.inv.held) rfl n.val).trans h
  have hend {t : State} {k : Job} (h : (t.ch n.val).inv.held = none) (rc : Byte) : ((t.doEnd n.val k rc).ch n.val).inv.held = none := by
    unfold State.doEnd
    split
    · exact State.endJobInForce_held h
    · exact State.endJob_held (hseq _ h)
  rw [State.endWith, if_pos hok, hlead]
  have h0 : ((s.releaseHeld n.val j.id).ch n.val).inv.held = none := (s.releaseHeld_held n n.val j.id).1
  have h1 : (((s.releaseHeld n.val j.id).refill n.val).ch n.val).inv.held = none := by
    unfold State.refill
    split
    · exact h0
    · exact hseq _ h0
  have hblock : ((((s.releaseHeld n.val j.id).refill n.val).block n.val (.ending rc))).blockOf n.val = some (.ending rc) := by
    rw [State.blockOf, State.block, State.modSeq, State.ch_modCh_same _ _ _ n.isLt]
  have h2 : ((((s.releaseHeld n.val j.id).refill n.val).block n.val (.ending rc)).ch n.val).inv.held = none := hseq _ h1
  simp only
  generalize ((s.releaseHeld n.val j.id).refill n.val).block n.val (.ending rc) = u at hblock h2 ⊢
  unfold State.unblock
  rw [hblock]
  split
  · exact h2
  · simp only
    split
    · exact hend h2 rc
    · exact h2

/-- The end of a job, in the terms of the statement (R19, R22, R241). -/
theorem doneAs_endRunning {part : Bool} {detail : BitVec 16} (hlead : s.jobLead n.val = some j) (hrun : j.state = .running)
    (hj : s.job? j.id = some j) (hheld : (s.ch n.val).inv.held = none) (hfull : imagesFilled (s.ch n.val).seq.out = true) :
    let t := s.endRunning j rc part detail
    (t.ch n.val).seq.run = .idle ∧ ∃ k e, t.job? j.id = some k ∧ k.ended = some e ∧ e.rc = rc ∧ e.part = part ∧ e.receipt = false
      ∧ (e.detail = detail ∧ e.cut = ((s.ch n.val).seq.cut || decide (j.maxPayload < outLen (s.ch n.val).seq.out)))
      ∧ k.state = if t.cryOutstanding j.id then .finishing else .running := by
  intro t
  obtain ⟨-, hn⟩ := State.jobLead_spec hlead
  obtain ⟨hidle, -⟩ := State.endRunning_spec (rc := rc) (part := part) (detail := detail) (s := s) ⟨j, hj, trivial⟩
  obtain ⟨k, hk, he, hst⟩ := State.endRunning_record (rc := rc) (part := part) (detail := detail) hj (hn.symm ▸ hheld) (hn.symm ▸ hfull)
  rw [hn] at hidle he
  rw [hrun] at hst
  exact ⟨hidle, k, _, hk, he, rfl, rfl, rfl, ⟨rfl, rfl⟩, hst⟩

end

theorem State.counted_fillItems (s : State) (n : Ch) (j : Job) (id : Nat) (c : InvCtx) (l : List OutItem) :
    (s.counted n j).fillItems id c l = s.fillItems id c l :=
  State.fillItems_congr (congrArg State.cry (s.counted_outside n j) :) (congrArg State.locQ (s.counted_outside n j) :) (s.counted_sram n j) ..

section

variable {s : State} {n : Ch} {w : Nat} {j : Job} {rc : Byte}

/-- How END acts on the counted state, with no sighting held. -/
theorem endWith_counted (h : Executes s n w j) (hok : endAllowed rc = true) (hheld : (s.ch n.val).inv.held = none) :
    let items := s.fillItems j.id (s.ch n.val).inv (s.ch n.val).seq.out
    let u := (s.counted n j).ending n.val rc items
    (s.counted n j).endWith n.val rc = if imagesFilled items = true then u.doEnd n.val j rc else u := by
  obtain ⟨hlead, -, -⟩ := State.runsOn_spec h.runs
  have hch := s.counted_ch_same n j
  have h1 := State.endWith_eq (rc := rc) ((s.counted_jobLead n j n.val).trans hlead) hok
    ((congrArg (fun c : Chan => c.inv.held) hch).trans hheld)
  rw [hch, s.counted_fillItems] at h1
  exact h1

/-- The lead, its job and its sequencer while END acts. -/
theorem ending_counted (h : Executes s n w j) (hj : s.job? j.id = some j) (items : List OutItem) :
    let u := (s.counted n j).ending n.val rc items
    u.jobLead n.val = some j ∧ u.job? j.id = some j
      ∧ u.ch n.val = { s.ch n.val with seq := { (s.ch n.val).seq.counted true with out := items, run := .blocked (.ending rc) } } := by
  obtain ⟨hlead, -, -⟩ := State.runsOn_spec h.runs
  refine ⟨(s.counted_jobLead n j n.val).trans hlead, ?_, ?_⟩
  · show (s.counted n j).job? j.id = some j
    rwa [State.job?, s.counted_jobs]
  · exact (State.ch_modCh_same (s.counted n j) n.val _ n.isLt).trans (by rw [s.counted_ch_same])

end

section

variable {u : State} {n : Ch} {j : Job} {rc : Byte} (hlead : u.jobLead n.val = some j) (hrun : j.state = .running) (hend : j.ended = none)
  (hj : u.job? j.id = some j) (hheld : (u.ch n.val).inv.held = none)
include hlead hrun hend hj hheld

/-- END of a job that is to stop ends it with the code of its stop (R284). -/
theorem doEnd_marked {stop : Byte} (hm : j.marked = some stop) (hfull : imagesFilled (u.ch n.val).seq.out = true) :
    let t := u.doEnd n.val j rc
    (t.ch n.val).seq.run = .idle ∧ ∃ k e, t.job? j.id = some k ∧ k.ended = some e ∧ e.rc = stop ∧ e.part = true ∧ e.receipt = false
      ∧ e.detail = (u.ch n.val).seq.detail ∧ k.state = if t.cryOutstanding j.id then .finishing else .running := by
  intro t
  obtain ⟨-, hn⟩ := State.jobLead_spec hlead
  have ht : t = u.endRunning j stop true (u.ch n.val).seq.detail := by
    simp only [t, State.doEnd, hm]
    rw [State.endJobInForce_running hj hrun hend, hn]
  obtain ⟨hidle, k, e, hk, he, hrc, hpart, hreceipt, ⟨hdetail, -⟩, hst⟩ := doneAs_endRunning (rc := stop) (part := true)
    (detail := (u.ch n.val).seq.detail) hlead hrun hj hheld hfull
  rw [ht]
  exact ⟨hidle, k, e, hk, he, hrc, hpart, hreceipt, hdetail, hst⟩

/-- END of any other job ends it with its code (R241). -/
theorem doEnd_unmarked (hm : j.marked = none) {kept : List OutItem} (hkept : u.romItems j (u.ch n.val).seq.out = kept)
    (hfull : imagesFilled kept = true) :
    let t := u.doEnd n.val j rc
    (t.ch n.val).seq.run = .idle ∧ ∃ k e, t.job? j.id = some k ∧ k.ended = some e ∧ e.rc = u.endCode j (u.ch n.val).inv.rcNow rc
      ∧ e.part = false ∧ e.receipt = false
      ∧ (e.detail = u.romDetail j kept (u.ch n.val).seq.detail
        ∧ e.cut = ((u.ch n.val).seq.cut || decide (j.maxPayload < outLen kept)))
      ∧ k.state = if t.cryOutstanding j.id then .finishing else .running := by
  intro t
  let v := u.modSeq n.val fun q => { q with out := kept }
  have hv : v.ch n.val = { u.ch n.val with seq := { (u.ch n.val).seq with out := kept } } := State.ch_modCh_same u n.val _ n.isLt
  have ht : t = v.endRunning j (u.endCode j (u.ch n.val).inv.rcNow rc) false (u.romDetail j kept (u.ch n.val).seq.detail) := by
    have hjv : v.job? j.id = some j := hj
    simp only [t, State.doEnd, hm, hkept]
    exact State.endJob_running hjv hrun hend _ false _
  have hdone := doneAs_endRunning (s := v) (n := n) (rc := u.endCode j (u.ch n.val).inv.rcNow rc) (part := false)
    (detail := u.romDetail j kept (u.ch n.val).seq.detail) hlead hrun hj (by rw [hv]; exact hheld) (by rw [hv]; exact hfull)
  rw [hv] at hdone
  rw [ht]
  exact hdone

end

/-- Settles O17: each ending is that of its code, of its stop, or a fault; with an image missing the sequencer waits. -/
theorem seqEnd : Obligations.SeqEnd := by
  unfold Obligations.SeqEnd
  intro s n j r rc hc hj c q items ends
  have hends {i : Instr} {w x : Nat} {rc : Byte} {body : State → Job → State} (h : Executes s n w j)
      (hi : exec i s = .next (s.instr n.val x true body)) (hx : w = x)
      (hbody : body (s.counted n j) j = (s.counted n j).endWith n.val rc) : ends i rc := by
    subst hx
    obtain ⟨hlead, hrun, hend⟩ := State.runsOn_spec h.runs
    have hdo (hok : endAllowed rc = true) (hheld : c.inv.held = none) (hfull : imagesFilled items = true) {P : State → Prop}
        (hp : ∀ u : State, u.jobLead n.val = some j → u.job? j.id = some j →
          u.ch n.val = { c with seq := { q.counted true with out := items, run := .blocked (.ending rc) } } → P (u.doEnd n.val j rc)) :
        Leads i s P := by
      refine leads_counted h hi ?_
      rw [hbody, endWith_counted h hok hheld, if_pos hfull]
      obtain ⟨hleadu, hju, hch⟩ := ending_counted (rc := rc) h hj items
      exact hp _ hleadu hju hch
    refine ⟨fun hok => leads_counted h hi ?_, fun hok hheld hfull hm => ⟨fun hrom => ?_, fun hinv => ?_⟩,
      fun stop hm hok hheld hfull => ?_, fun hok hheld hmiss => leads_counted h hi ?_, fun hbad => leads_counted h hi ?_⟩
    · rw [hbody]
      exact State.endWith_held (endAllowed_iff.mpr hok) ((s.counted_jobLead n j n.val).trans hlead)
    · refine hdo (endAllowed_iff.mpr hok) hheld hfull fun u hleadu hju hch => ?_
      have hkept : u.romItems j (u.ch n.val).seq.out = items := by
        rw [hch, State.romItems, hrom]
        rfl
      have hdone := doEnd_unmarked (rc := rc) hleadu hrun hend hju (by rw [hch]; exact hheld) hm hkept hfull
      rw [hch, State.endCode, State.romDetail, hrom] at hdone
      exact hdone
    · refine hdo (endAllowed_iff.mpr hok) hheld hfull fun u hleadu hju hch => ?_
      have hrom := Job.isRom_of_inventory hinv
      obtain ⟨hkeptfull, hcount⟩ := u.romItems_inventory hinv hfull
      obtain ⟨hidle, k, e, hk, he, hrc, hpart, hreceipt, ⟨hdetail, -⟩, hst⟩ := doEnd_unmarked (rc := rc) hleadu hrun hend hju
        (by rw [hch]; exact hheld) hm (by rw [hch]) hkeptfull
      rw [State.endCode, hrom, hinv, hch] at hrc
      rw [State.romDetail, hrom, hinv, hcount] at hdetail
      exact ⟨hidle, k, e, hk, he, hrc, hpart, hreceipt, hdetail, hst⟩
    · refine hdo (endAllowed_iff.mpr hok) hheld hfull fun u hleadu hju hch => ?_
      have hdone := doEnd_marked (rc := rc) hleadu hrun hend hju (by rw [hch]; exact hheld) hm (by rw [hch]; exact hfull)
      rw [hch] at hdone
      exact hdone
    · rw [hbody, endWith_counted h (endAllowed_iff.mpr hok) hheld, if_neg (Bool.not_eq_true _ ▸ hmiss)]
      exact seqTo_counted s n j rfl rfl
    · have hno : endAllowed rc = false := Bool.eq_false_iff.mpr fun e => hbad (endAllowed_iff.mp e)
      rw [hbody, State.endWith, hno]
      exact faultTo_counted h hc hj 9
  have hreg : ((s.counted n j).ch n.val).seq.getG r = q.getG r :=
    (congrArg (Seq.getG · r) (congrArg Chan.seq (s.counted_ch_same n j)) :)
  have hlow : (q.getG r).setWidth 8 = (q.getG r).extractLsb' 0 8 := BitVec.eq_of_toNat_eq (by simp)
  refine ⟨fun h => hends h rfl rfl rfl, fun h => hends h rfl (by simp only [regsWord]; omega) ?_⟩
  simp only [hreg, hlow]

end Sys2Proof.Machine
end

section
/-!
PROOFS. The halfwords of the instructions (R219 to R225, R231, R237): O60.
-/

namespace Sys2Proof.Machine

/-! ## The fields of a halfword (R219) -/

theorem regsWord_fields {major a b lo : Nat} (ha : a < 8) (hb : b < 8) (hlo : lo < 64) :
    regsWord major a b lo / 4096 = major ∧ regsWord major a b lo / 512 % 8 = a ∧ regsWord major a b lo / 64 % 8 = b
      ∧ regsWord major a b lo % 64 = lo := by
  simp only [regsWord]
  omega

theorem eq_regsWord (w : Nat) : w = regsWord (w / 4096) (w / 512 % 8) (w / 64 % 8) (w % 64) := by
  simp only [regsWord]
  omega

theorem sysWord_eq (sub ra : Nat) : sysWord sub ra = regsWord 0 0 sub (8 * ra) := by
  simp only [sysWord, regsWord]
  omega

theorem byteWord_eq (major fn imm : Nat) :
    byteWord major fn imm = regsWord major (fn / 2) (4 * (fn % 2) + imm / 64) (imm % 64) := by
  simp only [byteWord, regsWord]
  omega

/-- Which halfwords are defined, by major group, the fields [11:9] and [8:6], and the bits [5:0]. -/
def definedFields (major a b lo : Nat) : Bool :=
  match major with
  | 0x0 => lo % 8 == 0 && decide (8 * a + b ≤ 6) && (decide (4 ≤ 8 * a + b) || lo / 8 == 0)
  | 0x1 | 0x2 | 0x6 | 0x7 => true
  | 0x3 => decide (lo ≤ 12)
  | 0x4 => decide (lo < 32) || b == 0 || b == 1 || b == 7
  | 0x5 => decide (2 * a + b / 4 ≤ 7)
  | 0x8 | 0x9 => decide (lo < 48)
  | 0xA =>
    if b = 4 then true
    else if b = 5 then a == 0 && lo / 4 % 8 == 0
    else if b = 6 then decide (lo ≤ 1)
    else lo == 0
  | 0xB =>
    decide (lo ≤ 10) && ((lo == 5 || lo == 6 || lo == 10) || a == 0)
      && ((lo == 2 || lo == 3 || lo == 4 || lo == 6 || lo == 7 || lo == 8 || lo == 9) || b == 0)
  | 0xC => decide (lo ≤ 6) && (lo != 5 || a == 0) && (lo == 0 || lo == 3 || lo == 6 || b == 0)
  | 0xD => decide (lo ≤ 8) && b == 0 && (lo != 4 || a == 0)
  | 0xE => decide (2 * a + b / 4 ≤ 7) && (2 * a + b / 4 != 3 || b / 2 % 2 == 0) && (2 * a + b / 4 != 4 || b % 4 == 0)
  | _ => false

theorem definedWord_eq (w : Nat) : definedWord w = definedFields (w / 4096) (w / 512 % 8) (w / 64 % 8) (w % 64) := by
  have h93 : bitsOf w 9 3 = w / 512 % 8 := bitsOf_eq w 9 3
  have h63 : bitsOf w 6 3 = w / 64 % 8 := bitsOf_eq w 6 3
  have h06 : bitsOf w 0 6 = w % 64 := (bitsOf_eq w 0 6).trans (by omega)
  have h03 : bitsOf w 0 3 = w % 64 % 8 := (bitsOf_eq w 0 3).trans (by omega)
  have h66 : bitsOf w 6 6 = 8 * (w / 512 % 8) + w / 64 % 8 := (bitsOf_eq w 6 6).trans (by omega)
  have h33 : bitsOf w 3 3 = w % 64 / 8 := (bitsOf_eq w 3 3).trans (by omega)
  have h84 : bitsOf w 8 4 = 2 * (w / 512 % 8) + w / 64 % 8 / 4 := (bitsOf_eq w 8 4).trans (by omega)
  have h23 : bitsOf w 2 3 = w % 64 / 4 % 8 := (bitsOf_eq w 2 3).trans (by omega)
  have h71 : bitsOf w 7 1 = w / 64 % 8 / 2 % 2 := (bitsOf_eq w 7 1).trans (by omega)
  have h62 : bitsOf w 6 2 = w / 64 % 8 % 4 := (bitsOf_eq w 6 2).trans (by omega)
  simp only [definedWord, h93, h63, h06, h03, h66, h33, h84, h23, h71, h62]
  rfl

theorem definedWord_regsWord {major a b lo : Nat} (ha : a < 8) (hb : b < 8) (hlo : lo < 64) :
    definedWord (regsWord major a b lo) = definedFields major a b lo := by
  obtain ⟨h1, h2, h3, h4⟩ := regsWord_fields (major := major) ha hb hlo
  rw [definedWord_eq, h1, h2, h3, h4]

/-! ## The tables of the major groups (R219 to R225, R231, R237)

Each table lists the instructions of a group by the number of their function. -/

/-- SYS, by bits [11:6]. -/
def sysOps (n : Ch) (ra : GReg) : List Instr :=
  [.seqNop n, .yield n, .ret n, .seqFault n, .wait n ra, .time n ra, .jr n ra]

/-- Moves, arithmetic, logic and shifts, by bits [5:0]. -/
def aluOps (n : Ch) (rd rs : GReg) : List Instr :=
  [.mov n rd rs, .add n rd rs, .sub n rd rs, .and n rd rs, .or n rd rs, .xor n rd rs, .shl n rd rs, .shr n rd rs, .asr n rd rs,
    .mul n rd rs, .cmp n rd rs, .tst n rd rs, .not n rd rs]

/-- Instructions with an immediate, by bits [8:6]. -/
def immOps (n : Ch) (rd : GReg) (lo : Nat) : List Instr :=
  let imm := BitVec.ofNat 6 lo
  let bit := BitVec.ofNat 5 lo
  [.addi n rd imm, .subi n rd imm, .shli n rd bit, .shri n rd bit, .btst n rd bit, .bset n rd bit, .bclr n rd bit, .cmpi n rd imm]

/-- Branches, by bits [11:8]. -/
def branchOps (n : Ch) (o : Byte) : List Instr :=
  [.beq n o, .bne n o, .blo n o, .bhs n o, .blt n o, .bge n o, .bmi n o, .bpl n o]

/-- FCTL, by bits [4:0]. -/
def fctlOps (n : Ch) (rx : Bool) : List Instr := [.fctlMark n rx, .fctlRewind n rx, .fctlRelease n rx, .fctlDrop n rx]

/-- FIFO instructions. -/
def fifoOp (n : Ch) (r b : GReg) (lo : Nat) : Option Instr :=
  match b with
  | 0 => some (.pushb n r)
  | 1 => some (.pushw n r)
  | 2 => some (.popb n r)
  | 3 => some (.popw n r)
  | 4 => some (.peek n r (BitVec.ofNat 6 lo))
  | 5 => (fctlOps n (lo / 32 == 1))[lo % 32]?
  | 6 => some (.avail n r (lo == 1))
  | 7 => some (.poph n r)

/-- Air instructions, by bits [5:0]. -/
def airOps (n : Ch) (a b : GReg) : List Instr :=
  [.fon n, .foff n, .ant n b, .pwr n b, .tx n b, .rx n a, .xch n a b, .rxto n b, .rawb n b, .pat n b, .txst n a]

/-- Instructions of the engine and of CRY, by bits [5:0]. -/
def unitOps (n : Ch) (a b : GReg) : List Instr :=
  [.invo n a b, .invs n a, .inve n a, .sigq n a b, .resq n a, .cryw n, .cryr n a b]

/-- Result instructions, by bits [5:0]. -/
def resultOps (n : Ch) (r : GReg) : List Instr :=
  [.outb n r, .outh n r, .outw n r, .outrec n r, .outsum n, .post n r, .det n r, .endr n r, .olen n r]

/-- Instructions with eight bits, by bits [11:8]. -/
def byteOps (n : Ch) (imm : Byte) : List Instr :=
  [.pushi n imm, .outi n imm, .waitus n imm, .airt n imm, .airr n imm, .endJob n imm, .deti n imm, .pati n imm]

/-- Widths of LD and ST, by bits [5:4]. -/
def sizes : List (Fin 3) := [0, 1, 2]

/-- The instruction of channel `n` whose halfword has these fields, whatever its unused fields hold. -/
def opOf (n : Ch) (major : Nat) (a b : GReg) (lo : Nat) : Option Instr :=
  match major with
  | 0x0 => (sysOps n (Fin.ofNat 8 (lo / 8)))[b.val]?
  | 0x1 => some (.movi n a (BitVec.ofNat 9 (64 * b.val + lo)))
  | 0x2 => some (.movx n a (BitVec.ofNat 9 (64 * b.val + lo)))
  | 0x3 => (aluOps n a b)[lo]?
  | 0x4 => (immOps n a lo)[b.val]?
  | 0x5 => (branchOps n (BitVec.ofNat 8 (64 * b.val + lo)))[2 * a.val + b.val / 4]?
  | 0x6 => some (.jmp n (BitVec.ofNat 12 (512 * a.val + 64 * b.val + lo)))
  | 0x7 => some (.call n (BitVec.ofNat 12 (512 * a.val + 64 * b.val + lo)))
  | 0x8 => sizes[lo / 16]?.map fun k => .ld n a b k (BitVec.ofNat 4 lo)
  | 0x9 => sizes[lo / 16]?.map fun k => .st n a b k (BitVec.ofNat 4 lo)
  | 0xA => fifoOp n a b lo
  | 0xB => (airOps n a b)[lo]?
  | 0xC => (unitOps n a b)[lo]?
  | 0xD => (resultOps n a)[lo]?
  | 0xE => (byteOps n (BitVec.ofNat 8 (64 * b.val + lo)))[2 * a.val + b.val / 4]?
  | _ => none

/-- AIRT and AIRR with a reserved bit set. -/
def ReservedBit (i : Instr) : Prop := (∃ n imm, i = .airt n imm ∧ 128 ≤ imm.toNat) ∨ ∃ n imm, i = .airr n imm ∧ 64 ≤ imm.toNat

/-- The halfword `w` has fields that name the instruction `i`, and is defined unless a reserved bit is set. -/
def Coded (i : Instr) (w : Nat) : Prop :=
  ∃ (n : Ch) (major : Nat) (a b : GReg) (lo : Nat), seqChan i = some n ∧ major < 16 ∧ lo < 64 ∧ w = regsWord major a.val b.val lo
    ∧ opOf n major a b lo = some i ∧ (definedFields major a.val b.val lo = true ∨ ReservedBit i)

/-! ## Each instruction has the fields of its halfword -/

theorem coded_sys {i : Instr} {n : Ch} (k : Nat) (ra : GReg) (hi : seqChan i = some n) (hk : k < 7) (hop : (sysOps n ra)[k]? = some i)
    (hra : 4 ≤ k ∨ ra = 0) : Coded i (sysWord k ra.val) := by
  refine ⟨n, 0, 0, Fin.ofNat 8 k, 8 * ra.val, hi, by decide, by omega, ?_, ?_, .inl ?_⟩
  · rw [sysWord_eq, Fin.val_ofNat, Nat.mod_eq_of_lt (by omega)]
    rfl
  · have hr : Fin.ofNat 8 (8 * ra.val / 8) = ra := Fin.ext (by rw [Fin.val_ofNat]; omega)
    rw [opOf, hr, Fin.val_ofNat, Nat.mod_eq_of_lt (by omega)]
    exact hop
  · have hzero : 4 ≤ k ∨ ra.val = 0 := hra.imp_right fun e => congrArg Fin.val e
    simp only [definedFields, Fin.val_ofNat, Bool.and_eq_true, Bool.or_eq_true, beq_iff_eq, decide_eq_true_eq]
    omega

/-- The fields of an instruction whose table has it at its function. -/
theorem coded_fields {i : Instr} {n : Ch} (major : Nat) (a b : GReg) (lo : Nat) (hi : seqChan i = some n) (hm : major < 16)
    (hlo : lo < 64) (hop : opOf n major a b lo = some i) (hd : definedFields major a.val b.val lo = true) :
    Coded i (regsWord major a.val b.val lo) := ⟨n, major, a, b, lo, hi, hm, hlo, rfl, hop, .inl hd⟩

/-- The fields [8:6] and [5:0] of nine bits. -/
theorem coded_imm9 {i : Instr} {n : Ch} (major : Nat) (rd : GReg) (imm : BitVec 9) (hi : seqChan i = some n) (hm : major < 16)
    (hop : ∀ b lo, BitVec.ofNat 9 (64 * b.val + lo) = imm → opOf n major rd b lo = some i)
    (hd : ∀ b lo, definedFields major rd.val b lo = true) : Coded i (major * 2 ^ 12 + rd.val * 2 ^ 9 + imm.toNat) := by
  have himm := imm.isLt
  have hb : (Fin.ofNat 8 (imm.toNat / 64)).val = imm.toNat / 64 := Nat.mod_eq_of_lt (by omega)
  refine ⟨n, major, rd, Fin.ofNat 8 (imm.toNat / 64), imm.toNat % 64, hi, hm, Nat.mod_lt _ (by decide), ?_, hop _ _ ?_, .inl (hd _ _)⟩
  · rw [hb]
    simp only [regsWord]
    omega
  · rw [hb, Nat.div_add_mod, BitVec.ofNat_toNat, BitVec.setWidth_eq]

/-- The fields of twelve bits. -/
theorem coded_far {i : Instr} {n : Ch} (major : Nat) (o : BitVec 12) (hi : seqChan i = some n) (hm : major < 16)
    (hop : ∀ (a b : GReg) (lo : Nat), BitVec.ofNat 12 (512 * a.val + 64 * b.val + lo) = o → opOf n major a b lo = some i)
    (hd : ∀ a b lo, definedFields major a b lo = true) : Coded i (major * 2 ^ 12 + o.toNat) := by
  have ho := o.isLt
  have ha : (Fin.ofNat 8 (o.toNat / 512)).val = o.toNat / 512 := Nat.mod_eq_of_lt (by omega)
  have hb : (Fin.ofNat 8 (o.toNat / 64)).val = o.toNat / 64 % 8 := rfl
  refine ⟨n, major, Fin.ofNat 8 (o.toNat / 512), Fin.ofNat 8 (o.toNat / 64), o.toNat % 64, hi, hm, Nat.mod_lt _ (by decide), ?_,
    hop _ _ _ ?_, .inl (hd _ _ _)⟩
  · rw [ha, hb]
    simp only [regsWord]
    omega
  · rw [ha, hb, show 512 * (o.toNat / 512) + 64 * (o.toNat / 64 % 8) + o.toNat % 64 = o.toNat by omega, BitVec.ofNat_toNat,
      BitVec.setWidth_eq]

/-- The fields of a function and eight bits. -/
theorem coded_byte {i : Instr} {n : Ch} (major fn : Nat) (imm : Byte) (hi : seqChan i = some n) (hm : major < 16) (hfn : fn < 8)
    (hop : ∀ (a b : GReg) (lo : Nat), BitVec.ofNat 8 (64 * b.val + lo) = imm → 2 * a.val + b.val / 4 = fn → opOf n major a b lo = some i)
    (hd : definedFields major (fn / 2) (4 * (fn % 2) + imm.toNat / 64) (imm.toNat % 64) = true ∨ ReservedBit i) :
    Coded i (byteWord major fn imm.toNat) := by
  have himm := imm.isLt
  have ha : (Fin.ofNat 8 (fn / 2)).val = fn / 2 := Nat.mod_eq_of_lt (by omega)
  have hb : (Fin.ofNat 8 (4 * (fn % 2) + imm.toNat / 64)).val = 4 * (fn % 2) + imm.toNat / 64 := Nat.mod_eq_of_lt (by omega)
  refine ⟨n, major, Fin.ofNat 8 (fn / 2), Fin.ofNat 8 (4 * (fn % 2) + imm.toNat / 64), imm.toNat % 64, hi, hm,
    Nat.mod_lt _ (by decide), ?_, hop _ _ _ ?_ ?_, ?_⟩
  · rw [ha, hb, byteWord_eq]
  · refine BitVec.eq_of_toNat_eq ?_
    rw [hb, BitVec.toNat_ofNat]
    omega
  · rw [ha, hb]
    omega
  · rwa [ha, hb]

/-- Branches and immediate instructions are defined whatever their eight bits hold, but for AIRT and AIRR. -/
theorem definedFields_byte {major fn : Nat} (hm : major = 5 ∨ major = 0xE ∧ fn ≠ 3 ∧ fn ≠ 4) (hfn : fn < 8) (imm : Byte) :
    definedFields major (fn / 2) (4 * (fn % 2) + imm.toNat / 64) (imm.toNat % 64) = true := by
  have himm := imm.isLt
  have hdiv : 2 * (fn / 2) + (4 * (fn % 2) + imm.toNat / 64) / 4 = fn := by omega
  rcases hm with rfl | ⟨rfl, h3, h4⟩
  · simp only [definedFields, hdiv, decide_eq_true_eq]
    omega
  · simp only [definedFields, hdiv, Bool.and_eq_true, Bool.or_eq_true, decide_eq_true_eq, bne_iff_ne]
    omega

/-- The field [5:0] of an immediate. -/
theorem coded_low {i : Instr} {n : Ch} {m : Nat} (major : Nat) (a b : GReg) (imm : BitVec m) (hi : seqChan i = some n) (hmajor : major < 16)
    (hm : m ≤ 6) (hop : ∀ lo, BitVec.ofNat m lo = imm → opOf n major a b lo = some i)
    (hd : ∀ lo, lo < 2 ^ m → definedFields major a.val b.val lo = true) : Coded i (regsWord major a.val b.val imm.toNat) :=
  coded_fields major a b _ hi hmajor (imm.isLt.trans_le (Nat.pow_le_pow_right (by decide) hm))
    (hop _ (by rw [BitVec.ofNat_toNat, BitVec.setWidth_eq])) (hd _ imm.isLt)

theorem coded_imm6 {i : Instr} {n : Ch} {rd : GReg} (b : GReg) (imm : BitVec 6) (hi : seqChan i = some n)
    (hop : ∀ lo, BitVec.ofNat 6 lo = imm → opOf n 4 rd b lo = some i) (hb : b = 0 ∨ b = 1 ∨ b = 7) :
    Coded i (regsWord 4 rd.val b.val imm.toNat) := by
  refine coded_low 4 rd b imm hi (by decide) (by decide) hop fun lo _ => ?_
  rcases hb with rfl | rfl | rfl <;> simp [definedFields]

theorem coded_bit {i : Instr} {n : Ch} {rd : GReg} (b : GReg) (bit : BitVec 5) (hi : seqChan i = some n)
    (hop : ∀ lo, BitVec.ofNat 5 lo = bit → opOf n 4 rd b lo = some i) : Coded i (regsWord 4 rd.val b.val bit.toNat) := by
  refine coded_low 4 rd b bit hi (by decide) (by decide) hop fun lo hlo => ?_
  simp only [definedFields, Bool.or_eq_true, decide_eq_true_eq]
  omega

/-- The fields of LD and ST. -/
theorem coded_size {i : Instr} {n : Ch} (major : Nat) (a b : GReg) (k : Fin 3) (off : BitVec 4) (hi : seqChan i = some n)
    (hmajor : major < 16) (hop : ∀ lo, sizes[lo / 16]? = some k → BitVec.ofNat 4 lo = off → opOf n major a b lo = some i)
    (hd : ∀ lo, lo < 48 → definedFields major a.val b.val lo = true) : Coded i (regsWord major a.val b.val (16 * k.val + off.toNat)) := by
  have hoff := off.isLt
  refine coded_fields major a b _ hi hmajor (by omega) (hop _ ?_ ?_) (hd _ (by omega))
  · rw [show (16 * k.val + off.toNat) / 16 = k.val by omega]
    match k with
    | 0 | 1 | 2 => rfl
  · refine BitVec.eq_of_toNat_eq ?_
    rw [BitVec.toNat_ofNat]
    omega

theorem coded_of_codeWord {i : Instr} {w : Nat} (h : codeWord i = some w) : Coded i w := by
  cases i
  case seqNop n | yield n | ret n | seqFault n => exact Option.some.inj h ▸ coded_sys _ 0 rfl (by decide) rfl (.inr rfl)
  case wait n ra | time n ra | jr n ra => exact Option.some.inj h ▸ coded_sys _ ra rfl (by decide) rfl (.inl (by decide))
  case movi n rd imm => exact Option.some.inj h ▸ coded_imm9 1 rd imm rfl (by decide) (fun _ _ e => e ▸ rfl) fun _ _ => rfl
  case movx n rd imm => exact Option.some.inj h ▸ coded_imm9 2 rd imm rfl (by decide) (fun _ _ e => e ▸ rfl) fun _ _ => rfl
  case mov n rd rs | add n rd rs | sub n rd rs | and n rd rs | or n rd rs | xor n rd rs | shl n rd rs | shr n rd rs | asr n rd rs |
      mul n rd rs | cmp n rd rs | tst n rd rs | not n rd rs =>
    exact Option.some.inj h ▸ coded_fields 3 rd rs _ rfl (by decide) (by decide) rfl rfl
  case addi n rd imm => exact Option.some.inj h ▸ coded_imm6 0 imm rfl (fun _ e => e ▸ rfl) (by decide)
  case subi n rd imm => exact Option.some.inj h ▸ coded_imm6 1 imm rfl (fun _ e => e ▸ rfl) (by decide)
  case cmpi n rd imm => exact Option.some.inj h ▸ coded_imm6 7 imm rfl (fun _ e => e ▸ rfl) (by decide)
  case shli n rd bit => exact Option.some.inj h ▸ coded_bit 2 bit rfl fun _ e => e ▸ rfl
  case shri n rd bit => exact Option.some.inj h ▸ coded_bit 3 bit rfl fun _ e => e ▸ rfl
  case btst n rd bit => exact Option.some.inj h ▸ coded_bit 4 bit rfl fun _ e => e ▸ rfl
  case bset n rd bit => exact Option.some.inj h ▸ coded_bit 5 bit rfl fun _ e => e ▸ rfl
  case bclr n rd bit => exact Option.some.inj h ▸ coded_bit 6 bit rfl fun _ e => e ▸ rfl
  case beq n o | bne n o | blo n o | bhs n o | blt n o | bge n o | bmi n o | bpl n o =>
    refine Option.some.inj h ▸ coded_byte 5 _ o rfl (by decide) (by decide) (fun a b lo e hfn => ?_)
      (.inl (definedFields_byte (.inl rfl) (by decide) o))
    exact (congrArg _ hfn).trans (e ▸ rfl)
  case jmp n o => exact Option.some.inj h ▸ coded_far 6 o rfl (by decide) (fun _ _ _ e => e ▸ rfl) fun _ _ _ => rfl
  case call n o => exact Option.some.inj h ▸ coded_far 7 o rfl (by decide) (fun _ _ _ e => e ▸ rfl) fun _ _ _ => rfl
  case ld n rd rs k off =>
    refine Option.some.inj h ▸ coded_size 8 rd rs k off rfl (by decide) (fun lo hk e => ?_) fun lo hlo => decide_eq_true hlo
    rw [opOf, hk, e]
    rfl
  case st n r rs k off =>
    refine Option.some.inj h ▸ coded_size 9 r rs k off rfl (by decide) (fun lo hk e => ?_) fun lo hlo => decide_eq_true hlo
    rw [opOf, hk, e]
    rfl
  case pushb n r => exact Option.some.inj h ▸ coded_fields 0xA r 0 0 rfl (by decide) (by decide) rfl rfl
  case pushw n r => exact Option.some.inj h ▸ coded_fields 0xA r 1 0 rfl (by decide) (by decide) rfl rfl
  case popb n r => exact Option.some.inj h ▸ coded_fields 0xA r 2 0 rfl (by decide) (by decide) rfl rfl
  case popw n r => exact Option.some.inj h ▸ coded_fields 0xA r 3 0 rfl (by decide) (by decide) rfl rfl
  case poph n r => exact Option.some.inj h ▸ coded_fields 0xA r 7 0 rfl (by decide) (by decide) rfl rfl
  case peek n r imm =>
    exact Option.some.inj h ▸ coded_low 0xA r 4 imm rfl (by decide) (by decide) (fun _ e => e ▸ rfl) fun _ _ => rfl
  case fctlMark n rx | fctlRewind n rx | fctlRelease n rx | fctlDrop n rx =>
    cases rx <;> exact Option.some.inj h ▸ coded_fields 0xA 0 5 _ rfl (by decide) (by decide) rfl rfl
  case avail n r rx => cases rx <;> exact Option.some.inj h ▸ coded_fields 0xA r 6 _ rfl (by decide) (by decide) rfl rfl
  case fon n | foff n => exact Option.some.inj h ▸ coded_fields 0xB 0 0 _ rfl (by decide) (by decide) rfl rfl
  case ant n r | pwr n r | tx n r | rxto n r | rawb n r | pat n r =>
    exact Option.some.inj h ▸ coded_fields 0xB 0 r _ rfl (by decide) (by decide) rfl rfl
  case rx n r | txst n r => exact Option.some.inj h ▸ coded_fields 0xB r 0 _ rfl (by decide) (by decide) rfl rfl
  case xch n ra rb => exact Option.some.inj h ▸ coded_fields 0xB ra rb _ rfl (by decide) (by decide) rfl rfl
  case invo n ra rb | sigq n ra rb | cryr n ra rb => exact Option.some.inj h ▸ coded_fields 0xC ra rb _ rfl (by decide) (by decide) rfl rfl
  case invs n r | inve n r | resq n r => exact Option.some.inj h ▸ coded_fields 0xC r 0 _ rfl (by decide) (by decide) rfl rfl
  case cryw n => exact Option.some.inj h ▸ coded_fields 0xC 0 0 5 rfl (by decide) (by decide) rfl rfl
  case outb n r | outh n r | outw n r | outrec n r | post n r | det n r | endr n r | olen n r =>
    exact Option.some.inj h ▸ coded_fields 0xD r 0 _ rfl (by decide) (by decide) rfl rfl
  case outsum n => exact Option.some.inj h ▸ coded_fields 0xD 0 0 4 rfl (by decide) (by decide) rfl rfl
  case pushi n imm | outi n imm | waitus n imm | endJob n imm | deti n imm | pati n imm =>
    refine Option.some.inj h ▸ coded_byte 0xE _ imm rfl (by decide) (by decide) (fun a b lo e hfn => ?_)
      (.inl (definedFields_byte (.inr ⟨rfl, by decide, by decide⟩) (by decide) imm))
    exact (congrArg _ hfn).trans (e ▸ rfl)
  case airt n imm =>
    refine Option.some.inj h ▸ coded_byte 0xE 3 imm rfl (by decide) (by decide) (fun a b lo e hfn => (congrArg _ hfn).trans (e ▸ rfl))
      ((Nat.lt_or_ge imm.toNat 128).imp (fun hlow => ?_) fun hhigh => .inl ⟨n, imm, rfl, hhigh⟩)
    simp only [definedFields, Bool.and_eq_true, Bool.or_eq_true, decide_eq_true_eq, beq_iff_eq, bne_iff_ne]
    omega
  case airr n imm =>
    refine Option.some.inj h ▸ coded_byte 0xE 4 imm rfl (by decide) (by decide) (fun a b lo e hfn => (congrArg _ hfn).trans (e ▸ rfl))
      ((Nat.lt_or_ge imm.toNat 64).imp (fun hlow => ?_) fun hhigh => .inr ⟨n, imm, rfl, hhigh⟩)
    simp only [definedFields, Bool.and_eq_true, Bool.or_eq_true, decide_eq_true_eq, beq_iff_eq, bne_iff_ne]
    omega
  all_goals cases h

/-- The fields of a halfword of one channel name at most one instruction. -/
theorem Coded.unique {i k : Instr} {w : Nat} (hi : Coded i w) (hk : Coded k w) (hchan : seqChan i = seqChan k) : i = k := by
  obtain ⟨n, major, a, b, lo, hn, -, hlo, hw, hop, -⟩ := hi
  obtain ⟨n', major', a', b', lo', hn', -, hlo', hw', hop', -⟩ := hk
  obtain ⟨hmajor, ha, hb, hl⟩ := regsWord_fields (major := major) a.isLt b.isLt hlo
  obtain ⟨hmajor', ha', hb', hl'⟩ := regsWord_fields (major := major') a'.isLt b'.isLt hlo'
  rw [← hw] at hmajor ha hb hl
  rw [← hw'] at hmajor' ha' hb' hl'
  have hchannel : n = n' := Option.some.inj (hn.symm.trans (hchan.trans hn'))
  have hm : major = major' := hmajor.symm.trans hmajor'
  have hfa : a = a' := Fin.ext (ha.symm.trans ha')
  have hfb : b = b' := Fin.ext (hb.symm.trans hb')
  have hfl : lo = lo' := hl.symm.trans hl'
  subst hchannel hm hfa hfb hfl
  exact Option.some.inj (hop.symm.trans hop')

theorem Coded.lt {i : Instr} {w : Nat} (h : Coded i w) : w < 65536 := by
  obtain ⟨_, major, a, b, lo, -, hmajor, hlo, rfl, -, -⟩ := h
  simp only [regsWord]
  omega

theorem Coded.defined {i : Instr} {w : Nat} (h : Coded i w) : definedWord w = true ∨ ReservedBit i := by
  obtain ⟨_, major, a, b, lo, -, -, hlo, rfl, -, hd⟩ := h
  exact hd.imp_left (definedWord_regsWord a.isLt b.isLt hlo).trans

/-! ## Each defined halfword is that of an instruction -/

/-- An instruction of channel `n` has the halfword `w`. -/
def Named (n : Ch) (w : Nat) : Prop := ∃ i, codeWord i = some w ∧ seqChan i = some n

/-- The instructions of a table have the halfwords `f 0`, `f 1`, … -/
theorem named_of_table {n : Ch} {l : List Instr} {f : Nat → Nat} {m k : Nat}
    (hl : l.map (fun i => (codeWord i, seqChan i)) = (List.range m).map fun k => (some (f k), some n)) (hk : k < m) : Named n (f k) := by
  have hget := congrArg (fun t => t[k]?) hl
  simp only [List.getElem?_map, List.getElem?_range hk, Option.map_some, Option.map_eq_some_iff, Prod.mk.injEq] at hget
  obtain ⟨i, -, hcode, hchan⟩ := hget
  exact ⟨i, hcode, hchan⟩

theorem named_sys (n : Ch) {a b lo : Nat} (hlo : lo < 64) (hb : b < 8) (hd : definedFields 0 a b lo = true) :
    Named n (regsWord 0 a b lo) := by
  simp only [definedFields, Bool.and_eq_true, Bool.or_eq_true, beq_iff_eq, decide_eq_true_eq] at hd
  have ht := named_of_table (n := n) (l := sysOps n (Fin.ofNat 8 (lo / 8)))
    (f := fun k => sysWord k (if k < 4 then 0 else (Fin.ofNat 8 (lo / 8)).val)) (m := 7) rfl (k := b) (by omega)
  have hw : regsWord 0 a b lo = sysWord b (if b < 4 then 0 else (Fin.ofNat 8 (lo / 8)).val) := by
    simp only [regsWord, sysWord, Fin.val_ofNat]
    split <;> omega
  rwa [hw]

theorem named_imm9 (n : Ch) {major : Nat} (hm : major = 1 ∨ major = 2) {a b lo : Nat} (ha : a < 8) (hb : b < 8) (hlo : lo < 64) :
    Named n (regsWord major a b lo) := by
  have himm : (BitVec.ofNat 9 (64 * b + lo)).toNat = 64 * b + lo := Nat.mod_eq_of_lt (by omega)
  rcases hm with rfl | rfl
  · refine ⟨.movi n ⟨a, ha⟩ (BitVec.ofNat 9 (64 * b + lo)), congrArg some ?_, rfl⟩
    simp only [himm, regsWord]
    omega
  · refine ⟨.movx n ⟨a, ha⟩ (BitVec.ofNat 9 (64 * b + lo)), congrArg some ?_, rfl⟩
    simp only [himm, regsWord]
    omega

theorem named_far (n : Ch) {major : Nat} (hm : major = 6 ∨ major = 7) {a b lo : Nat} (ha : a < 8) (hb : b < 8) (hlo : lo < 64) :
    Named n (regsWord major a b lo) := by
  have ho : (BitVec.ofNat 12 (512 * a + 64 * b + lo)).toNat = 512 * a + 64 * b + lo := Nat.mod_eq_of_lt (by omega)
  rcases hm with rfl | rfl
  · refine ⟨.jmp n (BitVec.ofNat 12 (512 * a + 64 * b + lo)), congrArg some ?_, rfl⟩
    simp only [ho, regsWord]
    omega
  · refine ⟨.call n (BitVec.ofNat 12 (512 * a + 64 * b + lo)), congrArg some ?_, rfl⟩
    simp only [ho, regsWord]
    omega

theorem named_alu (n : Ch) {a b lo : Nat} (ha : a < 8) (hb : b < 8) (hd : definedFields 3 a b lo = true) : Named n (regsWord 3 a b lo) :=
  named_of_table (l := aluOps n ⟨a, ha⟩ ⟨b, hb⟩) (f := regsWord 3 a b) (m := 13) rfl (Nat.lt_succ_of_le (of_decide_eq_true hd))

theorem named_imm (n : Ch) {a b lo : Nat} (ha : a < 8) (hb : b < 8) (hlo : lo < 64) (hd : definedFields 4 a b lo = true) :
    Named n (regsWord 4 a b lo) := by
  simp only [definedFields, Bool.or_eq_true, beq_iff_eq, decide_eq_true_eq] at hd
  have himm : (BitVec.ofNat 6 lo).toNat = lo := Nat.mod_eq_of_lt hlo
  have ht := named_of_table (n := n) (l := immOps n ⟨a, ha⟩ lo)
    (f := fun k => regsWord 4 a k (if 2 ≤ k ∧ k < 7 then (BitVec.ofNat 5 lo).toNat else (BitVec.ofNat 6 lo).toNat)) rfl hb
  have hfield : (if 2 ≤ b ∧ b < 7 then (BitVec.ofNat 5 lo).toNat else (BitVec.ofNat 6 lo).toNat) = lo := by
    rw [himm, BitVec.toNat_ofNat]
    split <;> omega
  rwa [hfield] at ht

/-- Eight bits [7:0] below a function in [11:8]. -/
theorem byteWord_regs (major a : Nat) {b lo : Nat} (hlo : lo < 64) :
    byteWord major (2 * a + b / 4) (BitVec.ofNat 8 (64 * b + lo)).toNat = regsWord major a b lo := by
  rw [BitVec.toNat_ofNat]
  simp only [byteWord, regsWord]
  omega

theorem named_branch (n : Ch) {a b lo : Nat} (hlo : lo < 64) (hd : definedFields 5 a b lo = true) :
    Named n (regsWord 5 a b lo) := by
  have hfn := of_decide_eq_true hd
  rw [← byteWord_regs 5 a hlo]
  exact named_of_table (l := branchOps n (BitVec.ofNat 8 (64 * b + lo)))
    (f := fun k => byteWord 5 k (BitVec.ofNat 8 (64 * b + lo)).toNat) (m := 8) rfl (by omega)

theorem named_byte (n : Ch) {a b lo : Nat} (hlo : lo < 64) (hd : definedFields 0xE a b lo = true) :
    Named n (regsWord 0xE a b lo) := by
  simp only [definedFields, Bool.and_eq_true, decide_eq_true_eq] at hd
  rw [← byteWord_regs 0xE a hlo]
  exact named_of_table (l := byteOps n (BitVec.ofNat 8 (64 * b + lo)))
    (f := fun k => byteWord 0xE k (BitVec.ofNat 8 (64 * b + lo)).toNat) (m := 8) rfl (by omega)

theorem named_mem (n : Ch) {major : Nat} (hm : major = 8 ∨ major = 9) {a b lo : Nat} (ha : a < 8) (hb : b < 8) (hd : lo < 48) :
    Named n (regsWord major a b lo) := by
  have hlo : 16 * (lo / 16) + (BitVec.ofNat 4 lo).toNat = lo := by
    rw [BitVec.toNat_ofNat]
    omega
  rcases hm with rfl | rfl
  · exact ⟨.ld n ⟨a, ha⟩ ⟨b, hb⟩ ⟨lo / 16, by omega⟩ (BitVec.ofNat 4 lo), congrArg (fun x => some (regsWord 8 a b x)) hlo, rfl⟩
  · exact ⟨.st n ⟨a, ha⟩ ⟨b, hb⟩ ⟨lo / 16, by omega⟩ (BitVec.ofNat 4 lo), congrArg (fun x => some (regsWord 9 a b x)) hlo, rfl⟩

theorem named_fctl (n : Ch) {lo : Nat} (hlo : lo < 64) (hop : lo / 4 % 8 = 0) : Named n (regsWord 0xA 0 5 lo) := by
  have hlow : lo % 32 < 4 := by omega
  rcases (by omega : lo = 32 * 0 + lo % 32 ∨ lo = 32 * 1 + lo % 32) with h | h
  · rw [h]
    exact named_of_table (l := fctlOps n false) (f := fun k => fctlWord false k) rfl hlow
  · rw [h]
    exact named_of_table (l := fctlOps n true) (f := fun k => fctlWord true k) rfl hlow

theorem named_fifo (n : Ch) {a b lo : Nat} (ha : a < 8) (hb : b < 8) (hlo : lo < 64) (hd : definedFields 0xA a b lo = true) :
    Named n (regsWord 0xA a b lo) := by
  match b, hb with
  | 0, _ => exact (beq_iff_eq (a := lo)).mp hd ▸ (⟨.pushb n ⟨a, ha⟩, rfl, rfl⟩ : Named n (regsWord 0xA a 0 0))
  | 1, _ => exact beq_iff_eq.mp hd ▸ ⟨.pushw n ⟨a, ha⟩, rfl, rfl⟩
  | 2, _ => exact beq_iff_eq.mp hd ▸ ⟨.popb n ⟨a, ha⟩, rfl, rfl⟩
  | 3, _ => exact beq_iff_eq.mp hd ▸ ⟨.popw n ⟨a, ha⟩, rfl, rfl⟩
  | 4, _ => exact ⟨.peek n ⟨a, ha⟩ (BitVec.ofNat 6 lo), congrArg (fun x => some (regsWord 0xA a 4 x)) (Nat.mod_eq_of_lt hlo), rfl⟩
  | 5, _ =>
    obtain ⟨hzero, hop⟩ := Bool.and_eq_true_iff.mp hd
    exact beq_iff_eq.mp hzero ▸ named_fctl n hlo (beq_iff_eq.mp hop)
  | 6, _ =>
    match lo, of_decide_eq_true hd with
    | 0, _ => exact ⟨.avail n ⟨a, ha⟩ false, rfl, rfl⟩
    | 1, _ => exact ⟨.avail n ⟨a, ha⟩ true, rfl, rfl⟩
  | 7, _ => exact beq_iff_eq.mp hd ▸ ⟨.poph n ⟨a, ha⟩, rfl, rfl⟩

theorem named_air (n : Ch) {a b lo : Nat} (ha : a < 8) (hb : b < 8) (hd : definedFields 0xB a b lo = true) :
    Named n (regsWord 0xB a b lo) := by
  simp only [definedFields, Bool.and_eq_true, Bool.or_eq_true, beq_iff_eq, decide_eq_true_eq] at hd
  have ht := named_of_table (n := n) (l := airOps n ⟨a, ha⟩ ⟨b, hb⟩)
    (f := fun k => regsWord 0xB (if k = 5 ∨ k = 6 ∨ k = 10 then a else 0) (if k < 2 ∨ k = 5 ∨ k = 10 then 0 else b) k) (m := 11) rfl
    (k := lo) (by omega)
  have hfa : (if lo = 5 ∨ lo = 6 ∨ lo = 10 then a else 0) = a := by split <;> omega
  have hfb : (if lo < 2 ∨ lo = 5 ∨ lo = 10 then 0 else b) = b := by split <;> omega
  rwa [hfa, hfb] at ht

theorem named_unit (n : Ch) {a b lo : Nat} (ha : a < 8) (hb : b < 8) (hd : definedFields 0xC a b lo = true) :
    Named n (regsWord 0xC a b lo) := by
  simp only [definedFields, Bool.and_eq_true, Bool.or_eq_true, beq_iff_eq, bne_iff_ne, decide_eq_true_eq] at hd
  have ht := named_of_table (n := n) (l := unitOps n ⟨a, ha⟩ ⟨b, hb⟩)
    (f := fun k => regsWord 0xC (if k = 5 then 0 else a) (if k = 0 ∨ k = 3 ∨ k = 6 then b else 0) k) (m := 7) rfl (k := lo) (by omega)
  have hfa : (if lo = 5 then 0 else a) = a := by split <;> omega
  have hfb : (if lo = 0 ∨ lo = 3 ∨ lo = 6 then b else 0) = b := by split <;> omega
  rwa [hfa, hfb] at ht

theorem named_result (n : Ch) {a b lo : Nat} (ha : a < 8) (hd : definedFields 0xD a b lo = true) : Named n (regsWord 0xD a b lo) := by
  simp only [definedFields, Bool.and_eq_true, Bool.or_eq_true, beq_iff_eq, bne_iff_ne, decide_eq_true_eq] at hd
  have ht := named_of_table (n := n) (l := resultOps n ⟨a, ha⟩) (f := fun k => regsWord 0xD (if k = 4 then 0 else a) 0 k) (m := 9) rfl
    (k := lo) (by omega)
  have hfa : (if lo = 4 then 0 else a) = a := by split <;> omega
  obtain ⟨⟨-, rfl⟩, -⟩ := hd
  rwa [hfa] at ht

/-- Each major group that holds a defined halfword. -/
theorem named_of_fields (n : Ch) {major a b lo : Nat} (hmajor : major < 16) (ha : a < 8) (hb : b < 8) (hlo : lo < 64)
    (hd : definedFields major a b lo = true) : Named n (regsWord major a b lo) := by
  match major, hmajor with
  | 0, _ => exact named_sys n hlo hb hd
  | 1, _ => exact named_imm9 n (.inl rfl) ha hb hlo
  | 2, _ => exact named_imm9 n (.inr rfl) ha hb hlo
  | 3, _ => exact named_alu n ha hb hd
  | 4, _ => exact named_imm n ha hb hlo hd
  | 5, _ => exact named_branch n hlo hd
  | 6, _ => exact named_far n (.inl rfl) ha hb hlo
  | 7, _ => exact named_far n (.inr rfl) ha hb hlo
  | 8, _ => exact named_mem n (.inl rfl) ha hb (of_decide_eq_true hd)
  | 9, _ => exact named_mem n (.inr rfl) ha hb (of_decide_eq_true hd)
  | 10, _ => exact named_fifo n ha hb hlo hd
  | 11, _ => exact named_air n ha hb hd
  | 12, _ => exact named_unit n ha hb hd
  | 13, _ => exact named_result n ha hd
  | 14, _ => exact named_byte n hlo hd
  | 15, _ => exact nomatch hd

/-- Settles O60: the fields of a halfword name its instruction, and each major group is a table. -/
theorem codeWords : Obligations.CodeWords := by
  refine ⟨fun i w h => ⟨(coded_of_codeWord h).lt, (coded_of_codeWord h).defined⟩, fun n w hw hd => ?_, fun i k w hi hk hchan =>
    (coded_of_codeWord hi).unique (coded_of_codeWord hk) hchan⟩
  rw [definedWord_eq] at hd
  rw [eq_regsWord w]
  exact named_of_fields n (by omega) (by omega) (by omega) (by omega) hd

end Sys2Proof.Machine
end

section
/-!
PROOFS. What the rest of the device leaves of the counts of a sequencer (R242).
-/

namespace Sys2Proof.Machine

/-! ## What is kept -/

/-- The counts of a sequencer: ICNT, YCNT and YPEND (R242). -/
def Seq.counts (q : Seq) : Word × Nat × Bool := (q.icnt, q.ycnt, q.ypend)

/-- From `s` to `t` no sequencer has counted an instruction, and CSQn_YMAX of channel `n` is as it was. -/
structure KeepsCounts (n : Ch) (s t : State) : Prop where
  top : t.rdWord (R.CSQ_YMAX n.val) = s.rdWord (R.CSQ_YMAX n.val)
  counts : ∀ m, (t.ch m).seq.counts = (s.ch m).seq.counts

/-- A field of a register other than CSQn_YMAX of every channel. -/
abbrev Fld.offYmax (f : Fld) : Prop := f.addr < 0x2E00 ∨ 0x2F00 ≤ f.addr ∨ f.addr % 0x20 ≠ 0x18

section

variable {n : Ch} {s t : State}

theorem KeepsCounts.refl : KeepsCounts n s s := ⟨rfl, fun _ => rfl⟩

/-- Other parts of the device do not matter. -/
theorem KeepsCounts.same {u : State} (h : KeepsCounts n s t) (hr : u.regs = t.regs) (hc : u.chans = t.chans) : KeepsCounts n s u where
  top := (State.rdWord_of_regs hr _).trans h.top
  counts m := by
    rw [← h.counts m, State.ch, State.ch, hc]

theorem KeepsCounts.wr {f : Fld} {v : Nat} (hf : f.offYmax) (h : KeepsCounts n s t) : KeepsCounts n s (t.wr f v) where
  top := by
    refine (State.rdWord_wr_other ?_).trans h.top
    simp only [R.CSQ_YMAX]
    omega
  counts := h.counts

theorem KeepsCounts.bump {f : Fld} {k : Nat} (hf : f.offYmax) (h : KeepsCounts n s t) : KeepsCounts n s (t.bump f k) := .wr hf h

theorem KeepsCounts.setFlag {f : Fld} (hf : f.offYmax) (h : KeepsCounts n s t) : KeepsCounts n s (t.setFlag f) := .wr hf h

/-- A change of a channel that leaves its counts. -/
theorem KeepsCounts.modCh {m : Nat} {g : Chan → Chan} (hg : ∀ c, (g c).seq.counts = c.seq.counts) (h : KeepsCounts n s t) :
    KeepsCounts n s (t.modCh m g) where
  top := h.top
  counts k := (State.ch_modCh_keeps (fun c => c.seq.counts) (hg _) k).trans (h.counts k)

/-- A change of a sequencer that leaves its counts. -/
theorem KeepsCounts.modSeq {m : Nat} {g : Seq → Seq} (hg : ∀ q, (g q).counts = q.counts) (h : KeepsCounts n s t) :
    KeepsCounts n s (t.modSeq m g) := .modCh (fun c => hg c.seq) h

theorem KeepsCounts.modInv {m : Nat} {g : InvCtx → InvCtx} (h : KeepsCounts n s t) : KeepsCounts n s (t.modInv m g) :=
  .modCh (fun _ => rfl) h

theorem KeepsCounts.modJob {id : Nat} {g : Job → Job} (h : KeepsCounts n s t) : KeepsCounts n s (t.modJob id g) := .same h rfl rfl

theorem KeepsCounts.dropJob {id : Nat} (h : KeepsCounts n s t) : KeepsCounts n s (t.dropJob id) := .same h rfl rfl

theorem KeepsCounts.takeFresh {α : Type} {g : Nat → α} (h : KeepsCounts n s t) : KeepsCounts n s (t.takeFresh g).2 := .same h rfl rfl

theorem KeepsCounts.ite {c : Prop} [Decidable c] {u v : State} (hu : KeepsCounts n s u) (hv : KeepsCounts n s v) :
    KeepsCounts n s (if c then u else v) := by
  split
  · exact hu
  · exact hv

theorem KeepsCounts.each {α : Type} {l : List α} {g : State → α → State} (hg : ∀ t a, KeepsCounts n s t → KeepsCounts n s (g t a))
    (h : KeepsCounts n s t) : KeepsCounts n s (t.each l g) := State.each_induction hg l t h

/-! ## Fields (R49) -/

theorem KeepsCounts.setField {m : Nat} {f : FieldState} (h : KeepsCounts n s t) : KeepsCounts n s (t.setField m f) :=
  .modCh (fun _ => rfl) h

theorem KeepsCounts.stopField {m : Nat} (h : KeepsCounts n s t) : KeepsCounts n s (t.stopField m) := by
  unfold State.stopField
  split
  · exact .modCh (fun _ => rfl) (.modCh (fun _ => rfl) h)
  all_goals exact .modCh (fun _ => rfl) h

theorem KeepsCounts.stopFields {b : BitVec 8} (h : KeepsCounts n s t) : KeepsCounts n s (t.stopFields b) := .each (fun _ _ => .stopField) h

/-! ## The end of a job (R19, R22) -/

theorem KeepsCounts.reserveBeats {m a b : Nat} (h : KeepsCounts n s t) : KeepsCounts n s (t.reserveBeats m a b) := by
  unfold State.reserveBeats
  split
  · exact h
  · exact .each (fun _ _ => .modCh fun _ => congrArg Seq.counts (Chan.reserve_keeps _ _ _ _).2) h

/-- CSQn_CNT and CSQn_FAULT are other registers than CSQn_YMAX. -/
theorem Fld.offYmax_csq {f : Fld} {m : Nat} (h : f.addr = R.CSQ_FAULT m ∨ f.addr = R.CSQ_CNT m) : f.offYmax := by
  simp only [R.CSQ_FAULT, R.CSQ_CNT] at h
  simp only [Fld.offYmax]
  omega

theorem KeepsCounts.endExchange {m : Nat} (h : KeepsCounts n s t) : KeepsCounts n s (t.endExchange m) := by
  unfold State.endExchange
  split
  · exact h
  extract_lets wcx stop isLate s0 s1 s2
  have h0 : KeepsCounts n s s0 := .ite (.reserveBeats h) h
  have h1 : KeepsCounts n s s1 := .ite (.bump (Fld.offYmax_csq (.inr rfl)) h0) h0
  have h2 : KeepsCounts n s s2 := .modCh (fun _ => rfl) h1
  refine .ite h2 ?_
  split
  · exact h2
  · exact .modJob h2

theorem KeepsCounts.sendLate {id : Nat} {l : List Sighting} (h : KeepsCounts n s t) : KeepsCounts n s (t.sendLate id l) := by
  unfold State.sendLate State.enqueueLate
  split
  · exact .modJob h
  · exact .same h rfl rfl

theorem KeepsCounts.releaseHeld {m id : Nat} (h : KeepsCounts n s t) : KeepsCounts n s (t.releaseHeld m id) := by
  unfold State.releaseHeld
  split
  · exact h
  · exact .ite (.modInv h) (.sendLate (.modInv h))

theorem KeepsCounts.releaseFound {m id : Nat} (h : KeepsCounts n s t) : KeepsCounts n s (t.releaseFound m id) := .sendLate (.modInv h)

theorem KeepsCounts.endRunning {j : Job} {rc : Byte} {part : Bool} {detail : BitVec 16} (h : KeepsCounts n s t) :
    KeepsCounts n s (t.endRunning j rc part detail) := by
  unfold State.endRunning
  extract_lets l s0 q items record st s1 s2 s3
  have h2 : KeepsCounts n s s2 := .modCh (fun _ => rfl) (.modJob (.releaseFound (.releaseHeld h)))
  have h3 : KeepsCounts n s s3 := .ite (.endExchange h2) h2
  exact .stopFields (.each (fun _ _ => .modCh (fun _ => rfl)) h3)

theorem KeepsCounts.postEntry {r units : Nat} {hdr payload : List Byte} (hr : r < 32) (h : KeepsCounts n s t) :
    KeepsCounts n s (t.postEntry r units hdr payload) := by
  refine .bump (.inl ?_) (.same h rfl rfl)
  simp only [R.RES_CNT_N_POST, R.RES_CNT]
  omega

theorem KeepsCounts.unclaim {id : Nat} (h : KeepsCounts n s t) : KeepsCounts n s (t.unclaim id) :=
  .each (fun _ _ h => .ite (.same h rfl rfl) h) h

theorem KeepsCounts.postReceipt {j : Job} {rc : Byte} (h : KeepsCounts n s t) : KeepsCounts n s (t.postReceipt j rc) := by
  unfold State.postReceipt
  extract_lets d hdr s1
  have h1 : KeepsCounts n s s1 := .unclaim (.postEntry j.ringNo_lt (.takeFresh h))
  exact .ite (.modJob h1) (.dropJob h1)

theorem KeepsCounts.endJob {id : Nat} {rc : Byte} {part : Bool} {detail : BitVec 16} (h : KeepsCounts n s t) :
    KeepsCounts n s (t.endJob id rc part detail) := by
  unfold State.endJob
  split
  · exact h
  split
  · exact .postReceipt h
  · exact .endRunning h
  · exact .endRunning h
  · exact h

theorem KeepsCounts.endJobInForce {id : Nat} {rc : Byte} {part : Bool} (h : KeepsCounts n s t) :
    KeepsCounts n s (t.endJobInForce id rc part) := by
  unfold State.endJobInForce
  split
  · exact h
  · exact .endJob h

theorem KeepsCounts.seqFault {m : Nat} {code : Byte} (h : KeepsCounts n s t) : KeepsCounts n s (t.seqFault m code) := by
  unfold State.seqFault
  split
  · exact h
  · exact .endJob (.bump (Fld.offYmax_csq (.inr rfl)) (.setFlag (Fld.offYmax_csq (.inl rfl)) (.wr (Fld.offYmax_csq (.inl rfl))
      (.wr (Fld.offYmax_csq (.inl rfl)) h))))

/-! ## What a ROM routine follows (R101, R172) -/

theorem KeepsCounts.modRom {j : Job} {g : RomCtx → RomCtx} (h : KeepsCounts n s t) : KeepsCounts n s (t.modRom j g) := .ite (.modJob h) h

theorem KeepsCounts.noteTx {j : Job} {own cont : Bool} {mode nbytes bits : Nat} {f : List Byte} (h : KeepsCounts n s t) :
    KeepsCounts n s (t.noteTx j own mode f nbytes bits cont) := by
  unfold State.noteTx State.modWrite
  exact .ite (.modSeq (fun _ => rfl) (.modJob h)) h

theorem KeepsCounts.noteCommand {j : Job} {own : Bool} {mode : Nat} {f : List Byte} (h : KeepsCounts n s t) :
    KeepsCounts n s (t.noteCommand j own mode f) := by
  unfold State.noteCommand
  exact .modRom h

theorem KeepsCounts.noteSighting {m : Nat} {x : Sighting} (h : KeepsCounts n s t) : KeepsCounts n s (t.noteSighting m x) := by
  unfold State.noteSighting
  split
  · exact h
  · exact .modRom h

theorem KeepsCounts.noteRound {j : Job} {k : Nat} (h : KeepsCounts n s t) : KeepsCounts n s (t.noteRound j k) := by
  unfold State.noteRound
  exact .modRom h

/-! ## Fields, positions and patterns (R49, R61, R195, R196) -/

theorem KeepsCounts.takePattern {p : Nat} {members : BitVec 8} (h : KeepsCounts n s t) : KeepsCounts n s (t.takePattern p members) :=
  .each (fun _ _ h => .ite (.setFlag (.inl (by decide)) (.modCh (fun _ => rfl) h)) (.modCh (fun _ => rfl) h)) h

theorem KeepsCounts.railRaise (h : KeepsCounts n s t) : KeepsCounts n s t.railRaise := .ite (.same h rfl rfl) (.same h rfl rfl)

theorem KeepsCounts.selectPattern {m p : Nat} (h : KeepsCounts n s t) : KeepsCounts n s (t.selectPattern m p) := by
  unfold State.selectPattern
  split
  · exact h
  · refine .ite (.seqFault h) (.modSeq (fun _ => rfl)
      (.ite (.each (fun _ _ => .modCh (fun _ => rfl)) (.each (fun _ _ => .modCh (fun _ => rfl)) ?_)) ?_))
    all_goals exact .railRaise (.takePattern h)

/-- CHn_ANT and CHn_TXSTAT are other registers than CSQn_YMAX. -/
theorem Fld.offYmax_ch {f : Fld} {m : Nat} (h : f.addr = R.CH_ANT m ∨ f.addr = R.CH_TXSTAT m) : f.offYmax := by
  simp only [R.CH_ANT, R.CH_TXSTAT] at h
  simp only [Fld.offYmax]
  omega

theorem KeepsCounts.requestAnt {m pos : Nat} {en : Bool} (h : KeepsCounts n s t) : KeepsCounts n s (t.requestAnt m pos en) :=
  .modCh (fun _ => rfl) (.wr (Fld.offYmax_ch (.inl rfl)) (.wr (Fld.offYmax_ch (.inl rfl)) h))

theorem KeepsCounts.refuseOn {m : Nat} (h : KeepsCounts n s t) : KeepsCounts n s (t.refuseOn m) :=
  .seqFault (.each (fun _ _ h => .modCh (fun _ => rfl) (.setFlag (Fld.offYmax_ch (.inr rfl)) h)) h)

theorem KeepsCounts.startRamp {m : Nat} (h : KeepsCounts n s t) : KeepsCounts n s (t.startRamp m) := .modCh (fun _ => rfl) (.same h rfl rfl)

theorem KeepsCounts.tryRamp {m : Nat} (h : KeepsCounts n s t) : KeepsCounts n s (t.tryRamp m) := by
  unfold State.tryRamp
  extract_lets l
  exact .ite (.ite (.each (fun _ _ => .startRamp) h) (.refuseOn h)) h

theorem KeepsCounts.requestOn {m : Nat} {j : Job} (h : KeepsCounts n s t) : KeepsCounts n s (t.requestOn m j) := by
  unfold State.requestOn
  extract_lets s1 s2
  have h1 : KeepsCounts n s s1 := .each (fun _ _ => .modCh fun _ => rfl) h
  have h2 : KeepsCounts n s s2 := by
    unfold s2
    split
    · exact h1
    · exact .each (fun _ _ => .requestAnt) h1
  exact .tryRamp (.modSeq (fun _ => rfl) h2)

theorem KeepsCounts.block {m : Nat} {b : Block} (h : KeepsCounts n s t) : KeepsCounts n s (t.block m b) := .modSeq (fun _ => rfl) h

theorem KeepsCounts.resume {m : Nat} (h : KeepsCounts n s t) : KeepsCounts n s (t.modSeq m Seq.resume) := .modSeq (fun _ => rfl) h

/-! ## Transmits (R227, R228) -/

theorem KeepsCounts.startMod {m : Nat} {j : Job} {r : TxReq} (h : KeepsCounts n s t) : KeepsCounts n s (t.startMod m j r) := by
  unfold State.startMod
  extract_lets u last coil s1 s2 body s3 s4 w
  have h1 : KeepsCounts n s s1 := .modCh (fun _ => rfl) (.ite h (.endExchange h))
  have h3 : KeepsCounts n s s3 := .noteTx (.noteCommand (.modJob h1))
  have h4 : KeepsCounts n s s4 := .ite h3 (.reserveBeats h3)
  exact .each (fun _ _ => .setField) (.each (fun _ _ => .modCh (fun _ => rfl)) h4)

theorem KeepsCounts.tryTx {m : Nat} (h : KeepsCounts n s t) : KeepsCounts n s (t.tryTx m) := by
  unfold State.tryTx
  split
  · refine .ite ?_ h
    split
    · exact .endJobInForce (.endExchange h)
    · exact .ite (.startMod h) (.stopFields (.modCh (fun _ => rfl) (.modJob h)))
  · exact h

theorem KeepsCounts.kick {m : Nat} (h : KeepsCounts n s t) : KeepsCounts n s (t.kick m) := by
  unfold State.kick
  split
  · exact .ite (.selectPattern h) h
  · exact .ite (.resume h) h
  · exact .tryTx h

theorem KeepsCounts.afterExchange {m : Nat} (h : KeepsCounts n s t) : KeepsCounts n s (t.afterExchange m) := by
  unfold State.afterExchange
  refine .ite (.kick h) ?_
  split
  · exact .endJobInForce h
  · exact .ite (.each (fun _ _ => .stopField) h) (.kick h)

theorem KeepsCounts.contGone {m : Nat} (h : KeepsCounts n s t) : KeepsCounts n s (t.contGone m) := .ite (.afterExchange (.endExchange h)) h

/-! ## The engine (R231 to R235) -/

theorem KeepsCounts.returnInvs {m : Nat} {w : Word} {isEnd : Bool} (h : KeepsCounts n s t) : KeepsCounts n s (t.returnInvs m w isEnd) := by
  unfold State.returnInvs
  split
  · exact .modSeq (fun _ => rfl) h
  · exact h

theorem KeepsCounts.endRound {m k : Nat} (h : KeepsCounts n s t) : KeepsCounts n s (t.endRound m k) := by
  unfold State.endRound
  extract_lets s1 s2
  have h1 : KeepsCounts n s s1 := .modInv h
  refine .returnInvs ?_
  unfold s2
  split
  · exact h1
  · exact .noteRound h1

theorem KeepsCounts.endInv {m : Nat} {rc : Byte} (h : KeepsCounts n s t) : KeepsCounts n s (t.endInv m rc) := .returnInvs (.modInv h)

theorem KeepsCounts.report {m : Nat} (h : KeepsCounts n s t) : KeepsCounts n s (t.report m) := by
  unfold State.report
  extract_lets c
  split
  · exact h
  · exact .ite (.returnInvs (.modInv (.noteSighting h))) (.ite (.modInv (.noteSighting (.same h rfl rfl))) h)

theorem KeepsCounts.engineSend {m : Nat} {phase : InvPhase} {body : List Byte} {bits txCrc rxCrc : Nat} (h : KeepsCounts n s t) :
    KeepsCounts n s (t.engineSend m phase body bits txCrc rxCrc) := by
  unfold State.engineSend
  extract_lets c tx crc r
  exact .ite (.seqFault h) (.ite (.seqFault h) (.ite (.seqFault h) (.ite (.seqFault h) (.tryTx (.modCh (fun _ => rfl) h)))))

theorem KeepsCounts.nodeA {m k : Nat} (h : KeepsCounts n s t) : KeepsCounts n s (t.nodeA m k) :=
  .ite (.engineSend h) (.ite (.engineSend h) (.ite (.ite (.engineSend (.modInv h)) (.engineSend h)) (.engineSend h)))

theorem KeepsCounts.popIdent {m : Nat} (h : KeepsCounts n s t) : KeepsCounts n s (t.popIdent m) := by
  unfold State.popIdent
  extract_lets c
  split
  · exact .endInv h
  · exact .nodeA (.modInv h)

theorem KeepsCounts.passA {m : Nat} (h : KeepsCounts n s t) : KeepsCounts n s (t.passA m) := by
  unfold State.passA
  extract_lets c
  split
  · exact .ite (.engineSend h) (.engineSend (.modInv h))
  · exact .engineSend (.modInv h)

theorem KeepsCounts.sendSlotB {m k : Nat} (h : KeepsCounts n s t) : KeepsCounts n s (t.sendSlotB m k) := .ite (.engineSend h) (.engineSend h)

theorem KeepsCounts.afterSlotB {m k : Nat} (h : KeepsCounts n s t) : KeepsCounts n s (t.afterSlotB m k) := .ite (.sendSlotB h) (.endRound h)

theorem KeepsCounts.roundB {m : Nat} (h : KeepsCounts n s t) : KeepsCounts n s (t.roundB m) := .ite (.endInv h) (.sendSlotB (.modInv h))

theorem KeepsCounts.sendSlotV {m k : Nat} (h : KeepsCounts n s t) : KeepsCounts n s (t.sendSlotV m k) := .ite (.engineSend h) (.engineSend h)

theorem KeepsCounts.nextV {m : Nat} (h : KeepsCounts n s t) : KeepsCounts n s (t.nextV m) := by
  unfold State.nextV
  extract_lets c
  split
  · exact .endInv h
  · exact .sendSlotV (.modInv h)

theorem KeepsCounts.reportV {m : Nat} (h : KeepsCounts n s t) : KeepsCounts n s (t.reportV m) := .ite (.endRound h) (.report (.modInv h))

theorem KeepsCounts.engineGo {m : Nat} (h : KeepsCounts n s t) : KeepsCounts n s (t.engineGo m) := by
  unfold State.engineGo
  extract_lets c
  split
  · split
    · exact .engineSend h
    · exact .sendSlotB (.modInv h)
    · exact .nextV (.modInv h)
  · exact .ite (.popIdent h) (.engineSend h)
  · exact .afterSlotB h
  · exact .reportV h
  · split
    · exact .passA h
    · exact .roundB h
    · exact .nextV h
  · exact .returnInvs h
  · exact h

theorem KeepsCounts.invsGo {m : Nat} (h : KeepsCounts n s t) : KeepsCounts n s (t.invsGo m) := by
  unfold State.invsGo
  split
  · exact h
  · exact .ite (.engineGo (.modInv h)) (.modInv h)

/-! ## CRY (R146, R231) -/

theorem KeepsCounts.startCry (h : KeepsCounts n s t) : KeepsCounts n s t.startCry := by
  have hecc : KeepsCounts n s t.startEcc := by
    unfold State.startEcc
    split
    · exact .same h rfl rfl
    · exact h
  unfold State.startCry State.startAes
  split
  · exact .same hecc rfl rfl
  · exact hecc

theorem KeepsCounts.request {m : Nat} {r : CryReq} (h : KeepsCounts n s t) : KeepsCounts n s (t.request m r) :=
  .ite (.resume (.startCry (.same h rfl rfl))) (.modSeq (fun _ => rfl) (.bump (.inl (by decide)) h))

/-! ## Results (R237 to R241) -/

theorem KeepsCounts.refill {m : Nat} (h : KeepsCounts n s t) : KeepsCounts n s (t.refill m) := by
  unfold State.refill
  split
  · exact h
  · exact .modSeq (fun _ => rfl) h

theorem KeepsCounts.doPost {m : Nat} {j : Job} {r : GReg} (h : KeepsCounts n s t) : KeepsCounts n s (t.doPost m j r) := by
  unfold State.doPost
  extract_lets c out body units fl detail hdr
  exact .ite (.modSeq (fun _ => rfl) h) (.ite (.modSeq (fun _ => rfl) (.modRom h))
    (.modSeq (fun _ => rfl) (.modRom (.postEntry j.ringNo_lt h))))

theorem KeepsCounts.doEnd {m : Nat} {j : Job} {rc : Byte} (h : KeepsCounts n s t) : KeepsCounts n s (t.doEnd m j rc) := by
  unfold State.doEnd
  split
  · exact .endJobInForce h
  · exact .endJob (.modSeq (fun _ => rfl) h)

theorem KeepsCounts.unblock {m : Nat} (h : KeepsCounts n s t) : KeepsCounts n s (t.unblock m) := by
  unfold State.unblock
  split
  · exact h
  split
  · exact .ite (.doPost h) h
  · exact .ite (.doEnd h) h
  · exact .ite h (.resume h)
  · exact h

theorem KeepsCounts.endWith {m : Nat} {rc : Byte} (h : KeepsCounts n s t) : KeepsCounts n s (t.endWith m rc) := by
  unfold State.endWith
  extract_lets s1
  have h1 : KeepsCounts n s s1 := by
    unfold s1
    split
    · exact h
    · exact .releaseHeld h
  exact .ite (.unblock (.block (.refill h1))) (.seqFault h)

/-! ## FIFOs, stores and air instructions -/

theorem KeepsCounts.push {m : Nat} {bs : List Byte} (h : KeepsCounts n s t) : KeepsCounts n s (t.push m bs) :=
  .ite (.seqFault h) (.modCh (fun _ => rfl) h)

theorem KeepsCounts.pop {m k : Nat} {r : GReg} (h : KeepsCounts n s t) : KeepsCounts n s (t.pop m r k) :=
  .ite (.seqFault h) (.modCh (fun _ => rfl) h)

theorem KeepsCounts.onFifo {m : Nat} {rx : Bool} {g : Fifo → Nat → Fifo} (h : KeepsCounts n s t) : KeepsCounts n s (t.onFifo m rx g) :=
  .modCh (fun c => by cases rx <;> rfl) h

theorem KeepsCounts.store {m a k v : Nat} (h : KeepsCounts n s t) : KeepsCounts n s (t.store m a k v) :=
  .ite (.modSeq (fun _ => rfl) h) (.same h rfl rfl)

theorem KeepsCounts.doFon {m : Nat} {j : Job} (h : KeepsCounts n s t) : KeepsCounts n s (t.doFon m j) :=
  .ite (.seqFault h) (.ite (.resume h) (.ite (.refuseOn h) (.ite (.requestOn h) (.block h))))

theorem KeepsCounts.doTx {m bits : Nat} {j : Job} {rd : Option GReg} (h : KeepsCounts n s t) : KeepsCounts n s (t.doTx m j bits rd) := by
  unfold State.doTx
  split
  · exact .seqFault h
  · exact .tryTx (.modCh (fun _ => rfl) h)

theorem KeepsCounts.doPat {m : Nat} {j : Job} {p : BitVec 6} (h : KeepsCounts n s t) : KeepsCounts n s (t.doPat m j p) :=
  .ite (.seqFault h) (.ite (.selectPattern h) (.block h))

theorem KeepsCounts.collectEvent {m : Nat} {rd : GReg} (h : KeepsCounts n s t) : KeepsCounts n s (t.collectEvent m rd) := by
  unfold State.collectEvent
  split
  · exact .modCh (fun _ => rfl) h
  · exact .modSeq (fun _ => rfl) h

/-- An air instruction keeps the counts when it does so outside wind-up, since in wind-up it only returns (R230). -/
theorem KeepsCounts.airBody {m : Nat} {j : Job} {wind : Seq → Seq} {body : State → Job → State} (hwind : ∀ q, (wind q).counts = q.counts)
    (hbody : KeepsCounts n s (body t j)) (h : KeepsCounts n s t) : KeepsCounts n s (State.airBody m wind body t j) :=
  .ite (.modSeq hwind h) hbody

end

end Sys2Proof.Machine
end

section
/-!
PROOFS. Faults, limits and counts (R219, R230, R242, R244): O24.
-/

namespace Sys2Proof.Machine

/-! ## Changes of a sequencer's own registers leave its counts (R220) -/

section

variable (q : Seq)

theorem Seq.branch_counts (taken : Bool) (ofs : BitVec 16) : (q.branch taken ofs).counts = q.counts := by cases taken <;> rfl

theorem Seq.shiftC_counts (k : Nat) (c : Bool) : (q.shiftC k c).counts = q.counts := by
  unfold Seq.shiftC
  split <;> rfl

theorem Seq.doShl_counts (rd : GReg) (k : Nat) : (q.doShl rd k).counts = q.counts := q.shiftC_counts k _

theorem Seq.doShr_counts (rd : GReg) (k : Nat) : (q.doShr rd k).counts = q.counts := q.shiftC_counts k _

theorem Seq.doAsr_counts (rd : GReg) (k : Nat) : (q.doAsr rd k).counts = q.counts := q.shiftC_counts k _

theorem Seq.emit_counts (it : OutItem) : (q.emit it).counts = q.counts := by
  unfold Seq.emit
  extract_lets k
  split <;> rfl

theorem Seq.emitBytes_counts : ∀ (bs : List Byte) (q : Seq), (q.emitBytes bs).counts = q.counts
  | [], _ => rfl
  | b :: bs, q => (Seq.emitBytes_counts bs (q.emit (.byte b))).trans (q.emit_counts _)

end

/-! ## The body of each instruction keeps the counts -/

/-- Channel `n` executes the instruction as the halfword `v`, with a body that counts nothing of its own. -/
def CountsOnce (i : Instr) (n : Ch) (v : Nat) : Prop :=
  ∀ s : State, ∃ body, exec i s = .next (s.instr n.val v (yields i) body) ∧ ∀ u j, KeepsCounts n u (body u j)

section

variable {i : Instr} {n : Ch} {v : Nat}

theorem countsOnce_body {body : State → State → Job → State} (hi : ∀ s, exec i s = .next (s.instr n.val v (yields i) (body s)))
    (hb : ∀ s u j, KeepsCounts n u (body s u j)) : CountsOnce i n v := fun s => ⟨body s, hi s, hb s⟩

/-- An instruction that only changes the sequencer's own registers. -/
theorem countsOnce_pure {g : State → Seq → Seq} (hi : ∀ s, exec i s = .next (s.pure n.val v (yields i) (g s)))
    (hg : ∀ s q, (g s q).counts = q.counts) : CountsOnce i n v := countsOnce_body hi fun s _ _ => .modSeq (hg s) .refl

end

theorem countsOnce {i : Instr} {n : Ch} {v : Nat} (hv : codeWord i = some v) (hn : seqChan i = some n) : CountsOnce i n v := by
  cases i <;> cases hn <;> cases hv
  case seqNop | yield | time | movi | movx | mov | add | sub | and | or | xor | mul | cmp | tst | not | addi | subi | cmpi | btst | bset |
      bclr | det | deti | olen =>
    exact countsOnce_pure (fun _ => rfl) fun _ _ => rfl
  case shl | shr | asr | shli | shri =>
    exact countsOnce_pure (fun _ => rfl) fun _ q => q.shiftC_counts _ _
  case beq | bne | blo | bhs | blt | bge | bmi | bpl | jmp =>
    exact countsOnce_pure (fun _ => rfl) fun _ q => q.branch_counts _ _
  case outb | outh | outw =>
    exact countsOnce_pure (fun _ => rfl) fun _ q => Seq.emitBytes_counts _ q
  case outi | outsum =>
    exact countsOnce_pure (fun _ => rfl) fun _ q => q.emit_counts _
  case wait | waitus =>
    exact countsOnce_body (fun _ => rfl) fun _ _ _ => .block .refl
  case jr =>
    exact countsOnce_body (fun _ => rfl) fun _ _ _ => .modSeq (fun _ => rfl) .refl
  case ret =>
    refine countsOnce_body (fun _ => rfl) fun _ _ _ => ?_
    split
    · exact .seqFault .refl
    · exact .modSeq (fun _ => rfl) .refl
  case seqFault =>
    exact countsOnce_body (fun _ => rfl) fun _ _ _ => .seqFault .refl
  case call =>
    exact countsOnce_body (fun _ => rfl) fun _ _ _ => .ite (.seqFault .refl) (.modSeq (fun _ => rfl) .refl)
  case ld | peek | airr =>
    exact countsOnce_body (fun _ => rfl) fun _ _ _ => .ite (.seqFault .refl) (.modSeq (fun _ => rfl) .refl)
  case st =>
    exact countsOnce_body (fun _ => rfl) fun _ _ _ => .ite (.seqFault .refl) (.resume (.store .refl))
  case pushb | pushw | pushi =>
    exact countsOnce_body (fun _ => rfl) fun _ _ _ => .push .refl
  case popb | poph | popw =>
    exact countsOnce_body (fun _ => rfl) fun _ _ _ => .pop .refl
  case fctlMark | fctlRelease | fctlDrop =>
    exact countsOnce_body (fun _ => rfl) fun _ _ _ => .onFifo .refl
  case fctlRewind =>
    exact countsOnce_body (fun _ => rfl) fun _ _ _ => .ite (.onFifo .refl) (.seqFault .refl)
  case avail | cryr =>
    exact countsOnce_body (fun _ => rfl) fun _ _ _ => .modSeq (fun _ => rfl) .refl
  case airt =>
    exact countsOnce_body (fun _ => rfl) fun _ _ _ => .ite (.seqFault .refl) (.contGone (.modSeq (fun _ => rfl) .refl))
  case fon =>
    exact countsOnce_body (fun _ => rfl) fun _ _ _ => .airBody (fun _ => rfl) (.doFon .refl) .refl
  case foff =>
    exact countsOnce_body (fun _ => rfl) fun _ _ _ =>
      .airBody (fun _ => rfl) (.ite (.resume .refl) (.block (.each (fun _ _ => .stopField) .refl))) .refl
  case ant =>
    exact countsOnce_body (fun _ => rfl) fun _ _ _ =>
      .airBody (fun _ => rfl) (.ite (.seqFault .refl) (.ite (.seqFault .refl) (.block (.modRom (.requestAnt .refl))))) .refl
  case pwr =>
    exact countsOnce_body (fun _ => rfl) fun _ _ _ =>
      .airBody (fun _ => rfl) (.ite (.seqFault .refl) (.resume (.railRaise (.modJob .refl)))) .refl
  case tx | xch =>
    exact countsOnce_body (fun _ => rfl) fun _ _ _ => .airBody (fun _ => rfl) (.doTx .refl) .refl
  case rx =>
    refine countsOnce_body (fun _ => rfl) fun _ _ _ => .airBody (fun _ => rfl) ?_ .refl
    extract_lets c
    split
    · exact .collectEvent .refl
    · exact .ite (.seqFault .refl) (.collectEvent .refl)
    · exact .seqFault .refl
  case rxto | txst =>
    exact countsOnce_body (fun _ => rfl) fun _ _ _ => .airBody (fun _ => rfl) (.modSeq (fun _ => rfl) .refl) .refl
  case rawb =>
    exact countsOnce_body (fun _ => rfl) fun _ _ _ =>
      .airBody (fun _ => rfl) (.ite (.seqFault .refl) (.modSeq (fun _ => rfl) .refl)) .refl
  case pat | pati =>
    exact countsOnce_body (fun _ => rfl) fun _ _ _ => .airBody (fun _ => rfl) (.doPat .refl) .refl
  case invo =>
    exact countsOnce_body (fun _ => rfl) fun _ _ _ => .ite (.seqFault .refl) (.ite (.seqFault .refl) (.modCh (fun _ => rfl) (.modRom .refl)))
  case invs =>
    exact countsOnce_body (fun _ => rfl) fun _ _ _ =>
      .airBody (fun _ => rfl) (.ite (.seqFault .refl) (.invsGo (.block (.releaseHeld .refl)))) .refl
  case inve =>
    exact countsOnce_body (fun _ => rfl) fun _ _ _ => .modCh (fun _ => rfl) (.releaseFound .refl)
  case sigq =>
    refine countsOnce_body (fun _ => rfl) fun _ _ _ => .airBody (fun _ => rfl) ?_ .refl
    extract_lets c k
    split
    · exact .seqFault .refl
    · refine .ite (.seqFault .refl) (.ite (.seqFault .refl) ?_)
      split
      · exact .resume (.modCh (fun _ => rfl) (.modRom .refl))
      · exact .request (.modCh (fun _ => rfl) (.modRom .refl))
  case resq =>
    refine countsOnce_body (fun _ => rfl) fun _ _ _ => .airBody (fun _ => rfl) ?_ .refl
    extract_lets c
    split
    · exact .seqFault .refl
    · exact .ite (.seqFault .refl) (.ite (.seqFault .refl) (.request (.modCh (fun _ => rfl) (.modRom .refl))))
  case cryw =>
    exact countsOnce_body (fun _ => rfl) fun _ _ _ => .ite (.block .refl) (.resume .refl)
  case outrec =>
    refine countsOnce_body (fun _ => rfl) fun _ _ _ => ?_
    extract_lets k
    split
    · exact .seqFault .refl
    · exact .refill (.modSeq (fun q => q.emit_counts _) (.modRom .refl))
  case post =>
    exact countsOnce_body (fun _ => rfl) fun _ _ _ => .unblock (.block (.refill .refl))
  case endJob | endr =>
    exact countsOnce_body (fun _ => rfl) fun _ _ _ => .endWith .refl

/-! ## What is counted (R242, R244, R259) -/

/-- A maximum that is kept. -/
theorem State.rd_keepMax {s : State} {f : Fld} (v : Nat) (h : RegFile.wf s.regs = true) (hf : f.lo + f.w ≤ 32) :
    (s.keepMax f v).rd f = max (s.rd f) (min v (2 ^ f.w - 1)) := by
  have hlt : s.rd f < 2 ^ f.w := getBits_lt _ _ _
  unfold State.keepMax
  split
  next hv =>
    rw [State.wrSat, State.rd_wr_same s f _ h hf, Nat.mod_eq_of_lt (by omega)]
    omega
  next hv => omega

theorem Seq.counted_counts (q : Seq) (y : Bool) : (q.counted y).counts = (q.icnt + 1, q.ycnt + q.ypend.toNat, q.ypend && !y) := by
  simp only [Seq.counts, Seq.counted]
  cases q.ypend <;> rfl

section

variable {s : State} {n : Ch} {v : Nat} {j : Job}

/-- The state that has counted an instruction. -/
theorem counts_of_executes (hc : s.canon = true) (y : Bool) :
    let q := (s.ch n.val).seq
    let top := s.rd (R.CSQ_YMAX_YMAX n.val)
    let u := (s.touchLine j q.pc).countInstr n.val y
    (u.ch n.val).seq.counts = (q.icnt + 1, q.ycnt + q.ypend.toNat, q.ypend && !y)
      ∧ u.rd (R.CSQ_YMAX_YMAX n.val) = if y then max top (min (q.ycnt + q.ypend.toNat) 4095) else top := by
  intro q top u
  let u0 := s.touchLine j q.pc
  have hch : u0.ch n.val = s.ch n.val := s.touchLine_ch j q.pc n.val
  have hregs : u0.regs = s.regs := s.touchLine_regs j q.pc
  have htop : u0.rd (R.CSQ_YMAX_YMAX n.val) = top := State.rd_of_regs hregs _
  refine ⟨?_, ?_⟩
  · rw [State.countInstr_ch_same, hch]
    exact Seq.counted_counts _ y
  · cases y
    · exact htop
    · have hy : (if q.ypend then q.ycnt + 1 else q.ycnt) = q.ycnt + q.ypend.toNat := by cases q.ypend <;> rfl
      rw [if_pos rfl, ← hy, ← htop]
      unfold u State.countInstr
      rw [if_pos rfl, hch]
      exact State.rd_keepMax _ (hregs.symm ▸ State.canon_regs hc) (by decide : 0 + 12 ≤ 32)

/-- Every instruction counts once. -/
theorem leads_counts {i : Instr} (h : Executes s n v j) (hc : s.canon = true) (hi : CountsOnce i n v) : Leads i s fun t =>
    let q := (s.ch n.val).seq
    let r := (t.ch n.val).seq
    let top := s.rd (R.CSQ_YMAX_YMAX n.val)
    r.icnt = q.icnt + 1 ∧ r.ycnt = q.ycnt + q.ypend.toNat ∧ r.ypend = (q.ypend && !yields i)
      ∧ t.rd (R.CSQ_YMAX_YMAX n.val) = if yields i then max top (min (q.ycnt + q.ypend.toNat) 4095) else top := by
  obtain ⟨body, hexec, hbody⟩ := hi s
  obtain ⟨hcounts, htop⟩ := counts_of_executes (n := n) (j := j) hc (yields i)
  refine ⟨_, hexec, ?_⟩
  rw [State.instr_eq h]
  obtain ⟨hkeep, hsame⟩ := hbody ((s.touchLine j (s.ch n.val).seq.pc).countInstr n.val (yields i)) j
  have hfinal := (hsame n.val).trans hcounts
  simp only [Seq.counts, Prod.mk.injEq] at hfinal
  obtain ⟨hicnt, hycnt, hypend⟩ := hfinal
  exact ⟨hicnt, hycnt, hypend, (congrArg (getBits · 0 12) hkeep).trans htop⟩

/-- A sequencer that a limit stops takes its fault where it stands. -/
theorem faultTo_running (hruns : s.runsOn n.val = some j) (hc : s.canon = true) (hj : s.job? j.id = some j) (code : Byte) :
    FaultTo n s j code.toNat (s.seqFault n.val code) := by
  obtain ⟨hlead, hrun, hend⟩ := State.runsOn_spec hruns
  exact faultTo_seqFault code (State.canon_regs hc) rfl rfl hlead hj hrun hend

/-- N_OVR is none of the fields that the end of a job writes. -/
theorem ovr_apart : ∀ g ∈ endFlds, R.DIAG_CNT_0_N_OVR.apart g := by decide

/-- The end of a job by BEAT_OVERRUN (R244). -/
theorem overrun_ends (hruns : s.runsOn n.val = some j) (hc : s.canon = true) (hj : s.job? j.id = some j) :
    let t := (s.bump R.DIAG_CNT_0_N_OVR).endJobInForce j.id rcOverrun true
    Counts R.DIAG_CNT_0_N_OVR s t ∧ (t.ch n.val).seq.run = .idle
      ∧ ∃ k e, t.job? j.id = some k ∧ k.ended = some e ∧ e.rc = 0x10 ∧ e.part = true ∧ e.detail = (s.ch n.val).seq.detail := by
  intro t
  let u := s.bump R.DIAG_CNT_0_N_OVR
  obtain ⟨hlead, hrun, hend⟩ := State.runsOn_spec hruns
  obtain ⟨-, hn⟩ := State.jobLead_spec hlead
  have hcount : Counts R.DIAG_CNT_0_N_OVR s u := counts_bump s _ (State.canon_regs hc) (by decide)
  have hwf : RegFile.wf u.regs = true := s.wr_wf _ _ (State.canon_regs hc)
  have hsame : t.rd R.DIAG_CNT_0_N_OVR = u.rd R.DIAG_CNT_0_N_OVR :=
    (Spares.endJobInForce (w := endFlds) (List.Subset.refl _) (.refl hwf)).rd _ ovr_apart
  have ht : t = u.endRunning j rcOverrun true (s.ch j.lead).seq.detail :=
    State.endJobInForce_running (s := u) hj hrun hend rcOverrun true
  obtain ⟨hidle, k, hk, e, he, hrc, hpart, -, hdetail⟩ :=
    State.endRunning_spec (s := u) (rc := rcOverrun) (part := true) (detail := (s.ch j.lead).seq.detail) ⟨j, hj, trivial⟩
  rw [← ht, hn] at hidle
  rw [← ht] at hk
  exact ⟨hsame.trans hcount, hidle, k, e, hk, he, hrc, hpart, hn ▸ hdetail⟩

theorem exec_yieldMissed (hruns : s.runsOn n.val = some j) (hpend : (s.ch n.val).seq.ypend = true) (hspent : 2048 ≤ (s.ch n.val).seq.ycnt) :
    exec (.yieldMissed n) s = .next ((s.bump R.DIAG_CNT_0_N_OVR).endJobInForce j.id rcOverrun true) := by
  show execYieldMissed n s = _
  rw [execYieldMissed, hruns]
  exact congrArg _ (if_pos (by rw [hpend, decide_eq_true hspent]; rfl))

theorem exec_windupExpiry (hruns : s.runsOn n.val = some j) (hwind : (s.ch n.val).seq.windup = true)
    (hspent : 256 ≤ (s.ch n.val).seq.windN) : exec (.windupExpiry n) s = .next (s.seqFault n.val 11) := by
  show execWindupExpiry n s = _
  rw [execWindupExpiry, hruns]
  exact congrArg _ (if_pos (by rw [hwind, decide_eq_true hspent]; rfl))

end

/-- Settles O24: faults and limits end the job, and the body of an instruction leaves what was counted before it ran. -/
theorem seqStops : Obligations.SeqStops := by
  unfold Obligations.SeqStops
  intro s n j w hc hj q
  refine ⟨fun h => leads_stepped h rfl rfl (faultTo_stepped h hc hj 15), fun hundefined h => ?_,
    fun hruns hpend hspent => ⟨_, exec_yieldMissed hruns hpend hspent, overrun_ends hruns hc hj⟩,
    fun hruns hwind hspent => ⟨_, exec_windupExpiry hruns hwind hspent, faultTo_running hruns hc hj 11⟩,
    fun i v hv hn h => leads_counts h hc (countsOnce hv hn)⟩
  refine leads_stepped (body := fun s _ => s.seqFault n.val 1) h ?_ rfl (faultTo_stepped h hc hj 1)
  show execUndefinedInstruction n w s = _
  rw [execUndefinedInstruction, hundefined]
  rfl

end Sys2Proof.Machine
end

section
/-!
PROOFS. A frame of the engine and the TX FIFO (R103, R227): O22.
-/

namespace Sys2Proof.Machine

/-! ## An engine frame and the TX FIFO (R103, R227) -/

/-- A job of the ROM inventory 0x010 on channel 0, which has sent a command. -/
def opensJob : Job :=
  { id := 0, port := 0, queue := 0, state := .running, desc := [0x00001010], mask := 1, rom := { firstNt := some 0 } }

/-- Its context is open, its field is ON, and RD of the TX FIFO is 2,048, where R103 counts it modulo twice the size of 1,024. -/
def opensPastEnd : State :=
  ({ State.reset with jobs := [opensJob], nextJob := 1 } : State).modCh 0 fun c =>
    { c with field := .on, txf := { rd := 2048 }, seq := { c.seq with run := .run }, inv := { c.inv with phase := .start } }

theorem opensPastEnd_executes : Executes opensPastEnd 0 0xC001 opensJob := by
  refine ⟨by decide +kernel, by decide +kernel, by decide +kernel, by decide +kernel, by decide +kernel, by decide +kernel⟩

/-- The opening REQA takes no byte of the FIFO, and leaves RD modulo twice the size. -/
theorem invs_opensPastEnd : partAfter (fun t => (t.ch 0).txf.rd) (.invs 0 0) opensPastEnd = some 0 := by decide +kernel

/-- Refutes O22: a frame of the engine leaves RD of the TX FIFO modulo 2,048, and the canonical form of the state does not ask that RD is
below that. From an RD of 2,048 the opening REQA leaves 0, where the statement has the FIFO as it was. -/
theorem not_seqInventory : ¬ Obligations.SeqInventory := by
  unfold Obligations.SeqInventory
  intro h
  obtain ⟨-, hinvs, -⟩ := h opensPastEnd 0 opensJob 0 0 (by decide +kernel) (by decide +kernel)
  obtain ⟨-, -, hrun⟩ := hinvs (by decide +kernel) opensPastEnd_executes
  obtain ⟨hstart, -⟩ := hrun (by decide +kernel) rfl
  obtain ⟨hsends, -⟩ := hstart (by decide +kernel) (by decide +kernel) (by decide +kernel)
  obtain ⟨t, ⟨-, -, -, -, -, htxf, -⟩, hpart⟩ :=
    partAfter_of_leads (part := fun t => (t.ch 0).txf.rd) (hsends (by decide +kernel))
  have hrd : (t.ch 0).txf.rd = 2048 := (congrArg Fifo.rd htxf).trans (by decide +kernel)
  rw [invs_opensPastEnd, hrd] at hpart
  exact absurd hpart (by decide)

end Sys2Proof.Machine
end

section
/-!
PROOFS. Commands of the host to the units (R199, R252, R259, R281, R310, R349, R351, R484): what one written word starts.
-/

namespace Sys2Proof.Machine

/-! ## What a frame's transfer leaves to a command -/

/-- A command whose effect follows from the state in which its frame has been clocked. -/
theorem Writes.imp {i : Instr} {s : State} {p : Port} {a : Nat} {w : Word} {P Q : State → State → Prop} (h : Writes i s p a w P)
    (hPQ : ∀ m u, Clocked s (s.nextFrame p 0x11 (BitVec.ofNat 32 a) (leBytes 4 w.toNat)) m → P m u → Q m u) : Writes i s p a w Q := by
  obtain ⟨m, x, u, t, hm, ⟨hx, hP⟩, hi, hr⟩ := h
  exact ⟨m, x, u, t, hm, ⟨hx, hPQ m u hm hP⟩, hi, hr⟩

/-- The transfer of a frame leaves what a port has used (R310). -/
theorem Clocked.usage {s m : State} {f : Frame} (h : Clocked s f m) (q : Nat) : m.usage q = (s.hostEdge f.port).usage q := by
  obtain ⟨hf, hpt⟩ := h
  have hjobs : m.jobs = (s.hostEdge f.port).jobs := (congrArg State.jobs hf.1 :)
  have howed : m.owed q = (s.hostEdge f.port).owed q := by
    unfold State.owed
    rw [hjobs]
  have hslots : (m.pt q).slots = ((s.hostEdge f.port).pt q).slots ∧ (m.pt q).qwin = ((s.hostEdge f.port).pt q).qwin := by
    by_cases hq : q = f.port.val
    · subst hq
      rw [hpt]
      exact ⟨rfl, rfl⟩
    · rw [hf.2.1 q hq]
      exact ⟨rfl, rfl⟩
  unfold State.usage
  rw [hslots.1, hslots.2, howed]

/-- The fall of HnCS_N leaves the SRAM. -/
theorem State.hostEdge_sram (s : State) (p : Port) : (s.hostEdge p).sram = s.sram := by
  have hidle : ∀ t : State, t.leaveIdle.sram = t.sram := fun t => by
    unfold State.leaveIdle
    split <;> rfl
  have hlatch : ∀ (t : State) (ev : WakeEv), (t.latchWake ev).sram = t.sram := fun t ev => by
    unfold State.latchWake
    split <;> rfl
  have hpmb : ∀ t : State, t.pmbOn.sram = t.sram := fun t => by
    unfold State.pmbOn
    split <;> rfl
  have hcount : ∀ (t : State) from_ early, (t.countWake from_ early).sram = t.sram := fun t from_ early => by
    unfold State.countWake
    dsimp only
    split <;> split <;> rfl
  have hstart : ∀ (t : State) l early, (t.startWake l early).sram = t.sram := fun t l early =>
    (hpmb _).trans (hcount _ _ _)
  have hlow : ∀ (t : State) (ev : WakeEv), (t.wakeLow ev).sram = t.sram := fun t ev => by
    unfold State.wakeLow
    split <;> exact hstart _ _ _
  have hjoin : ∀ (t : State) (ev : WakeEv), (t.joinWake ev).sram = t.sram := fun t ev => by
    unfold State.joinWake
    dsimp only
    split <;> rfl
  unfold State.hostEdge State.wakeEvent
  split
  · exact hidle s
  split
  · split
    · exact hlatch s _
    split
    · exact hidle s
    · exact hlow s _
    · exact hlow s _
    · exact hlow s _
    · split
      · exact hjoin s _
      · rfl
    · rfl
  · rfl

/-- The SRAM in which a command acts is canonical. -/
theorem FrameOnly.sram_wf {s m : State} {p : Port} (h : FrameOnly p (s.hostEdge p) m) (hc : s.canon = true) : Memory.wf m.sram = true := by
  have hsram : m.sram = (s.hostEdge p).sram := (congrArg State.sram h.1 :)
  rw [hsram, s.hostEdge_sram]
  exact State.canon_sram hc

/-! ## Coupling measurements (R199, R201, R214) -/

section

variable {s : State} (hw : RegFile.wf s.regs = true)
include hw

/-- A measurement of an enabled group is queued. -/
theorem State.startMeasure_queued {g : Nat} (slot : BitVec 3) (mw : BitVec 12) (hm : Memory.wf s.sram = true)
    (h : s.isOn (R.SWARM_GCFG_GEN g) = true ∧ 2 ≤ popcount8 (BitVec.ofNat 8 (s.rd (R.SWARM_GCFG_MEMBERS g))).toNat) :
    let u := s.startMeasure g slot mw
    u.maint = s.maint ++ [{ kind := .coupling (Fin.ofNat 4 g) slot mw, mask := BitVec.ofNat 8 (s.rd (R.SWARM_GCFG_MEMBERS g)), since := s.time.nt }]
      ∧ u.rd R.SWARM_CMDSTAT_DONE = 0 ∧ bitOf (u.sb (0x174001 + 0x200 * slot.toNat)).toNat 0 = false := by
  obtain ⟨hgen, htwo⟩ := h
  intro u
  let a := 0x174001 + 0x200 * slot.toNat
  let v := ((s.wr R.SWARM_CMDSTAT_DONE 0).wr R.SWARM_CMDSTAT_ERR 0).spoilSlot slot.toNat
  have hu : u = v.addMaint { kind := .coupling (Fin.ofNat 4 g) slot mw, mask := BitVec.ofNat 8 (s.rd (R.SWARM_GCFG_MEMBERS g)), since := s.time.nt } := by
    exact if_pos (Bool.and_eq_true_iff.mpr ⟨hgen, decide_eq_true htwo⟩)
  refine ⟨?_, ?_, ?_⟩
  · rw [hu, State.addMaint_maint]
    rfl
  · rw [hu, State.rd_of_regs (State.addMaint_regs v _)]
    exact (State.rd_wr_other _ R.SWARM_CMDSTAT_ERR _ 0 (s.wr_wf _ _ hw) (.inr (.inl (by decide)))).trans (s.rd_wr_same _ 0 hw (by decide))
  · have hsram : u.sram = v.sram := by
      rw [hu]
      unfold State.addMaint State.leaveIdle
      split <;> rfl
    have hb : u.sb a = s.sb a &&& 0xFE := by
      unfold State.sb
      rw [hsram]
      exact Memory.byte_setBytes_same [s.sb a &&& 0xFE] s.sram a 0 hm Nat.one_pos
    rw [hb, bitOf, BitVec.toNat_and, Nat.testBit_and]
    exact Bool.and_false _

/-- A group that is not enabled, or of fewer than two members, ends a measurement with ERR 1. -/
theorem State.startMeasure_refused {g : Nat} (slot : BitVec 3) (mw : BitVec 12)
    (h : ¬ (s.isOn (R.SWARM_GCFG_GEN g) = true ∧ 2 ≤ popcount8 (BitVec.ofNat 8 (s.rd (R.SWARM_GCFG_MEMBERS g))).toNat)) :
    let u := s.startMeasure g slot mw
    u.maint = s.maint ∧ u.rd R.SWARM_CMDSTAT_DONE = 1 ∧ u.rd R.SWARM_CMDSTAT_ERR = 1 := by
  intro u
  have hu : u = (s.wr R.SWARM_CMDSTAT_ERR 1).setFlag R.SWARM_CMDSTAT_DONE := by
    unfold u State.startMeasure
    refine if_neg fun hc => h ?_
    rwa [Bool.and_eq_true, decide_eq_true_eq] at hc
  have h1 := s.wr_wf R.SWARM_CMDSTAT_ERR 1 hw
  rw [hu]
  refine ⟨rfl, State.rd_setFlag_same _ _ h1 (by decide) (by decide), ?_⟩
  exact (State.rd_wr_other _ R.SWARM_CMDSTAT_DONE _ 1 h1 (.inr (.inr (by decide)))).trans (s.rd_wr_same _ 1 hw (by decide))

end

/-- The word of MEASURE carries the group, the slot and the power. -/
theorem measureWord_fields (g : BitVec 2) (slot : BitVec 3) (mw : BitVec 12) :
    let w : Word := BitVec.ofNat 32 (1 + 2 ^ 4 * g.toNat + 2 ^ 8 * slot.toNat + 2 ^ 16 * mw.toNat)
    getBits w 4 2 = g.toNat ∧ getBits w 8 3 = slot.toNat ∧ getBits w 16 12 = mw.toNat := by
  have hg := g.isLt
  have hs := slot.isLt
  have hm := mw.isLt
  intro w
  refine ⟨?_, ?_, ?_⟩ <;>
  · rw [getBits_ofNat (by omega)]
    omega

section

variable {s : State} {p : Port} (hc : s.canon = true)
include hc

theorem writes_measure (g : BitVec 2) (slot : BitVec 3) (mw : BitVec 12) :
    let e := s.hostEdge p
    let w : Word := BitVec.ofNat 32 (1 + 2 ^ 4 * g.toNat + 2 ^ 8 * slot.toNat + 2 ^ 16 * mw.toNat)
    let mask := BitVec.ofNat 8 (e.rd (R.SWARM_GCFG_MEMBERS g.toNat))
    MayWrite s p R.SWARM_CMD w → Writes (.measure p g slot mw) s p R.SWARM_CMD w fun m u =>
      if e.isOn (R.SWARM_GCFG_GEN g.toNat) = true ∧ 2 ≤ popcount8 mask.toNat then
        u.maint = m.maint ++ [{ kind := .coupling (Fin.ofNat 4 g.toNat) slot mw, mask := mask, since := m.time.nt }]
          ∧ u.rd R.SWARM_CMDSTAT_DONE = 0 ∧ bitOf (u.sb (0x174001 + 0x200 * slot.toNat)).toNat 0 = false
      else u.maint = m.maint ∧ u.rd R.SWARM_CMDSTAT_DONE = 1 ∧ u.rd R.SWARM_CMDSTAT_ERR = 1 := by
  intro e w mask hm
  obtain ⟨hg, hs, hmw⟩ := measureWord_fields g slot mw
  refine writes_word hc rfl hm (b := .swarm) rfl rfl (by decide) rfl (by decide) fun m hf hw => ?_
  refine ⟨_, m.takeWrite_stored p (by decide) rfl rfl, ?_⟩
  generalize hv : RegRow.stored _ _ _ _ = v
  let m1 := m.wrWord R.SWARM_CMD v
  have hw1 : RegFile.wf m1.regs = true := m.wrWord_wf _ v hw
  have hact : m1.acted R.SWARM_CMD (m.rdWord R.SWARM_CMD) w .swarm = m1.startMeasure g.toNat slot mw := by
    show m1.startMeasure (getBits w 4 2) (BitVec.ofNat 3 (getBits w 8 3)) (BitVec.ofNat 12 (getBits w 16 12)) = _
    rw [hg, hs, hmw, BitVec.ofNat_toNat, BitVec.setWidth_eq, BitVec.ofNat_toNat, BitVec.setWidth_eq]
  have hrow : m1.rdWord (R.SWARM_GCFG g.toNat) = e.rdWord (R.SWARM_GCFG g.toNat) :=
    (m.rdWord_wrWord_other v (by simp only [R.SWARM_GCFG, R.SWARM_CMD]; omega)).trans
      (hf.rdWord_high (by simp only [R.SWARM_GCFG]; omega))
  have hgen : m1.isOn (R.SWARM_GCFG_GEN g.toNat) = e.isOn (R.SWARM_GCFG_GEN g.toNat) := by
    unfold State.isOn State.rd
    rw [show (R.SWARM_GCFG_GEN g.toNat).addr = R.SWARM_GCFG g.toNat from rfl, hrow]
  have hmask : m1.rd (R.SWARM_GCFG_MEMBERS g.toNat) = e.rd (R.SWARM_GCFG_MEMBERS g.toNat) := by
    simp only [State.rd, R.SWARM_GCFG_MEMBERS, hrow]
  rw [hact]
  split
  next h =>
    have := State.startMeasure_queued hw1 (g := g.toNat) slot mw (hf.sram_wf hc) (by rwa [hgen, hmask])
    rwa [hmask] at this
  next h => exact State.startMeasure_refused hw1 slot mw (by rwa [hgen, hmask])

end

end Sys2Proof.Machine
end

section
/-!
PROOFS. The end of a coupling measurement and of the self-tests (R199 to R201, R480, R484).
-/

namespace Sys2Proof.Machine

/-! ## Counters and bytes -/

/-- A saturating counter after `k` events. -/
theorem State.rd_bump_same (s : State) (f : Fld) (k : Nat) (h : RegFile.wf s.regs = true) (hf : f.lo + f.w ≤ 32) :
    (s.bump f k).rd f = min (s.rd f + k) (2 ^ f.w - 1) := by
  unfold State.bump State.wrSat
  rw [s.rd_wr_same f _ h hf, Nat.mod_eq_of_lt]
  have := Nat.two_pow_pos f.w
  omega

theorem State.rd_bump_other (s : State) (f g : Fld) (k : Nat) (h : RegFile.wf s.regs = true)
    (hg : g.addr ≠ f.addr ∨ g.lo + g.w ≤ f.lo ∨ f.lo + f.w ≤ g.lo) : (s.bump f k).rd g = s.rd g :=
  s.rd_wr_other f g _ h hg

/-- Bytes that were written read as written. -/
theorem Memory.bytes_setBytes_same {m : Memory} (hm : Memory.wf m = true) (a : Nat) (bs : List Byte) :
    Memory.bytes (Memory.setBytes m a bs) a bs.length = bs := by
  refine List.ext_getElem (by simp [Memory.bytes]) fun i h1 h2 => ?_
  simp only [Memory.bytes, List.getElem_map, List.getElem_range]
  exact Memory.byte_setBytes_same bs m a i hm h2

/-! ## The end of a maintenance job that is alone (R480) -/

/-- The only maintenance job leaves the queue, and DIAG counts it. -/
theorem State.maintEnd_only {s : State} {x : Maint} {p : Maint → Bool} (hx : s.maint = [x]) (hp : p x = true) :
    s.maintEnd p = ({ s with maint := [] } : State).bump R.DIAG_CNT_4_N_MAINT := by
  unfold State.maintEnd
  simp only [hx, List.any_cons, hp, Bool.true_or, if_true, List.filter_cons, Bool.not_true, Bool.false_eq_true, if_false,
    List.filter_nil]

/-! ## Coupling measurements (R199 to R201) -/

theorem leads_couplingMeasurementDone {s : State} (hc : s.canon = true) {x : Maint} {g : Fin 4} {slot : BitVec 3} {mw : BitVec 12}
    (avg : List (Int × Int)) (clip : Bool) (hx : s.maint = [x]) (hover : s.couplingOver x = true) (hk : x.kind = .coupling g slot mw) :
    Leads (.couplingMeasurementDone avg clip) s fun t => t.maint = [] ∧ t.rd R.SWARM_CMDSTAT_DONE = 1
      ∧ t.rd R.SWARM_CMDSTAT_ERR = (if clip then 3 else 0) ∧ Counts R.DIAG_CNT_4_N_MAINT s t
      ∧ t.sbytes (0x174000 + 0x200 * slot.toNat) 512 = s.slotBytes x g.val mw.toNat avg clip := by
  have hw := State.canon_regs hc
  let a := 0x174000 + 0x200 * slot.toNat
  have hlen : (s.slotBytes x g.val mw.toNat avg clip).length = 512 := padTo_length _ _
  generalize hbs : s.slotBytes x g.val mw.toNat avg clip = bs at hlen ⊢
  let s1 := (s.swrite a bs).setFlag R.SWARM_CMDSTAT_DONE
  let s2 := s1.wr R.SWARM_CMDSTAT_ERR (if clip then 3 else 0)
  have hruns : (x.running && x.isCoupling) = true := by
    simp only [State.couplingOver, Bool.and_eq_true] at hover
    obtain ⟨⟨hr, -⟩, -⟩ := hover
    exact Bool.and_eq_true_iff.mpr hr
  have hexec : exec (.couplingMeasurementDone avg clip) s = .next (({ s2 with maint := [] } : State).bump R.DIAG_CNT_4_N_MAINT) := by
    rw [← State.maintEnd_only (s := s2) (p := fun y => y.running && y.isCoupling) hx hruns]
    show execCouplingMeasurementDone avg clip s = _
    unfold execCouplingMeasurementDone
    simp only [hx, List.find?_cons, hover, hk, hbs]
    rfl
  have h1 : RegFile.wf s1.regs = true := State.setFlag_wf (s.swrite a bs) _ hw
  have h2 : RegFile.wf s2.regs = true := s1.wr_wf _ _ h1
  refine ⟨_, hexec, rfl, ?_, ?_, ?_, ?_⟩
  · calc _ = s2.rd R.SWARM_CMDSTAT_DONE := State.rd_bump_other { s2 with maint := [] } _ _ 1 h2 (.inl (by decide))
      _ = s1.rd R.SWARM_CMDSTAT_DONE := s1.rd_wr_other _ _ _ h1 (.inr (.inl (by decide)))
      _ = 1 := State.rd_setFlag_same _ _ hw (by decide) (by decide)
  · calc _ = s2.rd R.SWARM_CMDSTAT_ERR := State.rd_bump_other { s2 with maint := [] } _ _ 1 h2 (.inl (by decide))
      _ = (if clip then 3 else 0) % 2 ^ 2 := s1.rd_wr_same _ _ h1 (by decide)
      _ = if clip then 3 else 0 := by cases clip <;> rfl
  · have hcount := counts_bump { s2 with maint := [] } R.DIAG_CNT_4_N_MAINT h2 (by decide)
    have hold : s2.rd R.DIAG_CNT_4_N_MAINT = s.rd R.DIAG_CNT_4_N_MAINT :=
      (s1.rd_wr_other R.SWARM_CMDSTAT_ERR R.DIAG_CNT_4_N_MAINT _ h1 (.inl (by decide))).trans
        (State.rd_wr_other (s.swrite a bs) R.SWARM_CMDSTAT_DONE _ 1 hw (.inl (by decide)))
    unfold Counts at hcount ⊢
    rw [hcount]
    exact congrArg (fun k => min (k + 1) _) hold
  · have h := Memory.bytes_setBytes_same (State.canon_sram hc) a bs
    rw [hlen] at h
    exact h

/-! ## Self-tests (R484) -/

/-- Outside RUN no test is done. -/
theorem diagTestDone_outsideRun {s : State} (h : s.pwr.state ≠ .run) (rom : Bool) (failed : BitVec 8) :
    exec (.diagTestDone rom failed) s = .next s := by
  have hr : s.engRuns = false := by
    unfold State.engRuns
    rw [beq_eq_false_iff_ne.mpr h, Bool.false_and]
  show execDiagTestDone rom failed s = _
  unfold execDiagTestDone
  rw [hr]
  rfl

section

variable {s : State} (hc : s.canon = true) (hrun : s.pwr.state = .run) (hdom : s.pwr.domOn.getLsbD 10 = true) (failed : BitVec 8)
include hrun hdom

theorem engRuns_of_run : s.engRuns = true := by
  unfold State.engRuns
  rw [hrun, Bool.and_eq_true]
  exact ⟨rfl, hdom⟩

include hc

/-- The ROM test ends with its result. -/
theorem leads_romTestDone (ht : s.romTest = true) : Leads (.diagTestDone true failed) s fun t => t.romTest = false
    ∧ t.rd R.DIAG_STAT_ROM_OK = (decide (failed = 0)).toNat
    ∧ (failed ≠ 0 → t.rd R.DIAG_STAT_ROM_FAIL = 1 ∧ Counts R.DIAG_CNT_4_N_ROMFAIL s t)
    ∧ Counts R.DIAG_CNT_4_N_MAINT s t := by
  have hw := State.canon_regs hc
  have hexec : exec (.diagTestDone true failed) s = .next (s.romDone (failed != 0)) := by
    show execDiagTestDone true failed s = _
    unfold execDiagTestDone
    rw [engRuns_of_run hrun hdom, ht]
    rfl
  let s0 : State := { s with romTest := false }
  let s1 := s0.bump R.DIAG_CNT_4_N_MAINT
  have h1 : RegFile.wf s1.regs = true := s0.bump_wf _ _ hw
  have hmaint : Counts R.DIAG_CNT_4_N_MAINT s0 s1 := counts_bump s0 _ hw (by decide)
  refine ⟨_, hexec, ?_⟩
  by_cases hf : failed = 0
  · subst hf
    refine ⟨rfl, State.rd_setFlag_same s1 R.DIAG_STAT_ROM_OK h1 (by decide) (by decide), fun h => absurd rfl h, ?_⟩
    exact (s1.rd_wr_other R.DIAG_STAT_ROM_OK _ 1 h1 (.inl (by decide))).trans hmaint
  · let s2 := s1.wr R.DIAG_STAT_ROM_OK 0
    let s3 := s2.setFlag R.DIAG_STAT_ROM_FAIL
    have h2 : RegFile.wf s2.regs = true := s1.wr_wf _ _ h1
    have h3 : RegFile.wf s3.regs = true := s2.setFlag_wf _ h2
    have hdone : s.romDone (failed != 0) = s3.bump R.DIAG_CNT_4_N_ROMFAIL := if_pos (bne_iff_ne.mpr hf)
    rw [hdone, decide_eq_false hf]
    refine ⟨rfl, ?_, fun _ => ⟨?_, ?_⟩, ?_⟩
    · calc _ = s3.rd R.DIAG_STAT_ROM_OK := s3.rd_bump_other _ _ 1 h3 (.inl (by decide))
        _ = s2.rd R.DIAG_STAT_ROM_OK := s2.rd_wr_other _ _ 1 h2 (.inr (.inl (by decide)))
        _ = 0 := s1.rd_wr_same _ 0 h1 (by decide)
    · exact (s3.rd_bump_other _ _ 1 h3 (.inl (by decide))).trans (s2.rd_setFlag_same _ h2 (by decide) (by decide))
    · have hcount := counts_bump s3 R.DIAG_CNT_4_N_ROMFAIL h3 (by decide)
      have hold : s3.rd R.DIAG_CNT_4_N_ROMFAIL = s.rd R.DIAG_CNT_4_N_ROMFAIL :=
        calc _ = s2.rd R.DIAG_CNT_4_N_ROMFAIL := s2.rd_wr_other _ _ 1 h2 (.inl (by decide))
          _ = s1.rd R.DIAG_CNT_4_N_ROMFAIL := s1.rd_wr_other _ _ 0 h1 (.inl (by decide))
          _ = s.rd R.DIAG_CNT_4_N_ROMFAIL := s0.rd_bump_other _ _ 1 hw (.inr (by decide))
      rw [Counts, hold] at hcount
      exact hcount
    · calc _ = s3.rd R.DIAG_CNT_4_N_MAINT := s3.rd_bump_other _ _ 1 h3 (.inr (by decide))
        _ = s2.rd R.DIAG_CNT_4_N_MAINT := s2.rd_wr_other _ _ 1 h2 (.inl (by decide))
        _ = s1.rd R.DIAG_CNT_4_N_MAINT := s1.rd_wr_other _ _ 0 h1 (.inl (by decide))
        _ = _ := hmaint

/-- The test of one set of channels ends with its results. -/
theorem leads_chTestDone {x : Maint} (hx : s.maint = [x]) (hr : x.running = true) (hk : x.kind = .chTest) :
    Leads (.diagTestDone false failed) s fun t => t.maint = []
      ∧ t.rd R.DIAG_STAT_CHT_DONE = s.rd R.DIAG_STAT_CHT_DONE ||| x.mask.toNat
      ∧ t.rd R.DIAG_STAT_CHT_FAIL = s.rd R.DIAG_STAT_CHT_FAIL ||| (failed &&& x.mask).toNat
      ∧ t.rd R.DIAG_CNT_4_N_ROMFAIL
        = min (s.rd R.DIAG_CNT_4_N_ROMFAIL + popcount8 (failed &&& x.mask).toNat) (2 ^ 16 - 1) := by
  have hw := State.canon_regs hc
  let done := s.rd R.DIAG_STAT_CHT_DONE ||| x.mask.toNat
  let fail := s.rd R.DIAG_STAT_CHT_FAIL ||| (failed &&& x.mask).toNat
  let s1 := s.wr R.DIAG_STAT_CHT_DONE done
  let s2 := s1.wr R.DIAG_STAT_CHT_FAIL fail
  let s3 := ({ s2 with maint := [] } : State).bump R.DIAG_CNT_4_N_MAINT
  have htest : (x.running && x.kind == .chTest) = true := by
    rw [hr, hk]
    rfl
  have hexec : exec (.diagTestDone false failed) s
      = .next (s3.bump R.DIAG_CNT_4_N_ROMFAIL (popcount8 (failed &&& x.mask).toNat)) := by
    have hzero : (0 : BitVec 8) ||| x.mask = x.mask := BitVec.zero_or
    show execDiagTestDone false failed s = _
    unfold execDiagTestDone State.chTestDone
    simp only [engRuns_of_run hrun hdom, hx, List.foldl_cons, List.foldl_nil, List.filter_cons, htest, List.filter_nil,
      State.wr_maint, Bool.not_true, Bool.false_eq_true, if_false, if_true, hzero]
    rfl
  have h1 : RegFile.wf s1.regs = true := s.wr_wf _ _ hw
  have h2 : RegFile.wf s2.regs = true := s1.wr_wf _ _ h1
  have h3 : RegFile.wf s3.regs = true := State.bump_wf { s2 with maint := [] } _ _ h2
  have hkeep : ∀ g : Fld, g.addr ≠ R.DIAG_CNT_4 →
      (s3.bump R.DIAG_CNT_4_N_ROMFAIL (popcount8 (failed &&& x.mask).toNat)).rd g = s2.rd g := fun g hg =>
    (s3.rd_bump_other _ _ _ h3 (.inl hg)).trans (State.rd_bump_other { s2 with maint := [] } _ _ _ h2 (.inl hg))
  have hdone : done < 2 ^ 8 := Nat.or_lt_two_pow (getBits_lt _ _ _) x.mask.isLt
  have hfail : fail < 2 ^ 8 := Nat.or_lt_two_pow (getBits_lt _ _ _) (failed &&& x.mask).isLt
  refine ⟨_, hexec, rfl, ?_, ?_, ?_⟩
  · rw [hkeep _ (by decide), s1.rd_wr_other R.DIAG_STAT_CHT_FAIL R.DIAG_STAT_CHT_DONE _ h1 (.inr (.inl (by decide))),
      s.rd_wr_same _ _ hw (by decide)]
    exact Nat.mod_eq_of_lt hdone
  · rw [hkeep _ (by decide), s1.rd_wr_same _ _ h1 (by decide)]
    exact Nat.mod_eq_of_lt hfail
  · have hold : s3.rd R.DIAG_CNT_4_N_ROMFAIL = s.rd R.DIAG_CNT_4_N_ROMFAIL :=
      calc _ = s2.rd R.DIAG_CNT_4_N_ROMFAIL := State.rd_bump_other { s2 with maint := [] } _ _ 1 h2 (.inr (by decide))
        _ = s1.rd R.DIAG_CNT_4_N_ROMFAIL := s1.rd_wr_other _ _ _ h1 (.inl (by decide))
        _ = _ := s.rd_wr_other _ _ _ hw (.inl (by decide))
    rw [s3.rd_bump_same _ _ h3 (by decide), hold]
    rfl

end

end Sys2Proof.Machine
end

section
/-!
PROOFS. Queries, the routine cache, WM_HIT, quotas and self-tests: what one written word does (R252, R259, R281, R310, R484).
-/

namespace Sys2Proof.Machine

/-! ## The declaration query (R248, R259) -/

/-- Declarations are read from the SRAM. -/
theorem State.declare_of_sram {s t : State} (h : t.sram = s.sram) (id pw0 pw1 : Nat) : t.declare id pw0 pw1 = s.declare id pw0 pw1 := by
  have hwords : t.dirWords id = s.dirWords id := by
    unfold State.dirWords
    exact List.map_congr_left fun k _ => State.snat_of_sram h _ _
  unfold State.declare State.declareFor
  rw [hwords]

theorem regsOnly_queryDecl (s : State) : RegsOnly [R.CSQ_QWCX, R.CSQ_QRES] s s.queryDecl := by
  have hres : ∀ (t : State) (f : Fld) (v : Nat), f.addr = R.CSQ_QRES → RegsOnly [R.CSQ_QWCX, R.CSQ_QRES] t (t.wr f v) :=
    fun t f v hf => regsOnly_wrWord t _ (by rw [hf]; decide)
  have hwcx : ∀ v, RegsOnly [R.CSQ_QWCX, R.CSQ_QRES] s (s.wrSat R.CSQ_QWCX_WCX v) := fun v => regsOnly_wrWord s _ (by decide)
  exact ((((hwcx _).trans (hres _ _ _ rfl)).trans (hres _ _ _ rfl)).trans (hres _ _ _ rfl)).trans (hres _ _ _ rfl)

/-- QWCX and QRES show the declarations of the routine that QID, QPW0 and QPW1 name. -/
def State.showsDecl (u : State) : Prop :=
  let d := u.declare (u.rd R.CSQ_QID_ID) (u.rd R.CSQ_QPW0_PW0) (u.rd R.CSQ_QPW1_PW1)
  u.rd R.CSQ_QWCX_WCX = min d.wcx (2 ^ 32 - 1) ∧ u.rd R.CSQ_QRES_FOUND = d.found.toNat
    ∧ u.rd R.CSQ_QRES_SWARM_OK = d.swarmOk.toNat ∧ u.rd R.CSQ_QRES_MAXPAY = d.maxpay % 2 ^ 10
    ∧ u.rd R.CSQ_QRES_OVER = (decide (u.rd R.TIME_MAXEX_MAX_EXCH_US < d.wcx)).toNat

theorem State.queryDecl_shows {s : State} (hw : RegFile.wf s.regs = true) : s.queryDecl.showsDecl := by
  let u := s.queryDecl
  let d := u.declare (u.rd R.CSQ_QID_ID) (u.rd R.CSQ_QPW0_PW0) (u.rd R.CSQ_QPW1_PW1)
  have hregs : RegsOnly [R.CSQ_QWCX, R.CSQ_QRES] s u := regsOnly_queryDecl s
  have hrd : ∀ f : Fld, f.addr ∉ [R.CSQ_QWCX, R.CSQ_QRES] → u.rd f = s.rd f := fun f hf => congrArg (getBits · f.lo f.w) (hregs.2 _ hf)
  have hd : d = s.declare (s.rd R.CSQ_QID_ID) (s.rd R.CSQ_QPW0_PW0) (s.rd R.CSQ_QPW1_PW1) := by
    unfold d
    rw [hrd R.CSQ_QID_ID (by decide), hrd R.CSQ_QPW0_PW0 (by decide), hrd R.CSQ_QPW1_PW1 (by decide)]
    exact State.declare_of_sram rfl _ _ _
  have hover : u.rd R.TIME_MAXEX_MAX_EXCH_US = s.rd R.TIME_MAXEX_MAX_EXCH_US := hrd _ (by decide)
  let s1 := s.wrSat R.CSQ_QWCX_WCX d.wcx
  let s2 := s1.wr R.CSQ_QRES_MAXPAY d.maxpay
  let s3 := s2.wr R.CSQ_QRES_FOUND d.found.toNat
  let s4 := s3.wr R.CSQ_QRES_SWARM_OK d.swarmOk.toNat
  let s5 := s4.wr R.CSQ_QRES_OVER (decide (s.rd R.TIME_MAXEX_MAX_EXCH_US < d.wcx)).toNat
  have hu : u = s5 := by
    unfold u State.queryDecl s5 s4 s3 s2 s1
    rw [← hd]
  have h1 : RegFile.wf s1.regs = true := s.wrSat_wf _ _ hw
  have h2 : RegFile.wf s2.regs = true := s1.wr_wf _ _ h1
  have h3 : RegFile.wf s3.regs = true := s2.wr_wf _ _ h2
  have h4 : RegFile.wf s4.regs = true := s3.wr_wf _ _ h3
  have hbit : ∀ b : Bool, b.toNat % 2 ^ 1 = b.toNat := by decide
  show u.rd _ = _ ∧ u.rd _ = _ ∧ u.rd _ = _ ∧ u.rd _ = _ ∧ u.rd _ = (decide (u.rd R.TIME_MAXEX_MAX_EXCH_US < d.wcx)).toNat
  rw [hover, hu]
  refine ⟨?_, ?_, ?_, ?_, ?_⟩
  · calc s5.rd R.CSQ_QWCX_WCX = s4.rd R.CSQ_QWCX_WCX := s4.rd_wr_other _ _ _ h4 (.inl (by decide))
      _ = s3.rd R.CSQ_QWCX_WCX := s3.rd_wr_other _ _ _ h3 (.inl (by decide))
      _ = s2.rd R.CSQ_QWCX_WCX := s2.rd_wr_other _ _ _ h2 (.inl (by decide))
      _ = s1.rd R.CSQ_QWCX_WCX := s1.rd_wr_other _ _ _ h1 (.inl (by decide))
      _ = min d.wcx (2 ^ 32 - 1) % 2 ^ 32 := s.rd_wr_same _ _ hw (by decide)
      _ = min d.wcx (2 ^ 32 - 1) := by omega
  · calc s5.rd R.CSQ_QRES_FOUND = s4.rd R.CSQ_QRES_FOUND := s4.rd_wr_other _ _ _ h4 (.inr (.inl (by decide)))
      _ = s3.rd R.CSQ_QRES_FOUND := s3.rd_wr_other _ _ _ h3 (.inr (.inl (by decide)))
      _ = _ := (s2.rd_wr_same _ _ h2 (by decide)).trans (hbit _)
  · calc s5.rd R.CSQ_QRES_SWARM_OK = s4.rd R.CSQ_QRES_SWARM_OK := s4.rd_wr_other _ _ _ h4 (.inr (.inl (by decide)))
      _ = _ := (s3.rd_wr_same _ _ h3 (by decide)).trans (hbit _)
  · calc s5.rd R.CSQ_QRES_MAXPAY = s4.rd R.CSQ_QRES_MAXPAY := s4.rd_wr_other _ _ _ h4 (.inr (.inl (by decide)))
      _ = s3.rd R.CSQ_QRES_MAXPAY := s3.rd_wr_other _ _ _ h3 (.inr (.inl (by decide)))
      _ = s2.rd R.CSQ_QRES_MAXPAY := s2.rd_wr_other _ _ _ h2 (.inr (.inl (by decide)))
      _ = _ := s1.rd_wr_same _ _ h1 (by decide)
  · exact (s4.rd_wr_same _ _ h4 (by decide)).trans (hbit _)

/-- The registers that name the routine of a query. -/
def queryRegs : List Nat := [R.CSQ_QID, R.CSQ_QPW0, R.CSQ_QPW1]

theorem rowAt_query {a : Nat} (ha : a ∈ queryRegs) : blockOf a = some .csq
    ∧ ∃ r, rowAt a = some r ∧ r.rwl = 0 ∧ r.rw ||| r.rwl ||| r.w1c ||| r.wo ≠ 0 := by
  simp only [queryRegs, List.mem_cons, List.not_mem_nil, or_false] at ha
  rcases ha with rfl | rfl | rfl <;> exact ⟨rfl, _, rfl, rfl, by decide⟩

theorem acted_query {a : Nat} (ha : a ∈ queryRegs) (t : State) (old w : Word) : t.acted a old w .csq = t.queryDecl := by
  simp only [queryRegs, List.mem_cons, List.not_mem_nil, or_false] at ha
  rcases ha with rfl | rfl | rfl <;> rfl

/-- DIAG_CMD CHTEST queues one test for each channel. -/
theorem State.each_queueChan (k : MaintKind) : ∀ (l : List Nat) (s : State),
    let u := s.each l fun s n => s.queueChan k n
    u.regs = s.regs ∧ u.maint = s.maint ++ l.map fun n => { kind := k, mask := BitVec.ofNat 8 (2 ^ n), since := s.time.nt }
  | [], s => ⟨rfl, (List.append_nil _).symm⟩
  | n :: l, s => by
    obtain ⟨hregs, hmaint⟩ := State.each_queueChan k l (s.queueChan k n)
    have hnow : (s.queueChan k n).time = s.time := by
      unfold State.queueChan State.addMaint State.leaveIdle
      split <;> rfl
    refine ⟨hregs.trans (State.addMaint_regs s _), hmaint.trans ?_⟩
    rw [hnow, State.queueChan, State.addMaint_maint, List.append_assoc]
    rfl

/-! ## Rows of a queue and of a port -/

theorem rowAt_qstat : ∀ q : Fin 64, blockOf (R.SCHED_QSTAT q.val) = some .sched ∧ rowAt (R.SCHED_QSTAT q.val)
    = some { name := "SCHED_QSTAT_q", base := 0x1014, n := 64, stride := 0x20, w1c := 0x4000 } := by decide

theorem rowAt_quota : ∀ q : Port, blockOf (R.BUDG_QUOTA q.val) = some .budg ∧ ∃ r, rowAt (R.BUDG_QUOTA q.val) = some r
    ∧ r.rw = 0x7FFFFFFF ∧ r.rwl = 0 ∧ r.rw ||| r.rwl ||| r.w1c ||| r.wo ≠ 0 := by
  intro q
  match q with
  | 0 | 1 | 2 | 3 => exact ⟨rfl, _, rfl, rfl, rfl, by decide⟩

/-! ## Quotas (R310) -/

/-- OVER of a port sets when it is used beyond its quota; the quota stays. -/
theorem State.quotaWritten_over (s : State) {q : Nat} (h : RegFile.wf s.regs = true) (hq : q < 4) :
    (s.quotaWritten q).rd (R.BUDG_QUOTA_QUOTA q) = s.rd (R.BUDG_QUOTA_QUOTA q)
      ∧ ((s.quotaWritten q).pt q).isOver = ((s.pt q).isOver
        || (s.isOn (R.BUDG_PCFG_QEN q) && decide (s.rd (R.BUDG_QUOTA_QUOTA q) < s.usage q))) := by
  have hset : (s.setOver q).rd (R.BUDG_QUOTA_QUOTA q) = s.rd (R.BUDG_QUOTA_QUOTA q) ∧ ((s.setOver q).pt q).isOver = true := by
    unfold State.setOver
    split
    next ho => exact ⟨rfl, ho⟩
    · refine ⟨State.rd_wr_other (s.modPt q _) (R.HOST_NPEND_PEND q) _ _ h (.inl ?_), ?_⟩
      · simp only [R.BUDG_QUOTA_QUOTA, R.BUDG_QUOTA, R.HOST_NPEND_PEND, R.HOST_NPEND]
        omega
      · exact congrArg PortSt.isOver (s.pt_modPt_same q (fun t => { t with isOver := true, overNew := true }) hq)
  unfold State.quotaWritten
  split
  next h => rw [h, Bool.or_true]; exact hset
  next h => rw [Bool.eq_false_iff.mpr h, Bool.or_false]; exact ⟨rfl, rfl⟩

/-! ## The writes -/

section

variable {s : State} {p : Port} (hc : s.canon = true)
include hc

/-- A write of QID, QPW0 or QPW1 shows the declarations anew. -/
theorem writes_query {i : Instr} {a : Nat} {w : Word} (hi : exec i s = .next (s.writeOne p a w)) (ha : a ∈ queryRegs)
    (hm : MayWrite s p a w) : Writes i s p a w fun _ u => u.showsDecl := by
  obtain ⟨hb, r, hr, hl, hbits⟩ := rowAt_query ha
  have hplain : a ∉ [R.GATE_CTL, R.EMU_MBCMD, R.PMB_CMD] := by
    simp only [queryRegs, List.mem_cons, List.not_mem_nil, or_false] at ha
    rcases ha with rfl | rfl | rfl <;> decide
  refine writes_word hc hi hm hb hr nofun hl hbits fun m _ hw => ⟨_, m.takeWrite_stored p hplain rfl hl, ?_⟩
  rw [acted_query ha]
  exact State.queryDecl_shows (m.wrWord_wf a _ hw)

theorem writes_declarationQuery (which : BitVec 2) (w : Word) :
    let a := if which = 0 then R.CSQ_QID else if which = 1 then R.CSQ_QPW0 else R.CSQ_QPW1
    MayWrite s p a w → Writes (.declarationQuery p which w) s p a w fun _ u => u.showsDecl := by
  intro a hm
  have ha : a ∈ queryRegs := by
    unfold a
    split
    · decide
    split <;> decide
  exact writes_query hc rfl ha hm

/-- The lines of the routine cache go, or will go once the fill has ended (R252). -/
theorem writes_cacheInvalidate (hm : MayWrite s p R.CSQ_CACHE 1) : Writes (.cacheInvalidate p) s p R.CSQ_CACHE 1 fun m u =>
    u.flash = if m.flash.filling.isSome then { m.flash with invPend := true } else { m.flash with cache := [] } := by
  refine writes_word hc rfl hm (b := .csq) rfl rfl (by decide) rfl (by decide) fun m _ _ => ?_
  refine ⟨_, m.takeWrite_stored p (by decide) rfl rfl, ?_⟩
  rw [show ∀ (t : State) (old : Word), t.acted R.CSQ_CACHE old 1 .csq = t.dropCache from fun _ _ => rfl]
  unfold State.dropCache
  split
  next h => exact (if_pos h).symm
  next h => exact (if_neg h).symm

/-- WM_HIT clears, with its count (R281). -/
theorem writes_wmHitClear (q : BitVec 6) : let w := s.fieldWord (R.SCHED_QSTAT_WM_HIT q.toNat) 1
    MayWrite s p (R.SCHED_QSTAT q.toNat) w → Writes (.wmHitClear p q) s p (R.SCHED_QSTAT q.toNat) w fun m u =>
      u.rd (R.SCHED_QSTAT_WM_HIT q.toNat) = 0 ∧ u.qu q.toNat = { m.qu q.toNat with wmCount := 0 } := by
  intro w hm
  obtain ⟨hb, hr⟩ := rowAt_qstat q.toFin
  have hbit : getBits w 14 1 = 1 :=
    getBits_fieldWord (s := s) (f := R.SCHED_QSTAT_WM_HIT q.toNat) (by simp [R.SCHED_QSTAT_WM_HIT]) (by simp [R.SCHED_QSTAT_WM_HIT])
  have hplain : R.SCHED_QSTAT q.toNat ∉ [R.GATE_CTL, R.EMU_MBCMD, R.PMB_CMD] := by
    have := q.isLt
    simp only [R.SCHED_QSTAT, R.GATE_CTL, R.EMU_MBCMD, R.PMB_CMD, List.mem_cons, List.not_mem_nil, or_false]
    omega
  refine writes_word hc rfl hm hb hr nofun rfl (by decide) fun m _ hw => ⟨_, m.takeWrite_stored p hplain rfl rfl, ?_⟩
  generalize hv : RegRow.stored _ _ _ _ = v
  have hindex : (R.SCHED_QSTAT q.toNat - 0x1000) / 0x20 = q.toNat := by
    simp only [R.SCHED_QSTAT]
    omega
  have hact : ∀ (t : State) (old : Word), t.acted (R.SCHED_QSTAT q.toNat) old w .sched
      = t.modQu q.toNat fun u => { u with wmCount := 0 } := by
    intro t old
    simp only [State.acted, hindex, if_true, State.wmHitCleared, bitOf_of_getBits hbit]
  have hclear : getBits v 14 1 = 0 := by
    have h14 : w.getLsbD 14 = true := bitOf_of_getBits hbit
    apply Nat.eq_of_testBit_eq
    intro i
    rw [getBits_testBit, Nat.zero_testBit, ← hv]
    by_cases hi : i < 1
    · obtain rfl : i = 0 := by omega
      simp [RegRow.stored, h14]
    · simp [hi]
  rw [hact]
  refine ⟨(State.rd_wrWord (f := R.SCHED_QSTAT_WM_HIT q.toNat) hw).trans hclear, ?_⟩
  exact State.qu_modQu_same (m.wrWord _ v) q.toNat _ q.isLt

/-- The ROM test starts (R484). -/
theorem writes_romtest (hm : MayWrite s p R.DIAG_CMD 1) : Writes (.romtest p) s p R.DIAG_CMD 1 fun _ u => u.romTest = true := by
  refine writes_word hc rfl hm (b := .diag) rfl rfl (by decide) rfl (by decide) fun m _ _ => ?_
  refine ⟨_, m.takeWrite_stored p (by decide) rfl rfl, ?_⟩
  rw [show ∀ (t : State) (old : Word), t.acted R.DIAG_CMD old 1 .diag = ({ t with romTest := true } : State).leaveIdle
    from fun _ _ => rfl]
  unfold State.leaveIdle
  split <;> rfl

/-- The tests of the channels of CHMASK are queued (R484). -/
theorem writes_chtest (mask : BitVec 8) : let w : Word := BitVec.ofNat 32 (2 + 2 ^ 8 * mask.toNat)
    MayWrite s p R.DIAG_CMD w → Writes (.chtest p mask) s p R.DIAG_CMD w fun m u =>
      u.rd R.DIAG_STAT_CHT_DONE = 0 ∧ u.rd R.DIAG_STAT_CHT_FAIL = 0 ∧ u.maint = m.maint ++
        ((List.range 8).filter fun n => bitOf mask.toNat n).map fun n =>
          { kind := .chTest, mask := BitVec.ofNat 8 (2 ^ n), since := m.time.nt } := by
  intro w hm
  have hmask := mask.isLt
  have hop : getBits w 0 4 = 2 := by
    rw [getBits_ofNat (by omega)]
    omega
  have hch : getBits w 8 8 = mask.toNat := by
    rw [getBits_ofNat (by omega)]
    omega
  refine writes_word hc rfl hm (b := .diag) rfl rfl (by decide) rfl (by decide) fun m _ hw => ?_
  refine ⟨_, m.takeWrite_stored p (by decide) rfl rfl, ?_⟩
  generalize hv : RegRow.stored _ _ _ _ = v
  let m1 := m.wrWord R.DIAG_CMD v
  let m2 := m1.wr R.DIAG_STAT_CHT_DONE 0
  let m3 := m2.wr R.DIAG_STAT_CHT_FAIL 0
  have h1 : RegFile.wf m1.regs = true := m.wrWord_wf _ v hw
  have h2 : RegFile.wf m2.regs = true := m1.wr_wf _ _ h1
  have hact : m1.acted R.DIAG_CMD (m.rdWord R.DIAG_CMD) w .diag
      = m3.each ((List.range 8).filter fun n => bitOf mask.toNat n) fun s n => s.queueChan .chTest n := by
    show m1.diagCmd w = _
    unfold State.diagCmd
    rw [hop, hch]
    rfl
  obtain ⟨hregs, hmaint⟩ := State.each_queueChan .chTest ((List.range 8).filter fun n => bitOf mask.toNat n) m3
  rw [hact, State.rd_of_regs hregs, State.rd_of_regs hregs]
  refine ⟨?_, m2.rd_wr_same _ 0 h2 (by decide), hmaint⟩
  exact (m2.rd_wr_other _ _ 0 h2 (.inr (.inl (by decide)))).trans (m1.rd_wr_same _ 0 h1 (by decide))

/-- A quota is stored, and OVER sets when the port has used more (R310). -/
theorem writes_quota (who : Port) (quota : BitVec 31) :
    let e := s.hostEdge p
    let w := s.fieldWord (R.BUDG_QUOTA_QUOTA who.val) quota.toNat
    MayWrite s p (R.BUDG_QUOTA who.val) w → Writes (.quotaWrite p who quota) s p (R.BUDG_QUOTA who.val) w fun m u =>
      u.rd (R.BUDG_QUOTA_QUOTA who.val) = quota.toNat
      ∧ (u.pt who.val).isOver = ((m.pt who.val).isOver
          || (e.isOn (R.BUDG_PCFG_QEN who.val) && decide (quota.toNat < e.usage who.val))) := by
  intro e w hm
  obtain ⟨hb, r, hr, hrw, hl, hbits⟩ := rowAt_quota who
  have hwho := who.isLt
  have hquota : getBits w 0 31 = quota.toNat :=
    getBits_fieldWord (s := s) (f := R.BUDG_QUOTA_QUOTA who.val) (by simp [R.BUDG_QUOTA_QUOTA]) quota.isLt
  have hplain : R.BUDG_QUOTA who.val ∉ [R.GATE_CTL, R.EMU_MBCMD, R.PMB_CMD] := by
    simp only [R.BUDG_QUOTA, R.GATE_CTL, R.EMU_MBCMD, R.PMB_CMD, List.mem_cons, List.not_mem_nil, or_false]
    omega
  have hused : Writes (.quotaWrite p who quota) s p (R.BUDG_QUOTA who.val) w fun m u =>
      u.rd (R.BUDG_QUOTA_QUOTA who.val) = quota.toNat
      ∧ (u.pt who.val).isOver = ((m.pt who.val).isOver
          || (e.isOn (R.BUDG_PCFG_QEN who.val) && decide (quota.toNat < m.usage who.val))) := by
    refine writes_word hc rfl hm hb hr nofun hl hbits fun m hf hw => ⟨_, m.takeWrite_stored p hplain rfl hl, ?_⟩
    generalize hv : RegRow.stored _ _ _ _ = v
    let m1 := m.wrWord (R.BUDG_QUOTA who.val) v
    have h1 : RegFile.wf m1.regs = true := m.wrWord_wf _ v hw
    have hindex : (R.BUDG_QUOTA who.val - 0x1900) / 0x40 = who.val := by
      simp only [R.BUDG_QUOTA]
      omega
    have hact : m1.acted (R.BUDG_QUOTA who.val) (m.rdWord (R.BUDG_QUOTA who.val)) w .budg = m1.quotaWritten who.val := by
      unfold State.acted
      rw [hindex]
      exact if_pos ⟨rfl, by simp only [R.BUDG_QUOTA]; omega⟩
    have hrd : m1.rd (R.BUDG_QUOTA_QUOTA who.val) = quota.toNat := by
      refine (State.rd_wrWord (f := R.BUDG_QUOTA_QUOTA who.val) hw).trans ?_
      rw [← hv]
      refine (getBits_stored ?_).trans hquota
      rw [hrw]
      exact (by decide : ∀ i, i < 31 → (0x7FFFFFFF : Word).getLsbD (0 + i) = true)
    have hqen : m1.isOn (R.BUDG_PCFG_QEN who.val) = e.isOn (R.BUDG_PCFG_QEN who.val) := by
      have hword : m1.rdWord (R.BUDG_PCFG who.val) = e.rdWord (R.BUDG_PCFG who.val) :=
        (m.rdWord_wrWord_other v (by simp only [R.BUDG_PCFG, R.BUDG_QUOTA]; omega)).trans
          (hf.rdWord_high (by simp only [R.BUDG_PCFG]; omega))
      unfold State.isOn State.rd
      rw [show (R.BUDG_PCFG_QEN who.val).addr = R.BUDG_PCFG who.val from rfl, hword]
    rw [hact]
    have h := m1.quotaWritten_over h1 hwho
    rw [hqen, hrd] at h
    exact h
  refine hused.imp fun m u hclk h => ?_
  rwa [hclk.usage who.val] at h

end

end Sys2Proof.Machine
end

section
/-!
PROOFS. A change of the gate list, SWAP and CANCEL (R349, R351): O46.
-/

namespace Sys2Proof.Machine

/-! ## The administrative list and the change time (R349) -/

/-- SWAP finds the administrative list in order. -/
theorem State.adminOk_iff (s : State) : s.adminOk = true ↔
    1 ≤ s.rd R.GATE_ALEN_ALEN ∧ s.rd R.GATE_ALEN_ALEN ≤ 64 ∧ 1000 ≤ s.rd R.GATE_ACYCLE_ACYCLE
      ∧ ∀ k, k < s.rd R.GATE_ALEN_ALEN → getBits (s.rdWord (R.GATE_ENTRY k)) 0 24 ≠ 0 ∧ getBits (s.rdWord (R.GATE_ENTRY k)) 27 5 = 0 := by
  simp only [State.adminOk, State.adminEntries, Bool.and_eq_true, decide_eq_true_eq, List.all_map, List.all_eq_true, List.mem_range,
    Function.comp_apply, bne_iff_ne, beq_iff_eq, and_assoc]

/-- Gate words that a frame's transfer leaves. -/
theorem FrameOnly.adminOk {p : Port} {s t : State} (h : FrameOnly p s t) : t.adminOk = s.adminOk := by
  have hentry : ∀ k, t.rdWord (R.GATE_ENTRY k) = s.rdWord (R.GATE_ENTRY k) := fun k => h.rdWord_high (Nat.le_add_right_of_le (by decide))
  rw [Bool.eq_iff_iff, State.adminOk_iff, State.adminOk_iff, h.rd_high (f := R.GATE_ALEN_ALEN) (by decide),
    h.rd_high (f := R.GATE_ACYCLE_ACYCLE) (by decide)]
  simp only [hentry]

/-- The least multiple of `b` that reaches `a`. -/
theorem ceilDiv_mul_bounds {a b : Nat} (hb : 0 < b) : a ≤ ceilDiv a b * b ∧ ceilDiv a b * b < a + b := by
  have hdiv := Nat.div_add_mod (a + b - 1) b
  have hmod := Nat.mod_lt (a + b - 1) hb
  rw [Nat.mul_comm] at hdiv
  unfold ceilDiv
  omega

/-- The change time is the base, or the first start of a cycle that lies two beats ahead; then it is late. -/
theorem State.changeTime_spec (s : State) (t : Nat) (hcyc : 1000 ≤ s.rd R.GATE_ACYCLE_ACYCLE) :
    let c := s.changeTime t
    ∃ k, c.1 = s.abase + k * (s.rd R.GATE_ACYCLE_ACYCLE * 1000) ∧ t + 2 * s.beatNs ≤ c.1
      ∧ (0 < k → c.2 = true ∧ c.1 < t + 2 * s.beatNs + s.rd R.GATE_ACYCLE_ACYCLE * 1000) := by
  have hpos : 0 < s.rd R.GATE_ACYCLE_ACYCLE * 1000 := by omega
  unfold State.changeTime
  dsimp only
  split
  next h => exact ⟨0, by simp, h, nofun⟩
  next h =>
    obtain ⟨hle, hlt⟩ := ceilDiv_mul_bounds (a := t + 2 * s.beatNs - s.abase) hpos
    refine ⟨_, rfl, ?_, fun _ => ⟨rfl, ?_⟩⟩ <;> dsimp only <;> omega

/-- The start of a list change (R349). -/
theorem State.startSwap_effect {s : State} (h : RegFile.wf s.regs = true) :
    let u := s.startSwap false
    let c := s.changeTime s.nt
    u.gate = { s.gate with chg := some (BitVec.ofNat 64 c.1) }
      ∧ (c.2 = true → Counts R.GATE_CNT_N_LATE s u ∧ u.rd R.GATE_STAT_LATE = 1 ∧ ∀ q : Port, bitOf (u.pend q.val) 7 = true) := by
  intro u c
  let s1 : State := { s with gate := { s.gate with chg := some (BitVec.ofNat 64 c.1) } }
  let s2 := s1.setFlag R.GATE_STAT_LATE
  let s3 := s2.bump R.GATE_CNT_N_LATE
  have h2 : RegFile.wf s2.regs = true := s1.setFlag_wf _ h
  have h3 : RegFile.wf s3.regs = true := s2.bump_wf _ _ h2
  have hu : u = if c.2 && !false then s3.notifyAll 7 else s1 := rfl
  have hrd : ∀ f : Fld, 0x400 ≤ f.addr → (s3.notifyAll 7).rd f = s3.rd f := fun f hf =>
    congrArg (getBits · f.lo f.w) (s3.rdWord_notifyAll 7 hf)
  cases hc : c.2 with
  | false =>
    rw [hu, hc]
    exact ⟨rfl, nofun⟩
  | true =>
    rw [hu, hc]
    refine ⟨rfl, fun _ => ⟨?_, ?_, s3.pend_notifyAll (by decide) h3⟩⟩
    · have hcount := counts_bump s2 R.GATE_CNT_N_LATE h2 (by decide)
      have hold : s2.rd R.GATE_CNT_N_LATE = s.rd R.GATE_CNT_N_LATE := s1.rd_wr_other _ _ 1 h (.inl (by decide))
      rw [Counts, hold] at hcount
      exact (hrd _ (by decide)).trans hcount
    · calc _ = s3.rd R.GATE_STAT_LATE := hrd _ (by decide)
        _ = s2.rd R.GATE_STAT_LATE := s2.rd_bump_other _ _ 1 h2 (.inl (by decide))
        _ = 1 := s1.rd_setFlag_same _ h (by decide) (by decide)

/-! ## GATE_CTL -/

/-- The row of GATE_CTL. -/
def rowGateCtl : RegRow := { name := "GATE_CTL", base := 0xC00, reset := 0x2, rw := 0x7, wo := 0x300 }

/-- A command on GATE_CTL sets the bit of its field and no other bit beyond the three that are kept. -/
theorem gateCtl_bit (s : State) {f : Fld} (ha : f.addr = R.GATE_CTL) (hw : f.w = 1) {k : Nat} (hlo : f.lo = 8 ∨ f.lo = 9)
    (hk : k = 8 ∨ k = 9) : bitOf (s.fieldWord f 1).toNat k = decide (k = f.lo) := by
  have hk32 : k < 32 := by omega
  have hkept : (s.keptWord R.GATE_CTL).getLsbD k = false := by
    show (s.rdWord R.GATE_CTL &&& 7).getLsbD k = false
    rw [BitVec.getLsbD_and]
    rcases hk with rfl | rfl <;> exact Bool.and_false _
  show (setBits (s.keptWord f.addr) f.lo f.w 1).getLsbD k = _
  rw [setBits_getLsbD _ _ _ _ _ hk32, ha, hkept, hw]
  rcases hk with rfl | rfl <;> rcases hlo with h | h <;> rw [h] <;> decide

theorem State.takeWrite_gateCtl (s : State) (p : Port) (w : Word) : s.takeWrite p R.GATE_CTL w .gate rowGateCtl = s.gateCtlWrite rowGateCtl w :=
  if_pos rfl

section

variable {s : State} {p : Port} (hc : s.canon = true)
include hc

/-- CANCEL takes a pending change away (R351). -/
theorem writes_cancel : let w := s.fieldWord R.GATE_CTL_CANCEL 1
    MayWrite s p R.GATE_CTL w → Writes (.cancel p) s p R.GATE_CTL w fun m u => u.gate = { m.gate with chg := none, chgEn := false } := by
  intro w hm
  have hswap : bitOf w.toNat 8 = false := gateCtl_bit s (f := R.GATE_CTL_CANCEL) rfl rfl (.inr rfl) (.inl rfl)
  have hcancel : bitOf w.toNat 9 = true := gateCtl_bit s (f := R.GATE_CTL_CANCEL) rfl rfl (.inr rfl) (.inr rfl)
  refine writes_word hc rfl hm (b := .gate) (r := rowGateCtl) rfl rfl (by decide) rfl (by decide) fun m _ _ => ?_
  rw [m.takeWrite_gateCtl]
  unfold State.gateCtlWrite
  simp only [hswap, hcancel, Bool.false_and, Bool.false_eq_true, if_false, if_true]
  exact ⟨_, rfl, rfl⟩

/-- A SWAP of a list that is not in order ends RANGE (R349). -/
theorem serves_swap_refused : let w := s.fieldWord R.GATE_CTL_SWAP 1
    MayWrite s p R.GATE_CTL w → (s.hostEdge p).gate.chg = none → (s.hostEdge p).adminOk = false →
      Serves (.swap p) 0x11 (s.nextFrame p 0x11 (BitVec.ofNat 32 R.GATE_CTL) (leBytes 4 w.toNat)) s
        fun m x u => x = firstWord stRange [] ∧ u = m := by
  intro w hm hchg hbad
  have hswap : bitOf w.toNat 8 = true := gateCtl_bit s (f := R.GATE_CTL_SWAP) rfl rfl (.inl rfl) (.inl rfl)
  have hcancel : bitOf w.toNat 9 = false := gateCtl_bit s (f := R.GATE_CTL_SWAP) rfl rfl (.inl rfl) (.inr rfl)
  obtain ⟨hh, b, r, hb, hr, hmay, hrange, hturn⟩ := hm
  obtain rfl : .gate = b := Option.some.inj hb
  obtain rfl : rowGateCtl = r := Option.some.inj hr
  refine serves_writeOne hc rfl hh fun m hf hw => ⟨m, firstWord stRange [], ?_, hw, rfl, rfl⟩
  have hgate : m.gate = (s.hostEdge p).gate := (congrArg State.gate hf.1 :)
  have hadmin : m.adminOk = false := hf.adminOk.trans hbad
  have hz : m.writeChecked p R.GATE_CTL w = (m, stRange) := by
    rw [m.writeChecked_passed p hb hr (by decide) (by rw [rowGateCtl.effective_of_kept (.inr (BitVec.and_zero)), hf.inRange]; exact hrange)
      (by rw [hf.turnedAway hb]; exact hturn), m.takeWrite_gateCtl]
    unfold State.gateCtlWrite
    simp only [hswap, hcancel, hgate, hchg, hadmin, Option.isSome_none, Bool.and_false, Bool.false_eq_true, if_false,
      Bool.not_false, Bool.and_self, if_true]
  have hword := m.writeWord_taken p hb (by rw [hf.mayWriteReg]; exact hmay) hz (by decide)
  have hframe := m.regWriteFrame_one p (w := w) (by decide) (by decide) rfl fun e => nomatch hb.symm.trans e
  rw [hword] at hframe
  exact hframe

/-- A SWAP of a list that is in order sets the change time (R349). -/
theorem writes_swap : let e := s.hostEdge p
    let w := s.fieldWord R.GATE_CTL_SWAP 1
    MayWrite s p R.GATE_CTL w → e.gate.chg = none → e.adminOk = true → Writes (.swap p) s p R.GATE_CTL w fun m u =>
      ∃ c, u.gate = { m.gate with chg := some (BitVec.ofNat 64 c) } ∧ ∃ k, c = e.abase + k * (e.rd R.GATE_ACYCLE_ACYCLE * 1000)
        ∧ e.nt + 2 * e.beatNs ≤ c ∧ (0 < k → c < e.nt + 2 * e.beatNs + e.rd R.GATE_ACYCLE_ACYCLE * 1000
          ∧ Counts R.GATE_CNT_N_LATE m u ∧ u.rd R.GATE_STAT_LATE = 1 ∧ ∀ q : Port, bitOf (u.pend q.val) 7 = true) := by
  intro e w hm hchg hok
  have hswap : bitOf w.toNat 8 = true := gateCtl_bit s (f := R.GATE_CTL_SWAP) rfl rfl (.inl rfl) (.inl rfl)
  have hcancel : bitOf w.toNat 9 = false := gateCtl_bit s (f := R.GATE_CTL_SWAP) rfl rfl (.inl rfl) (.inr rfl)
  refine writes_word hc rfl hm (b := .gate) (r := rowGateCtl) rfl rfl (by decide) rfl (by decide) fun m hf hw => ?_
  have hgate : m.gate = e.gate := (congrArg State.gate hf.1 :)
  have hadmin : m.adminOk = true := hf.adminOk.trans hok
  have htime : m.time = e.time := hf.time
  let v := rowGateCtl.stored m.committed (m.rdWord R.GATE_CTL) w
  let m1 := m.wrWord R.GATE_CTL v
  have hw1 : RegFile.wf m1.regs = true := m.wrWord_wf _ v hw
  have htake : m.takeWrite p R.GATE_CTL w .gate rowGateCtl = (m1.startSwap false, stOk) := by
    rw [m.takeWrite_gateCtl]
    unfold State.gateCtlWrite
    simp only [hswap, hcancel, hgate, hchg, hadmin, Option.isSome_none, Bool.and_false, Bool.false_eq_true, if_false,
      Bool.not_true, if_true]
    rfl
  have hword : ∀ a, 0x400 ≤ a → a ≠ R.GATE_CTL → m1.rdWord a = e.rdWord a := fun a ha hne =>
    (m.rdWord_wrWord_other v hne).trans (hf.rdWord_high ha)
  have hcyc : m1.rd R.GATE_ACYCLE_ACYCLE = e.rd R.GATE_ACYCLE_ACYCLE := congrArg (getBits · 0 32) (hword _ (by decide) (by decide))
  have hbase : m1.abase = e.abase := by
    unfold State.abase
    rw [hword _ (by decide) (by decide), hword _ (by decide) (by decide)]
  have hnt : m1.nt = e.nt := congrArg (fun t : TimeSt => t.nt.toNat) htime
  have hbeat : m1.beatNs = e.beatNs := congrArg (fun t : TimeSt => t.beatUs * 1000) htime
  obtain ⟨-, -, hlong, -⟩ := (State.adminOk_iff e).mp hok
  obtain ⟨k, hk, hle, hlate⟩ := m1.changeTime_spec m1.nt (hcyc ▸ hlong)
  obtain ⟨hg, heff⟩ := State.startSwap_effect hw1
  rw [hcyc, hbase] at hk
  rw [hnt, hbeat] at hle
  rw [hcyc, hnt, hbeat] at hlate
  rw [hnt] at hg heff hk
  refine ⟨_, htake, _, hg, k, hk, hle, fun hpos => ?_⟩
  obtain ⟨htrue, hlt⟩ := hlate hpos
  obtain ⟨hcount, hflag, hpend⟩ := heff htrue
  have hold : m1.rd R.GATE_CNT_N_LATE = m.rd R.GATE_CNT_N_LATE := congrArg (getBits · 16 16) (m.rdWord_wrWord_other v (by decide))
  rw [Counts, hold] at hcount
  exact ⟨hlt, hcount, hflag, hpend⟩

end

/-- Settles O46: each clause is the law of its command or event above. -/
theorem unitCommands : Obligations.UnitCommands := by
  unfold Obligations.UnitCommands
  intro s p hc e
  refine ⟨writes_measure hc, fun x g slot mw avg clip => leads_couplingMeasurementDone hc avg clip, writes_declarationQuery hc,
    writes_cacheInvalidate hc, writes_wmHitClear hc, writes_quota hc, ?_, writes_cancel hc, writes_romtest hc, writes_chtest hc,
    diagTestDone_outsideRun, fun hrun hdom failed => ⟨leads_romTestDone hc hrun hdom failed, fun x => leads_chTestDone hc hrun hdom failed⟩⟩
  intro w fits hm hchg
  refine ⟨fun hbad => serves_swap_refused hc hm hchg ?_, fun hok => writes_swap hc hm hchg ((State.adminOk_iff e).mpr hok)⟩
  exact Bool.eq_false_iff.mpr fun h => hbad ((State.adminOk_iff e).mp h)

end Sys2Proof.Machine
end

section
/-!
PROOFS. What a written word and the loader of an image leave of the flash port (R442 to R444, R475, R478).
-/

namespace Sys2Proof.Machine

/-! ## What is kept -/

/-- Registers of the flash port that no write reaches and that start-up leaves once discovery has ended. -/
def flashKept : List Nat := [R.FLASH_ID, R.FLASH_GEOM, R.FLASH_CNT]

/-- The operation that runs and the command inside the flash. -/
def FlashSt.sent (f : FlashSt) : Option FlashOp × Option (Nat × Nat) := (f.op, f.cmd)

/-- From `s` to `t` the registers of a list of the flash port have stayed, and so have the operation and the command inside the flash. -/
structure KeepsFlash (s t : State) : Prop where
  wf : RegFile.wf t.regs = true
  reg : ∀ a ∈ flashKept, t.rdWord a = s.rdWord a
  sent : t.flash.sent = s.flash.sent

theorem flashKept_iff {a : Nat} : a ∉ flashKept ↔ a ≠ 0x3408 ∧ a ≠ 0x340C ∧ a ≠ 0x3424 := by
  simp [flashKept, R.FLASH_ID, R.FLASH_GEOM, R.FLASH_CNT]

theorem pend_offFlash (q : Nat) : (R.HOST_NPEND_PEND q).addr ∉ flashKept := by
  simp only [flashKept_iff, R.HOST_NPEND_PEND, R.HOST_NPEND]
  omega

theorem denied_offFlash (q : Nat) : R.HOST_CNT_2 q ∉ flashKept := by
  simp only [flashKept_iff, R.HOST_CNT_2]
  omega

theorem pcfg_offFlash (q : Nat) : (R.PROT_PCFG_PRIV q).addr ∉ flashKept := by
  simp only [flashKept_iff, R.PROT_PCFG_PRIV, R.PROT_PCFG]
  omega

theorem wsidx_offFlash (n : Nat) : (R.CH_WSIDX_IDX n).addr ∉ flashKept := by
  simp only [flashKept_iff, R.CH_WSIDX_IDX, R.CH_WSIDX]
  omega

theorem ant_offFlash {f : Fld} {n : Nat} (h : f.addr = R.CH_ANT n) : f.addr ∉ flashKept := by
  simp only [flashKept_iff, h, R.CH_ANT]
  omega

theorem rxiqcal_offFlash (n : Nat) : (R.CH_RXIQCAL_IQCAL n).addr ∉ flashKept := by
  simp only [flashKept_iff, R.CH_RXIQCAL_IQCAL, R.CH_RXIQCAL]
  omega

/-! ## Steps that keep it -/

section

variable {s t : State}

theorem KeepsFlash.refl (h : RegFile.wf s.regs = true) : KeepsFlash s s := ⟨h, fun _ _ => rfl, rfl⟩

/-- Other parts of the device do not matter. -/
theorem KeepsFlash.same {u : State} (h : KeepsFlash s t) (hr : u.regs = t.regs) (hs : u.flash.sent = t.flash.sent) : KeepsFlash s u where
  wf := hr ▸ h.wf
  reg a ha := (State.rdWord_of_regs hr a).trans (h.reg a ha)
  sent := hs.trans h.sent

theorem KeepsFlash.wrWord {a : Nat} {w : Word} (ha : a ∉ flashKept) (h : KeepsFlash s t) : KeepsFlash s (t.wrWord a w) where
  wf := t.wrWord_wf a w h.wf
  reg b hb := (t.rdWord_wrWord_other w fun e : b = a => ha (e ▸ hb)).trans (h.reg b hb)
  sent := h.sent

theorem KeepsFlash.wr {f : Fld} {v : Nat} (hf : f.addr ∉ flashKept) (h : KeepsFlash s t) : KeepsFlash s (t.wr f v) := .wrWord hf h

theorem KeepsFlash.bump {f : Fld} {k : Nat} (hf : f.addr ∉ flashKept) (h : KeepsFlash s t) : KeepsFlash s (t.bump f k) := .wr hf h

theorem KeepsFlash.setFlag {f : Fld} (hf : f.addr ∉ flashKept) (h : KeepsFlash s t) : KeepsFlash s (t.setFlag f) := .wr hf h

theorem KeepsFlash.modCh {n : Nat} {g : Chan → Chan} (h : KeepsFlash s t) : KeepsFlash s (t.modCh n g) := .same h rfl rfl

theorem KeepsFlash.swrite {a : Nat} {bs : List Byte} (h : KeepsFlash s t) : KeepsFlash s (t.swrite a bs) := .same h rfl rfl

theorem KeepsFlash.ite {c : Prop} [Decidable c] {u v : State} (hu : KeepsFlash s u) (hv : KeepsFlash s v) :
    KeepsFlash s (if c then u else v) := by
  split
  · exact hu
  · exact hv

theorem KeepsFlash.of_eq {α : Type} {x : State × α} {u : State} {a : α} (e : x = (u, a)) (h : KeepsFlash s x.1) : KeepsFlash s u := by
  subst e
  exact h

theorem KeepsFlash.pair {α : Type} {u : State} {a : α} (h : KeepsFlash s u) : KeepsFlash s (u, a).1 := h

theorem KeepsFlash.iteFst {α : Type} {c : Prop} [Decidable c] {x y : State × α} (hx : KeepsFlash s x.1) (hy : KeepsFlash s y.1) :
    KeepsFlash s (if c then x else y).1 := by
  split
  · exact hx
  · exact hy

theorem KeepsFlash.each {α : Type} {l : List α} {g : State → α → State} (hg : ∀ u a, KeepsFlash s u → KeepsFlash s (g u a))
    (h : KeepsFlash s t) : KeepsFlash s (t.each l g) := State.each_induction hg l t h

theorem KeepsFlash.foldl {α β : Type} {f : State × β → α → State × β} {l : List α} {b : β}
    (hf : ∀ x a, KeepsFlash s x.1 → KeepsFlash s (f x a).1) (h : KeepsFlash s t) : KeepsFlash s (l.foldl f (t, b)).1 :=
  List.foldlRecOn (motive := fun x => KeepsFlash s x.1) l f h fun x hx a _ => hf x a hx

theorem KeepsFlash.notify {q k : Nat} (h : KeepsFlash s t) : KeepsFlash s (t.notify q k) := .wr (pend_offFlash q) h

theorem KeepsFlash.notifyAll {k : Nat} (h : KeepsFlash s t) : KeepsFlash s (t.notifyAll k) := .each (fun _ _ => .notify) h

theorem KeepsFlash.leaveIdle (h : KeepsFlash s t) : KeepsFlash s t.leaveIdle := .ite (.same h rfl rfl) h

theorem KeepsFlash.addMaint {m : Maint} (h : KeepsFlash s t) : KeepsFlash s (t.addMaint m) := .leaveIdle (.same h rfl rfl)

/-! ## Actions of a written word -/

theorem KeepsFlash.queueRecal (h : KeepsFlash s t) : KeepsFlash s t.queueRecal := .ite h (.addMaint h)

theorem KeepsFlash.synCtlWritten {was : Bool} {w : Word} (h : KeepsFlash s t) : KeepsFlash s (t.synCtlWritten was w) := by
  have hd : KeepsFlash s (if t.isOn R.SYN_CTL_DISC && !was then t.wr R.SYN_PHERR_VALID 0 else t) := .ite (.wr (by decide) h) h
  exact .ite (.queueRecal (.setFlag (by decide) hd)) hd

theorem KeepsFlash.queueChan {k : MaintKind} {n : Nat} (h : KeepsFlash s t) : KeepsFlash s (t.queueChan k n) := .addMaint h

theorem KeepsFlash.iqCalWritten {n : Nat} {w : Word} (h : KeepsFlash s t) : KeepsFlash s (t.iqCalWritten n w) := by
  have hf : KeepsFlash s (t.setFlag (R.CH_RXIQCAL_IQCAL n)) := .setFlag (rxiqcal_offFlash n) h
  exact .ite (.ite hf (.queueChan hf)) h

theorem KeepsFlash.beatWritten (h : KeepsFlash s t) : KeepsFlash s t.beatWritten := .ite h (.same h rfl rfl)

theorem KeepsFlash.wmHitCleared {q : Nat} {w : Word} (h : KeepsFlash s t) : KeepsFlash s (t.wmHitCleared q w) := .ite (.same h rfl rfl) h

theorem KeepsFlash.quotaWritten {q : Nat} (h : KeepsFlash s t) : KeepsFlash s (t.quotaWritten q) := .ite (.ite h (.notify (.same h rfl rfl))) h

theorem KeepsFlash.writeShape {n : Nat} {w : Word} (h : KeepsFlash s t) : KeepsFlash s (t.writeShape n w) := .wr (wsidx_offFlash n) (.modCh h)

theorem KeepsFlash.requestAnt {n pos : Nat} {en : Bool} (h : KeepsFlash s t) : KeepsFlash s (t.requestAnt n pos en) :=
  .modCh (.wr (ant_offFlash rfl) (.wr (ant_offFlash rfl) h))

theorem KeepsFlash.railRaise (h : KeepsFlash s t) : KeepsFlash s t.railRaise := .ite (.same h rfl rfl) (.same h rfl rfl)

theorem KeepsFlash.startInvCmd {w : Word} (h : KeepsFlash s t) : KeepsFlash s (t.startInvCmd w) := .wr (by decide) (.same h rfl rfl)

theorem KeepsFlash.startCryCmd {w : Word} (h : KeepsFlash s t) : KeepsFlash s (t.startCryCmd w) := by
  have hc : KeepsFlash s ({ t with cry := { t.cry with cmd := some (BitVec.ofNat 4 (getBits w 0 4), BitVec.ofNat 5 (getBits w 8 5)) } } : State) :=
    .same h rfl rfl
  exact .same (.wr (by decide) hc) rfl rfl

theorem KeepsFlash.startMeasure {g : Nat} {slot : BitVec 3} {mw : BitVec 12} (h : KeepsFlash s t) : KeepsFlash s (t.startMeasure g slot mw) :=
  .ite (.addMaint (.swrite (.wr (by decide) (.wr (by decide) h)))) (.setFlag (by decide) (.wr (by decide) h))

theorem KeepsFlash.queryDecl (h : KeepsFlash s t) : KeepsFlash s t.queryDecl :=
  .wr (by decide) (.wr (by decide) (.wr (by decide) (.wr (by decide) (.wr (by decide) h))))

/-- Lines of the cache go; what was sent stays. -/
theorem KeepsFlash.dropCache (h : KeepsFlash s t) : KeepsFlash s t.dropCache := .ite (.same h rfl rfl) (.same h rfl rfl)

theorem KeepsFlash.captureSteps {one : Bool} {k : Nat} (h : KeepsFlash s t) : KeepsFlash s (t.captureSteps one k) :=
  .each (fun _ _ h => .ite (.same h rfl rfl) h) h

theorem KeepsFlash.clearSteps {one : Bool} {k : Nat} (h : KeepsFlash s t) : KeepsFlash s (t.clearSteps one k) :=
  .each (fun _ _ h => .same h rfl rfl) h

theorem KeepsFlash.discardShadow (h : KeepsFlash s t) : KeepsFlash s t.discardShadow := .bump (by decide) (.same h rfl rfl)

theorem KeepsFlash.emuCtlWritten {was : Bool} (h : KeepsFlash s t) : KeepsFlash s (t.emuCtlWritten was) :=
  .ite h (.each (fun _ _ h => .ite (.same h rfl rfl) (.same (.ite (.discardShadow h) h) rfl rfl)) h)

theorem KeepsFlash.pmbOn (h : KeepsFlash s t) : KeepsFlash s t.pmbOn := .ite (.same h rfl rfl) h

theorem KeepsFlash.pmbCtlWritten (h : KeepsFlash s t) : KeepsFlash s t.pmbCtlWritten := .ite (.ite (.pmbOn h) h) (.ite h (.same h rfl rfl))

theorem KeepsFlash.pmbCmd {w : Word} (h : KeepsFlash s t) : KeepsFlash s (t.pmbCmd w).1 := by
  refine .iteFst (.ite (.same h rfl rfl) h) (.iteFst h (.iteFst h ?_))
  exact .wr (by decide) (.wr (by decide) (.same h rfl rfl))

theorem KeepsFlash.diagCmd {w : Word} (h : KeepsFlash s t) : KeepsFlash s (t.diagCmd w) :=
  .ite (.leaveIdle (.same h rfl rfl)) (.each (fun _ _ => .queueChan) (.wr (by decide) (.wr (by decide) h)))

theorem KeepsFlash.promote {wire : Bool} (h : KeepsFlash s t) : KeepsFlash s (t.promote wire) := by
  unfold State.promote
  extract_lets s1 s2
  have h2 : KeepsFlash s s2 := .notifyAll (.bump (by decide) (.same h rfl rfl))
  exact .ite (.leaveIdle h2) h2

theorem KeepsFlash.mailCmd {p : Port} {op : Nat} (h : KeepsFlash s t) : KeepsFlash s (t.mailCmd p op).1 := by
  unfold State.mailCmd
  refine .iteFst ?_ (.iteFst (.iteFst h (.iteFst h (.promote h))) (.iteFst (.ite (.discardShadow h) h) (.same h rfl rfl)))
  split
  · exact .same h rfl rfl
  · exact h
  · exact h

theorem KeepsFlash.startSwap {loader : Bool} (h : KeepsFlash s t) : KeepsFlash s (t.startSwap loader) := by
  have hg : KeepsFlash s ({ t with gate := { t.gate with chg := some (BitVec.ofNat 64 (t.changeTime t.nt).1) } } : State) := .same h rfl rfl
  exact .ite (.notifyAll (.bump (by decide) (.setFlag (by decide) hg))) hg

theorem KeepsFlash.acted {a : Nat} {old w : Word} {b : RegBlock} (h : KeepsFlash s t) : KeepsFlash s (t.acted a old w b) := by
  cases b with
  | sys | host | prot | pwr | gate | res | flash => exact h
  | syn => exact .ite (.synCtlWritten h) h
  | time => exact .ite (.beatWritten h) (.ite (.same h rfl rfl) h)
  | sched => exact .ite (.wmHitCleared h) h
  | budg => exact .ite (.quotaWritten h) h
  | ch n => exact .ite (.writeShape h) (.ite (.requestAnt h) (.ite (.iqCalWritten h) (.railRaise h)))
  | inv => exact .ite (.startInvCmd h) h
  | cry => exact .ite (.startCryCmd h) h
  | swarm => exact .ite (.startMeasure h) h
  | csq => exact .ite (.queryDecl h) (.ite (.dropCache h) h)
  | watch => exact .ite (.same h rfl rfl) (.ite (.same h rfl rfl) (.ite (.ite (.captureSteps h) (.clearSteps h)) h))
  | emu => exact .ite (.emuCtlWritten h) h
  | pmb => exact .ite (.pmbCtlWritten h) h
  | diag => exact .ite (.diagCmd h) h

/-! ## Words of a frame (R442 to R444) -/

/-- The registers that are kept have no writable bit. -/
theorem rowAt_flashKept {a : Nat} (ha : a ∈ flashKept) : ∃ r, rowAt a = some r ∧ r.rw = 0 ∧ r.rwl = 0 ∧ r.w1c = 0 ∧ r.wo = 0 := by
  simp only [flashKept, List.mem_cons, List.not_mem_nil, or_false] at ha
  rcases ha with rfl | rfl | rfl <;> exact ⟨_, rfl, rfl, rfl, rfl, rfl⟩

theorem KeepsFlash.storeFields {a : Nat} {r : RegRow} {w : Word} (ha : a ∉ flashKept) (h : KeepsFlash s t) :
    KeepsFlash s (t.storeFields a r w).1 := .wrWord ha h

theorem KeepsFlash.gateCtlWrite {r : RegRow} {w : Word} (h : KeepsFlash s t) : KeepsFlash s (t.gateCtlWrite r w).1 := by
  have hc : KeepsFlash s (if bitOf w.toNat 9 then { t with gate := { t.gate with chg := none, chgEn := false } } else t) :=
    .ite (.same h rfl rfl) h
  have hs := hc.storeFields (a := R.GATE_CTL) (r := r) (w := w) (by decide)
  exact .iteFst h (.iteFst hc (.ite (.startSwap hs) hs))

theorem KeepsFlash.takeWrite {p : Port} {a : Nat} {w : Word} {b : RegBlock} {r : RegRow} (ha : a ∉ flashKept) (h : KeepsFlash s t) :
    KeepsFlash s (t.takeWrite p a w b r).1 :=
  .iteFst (.gateCtlWrite h) (.iteFst (.mailCmd h) (.iteFst (.pmbCmd h) (.iteFst (.acted h) (.acted (.storeFields ha h)))))

theorem KeepsFlash.writeChecked {p : Port} {a : Nat} {w : Word} (h : KeepsFlash s t) : KeepsFlash s (t.writeChecked p a w).1 := by
  unfold State.writeChecked
  split
  next b r hb hr =>
    by_cases hbits : r.rw ||| r.rwl ||| r.w1c ||| r.wo = 0
    · rw [if_pos hbits]
      exact h
    have ha : a ∉ flashKept := fun ha => by
      obtain ⟨r', hr', h1, h2, h3, h4⟩ := rowAt_flashKept ha
      obtain rfl : r = r' := Option.some.inj (hr.symm.trans hr')
      exact hbits (by rw [h1, h2, h3, h4]; decide)
    rw [if_neg hbits]
    refine .iteFst h ?_
    split
    · exact h
    · exact .takeWrite ha h
  · exact h

/-- A word of PROT leaves a register without writable bits as it stands. -/
theorem KeepsFlash.putProt {x : ProtWord} (h : KeepsFlash s t) : KeepsFlash s (t.putProt x) := by
  unfold State.putProt
  split
  · exact h
  next r hr =>
    by_cases ha : x.addr ∈ flashKept
    · obtain ⟨r', hr', h1, h2, h3, -⟩ := rowAt_flashKept ha
      obtain rfl : r = r' := Option.some.inj (hr.symm.trans hr')
      have hold : r.stored t.committed (t.rdWord x.addr) x.val = t.rdWord x.addr := by
        simp only [RegRow.stored, h1, h2, h3, ite_self]
        show t.rdWord x.addr &&& ~~~(0#32 ||| 0#32 ||| x.val &&& 0#32) ||| x.val &&& (0#32 ||| 0#32) = _
        simp only [BitVec.or_zero, BitVec.and_zero, BitVec.not_zero, BitVec.and_allOnes]
      rw [hold]
      refine ⟨t.wrWord_wf _ _ h.wf, fun a hk => ?_, h.sent⟩
      refine Eq.trans ?_ (h.reg a hk)
      by_cases e : a = x.addr
      · rw [e]
        exact t.rdWord_wrWord_same _ _ h.wf
      · exact t.rdWord_wrWord_other _ e
    · exact .wrWord ha h

theorem KeepsFlash.applyProt {u : State} {p : Nat} {ws : List ProtWord} (h : KeepsFlash s t) (hu : t.applyProt p ws = some u) :
    KeepsFlash s u := by
  unfold State.applyProt at hu
  split at hu
  · cases hu
    exact h
  split at hu
  · cases hu
  next q _ =>
  cases hu
  have hf : KeepsFlash s (ws.foldl (fun s x => s.putProt x) t) := .each (fun _ _ => .putProt) h
  have hp := KeepsFlash.ite (c := q = p) hf (hf.wr (v := 1) (pcfg_offFlash p))
  exact .ite (.notifyAll (.same hp rfl rfl)) (.same hp rfl rfl)

theorem KeepsFlash.noteDenied {q : Nat} {opc : Byte} {a : Nat} (h : KeepsFlash s t) : KeepsFlash s (t.noteDenied q opc a) :=
  .wr (by decide) (.wr (by decide) (.wr (by decide) (.bump (denied_offFlash q) h)))

theorem KeepsFlash.writeRunNote {r : WriteRun} {p : Port} {k a : Nat} {st : Byte} (h : KeepsFlash s t) : KeepsFlash s (r.note p k a t st).s :=
  .ite (.noteDenied h) h

theorem KeepsFlash.writeRunWord {r : WriteRun} {p : Port} {k a : Nat} {w : Word} (h : KeepsFlash s r.s) : KeepsFlash s (r.word p k a w).s := by
  unfold WriteRun.word
  split
  · exact .writeRunNote h
  split
  · exact h
  split
  · exact .writeRunNote h
  split
  · split
    · exact h
    split
    · exact h
    split
    · exact .writeRunNote h
    · exact h
  · exact .writeRunNote (.writeChecked h)

theorem KeepsFlash.writeRunWords {p : Port} {ws : List Word} : ∀ {r : WriteRun} {k a : Nat}, KeepsFlash s r.s → KeepsFlash s (r.words p k a ws).s := by
  induction ws with
  | nil => exact fun h => h
  | cons w ws ih => exact fun h => ih (.writeRunWord h)

theorem KeepsFlash.regWrite {p : Port} {a : Nat} {ws : List Word} (h : KeepsFlash s t) : KeepsFlash s (t.regWrite p a ws).1 := by
  have hw : KeepsFlash s (({ s := t } : WriteRun).words p 0 a ws).s := .writeRunWords h
  unfold State.regWrite WriteRun.finish
  dsimp only
  split
  next u hu => exact hw.applyProt hu
  next => exact hw

/-! ## The loader (R475, R477, R478) -/

theorem KeepsFlash.loadRegs {a : Nat} {ws : List Word} (h : KeepsFlash s t) : KeepsFlash s (t.loadRegs a ws).1 :=
  .wrWord (denied_offFlash _) (.wrWord (by decide) (.regWrite h))

theorem KeepsFlash.loadWords {g : State → Nat → Word → State × Byte} {a : Nat} {ws : List Word}
    (hg : ∀ u a w, KeepsFlash s u → KeepsFlash s (g u a w).1) (h : KeepsFlash s t) : KeepsFlash s (t.loadWords g a ws).1 := by
  unfold State.loadWords
  refine .foldl (fun x a hx => ?_) h
  dsimp only
  exact hg _ _ _ hx

theorem KeepsFlash.keyMem {a : Nat} {w : Word} (h : KeepsFlash s t) : KeepsFlash s (t.keyMem a w).1 := by
  refine .iteFst h (.iteFst h ?_)
  have hs : KeepsFlash s (t.swrite a (leBytes 4 w.toNat)) := .swrite h
  unfold State.spoilKey
  split
  · exact hs
  · exact .wr (by decide) hs

theorem KeepsFlash.swarmMem {a : Nat} {w : Word} (h : KeepsFlash s t) : KeepsFlash s (t.swarmMem a w).1 := .iteFst h (.iteFst h (.swrite h))

theorem KeepsFlash.validateKey {k : Nat} (h : KeepsFlash s t) : KeepsFlash s (t.validateKey k) := .ite (.wr (by decide) h) h

theorem KeepsFlash.loadKey {k : Nat} {bytes : List Byte} (h : KeepsFlash s t) : KeepsFlash s (t.loadKey k bytes).1 := by
  unfold State.loadKey
  extract_lets x y st
  have hx : KeepsFlash s x.1 := .loadWords (fun _ _ _ => .keyMem) h
  have hy : KeepsFlash s y.1 := .loadWords (fun _ _ _ => .keyMem) hx
  exact .iteFst hy (.pair (.validateKey hy))

theorem KeepsFlash.loadKeys {r : ImgRec} (h : KeepsFlash s t) : KeepsFlash s (t.loadKeys r).1 := by
  unfold State.loadKeys
  dsimp only
  split
  · exact .loadWords (fun _ _ _ => .keyMem) h
  · refine .foldl (fun x a hx => ?_) h
    dsimp only
    exact .loadKey hx
  · exact .loadWords (fun _ _ _ => .keyMem) h

theorem KeepsFlash.loadGate {r : ImgRec} (h : KeepsFlash s t) : KeepsFlash s (t.loadGate r).1 := by
  unfold State.loadGate
  extract_lets x st s1
  have hx : KeepsFlash s x.1 := by
    refine .foldl (fun x a hx => ?_) h
    dsimp only
    exact .loadRegs hx
  clear_value x
  exact .ite (.same hx rfl rfl) hx

theorem KeepsFlash.loadProt {r : ImgRec} (h : KeepsFlash s t) : KeepsFlash s (t.loadProt r).1 :=
  .iteFst (.loadRegs (.loadRegs h)) (.loadRegs h)

theorem KeepsFlash.loadRoutine {r : ImgRec} (h : KeepsFlash s t) : KeepsFlash s (t.loadRoutine r) := .ite (.swrite (.swrite h)) (.swrite h)

theorem KeepsFlash.loadRecord {r : ImgRec} (h : KeepsFlash s t) : KeepsFlash s (t.loadRecord r).1 := by
  unfold State.loadRecord
  split
  · exact .loadRegs h
  · exact .swrite h
  · exact .loadRoutine h
  · exact .loadKeys h
  · exact .loadGate h
  · exact .loadProt h
  · exact .loadWords (fun _ _ _ => .swarmMem) h
  · exact .each (fun _ _ h => .same h rfl rfl) h
  · exact h

theorem KeepsFlash.loadRecords : ∀ (rs : List ImgRec) {t : State} (k : Nat) (e : RecErr), KeepsFlash s t → KeepsFlash s (t.loadRecords k e rs).1
  | [], _, _, _, h => h
  | r :: rs, t, k, e, h => by
    rw [State.loadRecords]
    exact KeepsFlash.loadRecords rs _ _ (.loadRecord h)

theorem KeepsFlash.noteImage {slot why : Nat} (h : KeepsFlash s t) : KeepsFlash s (t.noteImage slot why) :=
  .ite (.wr (by decide) (.wr (by decide) (.wr (by decide) h))) (.wr (by decide) (.wr (by decide) (.wr (by decide) h)))

theorem KeepsFlash.applyImage (h : KeepsFlash s t) : KeepsFlash s t.applyImage := by
  unfold State.applyImage
  split
  next img alt _ =>
  extract_lets s1
  have h1 : KeepsFlash s s1 := .wr (by decide) (.noteImage (.noteImage h))
  split
  · exact .setFlag (by decide) h1
  next k _ =>
  extract_lets s2
  have h2 : KeepsFlash s s2 := .wr (by decide) (.wr (by decide) h1)
  have hr := KeepsFlash.loadRecords ((t.imgRecords k).getD []) 0 none h2
  split
  next s3 e => exact .of_eq e hr
  next s3 i st ty e =>
    exact .wr (by decide) (.wr (by decide) (.wr (by decide) (.setFlag (by decide) (.of_eq e hr))))

theorem KeepsFlash.loadJournal (h : KeepsFlash s t) : KeepsFlash s t.loadJournal := by
  unfold State.loadJournal
  split
  · exact h
  · exact .setFlag (by decide) (.wr (by decide) (.same h rfl rfl))

end

end Sys2Proof.Machine
end

section
/-!
PROOFS. Erase, program, discovery and the end of start-up (R351, R459, R464, R467, R469).
-/

namespace Sys2Proof.Machine

/-! ## Sparse memories -/

/-- A memory of which some addresses were cleared. -/
theorem sget_filter {α : Type} (d : Nat → α) (P : Nat → Bool) (a : Nat) :
    ∀ m : List (Nat × α), sget d (m.filter fun c => P c.1) a = if P a then sget d m a else d a
  | [] => (ite_self _).symm
  | (k, v) :: m => by
    have ih := sget_filter d P a m
    by_cases e : k = a
    · subst e
      cases h : P k
      · rw [List.filter_cons_of_neg (by simp [h]), ih, h]
        rfl
      · rw [List.filter_cons_of_pos (by simp [h])]
        simp [sget]
    · cases h : P k
      · rw [List.filter_cons_of_neg (by simp [h]), ih]
        simp only [sget, if_neg e]
      · rw [List.filter_cons_of_pos (by simp [h])]
        simp only [sget, if_neg e, ih]

/-- An erased sector reads 0xFF, and the bytes beside it as before (R469). -/
theorem State.fb_eraseSector (s : State) (off a : Nat) :
    (s.eraseSector off).fb a = if off ≤ a ∧ a < off + 4096 then 0xFF else s.fb a := by
  have h := sget_filter flashDefault (fun k => decide (k < off) || decide (off + 4096 ≤ k)) a s.flash.mem
  refine h.trans ?_
  by_cases hin : off ≤ a ∧ a < off + 4096
  · rw [if_pos hin, if_neg (by simp; omega)]
    rfl
  · rw [if_neg hin, if_pos (by simp; omega)]
    rfl

/-- A program changes the memory of the flash alone. -/
theorem State.programBytes_eq : ∀ (bs : List Byte) (s : State) (a : Nat),
    s.programBytes a bs = { s with flash := { s.flash with mem := (s.programBytes a bs).flash.mem } }
  | [], _, _ => rfl
  | b :: bs, s, a => by
    have h := State.programBytes_eq bs (s.fset a (s.fb a &&& b)) (a + 1)
    rw [State.programBytes, h]
    rfl

/-- A program clears bits and sets none (R469). -/
theorem State.fb_programBytes : ∀ (bs : List Byte) (s : State) (off a : Nat), flashCanon s.flash.mem = true →
    (s.programBytes off bs).fb a = if off ≤ a ∧ a < off + bs.length then s.fb a &&& bs.getD (a - off) 0 else s.fb a
  | [], s, off, a, _ => by
    rw [if_neg (by simp only [List.length_nil]; omega)]
    rfl
  | b :: bs, s, off, a, h => by
    let s1 := s.fset off (s.fb off &&& b)
    have h1 : flashCanon s1.flash.mem = true := sput_wf flashDefault s.flash.mem off _ h
    have ih := State.fb_programBytes bs s1 (off + 1) a h1
    rw [State.programBytes, ih, List.length_cons]
    by_cases e : a = off
    · subst e
      rw [if_neg (by omega), if_pos (by omega), Nat.sub_self]
      exact sget_sput_same flashDefault s.flash.mem a _ h
    · have hother : s1.fb a = s.fb a := sget_sput_other flashDefault s.flash.mem _ e
      rw [hother]
      by_cases hin : off + 1 ≤ a ∧ a < off + 1 + bs.length
      · rw [if_pos hin, if_pos (by omega), show a - off = a - (off + 1) + 1 by omega]
        rfl
      · rw [if_neg hin, if_neg (by omega)]

/-- A shorter list has the same bytes as far as it goes. -/
theorem getD_take (l : List Byte) (n i : Nat) (h : i < (l.take n).length) : (l.take n).getD i 0 = l.getD i 0 := by
  have hi : i < n := Nat.lt_of_lt_of_le h (List.length_take_le _ _)
  rw [List.getD_eq_getElem?_getD, List.getD_eq_getElem?_getD, List.getElem?_take_of_lt hi]

/-! ## Discovery (R467) -/

section

variable {s : State} (hw : RegFile.wf s.regs = true) (d : FlashDisc)
include hw

theorem State.discover_wf : RegFile.wf (s.discover d).regs = true := by
  unfold State.discover
  exact State.wr_wf _ _ _ (State.wr_wf _ _ _ (State.wr_wf _ _ _ (State.wr_wf _ _ _ (State.wr_wf _ _ _ (s.wr_wf _ _ hw)))))

/-- The fields of FLASH_ID and FLASH_GEOM, written one after the other. -/
def State.writeGeom (s : State) (jedec ok dens page erase srst : Nat) : State :=
  (((((s.wr R.FLASH_ID_JEDEC jedec).wr R.FLASH_GEOM_DISC_OK ok).wr R.FLASH_GEOM_DENS_LOG2 dens).wr R.FLASH_GEOM_PAGE_LOG2 page).wr
    R.FLASH_GEOM_ERASE4K erase).wr R.FLASH_GEOM_SRST srst

/-- Each of them reads as written. -/
theorem State.writeGeom_shows (jedec ok dens page erase srst : Nat) : let u := s.writeGeom jedec ok dens page erase srst
    u.rd R.FLASH_ID_JEDEC = jedec % 2 ^ R.FLASH_ID_JEDEC.w ∧ u.rd R.FLASH_GEOM_DISC_OK = ok % 2 ^ 1 ∧ u.rd R.FLASH_GEOM_DENS_LOG2 = dens % 2 ^ 5
      ∧ u.rd R.FLASH_GEOM_PAGE_LOG2 = page % 2 ^ 4 := by
  have h1 := s.wr_wf R.FLASH_ID_JEDEC jedec hw
  have h2 := State.wr_wf _ R.FLASH_GEOM_DISC_OK ok h1
  have h3 := State.wr_wf _ R.FLASH_GEOM_DENS_LOG2 dens h2
  have h4 := State.wr_wf _ R.FLASH_GEOM_PAGE_LOG2 page h3
  have h5 := State.wr_wf _ R.FLASH_GEOM_ERASE4K erase h4
  unfold State.writeGeom
  refine ⟨?_, ?_, ?_, ?_⟩
  · rw [State.rd_wr_other _ _ _ _ h5 (.inl (by decide)), State.rd_wr_other _ _ _ _ h4 (.inl (by decide)),
      State.rd_wr_other _ _ _ _ h3 (.inl (by decide)), State.rd_wr_other _ _ _ _ h2 (.inl (by decide)),
      State.rd_wr_other _ _ _ _ h1 (.inl (by decide)), State.rd_wr_same _ _ _ hw (by decide)]
  · rw [State.rd_wr_other _ _ _ _ h5 (.inr (.inl (by decide))), State.rd_wr_other _ _ _ _ h4 (.inr (.inl (by decide))),
      State.rd_wr_other _ _ _ _ h3 (.inr (.inl (by decide))), State.rd_wr_other _ _ _ _ h2 (.inr (.inr (by decide))),
      State.rd_wr_same _ _ _ h1 (by decide)]
    rfl
  · rw [State.rd_wr_other _ _ _ _ h5 (.inr (.inl (by decide))), State.rd_wr_other _ _ _ _ h4 (.inr (.inl (by decide))),
      State.rd_wr_other _ _ _ _ h3 (.inr (.inl (by decide))), State.rd_wr_same _ _ _ h2 (by decide)]
    rfl
  · rw [State.rd_wr_other _ _ _ _ h5 (.inr (.inr (by decide))), State.rd_wr_other _ _ _ _ h4 (.inr (.inl (by decide))),
      State.rd_wr_same _ _ _ h3 (by decide)]
    rfl

omit hw in
theorem State.discover_regs : (s.discover d).regs = (s.writeGeom d.jedec.toNat (discOk d).toNat
    (if discOk d then max 20 (min 24 d.densLog2) else 20) (if discOk d then min 15 (d.pageLog2.getD 8) else 8)
    (if discOk d then (d.erase4k.getD 0x20).toNat else 0x20) (discOk d && d.srst).toNat).regs := rfl

/-- What discovery leaves in FLASH_ID and FLASH_GEOM. -/
theorem State.discover_shows : let u := s.discover d
    u.rd R.FLASH_ID_JEDEC = d.jedec.toNat ∧ u.rd R.FLASH_GEOM_DISC_OK = (discOk d).toNat
      ∧ (discOk d = false → u.rd R.FLASH_GEOM_DENS_LOG2 = 20 ∧ u.rd R.FLASH_GEOM_PAGE_LOG2 = 8) := by
  intro u
  have hu : ∀ f, u.rd f = _ := State.rd_of_regs (s.discover_regs d)
  obtain ⟨hid, hok, hdens, hpage⟩ := State.writeGeom_shows hw d.jedec.toNat (discOk d).toNat
    (if discOk d then max 20 (min 24 d.densLog2) else 20) (if discOk d then min 15 (d.pageLog2.getD 8) else 8)
    (if discOk d then (d.erase4k.getD 0x20).toNat else 0x20) (discOk d && d.srst).toNat
  refine ⟨?_, ?_, fun hbad => ⟨?_, ?_⟩⟩
  · rw [hu, hid]
    exact Nat.mod_eq_of_lt d.jedec.isLt
  · rw [hu, hok]
    exact Nat.mod_eq_of_lt (Bool.toNat_lt _)
  · rw [hu, hdens, hbad]
    rfl
  · rw [hu, hpage, hbad]
    rfl

omit hw in
/-- They are no counters. -/
theorem State.writeGeom_count (jedec ok dens page erase srst : Nat) :
    (s.writeGeom jedec ok dens page erase srst).rdWord R.FLASH_CNT = s.rdWord R.FLASH_CNT := by
  unfold State.writeGeom
  iterate 6 rw [State.rdWord_wr_other (by decide)]

omit hw in
/-- Discovery counts nothing and sends nothing. -/
theorem State.discover_keeps : (s.discover d).rdWord R.FLASH_CNT = s.rdWord R.FLASH_CNT ∧ (s.discover d).flash.sent = s.flash.sent :=
  ⟨(State.rdWord_of_regs (s.discover_regs d) _).trans (State.writeGeom_count _ _ _ _ _ _), rfl⟩

end

/-! ## The end of start-up (R351, R459, R464) -/

/-- The device as start-up ends, before the loader's SWAP takes its instant and the rail starts. -/
def State.bootRaised (s : State) : State :=
  let s2 : State := { (s.takeFresh Config.bootTime).2 with
    boot := .started, sram := s.sram.filter fun c => decide (c.1 < 0x180000) || decide (0x200000 ≤ c.1) }
  ((s2.wr R.SYS_BOOTT_BOOT_US (Config.bootTime s.fresh).toNat).setFlag R.SYS_BOOT_READY).each (List.range 4) fun s p =>
    s.wr (R.HOST_NPEND_PEND p) (noticeBit 17)

/-- The loader's SWAP is never late. -/
theorem State.startSwap_loader (s : State) :
    s.startSwap true = { s with gate := { s.gate with chg := some (BitVec.ofNat 64 (s.changeTime s.nt).1) } } := by
  unfold State.startSwap
  simp only [Bool.not_true, Bool.and_false, Bool.false_eq_true, if_false]

theorem State.raiseBoot_eq (s : State) :
    s.raiseBoot.regs = s.bootRaised.regs ∧ s.raiseBoot.boot = .started ∧ s.raiseBoot.sram = s.bootRaised.sram := by
  have hraise : s.raiseBoot = (if s.bootRaised.gate.chg = some bootSwap then s.bootRaised.startSwap true else s.bootRaised).pmbOn := rfl
  have hon : ∀ t : State, t.pmbOn.regs = t.regs ∧ t.pmbOn.boot = t.boot ∧ t.pmbOn.sram = t.sram := fun t => by
    unfold State.pmbOn
    split <;> exact ⟨rfl, rfl, rfl⟩
  obtain ⟨h1, h2, h3⟩ := hon (if s.bootRaised.gate.chg = some bootSwap then s.bootRaised.startSwap true else s.bootRaised)
  rw [hraise, h1, h2, h3, State.startSwap_loader]
  split <;> exact ⟨rfl, rfl, rfl⟩

theorem KeepsFlash.raiseBoot {s t : State} (h : KeepsFlash s t) : KeepsFlash s t.raiseBoot := by
  have hb : KeepsFlash s t.bootRaised :=
    .each (fun _ _ => .wr (pend_offFlash _)) (.setFlag (by decide) (.wr (by decide) (.same h rfl rfl)))
  exact .pmbOn (.ite (.startSwap hb) hb)

/-- BOOT is the one pending notice, and host scratch is cleared. -/
theorem State.raiseBoot_shows {s : State} (hw : RegFile.wf s.regs = true) : let u := s.raiseBoot
    u.boot = .started ∧ u.rd R.SYS_BOOT_READY = 1 ∧ (∀ p : Port, u.pend p.val = 2 ^ 17)
      ∧ ∀ a, 0x180000 ≤ a → a < 0x200000 → u.sb a = 0 := by
  intro u
  obtain ⟨hregs, hboot, hsram⟩ := s.raiseBoot_eq
  let s2 : State := { (s.takeFresh Config.bootTime).2 with
    boot := .started, sram := s.sram.filter fun c => decide (c.1 < 0x180000) || decide (0x200000 ≤ c.1) }
  let a := (s2.wr R.SYS_BOOTT_BOOT_US (Config.bootTime s.fresh).toNat).setFlag R.SYS_BOOT_READY
  let b := a.wr (R.HOST_NPEND_PEND 0) (noticeBit 17)
  let c := b.wr (R.HOST_NPEND_PEND 1) (noticeBit 17)
  let d := c.wr (R.HOST_NPEND_PEND 2) (noticeBit 17)
  let e := d.wr (R.HOST_NPEND_PEND 3) (noticeBit 17)
  have he : s.bootRaised = e := rfl
  have h1 : RegFile.wf (s2.wr R.SYS_BOOTT_BOOT_US (Config.bootTime s.fresh).toNat).regs = true := s2.wr_wf _ _ hw
  have ha : RegFile.wf a.regs = true := State.setFlag_wf _ _ h1
  have hb : RegFile.wf b.regs = true := a.wr_wf _ _ ha
  have hc : RegFile.wf c.regs = true := b.wr_wf _ _ hb
  have hd : RegFile.wf d.regs = true := c.wr_wf _ _ hc
  have hrd : ∀ f : Fld, u.rd f = e.rd f := fun f => State.rd_of_regs (hregs.trans (congrArg State.regs he)) f
  refine ⟨hboot, ?_, fun p => ?_, fun x hlo hhi => ?_⟩
  · rw [hrd, d.rd_wr_other _ _ _ hd (.inl (by decide)), c.rd_wr_other _ _ _ hc (.inl (by decide)),
      b.rd_wr_other _ _ _ hb (.inl (by decide)), a.rd_wr_other _ _ _ ha (.inl (by decide))]
    exact State.rd_setFlag_same _ _ h1 (by decide) (by decide)
  · refine (hrd _).trans ?_
    match p with
    | 0 =>
      show e.rd (R.HOST_NPEND_PEND 0) = _
      rw [d.rd_wr_other _ _ _ hd (.inl (by decide)), c.rd_wr_other _ _ _ hc (.inl (by decide)), b.rd_wr_other _ _ _ hb (.inl (by decide)),
        a.rd_wr_same _ _ ha (by decide)]
      decide
    | 1 =>
      show e.rd (R.HOST_NPEND_PEND 1) = _
      rw [d.rd_wr_other _ _ _ hd (.inl (by decide)), c.rd_wr_other _ _ _ hc (.inl (by decide)), b.rd_wr_same _ _ hb (by decide)]
      decide
    | 2 =>
      show e.rd (R.HOST_NPEND_PEND 2) = _
      rw [d.rd_wr_other _ _ _ hd (.inl (by decide)), c.rd_wr_same _ _ hc (by decide)]
      decide
    | 3 =>
      show e.rd (R.HOST_NPEND_PEND 3) = _
      rw [d.rd_wr_same _ _ hd (by decide)]
      decide
  · show sget sramDefault u.sram x = 0
    rw [hsram]
    refine (sget_filter sramDefault (fun k => decide (k < 0x180000) || decide (0x200000 ≤ k)) x s.sram).trans (if_neg ?_)
    simp
    omega

/-- The registers of the flash port stay from discovery to the end of start-up. -/
theorem State.finishBoot_keeps {s : State} (hw : RegFile.wf s.regs = true) (d : FlashDisc) :
    KeepsFlash (({ s with bootDisc := none, syn := { s.syn with shift := none } } : State).discover d) (s.finishBoot d) :=
  .raiseBoot (.loadJournal (.applyImage (.refl (State.discover_wf (s := { s with bootDisc := none, syn := { s.syn with shift := none } }) hw d))))

end Sys2Proof.Machine
end

section
/-!
PROOFS. Start-up and the operations of the flash that a status poll moves on (R460, R464, R467, R469 to R471).
-/

namespace Sys2Proof.Machine

/-! ## Start-up (R460, R464, R467) -/

theorem KeepsFlash.rd {s t : State} (h : KeepsFlash s t) {f : Fld} (hf : f.addr ∈ flashKept) : t.rd f = s.rd f :=
  congrArg (getBits · f.lo f.w) (h.reg f.addr hf)

theorem discOk_iff (d : FlashDisc) : discOk d = true ↔ d.sfdp = true ∧ d.erase4k.isSome = true ∧ d.addr4 = false := by
  simp only [discOk, Bool.and_eq_true, Bool.not_eq_true', and_assoc]

/-- Start-up has ended with what discovery found and with BOOT the one pending notice. -/
def State.startedWith (u : State) (d : FlashDisc) : Prop :=
  u.boot = .started ∧ u.rd R.SYS_BOOT_READY = 1 ∧ (∀ p : Port, u.pend p.val = 2 ^ 17)
    ∧ (∀ a, 0x180000 ≤ a → a < 0x200000 → u.sb a = 0) ∧ u.rd R.FLASH_ID_JEDEC = d.jedec.toNat
    ∧ (u.rd R.FLASH_GEOM_DISC_OK = 1 ↔ d.sfdp = true ∧ d.erase4k.isSome = true ∧ d.addr4 = false)
    ∧ (d.sfdp = false ∨ d.erase4k = none ∨ d.addr4 = true → u.rd R.FLASH_GEOM_DENS_LOG2 = 20 ∧ u.rd R.FLASH_GEOM_PAGE_LOG2 = 8)

theorem State.finishBoot_shows {s : State} (hw : RegFile.wf s.regs = true) (d : FlashDisc) : (s.finishBoot d).startedWith d := by
  let u := s.finishBoot d
  let s0 : State := { s with bootDisc := none, syn := { s.syn with shift := none } }
  have hkeep : KeepsFlash (s0.discover d) u := State.finishBoot_keeps hw d
  have hloaded : RegFile.wf (s0.discover d).applyImage.loadJournal.regs = true :=
    (KeepsFlash.loadJournal (.applyImage (.refl (State.discover_wf (s := s0) hw d)))).wf
  obtain ⟨hboot, hready, hpend, hscratch⟩ := State.raiseBoot_shows hloaded
  obtain ⟨hid, hok, hbad⟩ := State.discover_shows (s := s0) hw d
  refine ⟨hboot, hready, hpend, hscratch, (hkeep.rd (by decide)).trans hid, ?_, fun h => ?_⟩
  · rw [hkeep.rd (f := R.FLASH_GEOM_DISC_OK) (by decide), hok, ← discOk_iff, Bool.toNat_eq_one]
  · have hnot : discOk d = false := Bool.eq_false_iff.mpr fun ht => by
      obtain ⟨h1, h2, h3⟩ := (discOk_iff d).mp ht
      rcases h with h | h | h
      · exact Bool.false_ne_true (h.symm.trans h1)
      · rw [h] at h2
        exact Bool.false_ne_true h2
      · exact Bool.false_ne_true (h3.symm.trans h)
    obtain ⟨hdens, hpage⟩ := hbad hnot
    exact ⟨(hkeep.rd (by decide)).trans hdens, (hkeep.rd (by decide)).trans hpage⟩

/-- The end of start-up sends nothing to the flash and counts none of its commands. -/
theorem State.finishBoot_sends {s : State} (hw : RegFile.wf s.regs = true) (d : FlashDisc) :
    (s.finishBoot d).flash.sent = s.flash.sent ∧ (s.finishBoot d).rdWord R.FLASH_CNT = s.rdWord R.FLASH_CNT := by
  let s0 : State := { s with bootDisc := none, syn := { s.syn with shift := none } }
  have hkeep : KeepsFlash (s0.discover d) (s.finishBoot d) := State.finishBoot_keeps hw d
  obtain ⟨hcount, hsent⟩ := s0.discover_keeps d
  exact ⟨hkeep.sent.trans hsent, (hkeep.reg _ (by decide)).trans hcount⟩

section

variable {s : State} (hb : s.boot = .flashWait) (ht : s.thermHold = false) (hd : s.bootDisc = none) (d : FlashDisc)
include hb ht hd

theorem exec_flashPowerupWaitEnd :
    exec (.flashPowerupWaitEnd d) s = .next (if s.flash.wip then { s with bootDisc := some d } else s.finishBoot d) := by
  have hwaits : (s.boot == .flashWait && !s.thermHold && s.bootDisc.isNone) = true := by
    rw [hb, ht, hd]
    rfl
  exact if_pos hwaits

theorem leads_flashPowerupWaitEnd (hw : RegFile.wf s.regs = true) (hc : s.flash.cmd = none) :
    Leads (.flashPowerupWaitEnd d) s fun t => t.startedWith d := by
  refine ⟨s.finishBoot d, ?_, State.finishBoot_shows hw d⟩
  have hwip : s.flash.wip = false := congrArg Option.isSome hc
  rw [exec_flashPowerupWaitEnd hb ht hd, hwip, if_neg Bool.false_ne_true]

/-- The device waits while the flash reports write-in-progress. -/
theorem flashPowerupWaitEnd_waits (hc : s.flash.cmd ≠ none) : exec (.flashPowerupWaitEnd d) s = .next { s with bootDisc := some d } := by
  have hwip : s.flash.wip = true := Option.isSome_iff_ne_none.mpr hc
  rw [exec_flashPowerupWaitEnd hb ht hd, hwip, if_pos rfl]

end

/-! ## A status poll (R469) -/

/-- A poll acts in RUN and IDLE. -/
theorem State.pollFlash_awake {s : State} (sr : Byte) (ms : Nat) (hrun : s.pwr.state = .run ∨ s.pwr.state = .idle) (hb : s.boot ≠ .held)
    (hf : s.flash.filling = none) : s.pollFlash sr ms =
      let s1 := s.wr R.FLASH_STAT_SR sr.toNat
      match s.flash.cmd with
      | some (off, n) => if !bitOf sr.toNat 0 then s1.cmdDone n else if s1.cmdLimit ≤ ms then s1.cmdTimeout off n else s1
      | none => if bitOf sr.toNat 0 then s1 else s1.sendNext (bitOf sr.toNat 1) := by
  have hlow : s.pwr.state.low = false := by
    rcases hrun with h | h <;> rw [h] <;> rfl
  have hheld : (s.boot == .held) = false := beq_eq_false_iff_ne.mpr hb
  unfold State.pollFlash
  rw [hlow, hheld, hf]
  rfl

/-- A poll after which the flash is busy, or which no start-up waits for, ends there. -/
theorem exec_flashStatusPoll {s u : State} {sr : Byte} {ms : Nat} (h : s.pollFlash sr ms = u) (hu : u.bootDisc = none ∨ u.flash.cmd ≠ none) :
    exec (.flashStatusPoll sr ms) s = .next u := by
  subst h
  show execFlashStatusPoll sr ms s = _
  unfold execFlashStatusPoll
  dsimp only
  split
  next d hd =>
    rcases hu with h | h
    · exact nomatch hd.symm.trans h
    · have hwip : (s.pollFlash sr ms).flash.wip = true := Option.isSome_iff_ne_none.mpr h
      rw [hwip, Bool.not_true, Bool.and_false]
      rfl
  · rfl

/-- A poll may end start-up. -/
theorem exec_flashStatusPoll_ends {s u : State} {sr : Byte} {ms : Nat} (h : s.pollFlash sr ms = u) :
    exec (.flashStatusPoll sr ms) s = .next u ∨ ∃ d, exec (.flashStatusPoll sr ms) s = .next (u.finishBoot d) := by
  subst h
  show execFlashStatusPoll sr ms s = _ ∨ ∃ d, execFlashStatusPoll sr ms s = _
  unfold execFlashStatusPoll
  dsimp only
  split
  next d _ =>
    split
    · exact .inr ⟨d, rfl⟩
    · exact .inl rfl
  · exact .inl rfl

/-- The end of a command that an operation sent is the end of its unit. -/
theorem State.cmdDone_op {s : State} {o : FlashOp} {n : Nat} (h : s.flash.opRuns = some o) :
    s.cmdDone n = ((s.modFlash fun f => { f with cmd := none }).unitDone o n).startFill := by
  have h' : (s.modFlash fun f => { f with cmd := none }).flash.opRuns = some o := h
  unfold State.cmdDone
  dsimp only
  rw [h']

section

variable {s : State} {sr : Byte} {ms : Nat} {o : FlashOp} (hw : RegFile.wf s.regs = true)
  (hrun : s.pwr.state = .run ∨ s.pwr.state = .idle) (hboot : s.boot ≠ .held) (hfill : s.flash.filling = none)
include hw hrun hboot hfill

/-- An operation whose command passes its limit stops with ERR 1. -/
theorem leads_pollTimeout {off n : Nat} (hcmd : s.flash.cmd = some (off, n)) (hop : s.flash.op = some o) (hbusy : o.busy = true)
    (hwip : bitOf sr.toNat 0 = true) (h1 : o.opc = 1 → s.rd R.FLASH_TMO_SE_MAX_MS ≤ ms) (h2 : o.opc = 2 → s.rd R.FLASH_TMO_PP_MAX_MS ≤ ms)
    (ho : o.opc = 1 ∨ o.opc = 2) : Leads (.flashStatusPoll sr ms) s fun t => t.flash.op = some { o with busy := false, err := 1 }
      ∧ t.flash.cmd = some (off, n) ∧ t.rd R.FLASH_STAT_SR = sr.toNat := by
  let s1 := s.wr R.FLASH_STAT_SR sr.toNat
  have hruns : s1.flash.opRuns = some o := by
    show s.flash.op.bind (fun o => if o.busy then some o else none) = _
    rw [hop]
    exact if_pos hbusy
  have hlimit : s1.cmdLimit ≤ ms := by
    have hse : s1.rd R.FLASH_TMO_SE_MAX_MS = s.rd R.FLASH_TMO_SE_MAX_MS := s.rd_wr_other _ _ _ hw (.inl (by decide))
    have hpp : s1.rd R.FLASH_TMO_PP_MAX_MS = s.rd R.FLASH_TMO_PP_MAX_MS := s.rd_wr_other _ _ _ hw (.inl (by decide))
    have hpage : s1.cmdLimit = if o.opc == 2 then s1.rd R.FLASH_TMO_PP_MAX_MS else s1.rd R.FLASH_TMO_SE_MAX_MS := by
      unfold State.cmdLimit
      rw [hruns]
    rw [hpage]
    rcases ho with h | h
    · rw [h]
      exact hse.trans_le (h1 h)
    · rw [h]
      exact hpp.trans_le (h2 h)
  let u := (s1.spoilFlash off n).modFlash fun f => { f with op := some { o with busy := false, err := 1 } }
  have hpoll : s.pollFlash sr ms = u := by
    rw [State.pollFlash_awake sr ms hrun hboot hfill, hcmd, hwip]
    show (if s1.cmdLimit ≤ ms then s1.cmdTimeout off n else s1) = u
    rw [if_pos hlimit]
    unfold State.cmdTimeout
    rw [hruns]
  have hcmdu : u.flash.cmd = some (off, n) := hcmd
  refine ⟨u, exec_flashStatusPoll hpoll (.inr (by rw [hcmdu]; exact nofun)), rfl, hcmdu, ?_⟩
  exact (s.rd_wr_same _ _ hw (by decide)).trans (Nat.mod_eq_of_lt sr.isLt)

omit hw in
/-- The next erase or program of an operation is sent once WEL is set. -/
theorem pollFlash_sends (hop : s.flash.op = some o) (hcmd : s.flash.cmd = none) (hleft : o.left ≠ 0) (herr : o.err = 0)
    (hwip : bitOf sr.toNat 0 = false) (hwel : bitOf sr.toNat 1 = true) (ho : o.opc = 1 ∨ o.opc = 2) :
    s.pollFlash sr ms = (s.wr R.FLASH_STAT_SR sr.toNat).sendUnit o := by
  have hsends : ((o.opc == 1 || o.opc == 2) && o.left != 0 && o.err == 0) = true := by
    rw [herr, bne_iff_ne.mpr hleft]
    rcases ho with h | h <;> rw [h] <;> rfl
  rw [State.pollFlash_awake sr ms hrun hboot hfill, hcmd, hwip, hwel]
  show (s.wr R.FLASH_STAT_SR sr.toNat).sendNext true = _
  unfold State.sendNext
  simp only [State.wr_flash, hop, hsends, if_true]

omit hw in
theorem leads_pollErases (hop : s.flash.op = some o) (hcmd : s.flash.cmd = none) (hleft : o.left ≠ 0) (herr : o.err = 0)
    (hwip : bitOf sr.toNat 0 = false) (hwel : bitOf sr.toNat 1 = true) (ho : o.opc = 1) :
    Leads (.flashStatusPoll sr ms) s fun t => t.flash.op = some { o with busy := true } ∧ t.flash.cmd = some (o.off, 4096)
      ∧ ∀ a, t.fb a = if o.off ≤ a ∧ a < o.off + 4096 then 0xFF else s.fb a := by
  have hpoll := pollFlash_sends hrun hboot hfill (ms := ms) hop hcmd hleft herr hwip hwel (.inl ho)
  unfold State.sendUnit at hpoll
  rw [if_pos ho] at hpoll
  exact ⟨_, exec_flashStatusPoll hpoll (.inr nofun), rfl, rfl, fun a => State.fb_eraseSector (s.wr R.FLASH_STAT_SR sr.toNat) o.off a⟩

theorem leads_pollPrograms (hmem : flashCanon s.flash.mem = true) (hop : s.flash.op = some o) (hcmd : s.flash.cmd = none) (hleft : o.left ≠ 0)
    (herr : o.err = 0) (hwip : bitOf sr.toNat 0 = false) (hwel : bitOf sr.toNat 1 = true) (ho : o.opc = 2) :
    Leads (.flashStatusPoll sr ms) s fun t =>
      let k := (o.data.take (s.pageSize - o.off % s.pageSize)).length
      t.flash.op = some { o with busy := true } ∧ t.flash.cmd = some (o.off, k)
        ∧ ∀ a, t.fb a = if o.off ≤ a ∧ a < o.off + k then s.fb a &&& o.data.getD (a - o.off) 0 else s.fb a := by
  let s1 := s.wr R.FLASH_STAT_SR sr.toNat
  have hpage : s1.pageRun o = o.data.take (s.pageSize - o.off % s.pageSize) := by
    unfold State.pageRun State.pageSize
    rw [s.rd_wr_other R.FLASH_STAT_SR R.FLASH_GEOM_PAGE_LOG2 _ hw (.inl (by decide))]
  have hpoll := pollFlash_sends hrun hboot hfill (ms := ms) hop hcmd hleft herr hwip hwel (.inr ho)
  unfold State.sendUnit at hpoll
  rw [if_neg (by rw [ho]; decide), hpage] at hpoll
  refine ⟨_, exec_flashStatusPoll hpoll (.inr nofun), rfl, rfl, fun a => ?_⟩
  generalize s.pageSize - o.off % s.pageSize = n
  refine (State.fb_programBytes (o.data.take n) s1 o.off a hmem).trans ?_
  split
  next h =>
    rw [getD_take o.data n _ (by omega)]
    rfl
  · rfl

/-- The unit of an operation ends when write-in-progress clears; so may start-up. -/
theorem leads_pollUnitDone {n : Nat} (hop : s.flash.op = some o) (hcmd : s.flash.cmd = some (o.off, n)) (hbusy : o.busy = true)
    (hwip : bitOf sr.toNat 0 = false) (hnone : s.flash.fills = []) :
    Leads (.flashStatusPoll sr ms) s fun t => t.flash.cmd = none ∧ t.flash.op = some { o with
        busy := false, done := o.done + 1, off := o.off + n, left := o.left - (if o.opc = 1 then 1 else n)
        data := o.data.drop n }
      ∧ Counts (if o.opc = 1 then R.FLASH_CNT_N_SECTOR else R.FLASH_CNT_N_PAGE) s t := by
  let cnt := if o.opc = 1 then R.FLASH_CNT_N_SECTOR else R.FLASH_CNT_N_PAGE
  have hcnt : cnt.addr = R.FLASH_CNT ∧ cnt.lo + cnt.w ≤ 32 := by
    unfold cnt
    split <;> exact ⟨rfl, by decide⟩
  let o' : FlashOp := { o with
    busy := false, done := o.done + 1, off := o.off + n, left := o.left - (if o.opc = 1 then 1 else n), data := o.data.drop n }
  let s1 := (s.wr R.FLASH_STAT_SR sr.toNat).modFlash fun f => { f with cmd := none }
  let s2 := s1.modFlash fun f => { f with op := some o' }
  let u := s2.bump cnt
  have hw1 : RegFile.wf s2.regs = true := s.wr_wf _ _ hw
  have hruns : s1.flash.opRuns = some o := by
    show s.flash.op.bind (fun o => if o.busy then some o else none) = _
    rw [hop]
    exact if_pos hbusy
  have hpoll : s.pollFlash sr ms = u := by
    rw [State.pollFlash_awake sr ms hrun hboot hfill, hcmd, hwip]
    show (s.wr R.FLASH_STAT_SR sr.toNat).cmdDone n = u
    have hu : u.flash.fills = [] := hnone
    rw [State.cmdDone_op (s := s.wr R.FLASH_STAT_SR sr.toNat) hruns]
    show u.startFill = u
    unfold State.startFill
    split
    next h => exact nomatch hu.symm.trans h
    · rfl
  have hcount : Counts cnt s u := by
    have h := counts_bump s2 cnt hw1 hcnt.2
    have hold : s2.rd cnt = s.rd cnt := s.rd_wr_other R.FLASH_STAT_SR cnt _ hw (.inl (by rw [hcnt.1]; decide))
    rwa [Counts, hold] at h
  rcases exec_flashStatusPoll_ends hpoll with h | ⟨d, h⟩
  · exact ⟨u, h, rfl, rfl, hcount⟩
  · obtain ⟨hsent, hkept⟩ := State.finishBoot_sends (s2.bump_wf cnt 1 hw1) d
    generalize u.finishBoot d = v at h hsent hkept
    have hrd : v.rd cnt = u.rd cnt := by
      unfold State.rd
      rw [hcnt.1, hkept]
    exact ⟨_, h, congrArg Prod.snd hsent, congrArg Prod.fst hsent, hrd.trans hcount⟩

end

end Sys2Proof.Machine
end

section
/-!
PROOFS. Window writes, the end of an operation and the routine cache (R251, R252, R382, R470 to R472): O42.
-/

namespace Sys2Proof.Machine

/-! ## Window writes (R382, R470) -/

theorem State.sendRun_cons (s : State) {w : WinWrite} {x : WinRun} {rest : List WinRun} (h : w.runs = x :: rest) :
    s.sendRun w = ((s.programBytes x.off x.data).dropLines x.off x.data.length).modFlash fun f => { f with
      win := some { w with busy := true }, cmd := some (x.off, x.data.length) } := by
  unfold State.sendRun
  split
  next h0 => exact nomatch h0.symm.trans h
  next y ys h1 =>
    obtain ⟨rfl, -⟩ := List.cons.inj (h1.symm.trans h)
    rfl

section

variable {s : State} {sr : Byte} {ms : Nat} {w : WinWrite} {x : WinRun} {rest : List WinRun} (hw : RegFile.wf s.regs = true)
  (hrun : s.pwr.state = .run ∨ s.pwr.state = .idle) (hboot : s.boot ≠ .held) (hfill : s.flash.filling = none)
  (hop : s.flash.op = none) (hcmd : s.flash.cmd = none) (hj : s.emu.jwrite = none) (hwin : s.flash.win = some w)
  (hwip : bitOf sr.toNat 0 = false) (hwel : bitOf sr.toNat 1 = true)
include hw hrun hboot hfill hop hcmd hj hwin hwip hwel

/-- A window write is sent unless a record of the journal is due. -/
theorem pollFlash_window : s.pollFlash sr ms =
    if s.recordDue then s.wr R.FLASH_STAT_SR sr.toNat else (s.wr R.FLASH_STAT_SR sr.toNat).sendRun w := by
  have hdue : (s.wr R.FLASH_STAT_SR sr.toNat).recordDue = s.recordDue := by
    have hjen : (s.wr R.FLASH_STAT_SR sr.toNat).rd R.EMU_CTL_JEN = s.rd R.EMU_CTL_JEN := s.rd_wr_other _ _ _ hw (.inl (by decide))
    unfold State.recordDue State.isOn
    rw [hjen]
    rfl
  rw [State.pollFlash_awake sr ms hrun hboot hfill, hcmd, hwip, hwel]
  show (s.wr R.FLASH_STAT_SR sr.toNat).sendNext true = _
  unfold State.sendNext
  simp only [State.wr_flash, State.wr_emu, hop, hj, hwin, hdue, if_true]

theorem flashStatusPoll_recordDue (hb : s.bootDisc = none) (hjen : s.isOn R.EMU_CTL_JEN = true) (hpend : s.emu.jpend = true)
    (hstop : s.emu.jstop = false) (hr : s.pwr.state = .run) (hdom : s.pwr.domOn.getLsbD 10 = true) (hup : s.up = true) :
    exec (.flashStatusPoll sr ms) s = .next (s.wr R.FLASH_STAT_SR sr.toNat) := by
  have hdue : s.recordDue = true := by
    unfold State.recordDue
    rw [hjen, hpend, hstop, hr, show bitOf s.pwr.domOn.toNat 10 = true from hdom, hup]
    rfl
  have hpoll := pollFlash_window hw hrun hboot hfill hop hcmd hj hwin hwip hwel (ms := ms)
  rw [if_pos hdue] at hpoll
  exact exec_flashStatusPoll hpoll (.inl hb)

theorem leads_pollWindow (hmem : flashCanon s.flash.mem = true) (hruns : w.runs = x :: rest)
    (hfree : s.isOn R.EMU_CTL_JEN = false ∨ s.emu.jpend = false ∨ s.emu.jstop = true) :
    Leads (.flashStatusPoll sr ms) s fun t => t.flash.win = some { w with busy := true } ∧ t.flash.cmd = some (x.off, x.data.length)
      ∧ ∀ a, t.fb a = if x.off ≤ a ∧ a < x.off + x.data.length then s.fb a &&& x.data.getD (a - x.off) 0 else s.fb a := by
  have hdue : s.recordDue = false := by
    unfold State.recordDue
    rcases hfree with h | h | h <;> rw [h] <;> simp
  have hpoll := pollFlash_window hw hrun hboot hfill hop hcmd hj hwin hwip hwel (ms := ms)
  rw [if_neg (Bool.eq_false_iff.mp hdue)] at hpoll
  rw [State.sendRun_cons _ hruns] at hpoll
  exact ⟨_, exec_flashStatusPoll hpoll (.inr nofun), rfl, rfl, fun a =>
    State.fb_programBytes x.data (s.wr R.FLASH_STAT_SR sr.toNat) x.off a hmem⟩

end

/-! ## The end of an operation (R471, R472) -/

/-- A register as its one field. -/
theorem getBits_word (w : Word) : getBits w 0 32 = w.toNat := Nat.mod_eq_of_lt w.isLt

theorem KeepsFlash.flashResult {s t : State} {o : FlashOp} (h : KeepsFlash s t) : KeepsFlash s (t.flashResult o) := by
  unfold State.flashResult
  split
  · exact .wr (by decide) h
  · exact .wr (by decide) h
  · exact .ite (.wr (by decide) h) h
  · exact .ite (.noteImage h) h
  · exact .ite (.same h rfl rfl) h
  · exact h

theorem State.flashResult_count (s : State) {o : FlashOp} (h : o.opc = 1 ∨ o.opc = 2) : s.flashResult o = s.wr R.FLASH_RES_RES o.done := by
  unfold State.flashResult
  rcases h with h | h <;> rw [h] <;> rfl

theorem State.flashResult_crc (s : State) {o : FlashOp} (h : o.opc = 3) (he : o.err = 0) :
    s.flashResult o = s.wr R.FLASH_RES_RES (crc32 (s.fbytes o.off o.left)).toNat := by
  unfold State.flashResult
  rw [h]
  exact if_pos he

theorem State.flashResult_sleep (s : State) {o : FlashOp} (h : o.opc = 6) (he : o.err = 0) :
    s.flashResult o = s.modFlash fun f => { f with asleep := true } := by
  unfold State.flashResult
  rw [h]
  exact if_pos he

theorem leads_flashOpDone {s : State} {o : FlashOp} (hw : RegFile.wf s.regs = true) (hop : s.flash.op = some o)
    (hunits : o.opc = 1 ∨ o.opc = 2 → o.busy = false ∧ o.left = 0) (hturn : o.opc ≠ 1 → o.opc ≠ 2 → s.flash.cmd = none) (herr : o.err = 0) :
    Leads .flashOpDone s fun t => t.flash.op = none ∧ t.rd R.FLASH_STAT_DONE = 1 ∧ bitOf (t.pend o.port.val) 16 = true
      ∧ (o.opc = 1 ∨ o.opc = 2 → t.rd R.FLASH_RES_RES = o.done % 2 ^ 32)
      ∧ (o.opc = 3 → t.rdWord R.FLASH_RES = crc32 (s.fbytes o.off o.left))
      ∧ (o.opc = 6 → t.flash.asleep = true) := by
  have hended : s.opEnded o = true := by
    unfold State.opEnded
    split
    next h =>
      obtain ⟨hb, hl⟩ := hunits h
      rw [hb, hl]
      rfl
    next h =>
      rw [not_or] at h
      rw [hturn h.1 h.2]
      rfl
  let s0 := s.modFlash fun f => { f with op := none }
  have hw0 : RegFile.wf s0.regs = true := hw
  have hkeep : KeepsFlash s0 (s0.flashResult o) := .flashResult (.refl hw0)
  obtain ⟨s1, hs1⟩ : ∃ s1, s0.flashResult o = s1 := ⟨_, rfl⟩
  rw [hs1] at hkeep
  have hw1 := hkeep.wf
  let s2 := s1.setFlag R.FLASH_STAT_DONE
  have hw2 : RegFile.wf s2.regs = true := s1.setFlag_wf _ hw1
  have hexec : exec .flashOpDone s = .next (s2.notify o.port.val 16) := by
    show execFlashOpDone s = _
    unfold execFlashOpDone
    rw [hop]
    simp only [hended, herr, Bool.not_true, Bool.false_eq_true, if_false, if_true]
    rw [show (s.modFlash fun f => { f with op := none }).flashResult o = s1 from hs1]
  have hrd : ∀ a, 0x400 ≤ a → (s2.notify o.port.val 16).rdWord a = s2.rdWord a := fun a ha =>
    State.rdWord_wr_other (by
      have := o.port.isLt
      simp only [R.HOST_NPEND_PEND, R.HOST_NPEND]
      omega)
  have hres : (s2.notify o.port.val 16).rdWord R.FLASH_RES = s1.rdWord R.FLASH_RES :=
    (hrd _ (by decide)).trans (State.rdWord_wr_other (by decide))
  refine ⟨_, hexec, congrArg Prod.fst hkeep.sent, ?_, s2.pend_notify_same _ (by decide) hw2, fun h => ?_, fun h => ?_, fun h => ?_⟩
  · exact (congrArg (getBits · 4 1) (hrd R.FLASH_STAT (by decide))).trans (s1.rd_setFlag_same R.FLASH_STAT_DONE hw1 (by decide) (by decide))
  · rw [s0.flashResult_count h] at hs1
    exact (congrArg (getBits · 0 32) hres).trans (hs1 ▸ s0.rd_wr_same R.FLASH_RES_RES o.done hw0 (by decide))
  · rw [s0.flashResult_crc h herr] at hs1
    have hcrc : s1.rd R.FLASH_RES_RES = (crc32 (s0.fbytes o.off o.left)).toNat % 2 ^ 32 :=
      hs1 ▸ s0.rd_wr_same R.FLASH_RES_RES _ hw0 (by decide)
    rw [hres]
    refine BitVec.eq_of_toNat_eq ((getBits_word _).symm.trans (hcrc.trans (Nat.mod_eq_of_lt ?_)))
    exact (crc32 (s0.fbytes o.off o.left)).isLt
  · rw [s0.flashResult_sleep h herr] at hs1
    subst hs1
    rfl

/-! ## The routine cache (R251, R252) -/

section

variable {s : State} {n : Ch} {j : Job} (hw : RegFile.wf s.regs = true) (hruns : s.runsOn n.val = some j) (hsrc : j.decl.src = 2)
  (hpc : (s.ch n.val).seq.pc.toNat < j.decl.ninst)
  (hmiss : (s.flash.cache.all fun x => x.line != (j.decl.addr + 2 * (s.ch n.val).seq.pc.toNat) / 32) = true)
  (hfree : s.flash.filling = none) (hnone : s.flash.fills = [])
include hw hruns hsrc hpc hmiss hfree hnone

omit hw hfree in
/-- The fill of a line that the cache lacks is asked for, and its sequencer waits. -/
theorem exec_routineCacheFill : let line := (j.decl.addr + 2 * (s.ch n.val).seq.pc.toNat) / 32
    let s1 := if s.flash.wip then s.bump R.CSQ_CCNT_N_FWAIT else s
    exec (.routineCacheFill n) s
      = .next (({ s1 with flash := { s.flash with fills := [(n, line)] } } : State).block n.val .fetch).startFill := by
  intro line s1
  show execRoutineCacheFill n s = _
  unfold execRoutineCacheFill
  have hl : j.codeLine (s.ch n.val).seq.pc = line := rfl
  have hflash : s1.flash = s.flash := by
    unfold s1
    split <;> rfl
  rw [hruns]
  dsimp only
  rw [hl, if_pos ⟨hsrc, hpc, hmiss⟩, show (if s.flash.wip then s.bump R.CSQ_CCNT_N_FWAIT else s) = s1 from rfl, hflash, hnone]
  rfl

theorem leads_fillStarts (hcmd : s.flash.cmd = none) : let line := (j.decl.addr + 2 * (s.ch n.val).seq.pc.toNat) / 32
    Leads (.routineCacheFill n) s fun t => t.flash.filling = some (n, line)
      ∧ (t.ch n.val).seq.run = .blocked .fetch ∧ Counts R.CSQ_CCNT_N_MISS s t := by
  intro line
  have hwip : s.flash.wip = false := congrArg Option.isSome hcmd
  have hexec := exec_routineCacheFill hruns hsrc hpc hmiss hnone
  let s1 := ({ s with flash := { s.flash with fills := [(n, line)] } } : State).block n.val .fetch
  let s2 : State := { s1 with flash := { s1.flash with filling := some (n, line), fills := [], asleep := false } }
  have hstart : s1.startFill = s2.bump R.CSQ_CCNT_N_MISS := by
    unfold State.startFill
    rw [show s1.flash.filling = none from hfree, show s1.flash.fills = [(n, line)] from rfl]
    dsimp only
    rw [show s1.flash.wip = false from hwip, if_neg Bool.false_ne_true]
  rw [hwip, if_neg Bool.false_ne_true] at hexec
  refine ⟨_, hexec.trans (congrArg Host.Outcome.next hstart), rfl, ?_, counts_bump s2 _ hw (by decide)⟩
  exact congrArg Seq.run (State.seq_modSeq_same { s with flash := { s.flash with fills := [(n, line)] } } n.val
    (fun q => { q with run := .blocked .fetch }) n.isLt)

theorem leads_fillWaits (hcmd : s.flash.cmd ≠ none) : let line := (j.decl.addr + 2 * (s.ch n.val).seq.pc.toNat) / 32
    Leads (.routineCacheFill n) s fun t => t.flash.filling = none ∧ t.flash.fills = [(n, line)] ∧ Counts R.CSQ_CCNT_N_FWAIT s t := by
  intro line
  have hwip : s.flash.wip = true := Option.isSome_iff_ne_none.mpr hcmd
  have hexec := exec_routineCacheFill hruns hsrc hpc hmiss hnone
  let s0 := s.bump R.CSQ_CCNT_N_FWAIT
  let s1 := ({ s0 with flash := { s.flash with fills := [(n, line)] } } : State).block n.val .fetch
  have hstart : s1.startFill = s1 := by
    unfold State.startFill
    rw [show s1.flash.filling = none from hfree, show s1.flash.fills = [(n, line)] from rfl]
    dsimp only
    rw [show s1.flash.wip = true from hwip, if_pos rfl]
  rw [hwip, if_pos rfl] at hexec
  exact ⟨_, hexec.trans (congrArg Host.Outcome.next hstart), hfree, rfl, counts_bump s R.CSQ_CCNT_N_FWAIT hw (by decide)⟩

end

/-- The next fill leaves the lines and the sequencers. -/
theorem State.startFill_keeps (s : State) : s.startFill.flash.cache = s.flash.cache ∧ s.startFill.chans = s.chans := by
  unfold State.startFill
  split
  · split <;> exact ⟨rfl, rfl⟩
  · exact ⟨rfl, rfl⟩

theorem leads_cacheFillDone {s : State} {n : Ch} {l : Nat} (hfill : s.flash.filling = some (n, l))
    (hblock : (s.ch n.val).seq.run = .blocked .fetch) : Leads .cacheFillDone s fun t => (t.ch n.val).seq.run = .run
      ∧ (s.flash.invPend = false → ⟨l, s.fbytes (32 * l) 32⟩ ∈ t.flash.cache) ∧ (s.flash.invPend = true → t.flash.cache = []) := by
  let cache := if s.flash.invPend then [] else keepWays s.flash.cache ⟨l, s.fbytes (32 * l) 32⟩
  let s1 : State := { s with flash := { s.flash with filling := none, cache := cache, invPend := false } }
  let s2 := s1.modSeq n.val fun q => { q with run := .run }
  have hexec : exec .cacheFillDone s = .next s2.startFill := by
    have hb : s1.blockOf n.val = some .fetch := by
      unfold State.blockOf
      rw [show (s1.ch n.val).seq.run = .blocked .fetch from hblock]
    show execCacheFillDone s = _
    unfold execCacheFillDone
    rw [hfill]
    dsimp only
    rw [if_pos hb]
  obtain ⟨hcache, hchans⟩ := s2.startFill_keeps
  have hch : s2.startFill.ch n.val = s2.ch n.val := by
    unfold State.ch
    rw [hchans]
  refine ⟨_, hexec, ?_, fun h => ?_, fun h => ?_⟩
  · rw [hch]
    exact congrArg Seq.run (s1.seq_modSeq_same n.val (fun q => { q with run := .run }) n.isLt)
  · rw [hcache]
    show _ ∈ cache
    rw [show cache = _ from if_neg (Bool.eq_false_iff.mp h)]
    exact List.mem_cons_self
  · rw [hcache]
    exact if_pos h

/-- Settles O42: each clause is the law of its event above. -/
theorem flashEvents : Obligations.FlashEvents := by
  unfold Obligations.FlashEvents
  intro s d sr ms o hc
  have hw := State.canon_regs hc
  have hmem : flashCanon s.flash.mem = true := by
    simp only [State.canon, Bool.and_eq_true] at hc
    obtain ⟨⟨⟨⟨⟨⟨-, h⟩, -⟩, -⟩, -⟩, -⟩, -⟩ := hc
    exact h
  refine ⟨fun hb ht hd => ⟨leads_flashPowerupWaitEnd hb ht hd d hw, flashPowerupWaitEnd_waits hb ht hd d⟩, ?_, ?_, ?_, ?_, ?_, ?_⟩
  · rintro ⟨hrun, hboot⟩ hfill off n hcmd hop hbusy hwip h1 h2 ho
    exact leads_pollTimeout hw hrun hboot hfill hcmd hop hbusy hwip h1 h2 ho
  · rintro ⟨hrun, hboot⟩ hb hfill hop hcmd hj w x rest hwin hruns hwip hwel
    exact ⟨flashStatusPoll_recordDue hw hrun hboot hfill hop hcmd hj hwin hwip hwel hb,
      leads_pollWindow hw hrun hboot hfill hop hcmd hj hwin hwip hwel hmem hruns⟩
  · intro hrun hboot hfill hop
    refine ⟨fun hcmd hleft herr hwip hwel => ⟨?_, ?_⟩, fun n => leads_pollUnitDone hw hrun hboot hfill hop⟩
    · exact leads_pollErases hrun hboot hfill hop hcmd hleft herr hwip hwel
    · exact leads_pollPrograms hw hrun hboot hfill hmem hop hcmd hleft herr hwip hwel
  · exact leads_flashOpDone hw
  · intro n j q line hruns hsrc hpc hmiss hfree hnone
    exact ⟨leads_fillStarts hw hruns hsrc hpc hmiss hfree hnone, leads_fillWaits hw hruns hsrc hpc hmiss hfree hnone⟩
  · exact fun n l => leads_cacheFillDone

end Sys2Proof.Machine
end
